-- ==== Sys2Proof/Word.lean ====
section
/-! DEFINITION. The word types of the model: bytes, 64-bit registers and sparse tables by number. -/

namespace Sys2Proof

/-- One byte of memory. -/
abbrev Byte := BitVec 8

/-- One 64-bit register (R508: every BAR0 register is 64 bits wide; R66: scalar registers). -/
abbrev U64 := BitVec 64

/-- A sparse table by number, in one canonical form: numbers strictly rising, and no entry that
equals what an unlisted number reads as. -/
abbrev Tab (α : Type) := List (Nat × α)

end Sys2Proof
end

