-- ==== Sys2Proof/Syntax.lean ====
section
/-! DEFINITION. The commands of the block: one constructor per row of spec/opcode_table.json, with the
operands each row carries, and the structured operands themselves. -/

namespace Sys2Proof

/-- What OPCODE, bits [63:54] of a slot, holds (R63, R94): the opcode of the row that the slot arrives under, NOP (0x000), or
a value that no row of the slot's class has. A slot of the last two kinds arrives under any row of its class (log 8). -/
inductive Opcode where
  | row
  | nop
  | reserved
  deriving DecidableEq, Repr

/-- One 64-bit slot of an Acsin bundle (R62, R63): `op` says what its OPCODE holds, and
`f` holds bits [53:0]: ENG [53:52], PRED [51:49], PNEG [48], MOD [47:44], OPS [43:0].
`more` says that a further slot of the same bundle follows (log 8). -/
structure Slot where
  core : Nat
  op : Opcode
  f : BitVec 54
  more : Bool
  deriving DecidableEq, Repr

/-- One Lyston cell (R259 to R263): `vc` its virtual channel, `route` the ports of its ROUTE field, entry 0 first, `hop` the
links crossed, `op` the OPX field, `len` the LEN field, `retry` RTY, `payload` its meaningful data bytes, or all 512 of them
while it is sealed, and `tag` its authentication tag, zero while it is not (R265). `resync` says that a RESYNC block came just
before it (R252, R268). -/
structure Cell where
  typ : Nat
  vc : Nat
  sched : Bool
  nhop : Nat
  hop : Nat
  route : List Nat
  src : Nat
  vd : Nat
  epoch : Nat
  op : Nat
  ttag : Nat
  len : Nat
  log : Bool
  retry : Bool
  poison : Bool
  tag : List Byte
  resync : Bool
  addr : Nat
  payload : List Byte
  deriving DecidableEq, Repr

/-- Engine busy A-cycles and energy (mJ) of one core in the closing beat (R336, R459). -/
structure CoreBusy where
  core : Nat
  me : Nat
  ve : Nat
  xe : Nat
  mj : Nat
  deriving DecidableEq, Repr

/-- Bytes one context moved to or from one place in the closing beat (R336 counts 4 to 9), with the
energy charged for them (R459). -/
structure Moved where
  fn : Nat
  ctx : Nat
  place : Nat
  bytes : Nat
  mj : Nat
  deriving DecidableEq, Repr

/-- Mean LC read latency of one partition at one place in the closing beat (R373):
place 0 cellar, 1 tier 1, 2 tier 2, 0x20 + p port p. -/
structure LatIn where
  part : Nat
  place : Nat
  mean : Nat
  deriving DecidableEq, Repr

/-- What sensors, regulators and estimators report for the beat that an edge closes, and the bytes of host memory and of other
nodes that QoS images read at it hold (R316). -/
structure EdgeIn where
  watts : Nat
  temps : List Nat
  memTemps : List Nat
  lat : List LatIn
  busy : List CoreBusy
  moved : List Moved
  other : Nat
  ballast : Nat
  optics : List (Nat × U64)
  vin : Nat
  iin : Nat
  tin : Nat
  tout : Nat
  pin : Nat
  ext : List Byte
  deriving DecidableEq, Repr

/-- The outcome of the network's packet code (R53). -/
inductive PacketError where
  /-- One bit of a payload part, or up to two of the header, were corrected. -/
  | corrected
  /-- The 64-byte part at a byte position of a move's data is delivered poisoned, on its way in or out. -/
  | payload (core tag pos : Nat)
  /-- A table entry read by a move's walk for a virtual address is delivered poisoned. -/
  | walk (core tag va : Nat)
  /-- What the preload of a core reads is delivered poisoned. -/
  | preload (core : Nat)
  /-- What the front end reads for a fetched command, or the record itself, is delivered poisoned. -/
  | record (fn q sq : Nat)
  /-- The header could not be corrected. -/
  | header
  deriving DecidableEq, Repr

/-- What a memory unit's own code makes of one read (R184, R186). -/
inductive Ecc where
  | clean
  | corrected
  | uncorrectable
  deriving DecidableEq, Repr

/-- The outcome of tier 2's checks of one granule and the nodes above it (R411, R412). -/
inductive Auth where
  | pass
  /-- The granule's MAC failed once, and the second read passed. -/
  | macOnce
  /-- The granule's MAC failed twice. -/
  | macTwice
  /-- A tree node's MAC failed once. -/
  | nodeOnce
  /-- A tree node's MAC failed twice. -/
  | nodeTwice
  deriving DecidableEq, Repr

/-- What one read of a unit meets: the symbols of its code word that are in error, 0 to 129 data and 130 to 135 check symbols
(in slice SRAM the bits in error, 72 to each 8 bytes), its tier-2 check, those of its twin, and whether a repaired unit fails
again (R184, R193, R411). -/
structure ReadIn where
  errs : List Nat
  auth : Auth
  twinErrs : List Nat
  twinAuth : Auth
  again : Bool
  deriving DecidableEq, Repr

/-- What a laser inlet reads (R247, R248): whether its module is seated and every wavelength lies on its grid, and bits [55:24]
of DCTL_LYS_INLET, the lowest and highest power with their lanes and the case temperature. -/
structure InletReading where
  seated : Bool
  onGrid : Bool
  word : BitVec 32
  deriving DecidableEq, Repr

/-- The outcome of the link FEC on one received codeword (R254). -/
inductive Codeword where
  | clean
  | corrected (symbols : Nat)
  | uncorrectable
  deriving DecidableEq, Repr

/-- A fault raised while an engine executes (R88, R90). -/
structure ExcSrc where
  kind : Nat
  slot : Nat
  eng : Nat
  tag : Nat
  td : Nat
  qpos : Nat
  va : Nat
  deriving DecidableEq, Repr

/-- A lifecycle or management-root authorisation (R381, R485): the present and target states it names, whether it names
this device's serial, its challenge and whether that is at most 60 s old, who signed it (1 Epunide, 2 the recorded owner's
key), whether both signatures verify, and the owner's key digest that it names. -/
structure LifeAuth where
  present : Nat
  target : Nat
  serialOk : Bool
  challenge : BitVec 256
  fresh : Bool
  signer : Nat
  sigsOk : Bool
  owner : BitVec 384
  deriving DecidableEq, Repr

/-- A PARISH_ENROL message (R396, R489): parish, partitions, ports to seal, start beat and the authority's nonce. -/
structure EnrolMsg where
  parish : BitVec 128
  parts : BitVec 32
  ports : BitVec 32
  start : Nat
  nonce : BitVec 384
  deriving DecidableEq, Repr

/-- A PARISH_KEYS message (R396, R489): the authority's ECDH key, the ciphertext, the IV, and the sealed PMS with its tag. -/
structure KeysMsg where
  ecdh : List Byte
  ct : List Byte
  iv : List Byte
  wrapped : List Byte
  deriving DecidableEq, Repr

/-- What one power-up step found (R461, R462, R474 to R476): the images taken from bank B,
absent and accepted under the test keys, their digests, the units marked by their UNIT codes (R511), whether the bridge
runs at half rate, the dies whose test engine failed, and the highest rates at which stacks and tier-2 controllers train, in
0.1 Gb/s. -/
structure BootResult where
  bankB : BitVec 8
  absent : BitVec 8
  testKeys : Bool
  digests : List (BitVec 384)
  marks : List Nat
  half : Bool
  noTest : BitVec 2
  t1Best : List Nat
  t2Best : List Nat
  deriving DecidableEq, Repr

/-- How a power-up step failed (R480): a rail or regulator, the ROM's self-test, images in both banks, the management
port's link, the entropy source or a key pair, or a unit without which the device is not released. -/
inductive BootFail where
  | rail
  | rom
  | images (bad : BitVec 8)
  | kmcLink
  | keys
  | unit (code : Nat)
  deriving DecidableEq, Repr

/-- What a PCIe configuration request asks of a function (R230, R318, R319, R338, R478): any other register, the aperture of
BAR2, ATS, PRI with its quota, MSI-X with its enable and its function mask, 10-bit tags, SR-IOV's VF enable, or a Function
Level Reset. -/
inductive CfgReq where
  | other (reg : Nat)
  | bar2Size (n : Nat)
  | ats (on : Bool)
  | pri (on : Bool) (quota : Nat)
  | msix (on mask : Bool)
  | tags10 (on : Bool)
  | vfs (on : Bool)
  | flr
  deriving DecidableEq, Repr

/-- The commands the block takes. Each constructor is one row of the table; its docstring gives the rule. -/
inductive Instr where
  /-- BEAT_EDGE (R28). -/
  | beatEdge (e : EdgeIn)
  /-- EDGE_DEFERRED_APPLY (R16). -/
  | edgeDeferredApply
  /-- LATENESS_EVENT (R31). -/
  | latenessEvent (core : Nat)
  /-- TAIL_BLOCK_ARRIVAL (R327). -/
  | tailBlockArrival (fn : Nat) (tails : List U64) (err : Bool)
  /-- COMMAND_RECORD_ARRIVAL (R328). -/
  | commandRecordArrival (fn q : Nat) (rec : BitVec 512) (err : Bool)
  /-- COMMAND_COMPLETE (R349). -/
  | commandComplete (fn q sq : Nat)
  /-- BEAT_MARKER_EMIT (R17). -/
  | beatMarkerEmit
  /-- BEAT (R23). -/
  | beat (port arrival : Nat) (residence : List (Nat × Nat)) (c : Cell)
  /-- MARKER_PORT_CHANGE (R20). -/
  | markerPortChange
  /-- HOLDOVER_ENTRY (R23). -/
  | holdoverEntry
  /-- HOLDOVER_LIMIT (R24). -/
  | holdoverLimit
  /-- BEAT_LENGTH_CHANGE (R27). -/
  | beatLengthChange
  /-- CORE_UNCORRECTED_ERROR (R59). -/
  | coreUncorrectedError (core : Nat)
  /-- BRIDGE_LANE_FAIL (R55). -/
  | bridgeLaneFail
  /-- NETWORK_PACKET_ERROR (R53). -/
  | networkPacketError (die : Nat) (e : PacketError)
  /-- ADD (R97). -/
  | add (x : Slot)
  /-- SUB (R97). -/
  | sub (x : Slot)
  /-- MUL (R97). -/
  | mul (x : Slot)
  /-- MULHU (R97). -/
  | mulhu (x : Slot)
  /-- DIV (R98). -/
  | div (x : Slot)
  /-- DIVU (R98). -/
  | divu (x : Slot)
  /-- REM (R98). -/
  | rem (x : Slot)
  /-- REMU (R98). -/
  | remu (x : Slot)
  /-- AND (R97). -/
  | and (x : Slot)
  /-- OR (R97). -/
  | or (x : Slot)
  /-- XOR (R97). -/
  | xor (x : Slot)
  /-- SHL (R97). -/
  | shl (x : Slot)
  /-- SHR (R97). -/
  | shr (x : Slot)
  /-- SRA (R97). -/
  | sra (x : Slot)
  /-- MIN (R97). -/
  | min (x : Slot)
  /-- MAX (R97). -/
  | max (x : Slot)
  /-- ADDI (R97). -/
  | addi (x : Slot)
  /-- ANDI (R97). -/
  | andi (x : Slot)
  /-- ORI (R97). -/
  | ori (x : Slot)
  /-- XORI (R97). -/
  | xori (x : Slot)
  /-- SHLI (R97). -/
  | shli (x : Slot)
  /-- SHRI (R97). -/
  | shri (x : Slot)
  /-- SRAI (R97). -/
  | srai (x : Slot)
  /-- LI (R97). -/
  | li (x : Slot)
  /-- LIH (R97). -/
  | lih (x : Slot)
  /-- CMP (R99). -/
  | cmp (x : Slot)
  /-- CMPI (R99). -/
  | cmpi (x : Slot)
  /-- PSET (R99). -/
  | pset (x : Slot)
  /-- PMOV (R99). -/
  | pmov (x : Slot)
  /-- LD (R100). -/
  | ld (x : Slot)
  /-- ST (R100). -/
  | st (x : Slot)
  /-- BR (R101). -/
  | br (x : Slot)
  /-- BRI (R101). -/
  | bri (x : Slot)
  /-- CALL (R101). -/
  | call (x : Slot)
  /-- LOOP (R102). -/
  | loop (x : Slot)
  /-- LOOP_I (R102). -/
  | loopI (x : Slot)
  /-- END (R77). -/
  | endProg (x : Slot)
  /-- BEAT_END (R75). -/
  | beatEnd (x : Slot)
  /-- RDSR (R104). -/
  | rdsr (x : Slot) (acycles : Nat)
  /-- TD_SET (R105). -/
  | tdSet (x : Slot)
  /-- TD_GET (R105). -/
  | tdGet (x : Slot)
  /-- TD_FLD (R105). -/
  | tdFld (x : Slot)
  /-- WAIT_TAG (R106). -/
  | waitTag (x : Slot)
  /-- ENG_WAIT (R106). -/
  | engWait (x : Slot)
  /-- LATCH_SIG (R82). -/
  | latchSig (x : Slot)
  /-- ACSIN_LATCH_WAIT (R83). -/
  | acsinLatchWait (x : Slot)
  /-- LATCH_TEST (R83). -/
  | latchTest (x : Slot)
  /-- SEQ_GET (R85). -/
  | seqGet (x : Slot)
  /-- SEQ_PAGE (R85). -/
  | seqPage (x : Slot)
  /-- PHASE_HEAVY (R455). -/
  | phaseHeavy (x : Slot)
  /-- PHASE_LIGHT (R455). -/
  | phaseLight (x : Slot)
  /-- SNAP_BELL (R110). -/
  | snapBell (x : Slot)
  /-- MMA (R112). -/
  | mma (x : Slot)
  /-- ACC_DRAIN (R115). -/
  | accDrain (x : Slot)
  /-- ACC_LOAD (R116). -/
  | accLoad (x : Slot)
  /-- ACC_ZERO (R116). -/
  | accZero (x : Slot)
  /-- ACC_SCALE (R116). -/
  | accScale (x : Slot)
  /-- VLD (R118). -/
  | vld (x : Slot)
  /-- VST (R118). -/
  | vst (x : Slot)
  /-- VADD (R118). -/
  | vadd (x : Slot)
  /-- VSUB (R118). -/
  | vsub (x : Slot)
  /-- VMUL (R118). -/
  | vmul (x : Slot)
  /-- VFMA (R118). -/
  | vfma (x : Slot)
  /-- VMAX (R118). -/
  | vmax (x : Slot)
  /-- VMIN (R118). -/
  | vmin (x : Slot)
  /-- VAND (R118). -/
  | vand (x : Slot)
  /-- VOR (R118). -/
  | vor (x : Slot)
  /-- VXOR (R118). -/
  | vxor (x : Slot)
  /-- VSHL (R118). -/
  | vshl (x : Slot)
  /-- VSHR (R118). -/
  | vshr (x : Slot)
  /-- VSRA (R118). -/
  | vsra (x : Slot)
  /-- VABS (R118). -/
  | vabs (x : Slot)
  /-- VNEG (R118). -/
  | vneg (x : Slot)
  /-- VCMP (R118). -/
  | vcmp (x : Slot)
  /-- VSEL (R118). -/
  | vsel (x : Slot)
  /-- VMOV (R118). -/
  | vmov (x : Slot)
  /-- VBCAST (R118). -/
  | vbcast (x : Slot)
  /-- VIOTA (R118). -/
  | viota (x : Slot)
  /-- VEXT (R119). -/
  | vext (x : Slot)
  /-- VRED (R120). -/
  | vred (x : Slot)
  /-- VEXP2 (R144). -/
  | vexp2 (x : Slot)
  /-- VLOG2 (R144). -/
  | vlog2 (x : Slot)
  /-- VRCP (R144). -/
  | vrcp (x : Slot)
  /-- VRSQ (R144). -/
  | vrsq (x : Slot)
  /-- VTANH (R144). -/
  | vtanh (x : Slot)
  /-- VCVT (R121). -/
  | vcvt (x : Slot)
  /-- VMX (R121). -/
  | vmx (x : Slot)
  /-- VIDX (R122). -/
  | vidx (x : Slot)
  /-- MOVE (R125). -/
  | move (x : Slot)
  /-- MOVE_D (R127). -/
  | moveD (x : Slot)
  /-- GATHER (R128). -/
  | gather (x : Slot)
  /-- SCATTER (R128). -/
  | scatter (x : Slot)
  /-- MOVE_ADD (R129). -/
  | moveAdd (x : Slot)
  /-- MOVE_MAX (R129). -/
  | moveMax (x : Slot)
  /-- MOVE_MIN (R129). -/
  | moveMin (x : Slot)
  /-- ATOM_SWAP (R130). -/
  | atomSwap (x : Slot)
  /-- ATOM_CAS (R130). -/
  | atomCas (x : Slot)
  /-- ATOM_CLAIM (R130). -/
  | atomClaim (x : Slot)
  /-- MOVE_START (R72). -/
  | moveStart (core eng : Nat)
  /-- MOVE_COMPLETE (R71). -/
  | moveComplete (core tag : Nat) (ext : List Byte)
  /-- ENGINE_EXCEPTION (R88). -/
  | engineException (core : Nat) (x : ExcSrc)
  /-- PRELOAD_START (R79). -/
  | preloadStart (core : Nat)
  /-- PRELOAD_COMPLETE (R512). -/
  | preloadComplete (core : Nat) (ext : List Byte)
  /-- LAUNCH_CORE_START (R81). -/
  | launchCoreStart (core : Nat)
  /-- TRANSLATION_WALK (R231). -/
  | translationWalk (core tag va : Nat)
  /-- REPLAYABLE_FAULT (R238). -/
  | replayableFault (core tag va : Nat)
  /-- RETRY (R239). -/
  | retry (fn fid : Nat)
  /-- ABORT (R239). -/
  | abort (fn fid : Nat)
  /-- XLAT_FQUERY_WRITE (R240). -/
  | xlatFqueryWrite (fn fid : Nat)
  /-- DCTL_XLAT_INV_WRITE (R235). -/
  | dctlXlatInvWrite (v : U64)
  /-- INVALIDATE_COMPLETE (R234). -/
  | invalidateComplete (id : Nat)
  /-- ATS_INVALIDATION (R230). -/
  | atsInvalidation (fn va pages : Nat)
  /-- PRI_RESPONSE (R230). -/
  | priResponse (fn va : Nat) (success : Bool)
  /-- SIEVE_BLOCK_DECODE (R157). -/
  | sieveBlockDecode (core tag : Nat) (blk : List Byte) (poisoned : Bool)
  /-- SIEVE_TABLE_CHECKED (R163). -/
  | sieveTableChecked (fn q : Nat) (image : List Byte)
  /-- MEMORY_READ (R186). -/
  | memoryRead (pa : Nat) (e : ReadIn)
  /-- MEMORY_WRITE (R187). -/
  | memoryWrite (pa : Nat) (data : List Byte) (poisoned log : Bool) (fn : Nat)
  /-- PATROL_SCRUB (R188). -/
  | patrolScrub (pa : Nat) (e : ReadIn)
  /-- VERIFY_SCRUB (R195). -/
  | verifyScrub (tw unit : Nat) (e : ReadIn)
  /-- LEDGER_CHUNK_CHECK (R196). -/
  | ledgerChunkCheck (tw chunk : Nat)
  /-- CRITICAL_TEMPERATURE (R191). -/
  | criticalTemperature (unit temp : Nat)
  /-- MEMORY_UNIT_RESTART (R191). -/
  | memoryUnitRestart (unit : Nat)
  /-- WIPE_COMPLETE (R200). -/
  | wipeComplete (granule : Nat)
  /-- MEMORY_SIDE_ADD (R205). -/
  | memorySideAdd (pa efmt : Nat) (data : List Byte) (poisoned log : Bool) (fn : Nat)
  /-- MEMORY_SIDE_MAX (R205). -/
  | memorySideMax (pa efmt : Nat) (data : List Byte) (poisoned log : Bool) (fn : Nat)
  /-- MEMORY_SIDE_MIN (R205). -/
  | memorySideMin (pa efmt : Nat) (data : List Byte) (poisoned log : Bool) (fn : Nat)
  /-- MEMORY_SIDE_SWAP (R214). -/
  | memorySideSwap (pa : Nat) (new : U64) (log : Bool) (fn : Nat)
  /-- MEMORY_SIDE_CAS (R214). -/
  | memorySideCas (pa : Nat) (cmp new : U64) (log : Bool) (fn : Nat)
  /-- MEMORY_SIDE_CLAIM (R216). -/
  | memorySideClaim (pa requester : Nat) (cmp new : BitVec 128) (log : Bool) (fn : Nat)
  /-- CODEWORD_RECEIVE (R254). -/
  | codewordReceive (port lane : Nat) (w : Codeword)
  /-- TRAIN_ID (R263). -/
  | trainId (port : Nat) (c : Cell)
  /-- MEASURE (R257). -/
  | measure (port arrival sent : Nat) (c : Cell)
  /-- MEASURE_REPLY (R257). -/
  | measureReply (port arrival : Nat) (c : Cell)
  /-- CREDIT_ACK (R266). -/
  | creditAck (port : Nat) (c : Cell)
  /-- NAK (R268). -/
  | nak (port : Nat) (c : Cell)
  /-- RD_REQ (R260). -/
  | rdReq (port : Nat) (c : Cell)
  /-- RD_RESP (R263). -/
  | rdResp (port : Nat) (c : Cell)
  /-- WR (R260). -/
  | wr (port : Nat) (c : Cell)
  /-- WR_ACK (R264). -/
  | wrAck (port : Nat) (c : Cell)
  /-- MSO (R261). -/
  | mso (port : Nat) (c : Cell)
  /-- ATOM (R261). -/
  | atom (port : Nat) (c : Cell)
  /-- ATOM_RESP (R261). -/
  | atomResp (port : Nat) (c : Cell)
  /-- LATCH (R354). -/
  | latch (port : Nat) (c : Cell)
  /-- BELL (R277). -/
  | bell (port : Nat) (c : Cell)
  /-- ALARM (R434). -/
  | alarm (port : Nat) (c : Cell)
  /-- ACK_GATHER_TIMEOUT (R264). -/
  | ackGatherTimeout (port : Nat)
  /-- CREDIT_RETURN_TIMER (R266). -/
  | creditReturnTimer (port : Nat)
  /-- REPLAY_LIMIT (R268). -/
  | replayLimit (port : Nat)
  /-- TAG_LIMIT (R278). -/
  | tagLimit (port : Nat)
  /-- TRAINING_STEP_COMPLETE (R255). -/
  | trainingStepComplete (port : Nat) (lanes : BitVec 16)
  /-- TRAINING_STEP_FAIL (R255). -/
  | trainingStepFail (port : Nat)
  /-- TRAINING_RETRY_TIMER (R255). -/
  | trainingRetryTimer (port : Nat)
  /-- LANE_LOCK_LOSS (R258). -/
  | laneLockLoss (port : Nat)
  /-- QUICK_RETRAIN_SUCCESS (R258). -/
  | quickRetrainSuccess (port : Nat) (lanes : BitVec 16)
  /-- QUICK_RETRAIN_TIMEOUT (R258). -/
  | quickRetrainTimeout (port : Nat)
  /-- PORT_DOWN (R279). -/
  | portDown (port : Nat)
  /-- INLET_FAULT (R247). -/
  | inletFault (inlet : Nat) (r : InletReading)
  /-- SCHED_IMAGE_CHECKED (R285). -/
  | schedImageChecked (fn q : Nat) (image : List Byte)
  /-- SCHED_TABLE_ACTIVATE (R285). -/
  | schedTableActivate (port : Nat)
  /-- WINDOW_OPEN (R288). -/
  | windowOpen (port window : Nat)
  /-- WINDOW_CLOSE (R289). -/
  | windowClose (port window : Nat)
  /-- BIND (R302). -/
  | bind (sess req : Nat) (body : BitVec 896)
  /-- UNBIND (R302). -/
  | unbind (sess req : Nat) (body : BitVec 896)
  /-- MOVE_CORE (R314). -/
  | moveCore (sess req : Nat) (body : BitVec 896)
  /-- RETUNE_QOS (R316). -/
  | retuneQos (sess req : Nat) (body : BitVec 896)
  /-- EPOCH_OPEN (R307). -/
  | epochOpen (handle : Nat) (ext : List Byte)
  /-- CHANGE_STALL (R304). -/
  | changeStall (handle : Nat)
  /-- DRAIN_END (R309). -/
  | drainEnd (part : Nat)
  /-- DRAIN_LIMIT (R313). -/
  | drainLimit (part : Nat)
  /-- CORE_STATE_COPY_DONE (R314). -/
  | coreStateCopyDone (core : Nat)
  /-- BAR2_READ (R324). -/
  | bar2Read (fn off len : Nat)
  /-- BAR2_WRITE (R324). -/
  | bar2Write (fn off : Nat) (data : List Byte)
  /-- REGISTER_WRITE (R6). -/
  | registerWrite (fn off size : Nat) (v : U64)
  /-- COUNTER_READ (R8). -/
  | counterRead (fn off size : Nat)
  /-- QUEUE_ENABLE (R331). -/
  | queueEnable (fn q : Nat) (v : U64)
  /-- QUEUE_DESTROY (R361). -/
  | queueDestroy (fn q : Nat)
  /-- RESUME (R331). -/
  | resume (fn q : Nat)
  /-- CTX_SEL_LATCH (R336). -/
  | ctxSelLatch (fn ctx : Nat)
  /-- DESTROY_ACK (R361). -/
  | destroyAck (id core eng : Nat)
  /-- NOP (R343). -/
  | nop (fn q : Nat)
  /-- LAUNCH (R347). -/
  | launch (fn q : Nat)
  /-- GRAPH_LAUNCH (R358). -/
  | graphLaunch (fn q : Nat)
  /-- LATCH_SIGNAL (R509). -/
  | latchSignal (fn q : Nat)
  /-- LATCH_WAIT (R356). -/
  | latchWait (fn q : Nat)
  /-- LATCH_WAIT_TIMEOUT (R356). -/
  | latchWaitTimeout (fn q sq : Nat)
  /-- SEQ_UPDATE (R343). -/
  | seqUpdate (fn q : Nat) (ext : List Byte)
  /-- CTX_CREATE (R332). -/
  | ctxCreate (fn q : Nat)
  /-- CTX_DESTROY (R361). -/
  | ctxDestroy (fn q : Nat)
  /-- MAP (R334). -/
  | map (fn q : Nat)
  /-- UNMAP (R360). -/
  | unmap (fn q : Nat)
  /-- RELEASE (R360). -/
  | release (fn q : Nat)
  /-- INVALIDATE (R234). -/
  | invalidate (fn q : Nat)
  /-- GRAPH_STORE (R357). -/
  | graphStore (fn q : Nat) (ext : List Byte)
  /-- GRAPH_PATCH (R359). -/
  | graphPatch (fn q : Nat) (ext : List Byte)
  /-- GRAPH_DESTROY (R361). -/
  | graphDestroy (fn q : Nat)
  /-- LATCH_ALLOC (R332). -/
  | latchAlloc (fn q : Nat)
  /-- LATCH_FREE (R332). -/
  | latchFree (fn q : Nat)
  /-- SEQ_BIND (R332). -/
  | seqBind (fn q : Nat)
  /-- SEQ_UNBIND (R332). -/
  | seqUnbind (fn q : Nat)
  /-- SIEVE_TABLE (R163). -/
  | sieveTable (fn q : Nat)
  /-- SCHED_LOAD (R284). -/
  | schedLoad (fn q : Nat)
  /-- SHARE_CREATE (R335). -/
  | shareCreate (fn q : Nat) (ext : List Byte)
  /-- SHARE_VERIFY (R335). -/
  | shareVerify (fn q : Nat)
  /-- SHARE_MAP (R335). -/
  | shareMap (fn q : Nat)
  /-- SHARE_UNMAP (R335). -/
  | shareUnmap (fn q : Nat)
  /-- SHARE_DESTROY (R335). -/
  | shareDestroy (fn q : Nat)
  /-- CONTEXT_SWITCH_START (R367). -/
  | contextSwitchStart (id : Nat)
  /-- SWITCH_DRAIN_END (R368). -/
  | switchDrainEnd (id : Nat)
  /-- SWITCH_SAVE_COMPLETE (R368). -/
  | switchSaveComplete (id : Nat)
  /-- SWITCH_IN_COMPLETE (R368). -/
  | switchInComplete (id : Nat)
  /-- STALL_BUDGET_EXPIRY (R427). -/
  | stallBudgetExpiry (fn q sq : Nat)
  /-- LIFE_CHALLENGE (R381). -/
  | lifeChallenge (sess req : Nat)
  /-- LIFE_AUTH (R382). -/
  | lifeAuth (sess req : Nat) (a : LifeAuth)
  /-- PARISH_ENROL (R396). -/
  | parishEnrol (sess req : Nat) (m : EnrolMsg)
  /-- PARISH_KEYS (R396). -/
  | parishKeys (sess req : Nat) (m : KeysMsg)
  /-- PARISH_START (R396). -/
  | parishStart
  /-- PARISH_ADD (R397). -/
  | parishAdd (sess req part edge : Nat)
  /-- PARISH_LEAVE (R398). -/
  | parishLeave (sess req : Nat)
  /-- ATTEST_GO (R395). -/
  | attestGo (fn : Nat) (v : U64)
  /-- ATTEST_REPORT_DONE (R395). -/
  | attestReportDone (fn : Nat) (nonce : BitVec 384)
  /-- ROLL_REQ (R414). -/
  | rollReq
  /-- ROLL_TIMER (R414). -/
  | rollTimer
  /-- KEY_ROLL_START (R414). -/
  | keyRollStart
  /-- ROLL_GROUP (R415). -/
  | rollGroup (ctl : Nat) (auth : Auth)
  /-- ROLL_COMPLETE (R414). -/
  | rollComplete
  /-- LOG_FLUSH (R426). -/
  | logFlush
  /-- ENGINE_RESET (R430). -/
  | engineReset (target : Nat) (dump : Bool)
  /-- CORE_RESET (R430). -/
  | coreReset (target : Nat) (dump : Bool)
  /-- CLUSTER_RESET (R430). -/
  | clusterReset (target : Nat) (dump : Bool)
  /-- PARTITION_RESET (R430). -/
  | partitionReset (target : Nat) (dump : Bool)
  /-- DIE_RESET (R430). -/
  | dieReset (target : Nat) (dump : Bool)
  /-- DEVICE_WARM_RESET (R430). -/
  | deviceWarmReset (dump : Bool)
  /-- DEVICE_COLD_RESET (R430). -/
  | deviceColdReset (dump : Bool)
  /-- RESET_FORCE (R432). -/
  | resetForce (domain target : Nat)
  /-- RESET_SHUTTER (R431). -/
  | resetShutter (id : Nat)
  /-- RESET_DRAIN_END (R431). -/
  | resetDrainEnd (id : Nat)
  /-- RESET_WIPE_DONE (R431). -/
  | resetWipeDone (id : Nat)
  /-- UCE_P_ERROR (R422). -/
  | ucePError (part source : Nat)
  /-- FATAL_ERROR (R439). -/
  | fatalError (source unitKind unitIndex : Nat)
  /-- ALARM_ABORT (R435). -/
  | alarmAbort (part : Nat)
  /-- FENCED_HOLD_EXPIRY (R436). -/
  | fencedHoldExpiry (fn q sq : Nat)
  /-- DUMP_CAPTURE (R438). -/
  | dumpCapture
  /-- DUMP_WRITTEN (R440). -/
  | dumpWritten
  /-- RUN (R442). -/
  | run
  /-- PARKED (R443). -/
  | parked
  /-- OFF (R444). -/
  | off
  /-- DOMAIN_WAKE_COMPLETE (R447). -/
  | domainWakeComplete (domain : Nat)
  /-- T_HOT (R452). -/
  | tHot (die temp : Nat)
  /-- T_TRIP (R452). -/
  | tTrip (die temp : Nat)
  /-- DROOP_DETECT (R456). -/
  | droopDetect (cluster : Nat)
  /-- DROOP_RECOVER (R456). -/
  | droopRecover (cluster : Nat)
  /-- HEAVY (R455). -/
  | heavy (lead level : Nat)
  /-- LIGHT (R455). -/
  | light (lead : Nat)
  /-- REGULATOR_REPORT (R458). -/
  | regulatorReport (measured : Nat)
  /-- ROTATION_STEP (R464). -/
  | rotationStep (die : Nat)
  /-- ROTATION_SLICE_END (R463). -/
  | rotationSliceEnd (die : Nat) (pass : Bool)
  /-- SLICE_ABANDON (R465). -/
  | sliceAbandon (die : Nat)
  /-- SNAP_RING (R469). -/
  | snapRing (fn : Nat) (v : U64)
  /-- PWR_EN_RISE (R497). -/
  | pwrEnRise (vin : Nat)
  /-- PWR_EN_FALL (R497). -/
  | pwrEnFall
  /-- RST_N_ASSERT (R498). -/
  | rstNAssert (us : Nat)
  /-- RST_N_DEASSERT (R498). -/
  | rstNDeassert
  /-- PERST_DEASSERT (R478). -/
  | perstDeassert
  /-- PCIE_LINK_DOWN (R430). -/
  | pcieLinkDown
  /-- PCIE_CONFIG_REQUEST (R478). -/
  | pcieConfigRequest (fn : Nat) (r : CfgReq)
  /-- BOOT_STEP_COMPLETE (R474). -/
  | bootStepComplete (step ms : Nat) (r : BootResult)
  /-- BOOT_STEP_FAIL (R480). -/
  | bootStepFail (step : Nat) (f : BootFail)
  /-- BOOT_LOCK_TIMEOUT (R477). -/
  | bootLockTimeout
  /-- INPUT_UNDERVOLTAGE (R505). -/
  | inputUndervoltage (vin : Nat)
  /-- INPUT_OVERVOLTAGE (R505). -/
  | inputOvervoltage (vin : Nat)
  /-- INPUT_OVERCURRENT (R501). -/
  | inputOvercurrent (iin : Nat)
  /-- READ_VIN (R501). -/
  | readVin
  /-- READ_IIN (R501). -/
  | readIin
  /-- READ_PIN (R501). -/
  | readPin
  /-- READ_TEMPERATURE_1 (R501). -/
  | readTemperature1
  /-- READ_TEMPERATURE_2 (R501). -/
  | readTemperature2
  /-- STATUS_WORD (R501). -/
  | statusWord
  /-- KMC_SESSION_OPEN (R484). -/
  | kmcSessionOpen (sess : Nat) (chainOk : Bool)
  /-- KMC_SESSION_CLOSE (R491). -/
  | kmcSessionClose (sess : Nat)
  /-- GET_VERSION (R486). -/
  | getVersion
  /-- GET_CAPABILITIES (R486). -/
  | getCapabilities
  /-- NEGOTIATE_ALGORITHMS (R486). -/
  | negotiateAlgorithms (rsapss3072 sha384 : Bool)
  /-- GET_DIGESTS (R486). -/
  | getDigests
  /-- GET_CERTIFICATE (R486). -/
  | getCertificate (slot off len : Nat)
  /-- CHALLENGE (R486). -/
  | challenge (slot : Nat) (nonce : BitVec 256)
  /-- GET_MEASUREMENTS (R486). -/
  | getMeasurements (index : Nat)
  /-- GET_INFO (R489). -/
  | getInfo (sess req : Nat)
  /-- REPORT (R394). -/
  | report (sess req : Nat) (nonce : BitVec 384)
  /-- MGMT_ROOT (R485). -/
  | mgmtRoot (sess req : Nat) (digest : BitVec 384) (a : LifeAuth)
  /-- CONFIG_WRITE (R489). -/
  | configWrite (sess req : Nat) (pairs : List (Nat × U64))
  /-- ROUTE_WRITE (R269). -/
  | routeWrite (sess req part first : Nat) (entries : List U64)
  /-- ALARM_RAISE (R434). -/
  | alarmRaise (sess req scope cause vd : Nat) (detail : BitVec 128)
  /-- BELL_RAISE (R277). -/
  | bellRaise (sess req scope vd target : Nat)
  /-- FW_BEGIN (R491). -/
  | fwBegin (sess req image len : Nat)
  /-- FW_CHUNK (R491). -/
  | fwChunk (sess req off : Nat) (data : List Byte)
  /-- FW_COMMIT (R491). -/
  | fwCommit (sess req signer : Nat)
  /-- DUMP_LIST (R489). -/
  | dumpList (sess req : Nat)
  /-- DUMP_READ (R440). -/
  | dumpRead (sess req slot off len : Nat)
  /-- DUMP_ACK (R489). -/
  | dumpAck (sess req slot : Nat)
  /-- LOG_READ (R426). -/
  | logRead (sess req first count : Nat)
  /-- TELE_SUB (R492). -/
  | teleSub (sess req period mask : Nat)
  /-- TELEMETRY (R492). -/
  | telemetry (sess : Nat)
  /-- TEST_REQ (R467). -/
  | testReq (sess req op : Nat)
  /-- ENGINE_INSTRUCTION_COMPLETE (R73). -/
  | engineInstructionComplete (core eng : Nat)
  /-- ATS_TRANSLATION_COMPLETION (R230). -/
  | atsTranslationCompletion (fn va host : Nat) (granted : Bool)
  /-- PCIE_LINK_TRAINED (R478). -/
  | pcieLinkTrained
  /-- LASER_MODULE_SEATED (R248). -/
  | laserModuleSeated (inlet : Nat)
  /-- VIN_SAG_EVENT (R501). -/
  | vinSagEvent
  deriving DecidableEq, Repr

end Sys2Proof
end

