-- ==== Sys2Proof/Decode.lean ====
section
/-! DEFINITION. Words of the command table: its rows give no command any bits, so no word spells one. Beside them the words
that the spec does spell: the slots and bundles of Acsin programs (R62, R63, R92). -/

namespace Sys2Proof

/-- The command that a word spells by the table's bits: the table gives none of its rows bits. -/
def decodeTableWord (nbits w : Nat) : Option Instr :=
  match nbits, w with
  | _, _ => none

/-! ## Slots -/

/-- The opcodes of the S slot and the command each one is (R97 to R110); `ac` is what RDSR may read of the beat (R104). -/
def sOpcodes (ac : Nat) : List (Nat × (Slot → Instr)) :=
  [(0x001, .endProg), (0x002, .beatEnd), (0x010, .br), (0x011, .bri), (0x012, .call), (0x014, .loop), (0x015, .loopI)] ++
  [(0x020, .add), (0x021, .sub), (0x022, .mul), (0x023, .mulhu), (0x024, .div), (0x025, .divu), (0x026, .rem),
   (0x027, .remu), (0x028, .and), (0x029, .or), (0x02A, .xor), (0x02B, .shl), (0x02C, .shr), (0x02D, .sra),
   (0x02E, .min), (0x02F, .max)] ++
  [(0x040, .addi), (0x041, .andi), (0x042, .ori), (0x043, .xori), (0x044, .shli), (0x045, .shri), (0x046, .srai),
   (0x048, .li), (0x049, .lih), (0x050, .cmp), (0x051, .cmpi), (0x052, .pset), (0x053, .pmov)] ++
  [(0x060, .ld), (0x061, .st), (0x070, fun x => .rdsr x ac), (0x080, .tdSet), (0x081, .tdGet), (0x082, .tdFld),
   (0x0A0, .waitTag), (0x0A1, .engWait), (0x0B0, .latchSig), (0x0B1, .acsinLatchWait), (0x0B2, .latchTest),
   (0x0C0, .seqGet), (0x0C1, .seqPage), (0x0D0, .phaseHeavy), (0x0D1, .phaseLight), (0x0E0, .snapBell)]

/-- The opcodes of the M slot (R112). -/
def mOpcodes : List (Nat × (Slot → Instr)) :=
  [(0x001, .mma), (0x002, .accDrain), (0x003, .accLoad), (0x004, .accZero), (0x005, .accScale)]

/-- The opcodes of the V slot (R118). -/
def vOpcodes : List (Nat × (Slot → Instr)) :=
  [(0x001, .vld), (0x002, .vst), (0x010, .vadd), (0x011, .vsub), (0x012, .vmul), (0x013, .vfma), (0x014, .vmax),
   (0x015, .vmin), (0x016, .vand), (0x017, .vor), (0x018, .vxor), (0x019, .vshl), (0x01A, .vshr), (0x01B, .vsra)] ++
  [(0x01C, .vabs), (0x01D, .vneg), (0x020, .vcmp), (0x021, .vsel), (0x028, .vmov), (0x029, .vbcast), (0x02A, .viota),
   (0x02B, .vext), (0x030, .vred), (0x038, .vexp2), (0x039, .vlog2), (0x03A, .vrcp), (0x03B, .vrsq), (0x03C, .vtanh),
   (0x040, .vcvt), (0x041, .vmx), (0x048, .vidx)]

/-- The opcodes of the X slot; MOD[45:44] tells apart those that share one (R123, R129, R130). -/
def xOpcodes (sel : Nat) : List (Nat × (Slot → Instr)) :=
  [(0x001, .move), (0x002, .moveD), (0x003, .gather), (0x004, .scatter),
   (0x005, match sel with | 1 => .moveMax | 2 => .moveMin | _ => .moveAdd),
   (0x006, match sel with | 1 => .atomCas | 2 => .atomClaim | _ => .atomSwap)]

/-- The opcodes of a slot class: 0 S, 1 M, 2 V, 3 X. -/
def opcodesOf (cls ac sel : Nat) : List (Nat × (Slot → Instr)) :=
  match cls with
  | 0 => sOpcodes ac
  | 1 => mOpcodes
  | 2 => vOpcodes
  | _ => xOpcodes sel

/-- The row of a class under which a slot arrives whose OPCODE is NOP or reserved (log 8). -/
def carrierOf (cls : Nat) : Slot → Instr :=
  match cls with
  | 0 => .add
  | 1 => .mma
  | 2 => .vadd
  | _ => .move

/-- The command that one 64-bit slot of a core's bundle is: OPCODE in bits [63:54] (R63, R94). -/
def decodeSlot (core cls ac : Nat) (more : Bool) (w : BitVec 64) : Instr :=
  let opc := (w.extractLsb' 54 10).toNat
  let x (op : Opcode) : Slot := { core := core, op := op, f := w.extractLsb' 0 54, more := more }
  if opc = 0 then carrierOf cls (x .nop)
  else match (opcodesOf cls ac (w.extractLsb' 44 2).toNat).find? fun e => e.1 == opc with
    | some e => e.2 (x .row)
    | none => carrierOf cls (x .reserved)

/-- The four commands that a 256-bit bundle is, in the order in which they are given (R62, R92, log 8): M, V and X, and S,
which ends it. -/
def decodeBundle (core ac : Nat) (w : BitVec 256) : List Instr :=
  [decodeSlot core 1 ac true (w.extractLsb' 64 64), decodeSlot core 2 ac true (w.extractLsb' 128 64),
   decodeSlot core 3 ac true (w.extractLsb' 192 64), decodeSlot core 0 ac false (w.extractLsb' 0 64)]

end Sys2Proof
end

