-- ==== Sys2Proof/Config.lean ====
section
/-! DEFINITION. What the spec leaves open: free values, applied to the model's counter `State.free` (log 5), and
the cryptographic functions that the spec names by other standards (log 14). None of them has a body. -/

namespace Sys2Proof

/-- A fresh unconstrained number for each value of the counter. -/
opaque Config.freeNat : Nat → Nat

/-- A fresh unconstrained choice for each value of the counter. -/
opaque Config.freeBool : Nat → Bool

/-- SHA-384 of a byte string. -/
opaque Config.sha384 : List Byte → BitVec 384

/-- HMAC-SHA-384 under a key. -/
opaque Config.hmac384 : List Byte → List Byte → BitVec 384

/-- AES-256-GCM: key, nonce, additional data and plaintext to ciphertext with tag. -/
opaque Config.gcmSeal : List Byte → List Byte → List Byte → List Byte → List Byte

/-- AES-256-GCM opening: key, nonce, additional data and ciphertext with tag to plaintext, if it verifies. The tag
may be cut to its first 96 bits (R265). -/
opaque Config.gcmOpen : List Byte → List Byte → List Byte → List Byte → Option (List Byte)

/-- A shared secret by ECDH P-384 or ML-KEM-768 from a private key and a peer's message. -/
opaque Config.agree : List Byte → List Byte → List Byte

/-- A signature under a key slot's private key over a byte string. -/
opaque Config.sign : List Byte → List Byte → List Byte

/-- The private keys that a seed generates through its HMAC_DRBG: RSA-3072, then SLH-DSA-SHA2-192s (R385). -/
opaque Config.keyPair : List Byte → Nat → List Byte

/-- Draws of the device's entropy source. -/
opaque Config.entropy : Nat → BitVec 256

/-- The 30 check symbols of RS(544,514) over GF(2^10), as IEEE 802.3 defines the code (R252). -/
opaque Config.fecParity : BitVec 5140 → BitVec 300

/-- The six check symbols of a unit over GF(2^16): the spec gives the code's size and strength, not its polynomials (R184). -/
opaque Config.rsCheck : List Byte → BitVec 96

/-- What a tree slice of tier 2 holds that no node in use occupies, by granule (R409). -/
opaque Config.treeSlice : Nat → BitVec 192

/-- The logical cores that the management controller has reserved at reset for the manager's service contexts (R321). -/
opaque Config.kmcCores : BitVec 512

/-- The memory granules that it has reserved at reset for their tables and data (R321). -/
opaque Config.kmcGranules : BitVec 80

/-- Bytes of certificates, digests and reports that the manual gives by reference to other standards. -/
opaque Config.document : Nat → Nat → List Byte

end Sys2Proof
end

