-- ==== Sys2Proof/Machine/State.lean ====
section
/-! DEFINITION. The state of the block as plain data, its reset value, and the reasons a step can stop. -/

namespace Sys2Proof.Machine

/-- One field of a register: the register's BAR0 offset, the pitch of its array, the lowest bit and the width. -/
structure Fld where
  off : Nat
  stride : Nat
  lo : Nat
  w : Nat
  deriving DecidableEq, Repr

/-- One register of the field maps: name, offset, pitch, count, RW bits, W1C bits, reset value, and whether
only an 8-byte write acts on it (R508). -/
structure RegDef where
  name : String
  off : Nat
  stride : Nat
  n : Nat
  rw : Nat
  w1c : Nat
  reset : Nat
  wide : Bool
  deriving DecidableEq, Repr

/-! ## Cores (chapters 03 to 06) -/

/-- A rounding generator (R148): its state, and how many of the present step's four draws are taken. -/
structure Gen where
  state : U64
  taken : Nat
  deriving DecidableEq, Repr

/-- One active loop (R102): its counter, first and last bundle, count and iteration. -/
structure LoopFrame where
  lc : Nat
  first : Nat
  last : Nat
  count : Nat
  iter : Nat
  deriving DecidableEq, Repr

/-- What holds a core's issue (R72, R74, R75, R77, R83). -/
inductive Hold where
  | free
  /-- WAIT.TAG: the tags that must be free. -/
  | tags (mask : U64)
  /-- ENG.WAIT: the engines that must have drained. -/
  | engines (mask : Nat)
  /-- LATCH.WAIT: the latch, the value to reach, and the instruction's bundle. -/
  | latch (l : Nat) (v : U64) (bundle : Nat)
  /-- BEAT.END issued: it retires when the engines are empty, and the core waits for an edge. -/
  | beatEnd
  /-- END issued (R77). -/
  | ended
  deriving DecidableEq, Repr

/-- One instruction in a matrix or vector engine's queue: engines 0 to 3 ME0 to ME3, 4 and 5 VE0 and VE1.
`tds` and `vals` are the descriptors and register values read at issue (R65, R67). -/
structure EngOp where
  seq : Nat
  bundle : Nat
  eng : Nat
  op : Nat
  f : BitVec 54
  tds : List (Nat × BitVec 128)
  vals : List U64
  rd : List Nat
  wr : List Nat
  dst : Option Nat
  started : Bool
  degraded : Bool
  deriving DecidableEq, Repr

/-- A route entry (R269): its node, the links to it and the port of each. -/
structure Route where
  node : Nat
  nhop : Nat
  ports : List Nat
  deriving DecidableEq, Repr

/-- A cached translation (R231): the partition's function, the leaf's first 64 KiB page, its level (2, 3 or 4), and the
leaf. -/
structure Leaf where
  fn : Nat
  page : Nat
  level : Nat
  pte : Nat
  deriving DecidableEq, Repr

/-- One request of a move to another node, or to a unit that answers later (R39, R263, R309). `pos` is the
first byte position of the move it serves; kind 0 read, 1 write, 2 memory-side, 3 ATOM. `nhop` and `ports` are the route
entry found when the request was made (R308); `nhop` 0 means that none matched. `log` is the LOG bit of its leaf (R241). -/
structure Req where
  id : Nat
  kind : Nat
  node : Nat
  pos : Nat
  len : Nat
  addr : Nat
  port : Nat
  sent : Bool
  retried : Bool
  epoch : Nat
  nhop : Nat
  ports : List Nat
  log : Bool
  deriving DecidableEq, Repr

/-- One descriptor of a move engine (R71, R72, R123). `op` is the X-slot opcode, `mdr` the copied record of MOVE.D (R126),
`buf` source bytes that have arrived from elsewhere, by position, `list` the entries of GATHER and SCATTER read at its start,
`vers` the sieve table versions it started under (R164), `issued` the edge count at its issue, `made` whether its requests to
other nodes are listed, `farAt` the positions of its destination pieces that went to other nodes, `inSlot` the port whose
windows it sends in, `srcAt` and `outAt` the source and output bytes that its sieve has taken and given. `leaves` and `hosts`
are the translations that it holds, of its pages and of host pages under ATS by 4 KiB page (R224, R230, R234); `routes` is its
partition's route table as the latest edge in its epoch found it (R308), `badAt` the runs of its positions that arrived marked
poisoned (R53), and `applied` whether its local pieces have been written, while contributions of it still wait (R206). -/
structure MoveOp where
  seq : Nat
  bundle : Nat
  eng : Nat
  tag : Nat
  op : Nat
  f : BitVec 54
  tds : List (Nat × BitVec 128)
  vals : List U64
  mdr : List Byte
  rd : List Nat
  wr : List Nat
  fence : Bool
  sched : Bool
  issued : Nat
  started : Bool
  made : Bool
  inSlot : Option Nat
  epoch : Nat
  fid : Option Nat
  reqs : List Req
  buf : Tab Byte
  list : List Nat
  vers : List Nat
  farAt : List Nat
  srcAt : Nat
  outAt : Nat
  leaves : List Leaf
  hosts : Tab Nat
  routes : List Route
  badAt : List (Nat × Nat)
  applied : Bool
  deriving DecidableEq, Repr

/-- A latch signal posted by LATCH.SIG and not yet sent (R82): scope 0 NONE, 1 XE0, 2 XE1, 3 CORE, and the epoch it was
posted under (R309). -/
structure PostedSig where
  seq : Nat
  latch : Nat
  val : U64
  remote : Bool
  member : Nat
  scope : Nat
  epoch : Nat
  deriving DecidableEq, Repr

/-- The architectural state of one core (R66) with its queues, which the slots of one bundle may change. -/
structure CoreState where
  s : Tab U64
  a : Tab U64
  p : BitVec 8
  loops : List LoopFrame
  td : Tab (BitVec 128)
  acc : Tab (BitVec 32)
  v : Tab Byte
  gen : Tab Gen
  store : Tab Byte
  pc : Nat
  seq : Nat
  engq : List EngOp
  moves : List MoveOp
  sigs : List PostedSig
  hold : Hold
  deriving DecidableEq, Repr

/-- A bundle whose slots are arriving (log 8): the state before it, which the core keeps until the bundle issues (R65); what
its slots have given so far; the slot classes in use (bit 0 S, 1 M, 2 V, 3 X), the destinations named, the target of a taken
branch, whether some slot cannot issue yet (R64), and the faults found. -/
structure OpenBundle where
  base : CoreState
  work : CoreState
  slots : Nat
  dests : List Nat
  branch : Option Nat
  wait : Bool
  faults : List ExcSrc
  deriving DecidableEq, Repr

/-- A preload or load of a launch onto a core (R79, R512): the launch, the half it goes to, and whether its
moves have started and completed. -/
structure Preload where
  launch : Nat
  half : Nat
  started : Bool
  done : Bool
  fid : Option Nat
  deriving DecidableEq, Repr

/-- A sequence slot (R85, R86): function and context it is bound to, tokens, page size, pages, overflow VA. -/
structure SeqSlot where
  fn : Nat
  ctx : Nat
  tokens : Nat
  pageTokens : Nat
  pages : Tab Nat
  overflow : Nat
  deriving DecidableEq, Repr

/-- One logical core. `launch` is the launch whose share it holds, `half` the first bundle slot of its program
(0 or 1,024), `firstEnd` whether the launch's first BEAT.END has retired (R79, R80), `blockBeat` the edge count in
which the present block started (R32, log 110), `lateRun` the consecutive late edges and `lateDue` whether they ask for a
lateness event (R31), and `left` the function and context of a launch that it gave up in this beat (R336), and `oldSlots` the
sequence slots that changed at an edge which its present block ran past, as the block sees them (R86). -/
structure Core where
  cur : CoreState
  bundle : Option OpenBundle
  launch : Option Nat
  index : Nat
  half : Nat
  len : Nat
  running : Bool
  stopped : Bool
  firstEnd : Bool
  blockBeat : Nat
  lateRun : Nat
  lateDue : Bool
  late : Bool
  preload : Option Preload
  issuedBeat : Bool
  engBeat : Nat
  degBeat : Bool
  left : Option (Nat × Nat)
  oldSlots : List (Nat × Option SeqSlot)
  deriving DecidableEq, Repr

/-! ## Queues, launches and objects (chapters 14 to 16) -/

/-- One fetched command record: its sequence number, the 64 bytes, and where it stands: 0 waiting, 1 started,
2 completed. `beat` and `stallFrom` are edge counts (log 110): of its start, and from which its budget runs. `fresh` says that
it arrived in the present beat (R328), and `sgen` is the session generation that a sealed one was opened under (R399). -/
structure QRec where
  sq : Nat
  w : BitVec 512
  st : Nat
  status : Nat
  beat : Nat
  stallFrom : Nat
  willRecord : Bool
  fresh : Bool
  badRead : Bool
  sealBad : Bool
  sgen : Nat
  detail : Nat
  deriving DecidableEq, Repr

/-- One command queue beside its registers (R325 to R331): records fetched and not retired from the list, the records asked
for and not arrived, a RESUME that waits for the edge, whether a halt cause found it HALTED in this beat (R339), and the
completion records written since enable (R349). -/
structure Queue where
  recs : List QRec
  due : Nat
  resume : Bool
  cause : Bool
  cprod : Nat
  deriving DecidableEq, Repr

/-- A launch (R347): where it came from, its cores in index order, the shares that have retired END, its status, and where it
stands: 0 waiting for cores, 1 running, 2 drain, 3 save, 4 saved, 5 in, 6 ended on every core, 7 failed, with cores that an
edge still tears down. `startBeat`, `heldFrom` and `phaseEdge` are edge counts (log 110), and `g` is the graph record index
when it belongs to a graph launch. -/
structure Launch where
  id : Nat
  fn : Nat
  q : Nat
  sq : Nat
  ctx : Nat
  lc : Bool
  floor : Nat
  prog : Nat
  argVa : Nat
  constVa : Nat
  bundles : Nat
  constKib : Nat
  cores : List Nat
  ended : List Nat
  status : Nat
  excCore : Nat
  degraded : Bool
  measured : Bool
  phase : Nat
  startBeat : Nat
  since : Nat
  heldFrom : Nat
  lowBeats : Nat
  saved : List (Nat × Core)
  slots : List Nat
  phaseEdge : Nat
  g : Option Nat
  deriving DecidableEq, Repr

/-- A context (R332, R336): class, seed, counts Q0 to Q15 now and as of the last closed beat. -/
structure Ctx where
  lc : Bool
  seed : U64
  q : Tab Nat
  closed : Tab Nat
  uj : Nat
  destroying : Bool
  deriving DecidableEq, Repr

/-- A memory object (R332, R334): VA, pages, tier, rights byte, ADDR, owning context, and whether it is being freed. -/
structure MemObj where
  va : Nat
  pages : Nat
  tier : Nat
  rights : Nat
  addr : Nat
  ctx : Nat
  dying : Bool
  deriving DecidableEq, Repr

/-- One version of a graph: its number, its records, and the launches that hold it (R357 to R359). -/
structure GVersion where
  num : Nat
  recs : List (BitVec 512)
  holders : Nat
  deriving DecidableEq, Repr

/-- A graph: its owning context, versions oldest first, and a version that becomes newest at the next edge. -/
structure Graph where
  ctx : Nat
  vers : List GVersion
  next : Option GVersion
  destroying : Bool
  deriving DecidableEq, Repr

/-- A graph launch in progress (R358): the command, the version, and the state, status and beat of start of each record. -/
structure GRun where
  fn : Nat
  q : Nat
  sq : Nat
  graph : Nat
  ver : Nat
  argVa : Nat
  st : List (Nat × Nat)
  beats : List Nat
  deriving DecidableEq, Repr

/-- A latch (R354, R355): owning context, value, mode (true MAX) and held bitmap. -/
structure Latch where
  ctx : Nat
  val : U64
  isMax : Bool
  held : U64
  deriving DecidableEq, Repr

/-- A destruction in progress (R361): what is destroyed (0 queue, 1 context, 2 graph, 3 slot, 4 an abort of a partition's
commands, R435), whose, the command that asked for it (queue 64 for a fault policy), the engines that have not acknowledged,
and the edge count of its start (log 110). -/
structure Destroy where
  id : Nat
  kind : Nat
  fn : Nat
  num : Nat
  q : Nat
  sq : Nat
  started : Bool
  waiting : List (Nat × Nat)
  beat : Nat
  deriving DecidableEq, Repr

/-- One version of a sieve table (R161 to R164): its number, width and code lengths by symbol. -/
structure SieveVer where
  num : Nat
  width : Nat
  lens : List Nat
  tag : Nat
  deriving DecidableEq, Repr

/-- What waits for an edge (R16): each is applied at the next edge, or at the edge of the beat named. -/
inductive Deferred where
  /-- A register write that takes effect at the next edge (function, offset, value). -/
  | reg (fn off : Nat) (v : U64)
  /-- A sequence-slot update (R86): the token count, the first page written and the pages; its command completes with it. -/
  | seq (slot fn ctx tokens first : Nat) (pages : List Nat) (q sq : Nat) (g : Option Nat)
  /-- A graph's next version becomes newest, and its patch completes (R359). -/
  | graph (fn g q sq : Nat)
  /-- A queue whose destruction has completed becomes DISABLED (R361). -/
  | queueOff (fn q : Nat)
  /-- A new version of a sieve table takes effect (R163); none empties the table. -/
  | sieve (fn t : Nat) (v : Option SieveVer)
  /-- A command, or the record `g` of a graph launch, that completes at the next edge with a status. -/
  | done (fn q sq : Nat) (g : Option Nat) (status : Nat)
  /-- A power state request (R442). -/
  | power (st : Nat)
  /-- A change of beat length on a STANDALONE package (R27). -/
  | beatLen (len : Nat)
  /-- The device stops work (R439). -/
  | halt
  deriving DecidableEq, Repr

/-! ## What the block sends -/

/-- One message or order that leaves the block, oldest first in `State.out`. -/
inductive Out where
  /-- Bytes written to host memory. -/
  | host (addr : Nat) (bytes : List Byte)
  /-- A read of host memory by a function (R230, R325): address and length. -/
  | hostRead (fn addr len : Nat)
  /-- An MSI-X message (R337). -/
  | msix (fn vec : Nat)
  /-- A cell sent on a port (R260). -/
  | cell (port : Nat) (c : Cell)
  /-- What a read of BAR0 returns (function, offset, value). -/
  | reg (fn off : Nat) (v : U64)
  /-- What a read of BAR2 returns, and whether it is marked poisoned. -/
  | bar2 (fn off : Nat) (bytes : List Byte) (poisoned : Bool)
  /-- A Kwalet message to a session (R487): TYPE, REQ_ID (zero in a notification), STATUS, body. -/
  | kmc (sess typ req status : Nat) (notify : Bool) (bytes : List Byte)
  /-- A request or answer to the host: ATS, PRI, PCIe completions (function, code, argument). -/
  | pcie (fn code arg : Nat)
  /-- A pin or rail order of the module (name code, value). -/
  | pin (code val : Nat)
  deriving DecidableEq, Repr

/-! ## Lyston ports (chapters 11, 12) -/

/-- One acknowledgement waiting to be gathered into a WR_ACK (R264): virtual device, reverse route, its hops,
channel, transaction tag and status; `acc` the member partition and epoch that the request was accepted in, where it was
(R309). -/
structure Ack where
  vd : Nat
  route : List Nat
  nhop : Nat
  vc : Nat
  src : Nat
  epoch : Nat
  ttag : Nat
  status : Nat
  acc : Option (Nat × Nat)
  deriving DecidableEq, Repr

/-- One window of a schedule table (R281): kind 0 TX of a move, 1 forward, 2 reserved; its image words. -/
structure Window where
  w0 : Nat
  w1 : Nat
  deriving DecidableEq, Repr

/-- A schedule table (R281, R284): activation beat, length code, the partition that loaded it and its command, its
windows. -/
structure SchedTable where
  act : Nat
  beatLen : Nat
  fn : Nat
  q : Nat
  sq : Nat
  g : Option Nat
  fresh : Bool
  off : Bool
  windows : List Window
  deriving DecidableEq, Repr

/-- A cell that waits at its output port, and the input port and pool whose buffer it keeps until it leaves, if it was
forwarded (R266, R270). -/
structure Waiting where
  cell : Cell
  held : Option (Nat × Nat)
  deriving DecidableEq, Repr

/-- One Lyston port beside its registers: link sequences and replay buffer (R268), cells that wait for credit, cells sent and
credited per pool (R266), cells received per pool, replays of the oldest sequence, whether a replay waits for credit (R267),
LC cells sent since the last BE cell and the channels last served of each class (R262), data blocks sent since the lanes were
aligned (R253), training (R255, R257: step, consecutive failures, the retry timer, lanes that passed step 2, measurements and
their one repeat, whether the far end is identified), far end as TRAIN_ID gave it, acknowledgements to gather, tag failures of
the beat (R278), the beat in which its last CE was logged (R273), seal counters (R418, R419: BASE and the next counter of each
direction, the far BASE, LINK counters), whether it leaves for step 4 once its replay buffer is empty (R420), schedule tables,
the open window, the next window of the beat, the cell times left, and cells held for windows with their output port (R293).
-/
structure Port where
  txSeq : Nat
  rxSeq : Nat
  replay : List (Nat × Cell)
  wait : List Waiting
  sent : Tab Nat
  credit : Tab Nat
  recv : Tab Nat
  tries : Nat
  trySeq : Nat
  awaiting : Bool
  replayDue : Bool
  lcRun : Nat
  lastLc : Nat
  lastBe : Nat
  blocks : Nat
  step : Nat
  fails : Nat
  retryDue : Bool
  passed : Nat
  meas : List (Nat × Nat)
  repeated : Bool
  ident : Bool
  farVd : Nat
  farSealed : Bool
  farParish : Nat
  acks : List Ack
  tagFails : Nat
  ceBeat : Option Nat
  base : Nat
  used : Nat
  rxBase : Nat
  rxUsed : Nat
  linkTx : Nat
  linkRx : Nat
  reseal : Bool
  active : Option SchedTable
  next : Option SchedTable
  openWin : Option Nat
  winAt : Nat
  winLeft : Nat
  fwd : List (Nat × Cell)
  deriving DecidableEq, Repr

/-- A latch signal sent to a far node whose acknowledgement has not come (R264, R352, R509): its transaction tag,
its sender (0 LATCH.SIG, 1 completion latch, 2 LATCH_SIGNAL command) and whose it is. -/
structure SigOut where
  ttag : Nat
  kind : Nat
  fn : Nat
  q : Nat
  sq : Nat
  g : Option Nat
  deriving DecidableEq, Repr

/-- A request accepted from another node and not yet answered (R201, R309, R310): the port it came by, the cell, the member
partition, and the epoch it counts in. -/
structure Inbound where
  port : Nat
  cell : Cell
  part : Nat
  epoch : Nat
  deriving DecidableEq, Repr

/-- A triple of the flood table (R275) with the edge count of its record (log 110). -/
structure Flood where
  typ : Nat
  origin : Nat
  id : Nat
  beat : Nat
  deriving DecidableEq, Repr

/-! ## Memory and translation (chapters 08, 10, 18) -/

/-- A chunk of a twinned object held for its ledger (R196): twin entry, chunk, and the object's units that differ. -/
structure HeldChunk where
  tw : Nat
  chunk : Nat
  units : List Nat
  deriving DecidableEq, Repr

/-- A shared object mapped into a partition (R335): its function, twin entry and virtual address. -/
structure SharedMap where
  fn : Nat
  tw : Nat
  va : Nat
  deriving DecidableEq, Repr

/-- A registered ledger (R390): its root, the PA of its image, and its counts of levels and chunks. -/
structure Ledger where
  root : List Byte
  image : Nat
  levels : Nat
  chunks : Nat
  deriving DecidableEq, Repr

/-- A wipe of a granule (R200, R510), whether its writes are done, so that the next edge frees the granule, the owner
byte that a reset keeps for it (R430), and whether its turn has come among the quarters of its stack (R510). -/
structure Wipe where
  granule : Nat
  done : Bool
  keep : Option Nat
  begun : Bool
  deriving DecidableEq, Repr

/-- An element of a contribution that waits at its unit (R206): its address, EFMT and bits, and the acknowledgement that it
is owed. -/
structure Contrib where
  pa : Nat
  e : Nat
  v : Nat
  owed : Nat
  deriving DecidableEq, Repr

/-- An acknowledgement that waits until every element of its contribution is applied (R209): to a cell of another node, with
the member partition and epoch that it was accepted in, or to a move of this package, as (core, tag); and the status so
far. -/
structure Owing where
  id : Nat
  cell : Option (Nat × Cell × Nat × Nat)
  move : Option (Nat × Nat)
  status : Nat
  deriving DecidableEq, Repr

/-- A read of another node's memory by a requester other than a move engine (R237, R512): who asked ([0, core, launch] a
preload, [1, function, queue, sequence number, record] a command, [2, handle] a change), its transaction tag, the node,
address and length, whether it was reissued (R312), and the answer as a status with data. -/
structure FarRead where
  who : List Nat
  ttag : Nat
  q : Nat
  lc : Bool
  node : Nat
  addr : Nat
  len : Nat
  retried : Bool
  answer : Option (Nat × List Byte)
  deriving DecidableEq, Repr

/-- A cached pointer entry (R231): the function, the level of the entry (1 to 3), the VA bits above that level's
coverage, and the next table's PA. -/
structure Ptr where
  fn : Nat
  level : Nat
  idx : Nat
  next : Nat
  deriving DecidableEq, Repr

/-- An open replayable fault (R238): its identifier, function and page, the moves attached as (core, tag), and the
fault record, which names the `core` and `tag` that opened it. `written` is false while the record waits for ring space,
`entry` while an open-fault entry is awaited. -/
structure OpenFault where
  id : Nat
  fn : Nat
  page : Nat
  core : Nat
  tag : Nat
  moves : List (Nat × Nat)
  written : Bool
  entry : Bool
  coalesced : Nat
  va : Nat
  cause : Nat
  access : Nat
  beat : Nat
  pte : Nat
  ctx : Nat
  deriving DecidableEq, Repr

/-- An invalidation in progress (R234, R235): its number, the partition's function, the first page and the page count
(none for ALL), the command that asked for it (none for DCTL_XLAT_INV) and its function, and the moves it waits for as (core,
move number). -/
structure Inval where
  id : Nat
  fn : Nat
  range : Option (Nat × Nat)
  cmd : Option (Nat × Nat × Option Nat)
  cfn : Nat
  ats : Bool
  waiting : List (Nat × Nat)
  deriving DecidableEq, Repr

/-- ATS and PRI of one function (R230): whether each is enabled, the page requests that may be outstanding, the
translations cached by 4 KiB page, the page requests sent and those that wait, and the moves that wait for a page as
(core, tag, page). -/
structure Ats where
  on : Bool
  pri : Bool
  quota : Nat
  cached : Tab Nat
  asked : List Nat
  waiting : List Nat
  users : List (Nat × Nat × Nat)
  deriving DecidableEq, Repr

/-- One sieve table of a partition (R163, R164): the version in force, those still held, and loads so far. -/
structure SieveTbl where
  cur : Option SieveVer
  held : List SieveVer
  num : Nat
  deriving DecidableEq, Repr

/-- What the host has set in a function's configuration space (R318, R319, R338): whether MSI-X messages are sent, whether
all its vectors are masked, the aperture size of BAR2 as a power of two, the enable of 10-bit tags, and in PF0 the enable of
the virtual functions. -/
structure FnCfg where
  msix : Bool
  masked : Bool
  bar2 : Nat
  tags10 : Bool
  vfs : Bool
  deriving DecidableEq, Repr

/-- A partition's program log (R393): digests with their launch counts, in order of first load, and the accumulator. -/
structure ProgLog where
  digests : List (List Byte × Nat)
  acc : List Byte
  deriving DecidableEq, Repr

/-! ## Composition (chapter 13) -/

/-- The operands of a composition change (R302, R490); `op` 1 BIND, 2 UNBIND, 3 MOVE_CORE, 4 RETUNE_QOS. -/
structure Compose where
  op : Nat
  part : Nat
  shared : Bool
  join : Bool
  leave : Bool
  dissolve : Bool
  force : Bool
  target : Nat
  at_ : Nat
  vd : Nat
  member : Nat
  members : Nat
  commons : Nat
  core : Nat
  cel : Nat
  t1 : Nat
  t2 : Nat
  mode : Nat
  ports : Nat
  seqs : Nat
  qosVa : Nat
  cores : Nat
  deriving DecidableEq, Repr

/-- A composition change (R303 to R306): its handle and operands, the edge count it was accepted in (log 110), and where it
stands: 0
queued, 1 open, 2 draining, 3 wiping. `old` and `new` are the physical cores of a MOVE_CORE, `fresh` whether nothing is
copied (R315), `rotate` the die whose rotation asked for it, `copied` whether the state copy is done, `shut` whether what an
UNBIND with FORCE or DISSOLVE releases has been shuttered (R306), and `sess` the session that asked for it (none for one that
the device issues). -/
structure Change where
  handle : Nat
  sess : Option Nat
  c : Compose
  accepted : Nat
  phase : Nat
  epoch : Nat
  opened : Nat
  old : Nat
  new : Nat
  fresh : Bool
  rotate : Option Nat
  copied : Bool
  shut : Bool
  deriving DecidableEq, Repr

/-! ## The Kwalet management port (chapter 23) -/

/-- One outstanding request of a session (R487): REQ_ID, TYPE, and its response (status and body) while an earlier one of
the session has still to be answered. -/
structure KReq where
  req : Nat
  typ : Nat
  resp : Option (Nat × List Byte)
  deriving DecidableEq, Repr

/-- An open session (R484): its requests in order, its telemetry subscription, and the highest beat that its telemetry has
been decided for (R492, R25). -/
structure Session where
  id : Nat
  reqs : List KReq
  period : Nat
  mask : Nat
  upTo : Nat
  deriving DecidableEq, Repr

/-- A firmware image being received (R491). -/
structure FwImage where
  sess : Nat
  image : Nat
  len : Nat
  data : Tab Byte
  deriving DecidableEq, Repr

/-- What the device reports to its management controller (R431, R513): a reset that has completed, with its domain, target and
beat, or the map of logical cores after a device warm reset, as (number, IDC_CORE_MAP value). -/
inductive KReport where
  | reset (domain target beat : Nat)
  | coreMap (entries : List (Nat × U64))
  deriving DecidableEq, Repr

/-- The Kwalet management controller: open sessions, COMP_DONE notifications kept for the next one (R494), the firmware
image being received, the two banks of images, the management root (R485), the configuration that flash holds (R493), the
device's reports to it, oldest first, and the logical cores and memory granules that it reserves for the manager's service
contexts (R321). -/
structure Kmc where
  sessions : List Session
  kept : List (List Byte)
  fw : Option FwImage
  bankA : Tab (List Byte)
  bankB : Tab (List Byte)
  root : List Byte
  config : Tab U64
  reports : List KReport
  cores : BitVec 512
  granules : BitVec 80
  deriving DecidableEq, Repr

/-! ## Errors (chapter 19) -/

/-- One error log record (R423). `cls` 0 CE, 1 UCE-C, 2 UCE-P, 3 FATAL, 4 ALARM; `unit` as R511 codes it. -/
structure ErrRec where
  seq : Nat
  cls : Nat
  source : Nat
  status : Nat
  cause : Nat
  beat : Nat
  part : Option Nat
  folded : Bool
  received : Bool
  ctx : Option Nat
  isVa : Bool
  boot : Bool
  node : Nat
  unit : Nat
  queue : Nat
  tag : Nat
  addr : Nat
  cmdSeq : Nat
  count : Nat
  detail : List Byte
  deriving DecidableEq, Repr

/-- A block of the log in eMMC (R426): BOOTS and its number, which its nonce takes, how many records it holds, and its 63
records as they lie sealed under the dump key, their tag last. -/
structure LogBlock where
  boots : Nat
  block : Nat
  count : Nat
  body : List Byte
  deriving DecidableEq, Repr

/-- The error log (R423 to R426): next SEQ, the records on chip, how many of them eMMC does not hold yet, the
blocks in eMMC, oldest first, and the number of the next block since power-up. -/
structure ErrLog where
  next : Nat
  recs : List ErrRec
  unstored : Nat
  stored : List LogBlock
  block : Nat
  deriving DecidableEq, Repr

/-- A reset (R430, R431): its domain code and target, whether a dump is to be captured, and where it stands:
0 decided, 1 draining, 2 stuck, 3 wiping, 4 wiped. `edge` is the edge count of its decision, and from the shuttering on that at
which its drain ends (log 110); `cause` is the class and SEQ of the record behind it, where an error caused it (R438). -/
structure Reset where
  id : Nat
  domain : Nat
  target : Nat
  dump : Bool
  phase : Nat
  edge : Nat
  cause : Option (Nat × Nat)
  deriving DecidableEq, Repr

/-- A crash dump (R438, R440): the SEQ of the record that caused it, its header, and its sections: as they are while it is
staged, and sealed under the dump key, their tag last, in a slot. -/
structure Dump where
  recSeq : Nat
  head : List Byte
  body : List Byte
  deriving DecidableEq, Repr

/-- Crash dumps: one due for capture with its cause, whether an error was logged since it fell due (R441), one staged and not
yet written, dumps since power-up, the four slots, and the slots in the order they were written, oldest first. -/
structure DumpSt where
  due : Option (Option (Nat × Nat))
  erred : Bool
  staged : Option Dump
  count : Nat
  slots : Tab Dump
  ages : List Nat
  deriving DecidableEq, Repr

/-- An abort that an alarm asks of a partition (R435): recorded at the edge count `beat`, running once `started`. -/
structure Abort where
  part : Nat
  beat : Nat
  started : Bool
  deriving DecidableEq, Repr

/-- A command held after a FENCED answer (R436): whose it is, its graph record, and the edge count of the answer. -/
structure FencedHold where
  fn : Nat
  q : Nat
  sq : Nat
  g : Option Nat
  beat : Nat
  deriving DecidableEq, Repr

/-! ## Bells and hints (chapters 20, 21) -/

/-- A pending bell (R469, R470): its origin (0 local, 1 VD cell, 2 FABRIC cell) and target beat. -/
structure Bell where
  origin : Nat
  target : Nat
  deriving DecidableEq, Repr

/-- A pending phase hint (R455): the edge count that it names and its level; `light` for the return to normal mode. -/
structure Hint where
  light : Bool
  edge : Nat
  level : Nat
  deriving DecidableEq, Repr

/-- A captured snapshot (R468): whether one was taken, the registers by function and offset, and the two core records by
logical number. -/
structure Snap where
  taken : Bool
  regs : Tab U64
  cores : Tab (U64 × U64)
  deriving DecidableEq, Repr

/-! ## Security, power, self-test and the module (chapters 17, 20 to 22, 24) -/

/-- An enrolment in progress (R396): the parish ID, partitions, ports, start beat, the report that was returned, and
whether its keys are installed. -/
structure Enrol where
  parish : List Byte
  parts : Nat
  ports : Nat
  start : Nat
  report : List Byte
  keyed : Bool
  deriving DecidableEq, Repr

/-- The security complex beside its key slots: the open lifecycle challenge (R381); a LIFE_AUTH that waits or whose
transition runs, as session, request and authorisation; the recorded owner's key digest; the enrolment; PARISH_ADDs that
wait as (partition, edge); functions whose reports were asked for, in order (R395); the image digests (R388); and the partition
sections of a report as the latest closed beat left them (R394, R403). -/
structure Sec where
  challenge : Option (BitVec 256)
  life : Option (Nat × Nat × LifeAuth)
  busy : Bool
  owner : BitVec 384
  enrol : Option Enrol
  adds : List (Nat × Nat)
  asked : List Nat
  digests : List (BitVec 384)
  closed : Tab (List Byte)
  deriving DecidableEq, Repr

/-- What power control holds beside its registers: a clock step upward that applies at the next edge (R450), domains that
wake (R447), clusters whose A-cycles are stretched and dies with a stretch in this beat (R456), the ballast in W (R455),
whether the core rails' regulators are in their high-current mode, the launches that run degraded in this beat where the
precision stage is taken (R151, R449), whether OFF was asked for (R444), the energy estimated since the last regulators'
report in mJ with the scale that the report before it gave (R458), and the millijoule fractions in µJ that counters carry
(R459): 0 package, 1 ballast, 2 + q partition q. -/
structure Pow where
  up : Option Nat
  waking : List Nat
  droop : List Nat
  drooped : List Nat
  ballast : Nat
  heavy : Bool
  deg : Option (List Nat)
  off : Bool
  est : Nat
  scaleN : Nat
  scaleD : Nat
  frac : Tab Nat
  deriving DecidableEq, Repr

/-- Rotation test on one die (R463 to R466): the cluster whose turn it is, the edges left until the next step is due, and
whether the die's test engine failed at power-up (R462). -/
structure Rot where
  turn : Nat
  left : Nat
  off : Bool
  deriving DecidableEq, Repr

/-- Power-up (R474 to R482): steps done; why it stopped (0 it runs, 1 stopped, 2 the management controller alone, 3 not
released); marks and failures as (step, unit), in order; whether PERST# is deasserted and the host link trained; and whether
release has been reached and waits for that link. -/
structure Boot where
  done : List Nat
  stop : Nat
  marks : List (Nat × Nat)
  perst : Bool
  linked : Bool
  ready : Bool
  deriving DecidableEq, Repr

/-- The module (R496 to R501): PWR_EN and RST_N as the input stage sees them, whether the rails are up, whether a rising edge
of PWR_EN has to come before they may rise again, FAULT_N with its code, the input stage's latest readings (0.1 V, 0.1 A, W
and °C), its status word, and whether the coolant is outside its limits. -/
structure Module where
  pwrEn : Bool
  rstLow : Bool
  rails : Bool
  fault : Bool
  code : Nat
  vin : Nat
  iin : Nat
  pin : Nat
  tin : Nat
  tout : Nat
  status : Nat
  cool : Bool
  deriving DecidableEq, Repr

/-! ## Reasons to stop -/

/-- Why a command stops with a fault. -/
inductive Fault where
  /-- A memory command named a physical address that the map leaves unmapped (R175). Raised by the memory
  commands alone; safe: the block answers no such access. -/
  | unmappedAddress (pa : Nat)
  deriving DecidableEq, Repr

/-- Why a command is refused. -/
inductive Refusal where
  /-- The command has no meaning yet. Raised by exec's arms alone; safe. -/
  | notModelled (mnemonic : String)
  deriving DecidableEq, Repr

/-! ## The state -/

/-- The beat timer of the package (R18 to R27). Instants are N-cycles of the local counter. -/
structure BeatSt where
  /-- Local instant of the next edge. -/
  nextEdge : Int
  /-- Trial edge of an unlocked follower, with the beat it opens, and how many markers agreed (R23). -/
  trial : Option (Int × Nat)
  agreed : Nat
  /-- Differences from the local edge, latest first, of the consecutive markers that lie more than 200 ns off (R23). -/
  far : List Int
  /-- Ports that delivered a valid marker this beat, with its hops (R20). -/
  heard : List (Nat × Nat)
  /-- Beats without a valid marker on the port in use, and on any port (R20, R23). -/
  quietPort : Nat
  quietAll : Nat
  /-- Whether a marker port has been chosen. -/
  chosen : Bool
  /-- Beats spent in HOLDOVER, and whether its limit was reported (R24). -/
  held : Nat
  limitSent : Bool
  /-- A step that the next edge takes: the beat number adopted there (R23, R25). -/
  step : Option Nat
  /-- Length code to adopt at the next edge, with entry into HOLDOVER (R27). -/
  adopt : Option Nat
  /-- The beat that the master's latest marker announced (R19). -/
  marked : Option Nat
  /-- Edges taken since release: what durations in beats are counted by, also across a jump of the beat number (log 110). -/
  edges : Nat
  /-- The beat that closed last, once one has (R336, R376, R394). -/
  last : Option Nat
  /-- A master that was designated in a fabric without a count of its own: the next edge opens beat 0 (R18). -/
  restart : Bool
  deriving DecidableEq, Repr

/-- The whole state of the block. `pending` is the queue of commands that wait, first in first out; `free` is the
MODEL's own counter, which free values are applied to (log 5); `out` is what has been sent; `pview` is the partition whose
context PF0's copy of QOSM_CTX_SEL shows (R322); `mended` holds the twinned 256-byte units repaired in this beat (R201), and
`hot` each memory unit's hottest critical reading in this beat (R191); `fetched` is the records asked for since the last sweep
and `turn` the queue (64 × function + queue) whose turn to fetch is next (R328). -/
structure State where
  pending : List Instr
  free : Nat
  out : List Out
  deferred : List Deferred
  regs : Tab U64
  cnts : Tab Byte
  mem : Tab Byte
  poison : Tab Bool
  bad : List Nat
  dead : List Nat
  chunks : List HeldChunk
  ledgers : Tab Ledger
  shared : List SharedMap
  verified : List Nat
  wipes : List Wipe
  contribs : List Contrib
  owing : List Owing
  nextOwed : Nat
  reads : List FarRead
  mended : List Nat
  hot : Tab Nat
  t2ctr : Tab Nat
  t2base : Tab Nat
  t2node : Tab Nat
  t2cache : Tab (List Nat)
  rollWant : Bool
  tlbs : Tab (List Leaf)
  ctlbs : Tab (List Leaf)
  ptrs : Tab (List Ptr)
  faults : List OpenFault
  nextFault : Nat
  invals : List Inval
  nextInval : Nat
  ats : Tab Ats
  sieve : Tab SieveTbl
  cfgs : Tab FnCfg
  progs : Tab ProgLog
  beat : BeatSt
  cores : Tab Core
  queues : Tab Queue
  fetched : Nat
  turn : Nat
  launches : List Launch
  nextLaunch : Nat
  gruns : List GRun
  ctxs : Tab Ctx
  mobjs : Tab MemObj
  graphs : Tab Graph
  latches : Tab Latch
  slots : Tab SeqSlot
  destroys : List Destroy
  log : ErrLog
  ports : Tab Port
  sigs : List SigOut
  nextSig : Nat
  inbound : List Inbound
  changes : List Change
  nextHandle : Nat
  failed : List Nat
  awaitSpare : List Nat
  halted : Bool
  kmc : Kmc
  flood : List Flood
  alarmId : Nat
  bellId : Nat
  resets : List Reset
  nextReset : Nat
  aborts : List Abort
  fenced : List FencedHold
  parishEnd : Bool
  keys : Tab (List Byte)
  bells : List Bell
  pview : Option Nat
  snap : Snap
  hints : List Hint
  dump : DumpSt
  sec : Sec
  pow : Pow
  rots : Tab Rot
  boot : Boot
  mod : Module
  bridge : Nat
  deriving DecidableEq, Repr

/-- The controller with no session and an empty flash (log 6); what it reserves is free (log 131). -/
def Kmc.fresh : Kmc :=
  { sessions := [], kept := [], fw := none, bankA := [], bankB := [], root := List.replicate 48 0, config := []
    reports := [], cores := Config.kmcCores, granules := Config.kmcGranules }

/-- The beat timer right after release (log 6): unlocked, with its first edge one default beat away. -/
def BeatSt.fresh : BeatSt :=
  { nextEdge := 50000, trial := none, agreed := 0, far := [], heard := [], quietPort := 0,
    quietAll := 0, chosen := false, held := 0, limitSent := false, step := none, adopt := none, marked := none, edges := 0
    last := none, restart := false }

/-- Power control with nothing in progress. -/
def Pow.fresh : Pow :=
  { up := none, waking := [], droop := [], drooped := [], ballast := 0, heavy := false, deg := none, off := false, est := 0
    scaleN := 1, scaleD := 1, frac := [] }

/-- Power-up as release leaves it (R474, log 1): every step done, and the host link trained. -/
def Boot.released : Boot :=
  { done := [1, 2, 3, 4, 5, 6, 7, 8, 9, 10, 11, 12, 13], stop := 0, marks := [], perst := true, linked := true
    ready := true }

/-- The module with its rails up and no fault (log 1). -/
def Module.up : Module :=
  { pwrEn := true, rstLow := false, rails := true, fault := false, code := 0, vin := 0, iin := 0, pin := 0, tin := 0
    tout := 0, status := 0, cool := false }

/-- The block right after reset (R474, R482, log 1): registers at their reset values, memory zero, and nothing in
progress. The queue is empty. -/
def State.reset : State :=
  { pending := [], free := 0, out := [], deferred := [], regs := [], cnts := [], mem := [], poison := [], bad := []
    dead := [], chunks := [], ledgers := [], shared := [], verified := [], wipes := [], contribs := [], owing := [], nextOwed := 0
    reads := [], mended := [], hot := [], t2ctr := [], t2base := []
    t2node := [], t2cache := [], rollWant := false, tlbs := [], ctlbs := [], ptrs := [], faults := [], nextFault := 0
    invals := [], nextInval := 0, ats := [], sieve := [], cfgs := [], progs := [], beat := BeatSt.fresh, cores := [], queues := []
    fetched := 0, turn := 0, launches := [], nextLaunch := 0, gruns := [], ctxs := [], mobjs := [], graphs := [], latches := [], slots := []
    destroys := [], log := { next := 0, recs := [], unstored := 0, stored := [], block := 0 }, ports := [], sigs := []
    nextSig := 0, inbound := [], changes := [], nextHandle := 0, failed := [], awaitSpare := [], halted := false
    kmc := Kmc.fresh, flood := [], alarmId := 0, bellId := 0, resets := [], nextReset := 0, aborts := [], fenced := []
    parishEnd := false, keys := [], bells := [], pview := none, snap := { taken := false, regs := [], cores := [] }
    hints := [], dump := { due := none, erred := false, staged := none, count := 0, slots := [], ages := [] }
    sec := { challenge := none, life := none, busy := false, owner := 0, enrol := none, adds := [], asked := []
             digests := [], closed := [] }
    pow := Pow.fresh, rots := [], boot := Boot.released, mod := Module.up, bridge := 0 }

end Sys2Proof.Machine
end

