-- ==== Sys2Proof/Machine/Regs.lean ====
section
/-! DEFINITION. The BAR0 registers of the field maps (R320, R508): for each field its register's offset, the
pitch of its array and its bits, and for each register its writable bits, its W1C flags and its reset value. -/

namespace Sys2Proof.Machine

/-! DCTL_BEAT_CFG (chapter 02). -/

/-- DCTL_BEAT_CFG.MASTER_NODE, bits [47:32]. -/
def Reg.DCTL_BEAT_CFG.MASTER_NODE : Fld := ⟨0x1000100, 0, 32, 16⟩
/-- DCTL_BEAT_CFG.LEAD, bits [31:24]. -/
def Reg.DCTL_BEAT_CFG.LEAD : Fld := ⟨0x1000100, 0, 24, 8⟩
/-- DCTL_BEAT_CFG.HOLD_LIM, bits [23:16]. -/
def Reg.DCTL_BEAT_CFG.HOLD_LIM : Fld := ⟨0x1000100, 0, 16, 8⟩
/-- DCTL_BEAT_CFG.ROLE, bits [15:14]. -/
def Reg.DCTL_BEAT_CFG.ROLE : Fld := ⟨0x1000100, 0, 14, 2⟩
/-- DCTL_BEAT_CFG.BEAT_LEN, bits [5:0]. -/
def Reg.DCTL_BEAT_CFG.BEAT_LEN : Fld := ⟨0x1000100, 0, 0, 6⟩

/-! DCTL_BEAT_NEXT (chapter 02). -/

/-- DCTL_BEAT_NEXT.NEXT_LEN, bits [53:48]. -/
def Reg.DCTL_BEAT_NEXT.NEXT_LEN : Fld := ⟨0x1000108, 0, 48, 6⟩
/-- DCTL_BEAT_NEXT.CHANGE_AT, bits [47:0]. -/
def Reg.DCTL_BEAT_NEXT.CHANGE_AT : Fld := ⟨0x1000108, 0, 0, 48⟩

/-! DCTL_BEAT_STAT (chapter 02). -/

/-- DCTL_BEAT_STAT.LOCK, bits [63:62]. -/
def Reg.DCTL_BEAT_STAT.LOCK : Fld := ⟨0x1000110, 0, 62, 2⟩
/-- DCTL_BEAT_STAT.HOPS, bits [61:59]. -/
def Reg.DCTL_BEAT_STAT.HOPS : Fld := ⟨0x1000110, 0, 59, 3⟩
/-- DCTL_BEAT_STAT.PORT, bits [58:54]. -/
def Reg.DCTL_BEAT_STAT.PORT : Fld := ⟨0x1000110, 0, 54, 5⟩
/-- DCTL_BEAT_STAT.BEAT_NUM_JUMP, bits [18:18]. -/
def Reg.DCTL_BEAT_STAT.BEAT_NUM_JUMP : Fld := ⟨0x1000110, 0, 18, 1⟩
/-- DCTL_BEAT_STAT.BEAT_LEAD_SHORT, bits [17:17]. -/
def Reg.DCTL_BEAT_STAT.BEAT_LEAD_SHORT : Fld := ⟨0x1000110, 0, 17, 1⟩
/-- DCTL_BEAT_STAT.BEAT_HOLDOVER, bits [16:16]. -/
def Reg.DCTL_BEAT_STAT.BEAT_HOLDOVER : Fld := ⟨0x1000110, 0, 16, 1⟩
/-- DCTL_BEAT_STAT.LAST_CORR, bits [15:0]. -/
def Reg.DCTL_BEAT_STAT.LAST_CORR : Fld := ⟨0x1000110, 0, 0, 16⟩

/-! DCTL_BEAT_NUM (chapter 02). -/

/-- DCTL_BEAT_NUM.BEAT_NUM, bits [47:0]. -/
def Reg.DCTL_BEAT_NUM.BEAT_NUM : Fld := ⟨0x1000118, 0, 0, 48⟩

/-! IDC_TOPO (chapter 03). -/

/-- IDC_TOPO.BRIDGE_HALF, bits [49:49]. -/
def Reg.IDC_TOPO.BRIDGE_HALF : Fld := ⟨0x8000, 0, 49, 1⟩
/-- IDC_TOPO.UNIFORM, bits [48:48]. -/
def Reg.IDC_TOPO.UNIFORM : Fld := ⟨0x8000, 0, 48, 1⟩
/-- IDC_TOPO.L_PER_CLUSTER, bits [42:38]. -/
def Reg.IDC_TOPO.L_PER_CLUSTER : Fld := ⟨0x8000, 0, 38, 5⟩
/-- IDC_TOPO.SPARES_FREE, bits [37:32]. -/
def Reg.IDC_TOPO.SPARES_FREE : Fld := ⟨0x8000, 0, 32, 6⟩
/-- IDC_TOPO.DIE1_CNT, bits [24:16]. -/
def Reg.IDC_TOPO.DIE1_CNT : Fld := ⟨0x8000, 0, 16, 9⟩
/-- IDC_TOPO.DIE0_CNT, bits [8:0]. -/
def Reg.IDC_TOPO.DIE0_CNT : Fld := ⟨0x8000, 0, 0, 9⟩

/-! IDC_CORE_MAP (chapter 03). -/

/-- IDC_CORE_MAP.STATE, bits [33:32]. -/
def Reg.IDC_CORE_MAP.STATE : Fld := ⟨0x9000, 8, 32, 2⟩
/-- IDC_CORE_MAP.OWNED, bits [23:23]. -/
def Reg.IDC_CORE_MAP.OWNED : Fld := ⟨0x9000, 8, 23, 1⟩
/-- IDC_CORE_MAP.PART, bits [22:18]. -/
def Reg.IDC_CORE_MAP.PART : Fld := ⟨0x9000, 8, 18, 5⟩
/-- IDC_CORE_MAP.DIE, bits [12:12]. -/
def Reg.IDC_CORE_MAP.DIE : Fld := ⟨0x9000, 8, 12, 1⟩
/-- IDC_CORE_MAP.CLUSTER, bits [11:8]. -/
def Reg.IDC_CORE_MAP.CLUSTER : Fld := ⟨0x9000, 8, 8, 4⟩
/-- IDC_CORE_MAP.K, bits [4:0]. -/
def Reg.IDC_CORE_MAP.K : Fld := ⟨0x9000, 8, 0, 5⟩

/-! IDC_PCORE_STAT (chapter 03). -/

/-- IDC_PCORE_STAT.LAST_TEST, bits [63:16]. -/
def Reg.IDC_PCORE_STAT.LAST_TEST : Fld := ⟨0xa000, 8, 16, 48⟩
/-- IDC_PCORE_STAT.STATE, bits [15:13]. -/
def Reg.IDC_PCORE_STAT.STATE : Fld := ⟨0xa000, 8, 13, 3⟩
/-- IDC_PCORE_STAT.CAUSE, bits [12:11]. -/
def Reg.IDC_PCORE_STAT.CAUSE : Fld := ⟨0xa000, 8, 11, 2⟩
/-- IDC_PCORE_STAT.LOGICAL, bits [9:0]. -/
def Reg.IDC_PCORE_STAT.LOGICAL : Fld := ⟨0xa000, 8, 0, 10⟩

/-! PCTL_CORE_EXC0 (chapter 04). -/

/-- PCTL_CORE_EXC0.VALID, bits [63:63]. -/
def Reg.PCTL_CORE_EXC0.VALID : Fld := ⟨0x18000, 16, 63, 1⟩
/-- PCTL_CORE_EXC0.KIND, bits [62:59]. -/
def Reg.PCTL_CORE_EXC0.KIND : Fld := ⟨0x18000, 16, 59, 4⟩
/-- PCTL_CORE_EXC0.PRECISE, bits [58:58]. -/
def Reg.PCTL_CORE_EXC0.PRECISE : Fld := ⟨0x18000, 16, 58, 1⟩
/-- PCTL_CORE_EXC0.SLOT, bits [57:56]. -/
def Reg.PCTL_CORE_EXC0.SLOT : Fld := ⟨0x18000, 16, 56, 2⟩
/-- PCTL_CORE_EXC0.ENGINE, bits [55:54]. -/
def Reg.PCTL_CORE_EXC0.ENGINE : Fld := ⟨0x18000, 16, 54, 2⟩
/-- PCTL_CORE_EXC0.TAG, bits [53:48]. -/
def Reg.PCTL_CORE_EXC0.TAG : Fld := ⟨0x18000, 16, 48, 6⟩
/-- PCTL_CORE_EXC0.TD, bits [47:43]. -/
def Reg.PCTL_CORE_EXC0.TD : Fld := ⟨0x18000, 16, 43, 5⟩
/-- PCTL_CORE_EXC0.QPOS, bits [42:40]. -/
def Reg.PCTL_CORE_EXC0.QPOS : Fld := ⟨0x18000, 16, 40, 3⟩
/-- PCTL_CORE_EXC0.MORE, bits [39:32]. -/
def Reg.PCTL_CORE_EXC0.MORE : Fld := ⟨0x18000, 16, 32, 8⟩
/-- PCTL_CORE_EXC0.BUNDLE, bits [26:16]. -/
def Reg.PCTL_CORE_EXC0.BUNDLE : Fld := ⟨0x18000, 16, 16, 11⟩
/-- PCTL_CORE_EXC0.BEAT_LO, bits [15:0]. -/
def Reg.PCTL_CORE_EXC0.BEAT_LO : Fld := ⟨0x18000, 16, 0, 16⟩

/-! PCTL_CORE_EXC1 (chapter 04). -/

/-- PCTL_CORE_EXC1.VA, bits [55:0]. -/
def Reg.PCTL_CORE_EXC1.VA : Fld := ⟨0x18008, 16, 0, 56⟩

/-! PCTL_NUM_STAT (chapter 06). -/

/-- PCTL_NUM_STAT.DEG_CORE_BEATS, bits [63:32]. -/
def Reg.PCTL_NUM_STAT.DEG_CORE_BEATS : Fld := ⟨0x10200, 0, 32, 32⟩
/-- PCTL_NUM_STAT.DEGRADED, bits [2:2]. -/
def Reg.PCTL_NUM_STAT.DEGRADED : Fld := ⟨0x10200, 0, 2, 1⟩
/-- PCTL_NUM_STAT.DEG_NOW, bits [0:0]. -/
def Reg.PCTL_NUM_STAT.DEG_NOW : Fld := ⟨0x10200, 0, 0, 1⟩

/-! PCTL_SIEVE_STAT (chapter 07). -/

/-- PCTL_SIEVE_STAT.ERR_BLOCKS, bits [63:32]. -/
def Reg.PCTL_SIEVE_STAT.ERR_BLOCKS : Fld := ⟨0x10300, 0, 32, 32⟩
/-- PCTL_SIEVE_STAT.LAST_CAUSE, bits [11:8]. -/
def Reg.PCTL_SIEVE_STAT.LAST_CAUSE : Fld := ⟨0x10300, 0, 8, 4⟩
/-- PCTL_SIEVE_STAT.SIEVE_ERR, bits [0:0]. -/
def Reg.PCTL_SIEVE_STAT.SIEVE_ERR : Fld := ⟨0x10300, 0, 0, 1⟩

/-! PCTL_SIEVE_TBL (chapter 07). -/

/-- PCTL_SIEVE_TBL.TAG, bits [63:32]. -/
def Reg.PCTL_SIEVE_TBL.TAG : Fld := ⟨0x10380, 8, 32, 32⟩
/-- PCTL_SIEVE_TBL.GEN, bits [15:8]. -/
def Reg.PCTL_SIEVE_TBL.GEN : Fld := ⟨0x10380, 8, 8, 8⟩
/-- PCTL_SIEVE_TBL.EXP_WIDTH, bits [7:4]. -/
def Reg.PCTL_SIEVE_TBL.EXP_WIDTH : Fld := ⟨0x10380, 8, 4, 4⟩
/-- PCTL_SIEVE_TBL.OLD_HELD, bits [1:1]. -/
def Reg.PCTL_SIEVE_TBL.OLD_HELD : Fld := ⟨0x10380, 8, 1, 1⟩
/-- PCTL_SIEVE_TBL.VALID, bits [0:0]. -/
def Reg.PCTL_SIEVE_TBL.VALID : Fld := ⟨0x10380, 8, 0, 1⟩

/-! DCTL_CARVE_T1 (chapter 08). -/

/-- DCTL_CARVE_T1.PRESENT, bits [33:33]. -/
def Reg.DCTL_CARVE_T1.PRESENT : Fld := ⟨0x1002000, 8, 33, 1⟩
/-- DCTL_CARVE_T1.MODE, bits [32:32]. -/
def Reg.DCTL_CARVE_T1.MODE : Fld := ⟨0x1002000, 8, 32, 1⟩
/-- DCTL_CARVE_T1.Q3, bits [31:24]. -/
def Reg.DCTL_CARVE_T1.Q3 : Fld := ⟨0x1002000, 8, 24, 8⟩
/-- DCTL_CARVE_T1.Q2, bits [23:16]. -/
def Reg.DCTL_CARVE_T1.Q2 : Fld := ⟨0x1002000, 8, 16, 8⟩
/-- DCTL_CARVE_T1.Q1, bits [15:8]. -/
def Reg.DCTL_CARVE_T1.Q1 : Fld := ⟨0x1002000, 8, 8, 8⟩
/-- DCTL_CARVE_T1.Q0, bits [7:0]. -/
def Reg.DCTL_CARVE_T1.Q0 : Fld := ⟨0x1002000, 8, 0, 8⟩

/-! DCTL_CARVE_CEL (chapter 08). -/

/-- DCTL_CARVE_CEL.G7, bits [63:0]. -/
def Reg.DCTL_CARVE_CEL.G7 : Fld := ⟨0x1002080, 8, 0, 64⟩

/-! DCTL_CARVE_T2 (chapter 08). -/

/-- DCTL_CARVE_T2.L7, bits [63:0]. -/
def Reg.DCTL_CARVE_T2.L7 : Fld := ⟨0x10020a0, 8, 0, 64⟩

/-! PCTL_MEM_CARVE (chapter 08). -/

/-- PCTL_MEM_CARVE.CEL, bits [63:48]. -/
def Reg.PCTL_MEM_CARVE.CEL : Fld := ⟨0x10400, 0, 48, 16⟩
/-- PCTL_MEM_CARVE.T1, bits [47:0]. -/
def Reg.PCTL_MEM_CARVE.T1 : Fld := ⟨0x10400, 0, 0, 48⟩

/-! PCTL_MEM_CARVE2 (chapter 08). -/

/-- PCTL_MEM_CARVE2.COMMONS_TIB, bits [63:56]. -/
def Reg.PCTL_MEM_CARVE2.COMMONS_TIB : Fld := ⟨0x10408, 0, 56, 8⟩
/-- PCTL_MEM_CARVE2.SHARED_MAP, bits [16:16]. -/
def Reg.PCTL_MEM_CARVE2.SHARED_MAP : Fld := ⟨0x10408, 0, 16, 1⟩
/-- PCTL_MEM_CARVE2.T2, bits [15:0]. -/
def Reg.PCTL_MEM_CARVE2.T2 : Fld := ⟨0x10408, 0, 0, 16⟩

/-! DCTL_MEM_CFG (chapter 08). -/

/-- DCTL_MEM_CFG.T1_RATE, bits [63:56]. -/
def Reg.DCTL_MEM_CFG.T1_RATE : Fld := ⟨0x1002200, 0, 56, 8⟩
/-- DCTL_MEM_CFG.T1_TRAINED, bits [55:48]. -/
def Reg.DCTL_MEM_CFG.T1_TRAINED : Fld := ⟨0x1002200, 0, 48, 8⟩
/-- DCTL_MEM_CFG.T2_RATE, bits [47:40]. -/
def Reg.DCTL_MEM_CFG.T2_RATE : Fld := ⟨0x1002200, 0, 40, 8⟩
/-- DCTL_MEM_CFG.T2_TRAINED, bits [39:32]. -/
def Reg.DCTL_MEM_CFG.T2_TRAINED : Fld := ⟨0x1002200, 0, 32, 8⟩
/-- DCTL_MEM_CFG.PATROL_H, bits [31:24]. -/
def Reg.DCTL_MEM_CFG.PATROL_H : Fld := ⟨0x1002200, 0, 24, 8⟩
/-- DCTL_MEM_CFG.VERIFY_H, bits [23:16]. -/
def Reg.DCTL_MEM_CFG.VERIFY_H : Fld := ⟨0x1002200, 0, 16, 8⟩

/-! DCTL_TWIN0 (chapter 08). -/

/-- DCTL_TWIN0.VALID, bits [63:63]. -/
def Reg.DCTL_TWIN0.VALID : Fld := ⟨0x1003000, 16, 63, 1⟩
/-- DCTL_TWIN0.VERIFY, bits [62:62]. -/
def Reg.DCTL_TWIN0.VERIFY : Fld := ⟨0x1003000, 16, 62, 1⟩
/-- DCTL_TWIN0.DAMAGED, bits [61:61]. -/
def Reg.DCTL_TWIN0.DAMAGED : Fld := ⟨0x1003000, 16, 61, 1⟩
/-- DCTL_TWIN0.LEDGER, bits [60:60]. -/
def Reg.DCTL_TWIN0.LEDGER : Fld := ⟨0x1003000, 16, 60, 1⟩
/-- DCTL_TWIN0.TIER, bits [59:58]. -/
def Reg.DCTL_TWIN0.TIER : Fld := ⟨0x1003000, 16, 58, 2⟩
/-- DCTL_TWIN0.PRIMARY, bits [43:16]. -/
def Reg.DCTL_TWIN0.PRIMARY : Fld := ⟨0x1003000, 16, 16, 28⟩
/-- DCTL_TWIN0.OBJECT, bits [15:0]. -/
def Reg.DCTL_TWIN0.OBJECT : Fld := ⟨0x1003000, 16, 0, 16⟩

/-! DCTL_TWIN1 (chapter 08). -/

/-- DCTL_TWIN1.LENGTH, bits [63:44]. -/
def Reg.DCTL_TWIN1.LENGTH : Fld := ⟨0x1003008, 16, 44, 20⟩
/-- DCTL_TWIN1.TWIN, bits [43:16]. -/
def Reg.DCTL_TWIN1.TWIN : Fld := ⟨0x1003008, 16, 16, 28⟩

/-! DCTL_MEMSTAT (chapter 08). -/

/-- DCTL_MEMSTAT.CE_COUNT, bits [63:48]. -/
def Reg.DCTL_MEMSTAT.CE_COUNT : Fld := ⟨0x1002100, 8, 48, 16⟩
/-- DCTL_MEMSTAT.UCE_COUNT, bits [47:40]. -/
def Reg.DCTL_MEMSTAT.UCE_COUNT : Fld := ⟨0x1002100, 8, 40, 8⟩
/-- DCTL_MEMSTAT.TEMP, bits [39:32]. -/
def Reg.DCTL_MEMSTAT.TEMP : Fld := ⟨0x1002100, 8, 32, 8⟩
/-- DCTL_MEMSTAT.STEP, bits [31:29]. -/
def Reg.DCTL_MEMSTAT.STEP : Fld := ⟨0x1002100, 8, 29, 3⟩
/-- DCTL_MEMSTAT.PRESENT, bits [28:28]. -/
def Reg.DCTL_MEMSTAT.PRESENT : Fld := ⟨0x1002100, 8, 28, 1⟩
/-- DCTL_MEMSTAT.THROTTLE, bits [4:4]. -/
def Reg.DCTL_MEMSTAT.THROTTLE : Fld := ⟨0x1002100, 8, 4, 1⟩
/-- DCTL_MEMSTAT.STOP, bits [3:3]. -/
def Reg.DCTL_MEMSTAT.STOP : Fld := ⟨0x1002100, 8, 3, 1⟩
/-- DCTL_MEMSTAT.UCE, bits [2:2]. -/
def Reg.DCTL_MEMSTAT.UCE : Fld := ⟨0x1002100, 8, 2, 1⟩
/-- DCTL_MEMSTAT.CE, bits [1:1]. -/
def Reg.DCTL_MEMSTAT.CE : Fld := ⟨0x1002100, 8, 1, 1⟩

/-! DCTL_MSU_CFG (chapter 09). -/

/-- DCTL_MSU_CFG.OFFER_TIMEOUT, bits [15:0]. -/
def Reg.DCTL_MSU_CFG.OFFER_TIMEOUT : Fld := ⟨0x1003800, 0, 0, 16⟩

/-! PCTL_MSU_STAT (chapter 09). -/

/-- PCTL_MSU_STAT.CLAIM_OK, bits [63:44]. -/
def Reg.PCTL_MSU_STAT.CLAIM_OK : Fld := ⟨0x10500, 0, 44, 20⟩
/-- PCTL_MSU_STAT.CLAIM_CMP, bits [43:24]. -/
def Reg.PCTL_MSU_STAT.CLAIM_CMP : Fld := ⟨0x10500, 0, 24, 20⟩
/-- PCTL_MSU_STAT.CLAIM_RULE, bits [23:4]. -/
def Reg.PCTL_MSU_STAT.CLAIM_RULE : Fld := ⟨0x10500, 0, 4, 20⟩
/-- PCTL_MSU_STAT.CLAIM_RULE_SEEN, bits [0:0]. -/
def Reg.PCTL_MSU_STAT.CLAIM_RULE_SEEN : Fld := ⟨0x10500, 0, 0, 1⟩

/-! XLAT_ROOT (chapter 10). -/

/-- XLAT_ROOT.ROOT, bits [43:13]. -/
def Reg.XLAT_ROOT.ROOT : Fld := ⟨0xa0000, 0, 13, 31⟩
/-- XLAT_ROOT.VALID, bits [0:0]. -/
def Reg.XLAT_ROOT.VALID : Fld := ⟨0xa0000, 0, 0, 1⟩

/-! DCTL_XLAT_INV (chapter 10). -/

/-- DCTL_XLAT_INV.SCOPE, bits [63:62]. -/
def Reg.DCTL_XLAT_INV.SCOPE : Fld := ⟨0x1004000, 0, 62, 2⟩
/-- DCTL_XLAT_INV.PART, bits [61:57]. -/
def Reg.DCTL_XLAT_INV.PART : Fld := ⟨0x1004000, 0, 57, 5⟩
/-- DCTL_XLAT_INV.VA, bits [55:16]. -/
def Reg.DCTL_XLAT_INV.VA : Fld := ⟨0x1004000, 0, 16, 40⟩
/-- DCTL_XLAT_INV.PAGES, bits [15:0]. -/
def Reg.DCTL_XLAT_INV.PAGES : Fld := ⟨0x1004000, 0, 0, 16⟩

/-! DCTL_XLAT_INVSTAT (chapter 10). -/

/-- DCTL_XLAT_INVSTAT.DONE, bits [15:8]. -/
def Reg.DCTL_XLAT_INVSTAT.DONE : Fld := ⟨0x1004008, 0, 8, 8⟩
/-- DCTL_XLAT_INVSTAT.IGNORED, bits [1:1]. -/
def Reg.DCTL_XLAT_INVSTAT.IGNORED : Fld := ⟨0x1004008, 0, 1, 1⟩
/-- DCTL_XLAT_INVSTAT.BUSY, bits [0:0]. -/
def Reg.DCTL_XLAT_INVSTAT.BUSY : Fld := ⟨0x1004008, 0, 0, 1⟩

/-! XLAT_FRING_CFG (chapter 10). -/

/-- XLAT_FRING_CFG.EN, bits [63:63]. -/
def Reg.XLAT_FRING_CFG.EN : Fld := ⟨0xa0010, 0, 63, 1⟩
/-- XLAT_FRING_CFG.BASE, bits [51:12]. -/
def Reg.XLAT_FRING_CFG.BASE : Fld := ⟨0xa0010, 0, 12, 40⟩
/-- XLAT_FRING_CFG.VECTOR, bits [9:4]. -/
def Reg.XLAT_FRING_CFG.VECTOR : Fld := ⟨0xa0010, 0, 4, 6⟩
/-- XLAT_FRING_CFG.SIZE, bits [3:0]. -/
def Reg.XLAT_FRING_CFG.SIZE : Fld := ⟨0xa0010, 0, 0, 4⟩

/-! XLAT_FRING_IDX (chapter 10). -/

/-- XLAT_FRING_IDX.PROD, bits [63:32]. -/
def Reg.XLAT_FRING_IDX.PROD : Fld := ⟨0xa0018, 0, 32, 32⟩
/-- XLAT_FRING_IDX.CONS, bits [31:0]. -/
def Reg.XLAT_FRING_IDX.CONS : Fld := ⟨0xa0018, 0, 0, 32⟩

/-! XLAT_RESUME (chapter 10). -/

/-- XLAT_RESUME.ACTION, bits [63:62]. -/
def Reg.XLAT_RESUME.ACTION : Fld := ⟨0xa0020, 0, 62, 2⟩
/-- XLAT_RESUME.FAULT_ID, bits [15:0]. -/
def Reg.XLAT_RESUME.FAULT_ID : Fld := ⟨0xa0020, 0, 0, 16⟩

/-! XLAT_STAT (chapter 10). -/

/-- XLAT_STAT.OPEN, bits [63:48]. -/
def Reg.XLAT_STAT.OPEN : Fld := ⟨0xa0028, 0, 48, 16⟩
/-- XLAT_STAT.BAD_RESUME, bits [3:3]. -/
def Reg.XLAT_STAT.BAD_RESUME : Fld := ⟨0xa0028, 0, 3, 1⟩
/-- XLAT_STAT.FRING_FULL, bits [2:2]. -/
def Reg.XLAT_STAT.FRING_FULL : Fld := ⟨0xa0028, 0, 2, 1⟩
/-- XLAT_STAT.OPEN_FULL, bits [1:1]. -/
def Reg.XLAT_STAT.OPEN_FULL : Fld := ⟨0xa0028, 0, 1, 1⟩
/-- XLAT_STAT.FAULT, bits [0:0]. -/
def Reg.XLAT_STAT.FAULT : Fld := ⟨0xa0028, 0, 0, 1⟩

/-! XLAT_FQUERY (chapter 10). -/

/-- XLAT_FQUERY.OPEN, bits [63:63]. -/
def Reg.XLAT_FQUERY.OPEN : Fld := ⟨0xa0030, 0, 63, 1⟩
/-- XLAT_FQUERY.ATTACHED, bits [47:32]. -/
def Reg.XLAT_FQUERY.ATTACHED : Fld := ⟨0xa0030, 0, 32, 16⟩
/-- XLAT_FQUERY.FAULT_ID, bits [15:0]. -/
def Reg.XLAT_FQUERY.FAULT_ID : Fld := ⟨0xa0030, 0, 0, 16⟩

/-! DCTL_DLOG_CFG (chapter 10). -/

/-- DCTL_DLOG_CFG.EN, bits [63:63]. -/
def Reg.DCTL_DLOG_CFG.EN : Fld := ⟨0x1004100, 16, 63, 1⟩
/-- DCTL_DLOG_CFG.BASE, bits [43:13]. -/
def Reg.DCTL_DLOG_CFG.BASE : Fld := ⟨0x1004100, 16, 13, 31⟩
/-- DCTL_DLOG_CFG.OVF, bits [1:1]. -/
def Reg.DCTL_DLOG_CFG.OVF : Fld := ⟨0x1004100, 16, 1, 1⟩

/-! DCTL_DLOG_WIN (chapter 10). -/

/-- DCTL_DLOG_WIN.LO, bits [63:36]. -/
def Reg.DCTL_DLOG_WIN.LO : Fld := ⟨0x1004108, 16, 36, 28⟩
/-- DCTL_DLOG_WIN.PAGES, bits [27:0]. -/
def Reg.DCTL_DLOG_WIN.PAGES : Fld := ⟨0x1004108, 16, 0, 28⟩

/-! DCTL_LYS_PCFG (chapter 11). -/

/-- DCTL_LYS_PCFG.VD, bits [63:48]. -/
def Reg.DCTL_LYS_PCFG.VD : Fld := ⟨0x1006000, 64, 48, 16⟩
/-- DCTL_LYS_PCFG.BOUND, bits [47:47]. -/
def Reg.DCTL_LYS_PCFG.BOUND : Fld := ⟨0x1006000, 64, 47, 1⟩
/-- DCTL_LYS_PCFG.PART, bits [46:42]. -/
def Reg.DCTL_LYS_PCFG.PART : Fld := ⟨0x1006000, 64, 42, 5⟩
/-- DCTL_LYS_PCFG.SEALED, bits [41:41]. -/
def Reg.DCTL_LYS_PCFG.SEALED : Fld := ⟨0x1006000, 64, 41, 1⟩
/-- DCTL_LYS_PCFG.WIDTH_MIN, bits [40:39]. -/
def Reg.DCTL_LYS_PCFG.WIDTH_MIN : Fld := ⟨0x1006000, 64, 39, 2⟩
/-- DCTL_LYS_PCFG.RETRY_LIM, bits [38:35]. -/
def Reg.DCTL_LYS_PCFG.RETRY_LIM : Fld := ⟨0x1006000, 64, 35, 4⟩
/-- DCTL_LYS_PCFG.TAG_LIM, bits [34:27]. -/
def Reg.DCTL_LYS_PCFG.TAG_LIM : Fld := ⟨0x1006000, 64, 27, 8⟩
/-- DCTL_LYS_PCFG.EN, bits [26:26]. -/
def Reg.DCTL_LYS_PCFG.EN : Fld := ⟨0x1006000, 64, 26, 1⟩

/-! DCTL_LYS_PSTAT (chapter 11). -/

/-- DCTL_LYS_PSTAT.STATE, bits [63:61]. -/
def Reg.DCTL_LYS_PSTAT.STATE : Fld := ⟨0x1006008, 64, 61, 3⟩
/-- DCTL_LYS_PSTAT.FAR_PORT, bits [60:56]. -/
def Reg.DCTL_LYS_PSTAT.FAR_PORT : Fld := ⟨0x1006008, 64, 56, 5⟩
/-- DCTL_LYS_PSTAT.FAR_NODE, bits [55:40]. -/
def Reg.DCTL_LYS_PSTAT.FAR_NODE : Fld := ⟨0x1006008, 64, 40, 16⟩
/-- DCTL_LYS_PSTAT.LANES, bits [39:24]. -/
def Reg.DCTL_LYS_PSTAT.LANES : Fld := ⟨0x1006008, 64, 24, 16⟩
/-- DCTL_LYS_PSTAT.VD_MATCH, bits [23:23]. -/
def Reg.DCTL_LYS_PSTAT.VD_MATCH : Fld := ⟨0x1006008, 64, 23, 1⟩
/-- DCTL_LYS_PSTAT.SEALED_NOW, bits [22:22]. -/
def Reg.DCTL_LYS_PSTAT.SEALED_NOW : Fld := ⟨0x1006008, 64, 22, 1⟩
/-- DCTL_LYS_PSTAT.LASER_LOSS, bits [7:7]. -/
def Reg.DCTL_LYS_PSTAT.LASER_LOSS : Fld := ⟨0x1006008, 64, 7, 1⟩
/-- DCTL_LYS_PSTAT.SCHED_OVF, bits [6:6]. -/
def Reg.DCTL_LYS_PSTAT.SCHED_OVF : Fld := ⟨0x1006008, 64, 6, 1⟩
/-- DCTL_LYS_PSTAT.ROUTE_ERR, bits [5:5]. -/
def Reg.DCTL_LYS_PSTAT.ROUTE_ERR : Fld := ⟨0x1006008, 64, 5, 1⟩
/-- DCTL_LYS_PSTAT.VD_MISMATCH, bits [4:4]. -/
def Reg.DCTL_LYS_PSTAT.VD_MISMATCH : Fld := ⟨0x1006008, 64, 4, 1⟩
/-- DCTL_LYS_PSTAT.TAG_FAIL, bits [3:3]. -/
def Reg.DCTL_LYS_PSTAT.TAG_FAIL : Fld := ⟨0x1006008, 64, 3, 1⟩
/-- DCTL_LYS_PSTAT.RETRAIN, bits [2:2]. -/
def Reg.DCTL_LYS_PSTAT.RETRAIN : Fld := ⟨0x1006008, 64, 2, 1⟩
/-- DCTL_LYS_PSTAT.DOWN_EVT, bits [1:1]. -/
def Reg.DCTL_LYS_PSTAT.DOWN_EVT : Fld := ⟨0x1006008, 64, 1, 1⟩

/-! DCTL_LYS_DLY (chapter 11). -/

/-- DCTL_LYS_DLY.D_LINK, bits [63:48]. -/
def Reg.DCTL_LYS_DLY.D_LINK : Fld := ⟨0x1006010, 64, 48, 16⟩
/-- DCTL_LYS_DLY.RTT, bits [47:32]. -/
def Reg.DCTL_LYS_DLY.RTT : Fld := ⟨0x1006010, 64, 32, 16⟩
/-- DCTL_LYS_DLY.TURN, bits [31:16]. -/
def Reg.DCTL_LYS_DLY.TURN : Fld := ⟨0x1006010, 64, 16, 16⟩
/-- DCTL_LYS_DLY.SPREAD, bits [15:8]. -/
def Reg.DCTL_LYS_DLY.SPREAD : Fld := ⟨0x1006010, 64, 8, 8⟩

/-! DCTL_LYS_CNT0 (chapter 11). -/

/-- DCTL_LYS_CNT0.FEC_CORR, bits [63:32]. -/
def Reg.DCTL_LYS_CNT0.FEC_CORR : Fld := ⟨0x1006018, 64, 32, 32⟩
/-- DCTL_LYS_CNT0.FEC_UNC, bits [31:16]. -/
def Reg.DCTL_LYS_CNT0.FEC_UNC : Fld := ⟨0x1006018, 64, 16, 16⟩
/-- DCTL_LYS_CNT0.REPLAY, bits [15:0]. -/
def Reg.DCTL_LYS_CNT0.REPLAY : Fld := ⟨0x1006018, 64, 0, 16⟩

/-! DCTL_LYS_CNT1 (chapter 11). -/

/-- DCTL_LYS_CNT1.TAG_FAIL, bits [63:48]. -/
def Reg.DCTL_LYS_CNT1.TAG_FAIL : Fld := ⟨0x1006020, 64, 48, 16⟩
/-- DCTL_LYS_CNT1.DROP, bits [47:32]. -/
def Reg.DCTL_LYS_CNT1.DROP : Fld := ⟨0x1006020, 64, 32, 16⟩
/-- DCTL_LYS_CNT1.CREDIT_WAIT, bits [31:0]. -/
def Reg.DCTL_LYS_CNT1.CREDIT_WAIT : Fld := ⟨0x1006020, 64, 0, 32⟩

/-! DCTL_LYS_OPT (chapter 11). -/

/-- DCTL_LYS_OPT.RX_MIN, bits [63:56]. -/
def Reg.DCTL_LYS_OPT.RX_MIN : Fld := ⟨0x1006028, 64, 56, 8⟩
/-- DCTL_LYS_OPT.RX_LANE, bits [55:52]. -/
def Reg.DCTL_LYS_OPT.RX_LANE : Fld := ⟨0x1006028, 64, 52, 4⟩
/-- DCTL_LYS_OPT.TX_MIN, bits [51:44]. -/
def Reg.DCTL_LYS_OPT.TX_MIN : Fld := ⟨0x1006028, 64, 44, 8⟩
/-- DCTL_LYS_OPT.TX_LANE, bits [43:40]. -/
def Reg.DCTL_LYS_OPT.TX_LANE : Fld := ⟨0x1006028, 64, 40, 4⟩
/-- DCTL_LYS_OPT.BER_EXP, bits [39:32]. -/
def Reg.DCTL_LYS_OPT.BER_EXP : Fld := ⟨0x1006028, 64, 32, 8⟩
/-- DCTL_LYS_OPT.BER_LANE, bits [31:28]. -/
def Reg.DCTL_LYS_OPT.BER_LANE : Fld := ⟨0x1006028, 64, 28, 4⟩

/-! DCTL_LYS_INLET (chapter 11). -/

/-- DCTL_LYS_INLET.PRESENT, bits [63:63]. -/
def Reg.DCTL_LYS_INLET.PRESENT : Fld := ⟨0x1006800, 8, 63, 1⟩
/-- DCTL_LYS_INLET.INTERLOCK, bits [62:62]. -/
def Reg.DCTL_LYS_INLET.INTERLOCK : Fld := ⟨0x1006800, 8, 62, 1⟩
/-- DCTL_LYS_INLET.LASER_ON, bits [61:61]. -/
def Reg.DCTL_LYS_INLET.LASER_ON : Fld := ⟨0x1006800, 8, 61, 1⟩
/-- DCTL_LYS_INLET.PWR_MIN, bits [55:48]. -/
def Reg.DCTL_LYS_INLET.PWR_MIN : Fld := ⟨0x1006800, 8, 48, 8⟩
/-- DCTL_LYS_INLET.PWR_MIN_WL, bits [47:44]. -/
def Reg.DCTL_LYS_INLET.PWR_MIN_WL : Fld := ⟨0x1006800, 8, 44, 4⟩
/-- DCTL_LYS_INLET.PWR_MAX, bits [43:36]. -/
def Reg.DCTL_LYS_INLET.PWR_MAX : Fld := ⟨0x1006800, 8, 36, 8⟩
/-- DCTL_LYS_INLET.PWR_MAX_WL, bits [35:32]. -/
def Reg.DCTL_LYS_INLET.PWR_MAX_WL : Fld := ⟨0x1006800, 8, 32, 4⟩
/-- DCTL_LYS_INLET.TEMP, bits [31:24]. -/
def Reg.DCTL_LYS_INLET.TEMP : Fld := ⟨0x1006800, 8, 24, 8⟩
/-- DCTL_LYS_INLET.INLET_FAULT, bits [2:2]. -/
def Reg.DCTL_LYS_INLET.INLET_FAULT : Fld := ⟨0x1006800, 8, 2, 1⟩
/-- DCTL_LYS_INLET.INTERLOCK_OPEN, bits [1:1]. -/
def Reg.DCTL_LYS_INLET.INTERLOCK_OPEN : Fld := ⟨0x1006800, 8, 1, 1⟩

/-! DCTL_LYS_RT (chapter 11). -/

/-- DCTL_LYS_RT.VALID, bits [63:63]. -/
def Reg.DCTL_LYS_RT.VALID : Fld := ⟨0x1008000, 8, 63, 1⟩
/-- DCTL_LYS_RT.MEMBER_V, bits [62:62]. -/
def Reg.DCTL_LYS_RT.MEMBER_V : Fld := ⟨0x1008000, 8, 62, 1⟩
/-- DCTL_LYS_RT.MEMBER, bits [61:54]. -/
def Reg.DCTL_LYS_RT.MEMBER : Fld := ⟨0x1008000, 8, 54, 8⟩
/-- DCTL_LYS_RT.NODE, bits [53:38]. -/
def Reg.DCTL_LYS_RT.NODE : Fld := ⟨0x1008000, 8, 38, 16⟩
/-- DCTL_LYS_RT.NHOP, bits [37:35]. -/
def Reg.DCTL_LYS_RT.NHOP : Fld := ⟨0x1008000, 8, 35, 3⟩
/-- DCTL_LYS_RT.ROUTE, bits [34:5]. -/
def Reg.DCTL_LYS_RT.ROUTE : Fld := ⟨0x1008000, 8, 5, 30⟩

/-! DCTL_LYS_SCHED (chapter 12). -/

/-- DCTL_LYS_SCHED.ACT_BEAT, bits [63:16]. -/
def Reg.DCTL_LYS_SCHED.ACT_BEAT : Fld := ⟨0x1006030, 64, 16, 48⟩
/-- DCTL_LYS_SCHED.COUNT, bits [15:7]. -/
def Reg.DCTL_LYS_SCHED.COUNT : Fld := ⟨0x1006030, 64, 7, 9⟩
/-- DCTL_LYS_SCHED.STATE, bits [6:5]. -/
def Reg.DCTL_LYS_SCHED.STATE : Fld := ⟨0x1006030, 64, 5, 2⟩
/-- DCTL_LYS_SCHED.PENDING, bits [4:4]. -/
def Reg.DCTL_LYS_SCHED.PENDING : Fld := ⟨0x1006030, 64, 4, 1⟩
/-- DCTL_LYS_SCHED.LOAD_LATE, bits [3:3]. -/
def Reg.DCTL_LYS_SCHED.LOAD_LATE : Fld := ⟨0x1006030, 64, 3, 1⟩
/-- DCTL_LYS_SCHED.SPILL, bits [2:2]. -/
def Reg.DCTL_LYS_SCHED.SPILL : Fld := ⟨0x1006030, 64, 2, 1⟩
/-- DCTL_LYS_SCHED.FWD_MISS, bits [1:1]. -/
def Reg.DCTL_LYS_SCHED.FWD_MISS : Fld := ⟨0x1006030, 64, 1, 1⟩
/-- DCTL_LYS_SCHED.FALLBACK, bits [0:0]. -/
def Reg.DCTL_LYS_SCHED.FALLBACK : Fld := ⟨0x1006030, 64, 0, 1⟩

/-! DCTL_LYS_SCHEDCNT (chapter 12). -/

/-- DCTL_LYS_SCHEDCNT.IDLE, bits [63:48]. -/
def Reg.DCTL_LYS_SCHEDCNT.IDLE : Fld := ⟨0x1006038, 64, 48, 16⟩
/-- DCTL_LYS_SCHEDCNT.FWD_CELLS, bits [47:32]. -/
def Reg.DCTL_LYS_SCHEDCNT.FWD_CELLS : Fld := ⟨0x1006038, 64, 32, 16⟩
/-- DCTL_LYS_SCHEDCNT.FALLBACKS, bits [31:16]. -/
def Reg.DCTL_LYS_SCHEDCNT.FALLBACKS : Fld := ⟨0x1006038, 64, 16, 16⟩
/-- DCTL_LYS_SCHEDCNT.SPILLS, bits [15:0]. -/
def Reg.DCTL_LYS_SCHEDCNT.SPILLS : Fld := ⟨0x1006038, 64, 0, 16⟩

/-! PCTL_SCHED_STAT (chapter 12). -/

/-- PCTL_SCHED_STAT.PENDING, bits [4:4]. -/
def Reg.PCTL_SCHED_STAT.PENDING : Fld := ⟨0x10600, 8, 4, 1⟩
/-- PCTL_SCHED_STAT.LOAD_LATE, bits [3:3]. -/
def Reg.PCTL_SCHED_STAT.LOAD_LATE : Fld := ⟨0x10600, 8, 3, 1⟩
/-- PCTL_SCHED_STAT.SPILL, bits [2:2]. -/
def Reg.PCTL_SCHED_STAT.SPILL : Fld := ⟨0x10600, 8, 2, 1⟩
/-- PCTL_SCHED_STAT.FWD_MISS, bits [1:1]. -/
def Reg.PCTL_SCHED_STAT.FWD_MISS : Fld := ⟨0x10600, 8, 1, 1⟩
/-- PCTL_SCHED_STAT.FALLBACK, bits [0:0]. -/
def Reg.PCTL_SCHED_STAT.FALLBACK : Fld := ⟨0x10600, 8, 0, 1⟩

/-! DCTL_COMP_CFG (chapter 13). -/

/-- DCTL_COMP_CFG.DRAIN_LIM, bits [15:0]. -/
def Reg.DCTL_COMP_CFG.DRAIN_LIM : Fld := ⟨0x1005000, 0, 0, 16⟩

/-! DCTL_COMP_STAT (chapter 13). -/

/-- DCTL_COMP_STAT.LAST_HANDLE, bits [63:32]. -/
def Reg.DCTL_COMP_STAT.LAST_HANDLE : Fld := ⟨0x1005008, 0, 32, 32⟩
/-- DCTL_COMP_STAT.LAST_STATUS, bits [31:24]. -/
def Reg.DCTL_COMP_STAT.LAST_STATUS : Fld := ⟨0x1005008, 0, 24, 8⟩
/-- DCTL_COMP_STAT.QUEUED, bits [23:16]. -/
def Reg.DCTL_COMP_STAT.QUEUED : Fld := ⟨0x1005008, 0, 16, 8⟩
/-- DCTL_COMP_STAT.DRAIN_FORCED, bits [1:1]. -/
def Reg.DCTL_COMP_STAT.DRAIN_FORCED : Fld := ⟨0x1005008, 0, 1, 1⟩
/-- DCTL_COMP_STAT.DONE_EVT, bits [0:0]. -/
def Reg.DCTL_COMP_STAT.DONE_EVT : Fld := ⟨0x1005008, 0, 0, 1⟩

/-! DCTL_COMP_PART0 (chapter 13). -/

/-- DCTL_COMP_PART0.VD, bits [63:48]. -/
def Reg.DCTL_COMP_PART0.VD : Fld := ⟨0x1005100, 16, 48, 16⟩
/-- DCTL_COMP_PART0.MEMBER, bits [47:40]. -/
def Reg.DCTL_COMP_PART0.MEMBER : Fld := ⟨0x1005100, 16, 40, 8⟩
/-- DCTL_COMP_PART0.MEMBERS, bits [39:31]. -/
def Reg.DCTL_COMP_PART0.MEMBERS : Fld := ⟨0x1005100, 16, 31, 9⟩
/-- DCTL_COMP_PART0.PENDING, bits [30:24]. -/
def Reg.DCTL_COMP_PART0.PENDING : Fld := ⟨0x1005100, 16, 24, 7⟩
/-- DCTL_COMP_PART0.CUR_EPOCH, bits [11:8]. -/
def Reg.DCTL_COMP_PART0.CUR_EPOCH : Fld := ⟨0x1005100, 16, 8, 4⟩
/-- DCTL_COMP_PART0.DRAIN_EPOCH, bits [7:4]. -/
def Reg.DCTL_COMP_PART0.DRAIN_EPOCH : Fld := ⟨0x1005100, 16, 4, 4⟩
/-- DCTL_COMP_PART0.DRAINING, bits [3:3]. -/
def Reg.DCTL_COMP_PART0.DRAINING : Fld := ⟨0x1005100, 16, 3, 1⟩
/-- DCTL_COMP_PART0.STATE, bits [2:1]. -/
def Reg.DCTL_COMP_PART0.STATE : Fld := ⟨0x1005100, 16, 1, 2⟩

/-! DCTL_COMP_PART1 (chapter 13). -/

/-- DCTL_COMP_PART1.OUTSTANDING, bits [63:40]. -/
def Reg.DCTL_COMP_PART1.OUTSTANDING : Fld := ⟨0x1005108, 16, 40, 24⟩
/-- DCTL_COMP_PART1.DRAIN_BEAT, bits [39:0]. -/
def Reg.DCTL_COMP_PART1.DRAIN_BEAT : Fld := ⟨0x1005108, 16, 0, 40⟩

/-! DCTL_COMP_REL0 (chapter 13). -/

/-- DCTL_COMP_REL0.CEL, bits [63:48]. -/
def Reg.DCTL_COMP_REL0.CEL : Fld := ⟨0x1005400, 16, 48, 16⟩
/-- DCTL_COMP_REL0.T1, bits [47:0]. -/
def Reg.DCTL_COMP_REL0.T1 : Fld := ⟨0x1005400, 16, 0, 48⟩

/-! DCTL_COMP_REL1 (chapter 13). -/

/-- DCTL_COMP_REL1.T2, bits [15:0]. -/
def Reg.DCTL_COMP_REL1.T2 : Fld := ⟨0x1005408, 16, 0, 16⟩

/-! PCTL_COMP_STAT (chapter 13). -/

/-- PCTL_COMP_STAT.VD, bits [63:48]. -/
def Reg.PCTL_COMP_STAT.VD : Fld := ⟨0x10700, 0, 48, 16⟩
/-- PCTL_COMP_STAT.MEMBER, bits [47:40]. -/
def Reg.PCTL_COMP_STAT.MEMBER : Fld := ⟨0x10700, 0, 40, 8⟩
/-- PCTL_COMP_STAT.MEMBERS, bits [39:31]. -/
def Reg.PCTL_COMP_STAT.MEMBERS : Fld := ⟨0x10700, 0, 31, 9⟩
/-- PCTL_COMP_STAT.CUR_EPOCH, bits [30:27]. -/
def Reg.PCTL_COMP_STAT.CUR_EPOCH : Fld := ⟨0x10700, 0, 27, 4⟩
/-- PCTL_COMP_STAT.DRAINING, bits [26:26]. -/
def Reg.PCTL_COMP_STAT.DRAINING : Fld := ⟨0x10700, 0, 26, 1⟩
/-- PCTL_COMP_STAT.STALE_RETRIES, bits [19:4]. -/
def Reg.PCTL_COMP_STAT.STALE_RETRIES : Fld := ⟨0x10700, 0, 4, 16⟩
/-- PCTL_COMP_STAT.STALE, bits [1:1]. -/
def Reg.PCTL_COMP_STAT.STALE : Fld := ⟨0x10700, 0, 1, 1⟩
/-- PCTL_COMP_STAT.CHANGED, bits [0:0]. -/
def Reg.PCTL_COMP_STAT.CHANGED : Fld := ⟨0x10700, 0, 0, 1⟩

/-! PCTL_COMP_SEQ (chapter 13). -/

/-- PCTL_COMP_SEQ.SEQ, bits [31:0]. -/
def Reg.PCTL_COMP_SEQ.SEQ : Fld := ⟨0x10708, 0, 0, 32⟩

/-! DCTL_PVIEW_SEL (chapter 14). -/

/-- DCTL_PVIEW_SEL.VALID, bits [63:63]. -/
def Reg.DCTL_PVIEW_SEL.VALID : Fld := ⟨0x1000200, 0, 63, 1⟩
/-- DCTL_PVIEW_SEL.PART, bits [4:0]. -/
def Reg.DCTL_PVIEW_SEL.PART : Fld := ⟨0x1000200, 0, 0, 5⟩

/-! IDC_ID (chapter 14). -/

/-- IDC_ID.VARIANT, bits [63:48]. -/
def Reg.IDC_ID.VARIANT : Fld := ⟨0x0, 0, 48, 16⟩
/-- IDC_ID.STEPPING, bits [47:40]. -/
def Reg.IDC_ID.STEPPING : Fld := ⟨0x0, 0, 40, 8⟩
/-- IDC_ID.NODE, bits [39:24]. -/
def Reg.IDC_ID.NODE : Fld := ⟨0x0, 0, 24, 16⟩
/-- IDC_ID.FUNC, bits [23:16]. -/
def Reg.IDC_ID.FUNC : Fld := ⟨0x0, 0, 16, 8⟩

/-! IDC_CAP0 (chapter 14). -/

/-- IDC_CAP0.T2_MASK, bits [63:48]. -/
def Reg.IDC_CAP0.T2_MASK : Fld := ⟨0x10, 0, 48, 16⟩
/-- IDC_CAP0.T1_MASK, bits [47:36]. -/
def Reg.IDC_CAP0.T1_MASK : Fld := ⟨0x10, 0, 36, 12⟩
/-- IDC_CAP0.PORT_MASK, bits [31:0]. -/
def Reg.IDC_CAP0.PORT_MASK : Fld := ⟨0x10, 0, 0, 32⟩

/-! IDC_CAP1 (chapter 14). -/

/-- IDC_CAP1.SIEVE, bits [49:49]. -/
def Reg.IDC_CAP1.SIEVE : Fld := ⟨0x18, 0, 49, 1⟩
/-- IDC_CAP1.FP_ADD, bits [48:48]. -/
def Reg.IDC_CAP1.FP_ADD : Fld := ⟨0x18, 0, 48, 1⟩
/-- IDC_CAP1.CORES, bits [41:32]. -/
def Reg.IDC_CAP1.CORES : Fld := ⟨0x18, 0, 32, 10⟩
/-- IDC_CAP1.OPT_ENG, bits [31:24]. -/
def Reg.IDC_CAP1.OPT_ENG : Fld := ⟨0x18, 0, 24, 8⟩
/-- IDC_CAP1.PARTS, bits [23:16]. -/
def Reg.IDC_CAP1.PARTS : Fld := ⟨0x18, 0, 16, 8⟩
/-- IDC_CAP1.SEQ_SLOTS, bits [8:0]. -/
def Reg.IDC_CAP1.SEQ_SLOTS : Fld := ⟨0x18, 0, 0, 9⟩

/-! PCTL_BAR2_MAP (chapter 14). -/

/-- PCTL_BAR2_MAP.BASE, bits [43:30]. -/
def Reg.PCTL_BAR2_MAP.BASE : Fld := ⟨0x10800, 0, 30, 14⟩
/-- PCTL_BAR2_MAP.REFUSED, bits [0:0]. -/
def Reg.PCTL_BAR2_MAP.REFUSED : Fld := ⟨0x10800, 0, 0, 1⟩

/-! QCFG_TAILBASE (chapter 14). -/

/-- QCFG_TAILBASE.BASE, bits [51:9]. -/
def Reg.QCFG_TAILBASE.BASE : Fld := ⟨0x20000, 0, 9, 43⟩

/-! QCFG_Q0 (chapter 14). -/

/-- QCFG_Q0.EN, bits [63:63]. -/
def Reg.QCFG_Q0.EN : Fld := ⟨0x21000, 32, 63, 1⟩
/-- QCFG_Q0.BASE, bits [51:12]. -/
def Reg.QCFG_Q0.BASE : Fld := ⟨0x21000, 32, 12, 40⟩
/-- QCFG_Q0.FETCH_MAX, bits [11:4]. -/
def Reg.QCFG_Q0.FETCH_MAX : Fld := ⟨0x21000, 32, 4, 8⟩
/-- QCFG_Q0.SIZE, bits [3:0]. -/
def Reg.QCFG_Q0.SIZE : Fld := ⟨0x21000, 32, 0, 4⟩

/-! QCFG_Q1 (chapter 14). -/

/-- QCFG_Q1.EN, bits [63:63]. -/
def Reg.QCFG_Q1.EN : Fld := ⟨0x21008, 32, 63, 1⟩
/-- QCFG_Q1.VECTOR, bits [57:52]. -/
def Reg.QCFG_Q1.VECTOR : Fld := ⟨0x21008, 32, 52, 6⟩
/-- QCFG_Q1.BASE, bits [51:12]. -/
def Reg.QCFG_Q1.BASE : Fld := ⟨0x21008, 32, 12, 40⟩
/-- QCFG_Q1.SIZE, bits [3:0]. -/
def Reg.QCFG_Q1.SIZE : Fld := ⟨0x21008, 32, 0, 4⟩

/-! QCFG_QSTAT (chapter 14). -/

/-- QCFG_QSTAT.HEAD, bits [63:32]. -/
def Reg.QCFG_QSTAT.HEAD : Fld := ⟨0x21010, 32, 32, 32⟩
/-- QCFG_QSTAT.STATE, bits [31:29]. -/
def Reg.QCFG_QSTAT.STATE : Fld := ⟨0x21010, 32, 29, 3⟩
/-- QCFG_QSTAT.FETCH_ERR, bits [3:3]. -/
def Reg.QCFG_QSTAT.FETCH_ERR : Fld := ⟨0x21010, 32, 3, 1⟩
/-- QCFG_QSTAT.BAD_TAIL, bits [2:2]. -/
def Reg.QCFG_QSTAT.BAD_TAIL : Fld := ⟨0x21010, 32, 2, 1⟩
/-- QCFG_QSTAT.HALT_EVT, bits [1:1]. -/
def Reg.QCFG_QSTAT.HALT_EVT : Fld := ⟨0x21010, 32, 1, 1⟩

/-! QCFG_QCTL (chapter 14). -/

/-- QCFG_QCTL.ACTION, bits [63:62]. -/
def Reg.QCFG_QCTL.ACTION : Fld := ⟨0x21018, 32, 62, 2⟩

/-! QOSM_CTX_SEL (chapter 14). -/

/-- QOSM_CTX_SEL.SNAP_BEAT, bits [63:16]. -/
def Reg.QOSM_CTX_SEL.SNAP_BEAT : Fld := ⟨0xc8000, 0, 16, 48⟩
/-- QOSM_CTX_SEL.NONE, bits [8:8]. -/
def Reg.QOSM_CTX_SEL.NONE : Fld := ⟨0xc8000, 0, 8, 1⟩
/-- QOSM_CTX_SEL.CTX, bits [7:0]. -/
def Reg.QOSM_CTX_SEL.CTX : Fld := ⟨0xc8000, 0, 0, 8⟩

/-! INTC_STATUS (chapter 14). -/

/-- INTC_STATUS.BEAT_EVT, bits [11:11]. -/
def Reg.INTC_STATUS.BEAT_EVT : Fld := ⟨0x80000, 0, 11, 1⟩
/-- INTC_STATUS.COMP_EVT, bits [10:10]. -/
def Reg.INTC_STATUS.COMP_EVT : Fld := ⟨0x80000, 0, 10, 1⟩
/-- INTC_STATUS.ALARM, bits [9:9]. -/
def Reg.INTC_STATUS.ALARM : Fld := ⟨0x80000, 0, 9, 1⟩
/-- INTC_STATUS.ERRLOG, bits [8:8]. -/
def Reg.INTC_STATUS.ERRLOG : Fld := ⟨0x80000, 0, 8, 1⟩
/-- INTC_STATUS.QOS_MISS, bits [7:7]. -/
def Reg.INTC_STATUS.QOS_MISS : Fld := ⟨0x80000, 0, 7, 1⟩
/-- INTC_STATUS.SCHED, bits [6:6]. -/
def Reg.INTC_STATUS.SCHED : Fld := ⟨0x80000, 0, 6, 1⟩
/-- INTC_STATUS.SIEVE_ERR, bits [5:5]. -/
def Reg.INTC_STATUS.SIEVE_ERR : Fld := ⟨0x80000, 0, 5, 1⟩
/-- INTC_STATUS.DEGRADED, bits [4:4]. -/
def Reg.INTC_STATUS.DEGRADED : Fld := ⟨0x80000, 0, 4, 1⟩
/-- INTC_STATUS.LATE, bits [3:3]. -/
def Reg.INTC_STATUS.LATE : Fld := ⟨0x80000, 0, 3, 1⟩
/-- INTC_STATUS.CORE_EVENT, bits [2:2]. -/
def Reg.INTC_STATUS.CORE_EVENT : Fld := ⟨0x80000, 0, 2, 1⟩
/-- INTC_STATUS.CHANGED, bits [1:1]. -/
def Reg.INTC_STATUS.CHANGED : Fld := ⟨0x80000, 0, 1, 1⟩
/-- INTC_STATUS.QUEUE, bits [0:0]. -/
def Reg.INTC_STATUS.QUEUE : Fld := ⟨0x80000, 0, 0, 1⟩

/-! INTC_VEC (chapter 14). -/

/-- INTC_VEC.VECTOR, bits [6:1]. -/
def Reg.INTC_VEC.VECTOR : Fld := ⟨0x80100, 8, 1, 6⟩
/-- INTC_VEC.EN, bits [0:0]. -/
def Reg.INTC_VEC.EN : Fld := ⟨0x80100, 8, 0, 1⟩

/-! INTC_TAIL (chapter 14). -/

/-- INTC_TAIL.TAIL_ERR, bits [0:0]. -/
def Reg.INTC_TAIL.TAIL_ERR : Fld := ⟨0x80200, 0, 0, 1⟩

/-! QCFG_CQ0 (chapter 15). -/

/-- QCFG_CQ0.CPROD, bits [63:32]. -/
def Reg.QCFG_CQ0.CPROD : Fld := ⟨0x22000, 16, 32, 32⟩

/-! QCFG_CQ1 (chapter 15). -/

/-- QCFG_CQ1.CCONS, bits [31:0]. -/
def Reg.QCFG_CQ1.CCONS : Fld := ⟨0x22008, 16, 0, 32⟩

/-! LTCH_HELD (chapter 15). -/

/-- LTCH_HELD.HELD, bits [63:0]. -/
def Reg.LTCH_HELD.HELD : Fld := ⟨0x48000, 8, 0, 64⟩

/-! LTCH_STAT (chapter 15). -/

/-- LTCH_STAT.STALE, bits [63:32]. -/
def Reg.LTCH_STAT.STALE : Fld := ⟨0x50000, 0, 32, 32⟩
/-- LTCH_STAT.RANGE, bits [31:8]. -/
def Reg.LTCH_STAT.RANGE : Fld := ⟨0x50000, 0, 8, 24⟩
/-- LTCH_STAT.LATCH_RANGE, bits [0:0]. -/
def Reg.LTCH_STAT.LATCH_RANGE : Fld := ⟨0x50000, 0, 0, 1⟩

/-! PCTL_GRAPH_AREA (chapter 15). -/

/-- PCTL_GRAPH_AREA.BASE, bits [43:16]. -/
def Reg.PCTL_GRAPH_AREA.BASE : Fld := ⟨0x10900, 0, 16, 28⟩
/-- PCTL_GRAPH_AREA.SIZE, bits [15:0]. -/
def Reg.PCTL_GRAPH_AREA.SIZE : Fld := ⟨0x10900, 0, 0, 16⟩

/-! QOSM_CFG0 (chapter 16). -/

/-- QOSM_CFG0.POLICY, bits [63:62]. -/
def Reg.QOSM_CFG0.POLICY : Fld := ⟨0xc0000, 0, 62, 2⟩
/-- QOSM_CFG0.WEIGHT, bits [61:58]. -/
def Reg.QOSM_CFG0.WEIGHT : Fld := ⟨0xc0000, 0, 58, 4⟩
/-- QOSM_CFG0.XE_LIM, bits [57:49]. -/
def Reg.QOSM_CFG0.XE_LIM : Fld := ⟨0xc0000, 0, 49, 9⟩
/-- QOSM_CFG0.CORE_LIM, bits [48:39]. -/
def Reg.QOSM_CFG0.CORE_LIM : Fld := ⟨0xc0000, 0, 39, 10⟩
/-- QOSM_CFG0.PART_LIM, bits [38:21]. -/
def Reg.QOSM_CFG0.PART_LIM : Fld := ⟨0xc0000, 0, 21, 18⟩
/-- QOSM_CFG0.QUANTUM, bits [20:5]. -/
def Reg.QOSM_CFG0.QUANTUM : Fld := ⟨0xc0000, 0, 5, 16⟩

/-! QOSM_CFG1 (chapter 16). -/

/-- QOSM_CFG1.CEL_LIM, bits [63:48]. -/
def Reg.QOSM_CFG1.CEL_LIM : Fld := ⟨0xc0008, 0, 48, 16⟩
/-- QOSM_CFG1.T1_LIM, bits [47:32]. -/
def Reg.QOSM_CFG1.T1_LIM : Fld := ⟨0xc0008, 0, 32, 16⟩
/-- QOSM_CFG1.T2_LIM, bits [31:16]. -/
def Reg.QOSM_CFG1.T2_LIM : Fld := ⟨0xc0008, 0, 16, 16⟩
/-- QOSM_CFG1.PORT_LIM, bits [15:0]. -/
def Reg.QOSM_CFG1.PORT_LIM : Fld := ⟨0xc0008, 0, 0, 16⟩

/-! QOSM_CFG2 (chapter 16). -/

/-- QOSM_CFG2.TGT_CEL, bits [63:48]. -/
def Reg.QOSM_CFG2.TGT_CEL : Fld := ⟨0xc0010, 0, 48, 16⟩
/-- QOSM_CFG2.TGT_T1, bits [47:32]. -/
def Reg.QOSM_CFG2.TGT_T1 : Fld := ⟨0xc0010, 0, 32, 16⟩
/-- QOSM_CFG2.TGT_T2, bits [31:16]. -/
def Reg.QOSM_CFG2.TGT_T2 : Fld := ⟨0xc0010, 0, 16, 16⟩
/-- QOSM_CFG2.PREEMPT_WAIT, bits [15:0]. -/
def Reg.QOSM_CFG2.PREEMPT_WAIT : Fld := ⟨0xc0010, 0, 0, 16⟩

/-! QOSM_TGT_PORT (chapter 16). -/

/-- QOSM_TGT_PORT.TGT3, bits [63:0]. -/
def Reg.QOSM_TGT_PORT.TGT3 : Fld := ⟨0xc0100, 8, 0, 64⟩

/-! QOSM_STEP0 (chapter 16). -/

/-- QOSM_STEP0.PORT_STEP, bits [63:0]. -/
def Reg.QOSM_STEP0.PORT_STEP : Fld := ⟨0xc0200, 0, 0, 64⟩

/-! QOSM_STEP1 (chapter 16). -/

/-- QOSM_STEP1.T2, bits [5:4]. -/
def Reg.QOSM_STEP1.T2 : Fld := ⟨0xc0208, 0, 4, 2⟩
/-- QOSM_STEP1.T1, bits [3:2]. -/
def Reg.QOSM_STEP1.T1 : Fld := ⟨0xc0208, 0, 2, 2⟩
/-- QOSM_STEP1.CEL, bits [1:0]. -/
def Reg.QOSM_STEP1.CEL : Fld := ⟨0xc0208, 0, 0, 2⟩

/-! QOSM_MISS0 (chapter 16). -/

/-- QOSM_MISS0.MEASURED, bits [63:48]. -/
def Reg.QOSM_MISS0.MEASURED : Fld := ⟨0xc0300, 0, 48, 16⟩
/-- QOSM_MISS0.TARGET, bits [47:32]. -/
def Reg.QOSM_MISS0.TARGET : Fld := ⟨0xc0300, 0, 32, 16⟩
/-- QOSM_MISS0.WHERE, bits [31:24]. -/
def Reg.QOSM_MISS0.WHERE : Fld := ⟨0xc0300, 0, 24, 8⟩

/-! QOSM_MISS1 (chapter 16). -/

/-- QOSM_MISS1.BEAT, bits [63:16]. -/
def Reg.QOSM_MISS1.BEAT : Fld := ⟨0xc0308, 0, 16, 48⟩
/-- QOSM_MISS1.MISS_BEATS, bits [15:0]. -/
def Reg.QOSM_MISS1.MISS_BEATS : Fld := ⟨0xc0308, 0, 0, 16⟩

/-! QOSM_SAVE (chapter 16). -/

/-- QOSM_SAVE.EN, bits [63:63]. -/
def Reg.QOSM_SAVE.EN : Fld := ⟨0xc0400, 0, 63, 1⟩
/-- QOSM_SAVE.BASE, bits [43:21]. -/
def Reg.QOSM_SAVE.BASE : Fld := ⟨0xc0400, 0, 21, 23⟩
/-- QOSM_SAVE.SLOTS, bits [20:11]. -/
def Reg.QOSM_SAVE.SLOTS : Fld := ⟨0xc0400, 0, 11, 10⟩
/-- QOSM_SAVE.SAVE_BAD, bits [1:1]. -/
def Reg.QOSM_SAVE.SAVE_BAD : Fld := ⟨0xc0400, 0, 1, 1⟩

/-! QOSM_SWSTAT (chapter 16). -/

/-- QOSM_SWSTAT.USED, bits [63:54]. -/
def Reg.QOSM_SWSTAT.USED : Fld := ⟨0xc0408, 0, 54, 10⟩
/-- QOSM_SWSTAT.SWITCHES, bits [31:0]. -/
def Reg.QOSM_SWSTAT.SWITCHES : Fld := ⟨0xc0408, 0, 0, 32⟩

/-! QOSM_CORE_LATE (chapter 16). -/

/-- QOSM_CORE_LATE.LATE, bits [31:0]. -/
def Reg.QOSM_CORE_LATE.LATE : Fld := ⟨0xc4000, 8, 0, 32⟩

/-! DCTL_LIFE (chapter 17). -/

/-- DCTL_LIFE.STATE, bits [63:60]. -/
def Reg.DCTL_LIFE.STATE : Fld := ⟨0x1030000, 0, 60, 4⟩
/-- DCTL_LIFE.ROOT, bits [59:56]. -/
def Reg.DCTL_LIFE.ROOT : Fld := ⟨0x1030000, 0, 56, 4⟩
/-- DCTL_LIFE.TEST_ENGINE, bits [55:55]. -/
def Reg.DCTL_LIFE.TEST_ENGINE : Fld := ⟨0x1030000, 0, 55, 1⟩
/-- DCTL_LIFE.TEST_KEYS, bits [54:54]. -/
def Reg.DCTL_LIFE.TEST_KEYS : Fld := ⟨0x1030000, 0, 54, 1⟩
/-- DCTL_LIFE.OWNER, bits [53:53]. -/
def Reg.DCTL_LIFE.OWNER : Fld := ⟨0x1030000, 0, 53, 1⟩
/-- DCTL_LIFE.BOOTS, bits [31:0]. -/
def Reg.DCTL_LIFE.BOOTS : Fld := ⟨0x1030000, 0, 0, 32⟩

/-! DCTL_KEY_ATTR (chapter 17). -/

/-- DCTL_KEY_ATTR.VALID, bits [63:63]. -/
def Reg.DCTL_KEY_ATTR.VALID : Fld := ⟨0x1030100, 8, 63, 1⟩
/-- DCTL_KEY_ATTR.USE, bits [62:58]. -/
def Reg.DCTL_KEY_ATTR.USE : Fld := ⟨0x1030100, 8, 58, 5⟩
/-- DCTL_KEY_ATTR.OWNER_PART, bits [57:57]. -/
def Reg.DCTL_KEY_ATTR.OWNER_PART : Fld := ⟨0x1030100, 8, 57, 1⟩
/-- DCTL_KEY_ATTR.PART, bits [56:52]. -/
def Reg.DCTL_KEY_ATTR.PART : Fld := ⟨0x1030100, 8, 52, 5⟩
/-- DCTL_KEY_ATTR.EXP, bits [51:51]. -/
def Reg.DCTL_KEY_ATTR.EXP : Fld := ⟨0x1030100, 8, 51, 1⟩
/-- DCTL_KEY_ATTR.LIMITED, bits [50:50]. -/
def Reg.DCTL_KEY_ATTR.LIMITED : Fld := ⟨0x1030100, 8, 50, 1⟩
/-- DCTL_KEY_ATTR.TYPE, bits [49:46]. -/
def Reg.DCTL_KEY_ATTR.TYPE : Fld := ⟨0x1030100, 8, 46, 4⟩
/-- DCTL_KEY_ATTR.USES, bits [39:8]. -/
def Reg.DCTL_KEY_ATTR.USES : Fld := ⟨0x1030100, 8, 8, 32⟩
/-- DCTL_KEY_ATTR.GEN, bits [7:0]. -/
def Reg.DCTL_KEY_ATTR.GEN : Fld := ⟨0x1030100, 8, 0, 8⟩

/-! DSTP_ATTEST (chapter 17). -/

/-- DSTP_ATTEST.BUF, bits [51:15]. -/
def Reg.DSTP_ATTEST.BUF : Fld := ⟨0x140000, 0, 15, 37⟩
/-- DSTP_ATTEST.PARISH, bits [4:4]. -/
def Reg.DSTP_ATTEST.PARISH : Fld := ⟨0x140000, 0, 4, 1⟩
/-- DSTP_ATTEST.WI, bits [3:3]. -/
def Reg.DSTP_ATTEST.WI : Fld := ⟨0x140000, 0, 3, 1⟩
/-- DSTP_ATTEST.PROG_OVF, bits [2:2]. -/
def Reg.DSTP_ATTEST.PROG_OVF : Fld := ⟨0x140000, 0, 2, 1⟩
/-- DSTP_ATTEST.DONE, bits [1:1]. -/
def Reg.DSTP_ATTEST.DONE : Fld := ⟨0x140000, 0, 1, 1⟩
/-- DSTP_ATTEST.GO, bits [0:0]. -/
def Reg.DSTP_ATTEST.GO : Fld := ⟨0x140000, 0, 0, 1⟩

/-! DCTL_PARISH0 (chapter 17). -/

/-- DCTL_PARISH0.ID_LO, bits [63:0]. -/
def Reg.DCTL_PARISH0.ID_LO : Fld := ⟨0x1030400, 8, 0, 64⟩

/-! DCTL_PARISH2 (chapter 17). -/

/-- DCTL_PARISH2.PARTS, bits [63:32]. -/
def Reg.DCTL_PARISH2.PARTS : Fld := ⟨0x1030410, 0, 32, 32⟩
/-- DCTL_PARISH2.STATE, bits [1:0]. -/
def Reg.DCTL_PARISH2.STATE : Fld := ⟨0x1030410, 0, 0, 2⟩

/-! DSTP_SESSION (chapter 17). -/

/-- DSTP_SESSION.SGEN, bits [63:32]. -/
def Reg.DSTP_SESSION.SGEN : Fld := ⟨0x141000, 8, 32, 32⟩
/-- DSTP_SESSION.PARISH, bits [31:31]. -/
def Reg.DSTP_SESSION.PARISH : Fld := ⟨0x141000, 8, 31, 1⟩
/-- DSTP_SESSION.LIVE, bits [30:30]. -/
def Reg.DSTP_SESSION.LIVE : Fld := ⟨0x141000, 8, 30, 1⟩
/-- DSTP_SESSION.TAG_FAIL, bits [1:1]. -/
def Reg.DSTP_SESSION.TAG_FAIL : Fld := ⟨0x141000, 8, 1, 1⟩

/-! DSTP_QGEN (chapter 17). -/

/-- DSTP_QGEN.QGEN, bits [63:48]. -/
def Reg.DSTP_QGEN.QGEN : Fld := ⟨0x142000, 8, 48, 16⟩
/-- DSTP_QGEN.WRAP, bits [47:16]. -/
def Reg.DSTP_QGEN.WRAP : Fld := ⟨0x142000, 8, 16, 32⟩
/-- DSTP_QGEN.QGEN_END, bits [0:0]. -/
def Reg.DSTP_QGEN.QGEN_END : Fld := ⟨0x142000, 8, 0, 1⟩

/-! DSTP_DOOR0 (chapter 17). -/

/-- DSTP_DOOR0.EN, bits [63:63]. -/
def Reg.DSTP_DOOR0.EN : Fld := ⟨0x144000, 32, 63, 1⟩
/-- DSTP_DOOR0.DATA, bits [51:12]. -/
def Reg.DSTP_DOOR0.DATA : Fld := ⟨0x144000, 32, 12, 40⟩

/-! DSTP_DOOR1 (chapter 17). -/

/-- DSTP_DOOR1.TAGS, bits [51:5]. -/
def Reg.DSTP_DOOR1.TAGS : Fld := ⟨0x144008, 32, 5, 47⟩

/-! DSTP_DOOR2 (chapter 17). -/

/-- DSTP_DOOR2.COUNT, bits [19:0]. -/
def Reg.DSTP_DOOR2.COUNT : Fld := ⟨0x144010, 32, 0, 20⟩

/-! DSTP_DOOR3 (chapter 17). -/

/-- DSTP_DOOR3.OUT_CTR, bits [63:0]. -/
def Reg.DSTP_DOOR3.OUT_CTR : Fld := ⟨0x144018, 32, 0, 64⟩

/-! DCTL_T2CC (chapter 18). -/

/-- DCTL_T2CC.HITS, bits [63:32]. -/
def Reg.DCTL_T2CC.HITS : Fld := ⟨0x10308a0, 8, 32, 32⟩
/-- DCTL_T2CC.MISSES, bits [31:0]. -/
def Reg.DCTL_T2CC.MISSES : Fld := ⟨0x10308a0, 8, 0, 32⟩

/-! DCTL_T2SEC_CFG (chapter 18). -/

/-- DCTL_T2SEC_CFG.ROLL_H, bits [63:56]. -/
def Reg.DCTL_T2SEC_CFG.ROLL_H : Fld := ⟨0x1030800, 0, 56, 8⟩
/-- DCTL_T2SEC_CFG.HWM, bits [55:50]. -/
def Reg.DCTL_T2SEC_CFG.HWM : Fld := ⟨0x1030800, 0, 50, 6⟩
/-- DCTL_T2SEC_CFG.ROLL_RATE, bits [49:40]. -/
def Reg.DCTL_T2SEC_CFG.ROLL_RATE : Fld := ⟨0x1030800, 0, 40, 10⟩

/-! DCTL_T2SEC_CTL (chapter 18). -/

/-- DCTL_T2SEC_CTL.ROLL_REQ, bits [0:0]. -/
def Reg.DCTL_T2SEC_CTL.ROLL_REQ : Fld := ⟨0x1030808, 0, 0, 1⟩

/-! DCTL_T2SEC_STAT (chapter 18). -/

/-- DCTL_T2SEC_STAT.LAST_ROLL, bits [63:16]. -/
def Reg.DCTL_T2SEC_STAT.LAST_ROLL : Fld := ⟨0x1030810, 0, 16, 48⟩
/-- DCTL_T2SEC_STAT.ROLLS, bits [15:8]. -/
def Reg.DCTL_T2SEC_STAT.ROLLS : Fld := ⟨0x1030810, 0, 8, 8⟩
/-- DCTL_T2SEC_STAT.STATE, bits [7:6]. -/
def Reg.DCTL_T2SEC_STAT.STATE : Fld := ⟨0x1030810, 0, 6, 2⟩
/-- DCTL_T2SEC_STAT.HWM_HIT, bits [4:4]. -/
def Reg.DCTL_T2SEC_STAT.HWM_HIT : Fld := ⟨0x1030810, 0, 4, 1⟩
/-- DCTL_T2SEC_STAT.ROLL_DONE, bits [3:3]. -/
def Reg.DCTL_T2SEC_STAT.ROLL_DONE : Fld := ⟨0x1030810, 0, 3, 1⟩
/-- DCTL_T2SEC_STAT.TREE_FAIL, bits [2:2]. -/
def Reg.DCTL_T2SEC_STAT.TREE_FAIL : Fld := ⟨0x1030810, 0, 2, 1⟩
/-- DCTL_T2SEC_STAT.AUTH_FAIL, bits [1:1]. -/
def Reg.DCTL_T2SEC_STAT.AUTH_FAIL : Fld := ⟨0x1030810, 0, 1, 1⟩

/-! DCTL_T2ROLL (chapter 18). -/

/-- DCTL_T2ROLL.STATE, bits [63:62]. -/
def Reg.DCTL_T2ROLL.STATE : Fld := ⟨0x1030820, 8, 62, 2⟩
/-- DCTL_T2ROLL.HALF, bits [61:61]. -/
def Reg.DCTL_T2ROLL.HALF : Fld := ⟨0x1030820, 8, 61, 1⟩
/-- DCTL_T2ROLL.THR, bits [25:0]. -/
def Reg.DCTL_T2ROLL.THR : Fld := ⟨0x1030820, 8, 0, 26⟩

/-! ERRL_CFG (chapter 19). -/

/-- ERRL_CFG.EN, bits [63:63]. -/
def Reg.ERRL_CFG.EN : Fld := ⟨0xe0000, 0, 63, 1⟩
/-- ERRL_CFG.BASE, bits [51:12]. -/
def Reg.ERRL_CFG.BASE : Fld := ⟨0xe0000, 0, 12, 40⟩
/-- ERRL_CFG.SIZE, bits [3:0]. -/
def Reg.ERRL_CFG.SIZE : Fld := ⟨0xe0000, 0, 0, 4⟩

/-! ERRL_IDX (chapter 19). -/

/-- ERRL_IDX.PROD, bits [63:32]. -/
def Reg.ERRL_IDX.PROD : Fld := ⟨0xe0008, 0, 32, 32⟩
/-- ERRL_IDX.CONS, bits [31:0]. -/
def Reg.ERRL_IDX.CONS : Fld := ⟨0xe0008, 0, 0, 32⟩

/-! ERRL_STALL (chapter 19). -/

/-- ERRL_STALL.STALL_DEF, bits [15:0]. -/
def Reg.ERRL_STALL.STALL_DEF : Fld := ⟨0xe0010, 0, 0, 16⟩

/-! ERRL_STAT (chapter 19). -/

/-- ERRL_STAT.CE, bits [63:48]. -/
def Reg.ERRL_STAT.CE : Fld := ⟨0xe0018, 0, 48, 16⟩
/-- ERRL_STAT.UCE_C, bits [47:40]. -/
def Reg.ERRL_STAT.UCE_C : Fld := ⟨0xe0018, 0, 40, 8⟩
/-- ERRL_STAT.UCE_P, bits [39:32]. -/
def Reg.ERRL_STAT.UCE_P : Fld := ⟨0xe0018, 0, 32, 8⟩
/-- ERRL_STAT.FATAL, bits [31:24]. -/
def Reg.ERRL_STAT.FATAL : Fld := ⟨0xe0018, 0, 24, 8⟩
/-- ERRL_STAT.ALARM, bits [23:16]. -/
def Reg.ERRL_STAT.ALARM : Fld := ⟨0xe0018, 0, 16, 8⟩
/-- ERRL_STAT.LOST, bits [15:8]. -/
def Reg.ERRL_STAT.LOST : Fld := ⟨0xe0018, 0, 8, 8⟩
/-- ERRL_STAT.RING_FULL, bits [0:0]. -/
def Reg.ERRL_STAT.RING_FULL : Fld := ⟨0xe0018, 0, 0, 1⟩

/-! ERRL_PROG (chapter 19). -/

/-- ERRL_PROG.LAST, bits [63:16]. -/
def Reg.ERRL_PROG.LAST : Fld := ⟨0xe4000, 8, 16, 48⟩
/-- ERRL_PROG.ENGINES, bits [15:8]. -/
def Reg.ERRL_PROG.ENGINES : Fld := ⟨0xe4000, 8, 8, 8⟩
/-- ERRL_PROG.SEQ, bits [0:0]. -/
def Reg.ERRL_PROG.SEQ : Fld := ⟨0xe4000, 8, 0, 1⟩

/-! DCTL_RST_CFG (chapter 19). -/

/-- DCTL_RST_CFG.AUTO_WARM, bits [8:8]. -/
def Reg.DCTL_RST_CFG.AUTO_WARM : Fld := ⟨0x1007000, 0, 8, 1⟩
/-- DCTL_RST_CFG.DRAIN_B, bits [7:0]. -/
def Reg.DCTL_RST_CFG.DRAIN_B : Fld := ⟨0x1007000, 0, 0, 8⟩

/-! DCTL_RST_CTL (chapter 19). -/

/-- DCTL_RST_CTL.DOMAIN, bits [63:60]. -/
def Reg.DCTL_RST_CTL.DOMAIN : Fld := ⟨0x1007008, 0, 60, 4⟩
/-- DCTL_RST_CTL.FORCE, bits [59:59]. -/
def Reg.DCTL_RST_CTL.FORCE : Fld := ⟨0x1007008, 0, 59, 1⟩
/-- DCTL_RST_CTL.DUMP, bits [58:58]. -/
def Reg.DCTL_RST_CTL.DUMP : Fld := ⟨0x1007008, 0, 58, 1⟩
/-- DCTL_RST_CTL.TARGET, bits [15:0]. -/
def Reg.DCTL_RST_CTL.TARGET : Fld := ⟨0x1007008, 0, 0, 16⟩

/-! DCTL_RST_STAT (chapter 19). -/

/-- DCTL_RST_STAT.DOMAIN, bits [63:60]. -/
def Reg.DCTL_RST_STAT.DOMAIN : Fld := ⟨0x1007010, 0, 60, 4⟩
/-- DCTL_RST_STAT.TARGET, bits [59:44]. -/
def Reg.DCTL_RST_STAT.TARGET : Fld := ⟨0x1007010, 0, 44, 16⟩
/-- DCTL_RST_STAT.STATE, bits [43:42]. -/
def Reg.DCTL_RST_STAT.STATE : Fld := ⟨0x1007010, 0, 42, 2⟩
/-- DCTL_RST_STAT.DONE_BEAT, bits [41:10]. -/
def Reg.DCTL_RST_STAT.DONE_BEAT : Fld := ⟨0x1007010, 0, 10, 32⟩
/-- DCTL_RST_STAT.STUCK, bits [3:3]. -/
def Reg.DCTL_RST_STAT.STUCK : Fld := ⟨0x1007010, 0, 3, 1⟩
/-- DCTL_RST_STAT.FORCED, bits [2:2]. -/
def Reg.DCTL_RST_STAT.FORCED : Fld := ⟨0x1007010, 0, 2, 1⟩
/-- DCTL_RST_STAT.DONE_EVT, bits [1:1]. -/
def Reg.DCTL_RST_STAT.DONE_EVT : Fld := ⟨0x1007010, 0, 1, 1⟩

/-! DCTL_DUMP_STAT (chapter 19). -/

/-- DCTL_DUMP_STAT.LAST_SEQ, bits [63:32]. -/
def Reg.DCTL_DUMP_STAT.LAST_SEQ : Fld := ⟨0x1007018, 0, 32, 32⟩
/-- DCTL_DUMP_STAT.NEW, bits [31:28]. -/
def Reg.DCTL_DUMP_STAT.NEW : Fld := ⟨0x1007018, 0, 28, 4⟩
/-- DCTL_DUMP_STAT.VALID, bits [27:24]. -/
def Reg.DCTL_DUMP_STAT.VALID : Fld := ⟨0x1007018, 0, 24, 4⟩
/-- DCTL_DUMP_STAT.DUMP_LOST, bits [1:1]. -/
def Reg.DCTL_DUMP_STAT.DUMP_LOST : Fld := ⟨0x1007018, 0, 1, 1⟩
/-- DCTL_DUMP_STAT.DUMP_TAKEN, bits [0:0]. -/
def Reg.DCTL_DUMP_STAT.DUMP_TAKEN : Fld := ⟨0x1007018, 0, 0, 1⟩

/-! PWR_CTL (chapter 20). -/

/-- PWR_CTL.REQ, bits [63:61]. -/
def Reg.PWR_CTL.REQ : Fld := ⟨0x100000, 0, 61, 3⟩

/-! PWR_CAP (chapter 20). -/

/-- PWR_CAP.CAP, bits [63:48]. -/
def Reg.PWR_CAP.CAP : Fld := ⟨0x100008, 0, 48, 16⟩
/-- PWR_CAP.CAP_MAX, bits [47:32]. -/
def Reg.PWR_CAP.CAP_MAX : Fld := ⟨0x100008, 0, 32, 16⟩
/-- PWR_CAP.SLEW, bits [31:22]. -/
def Reg.PWR_CAP.SLEW : Fld := ⟨0x100008, 0, 22, 10⟩
/-- PWR_CAP.CLK_FLOOR, bits [21:19]. -/
def Reg.PWR_CAP.CLK_FLOOR : Fld := ⟨0x100008, 0, 19, 3⟩
/-- PWR_CAP.BALLAST_EN, bits [18:18]. -/
def Reg.PWR_CAP.BALLAST_EN : Fld := ⟨0x100008, 0, 18, 1⟩
/-- PWR_CAP.HYST, bits [17:8]. -/
def Reg.PWR_CAP.HYST : Fld := ⟨0x100008, 0, 8, 10⟩

/-! PWR_DOM_CTL (chapter 20). -/

/-- PWR_DOM_CTL.GATE, bits [47:0]. -/
def Reg.PWR_DOM_CTL.GATE : Fld := ⟨0x100010, 0, 0, 48⟩

/-! PWR_DOM_STAT (chapter 20). -/

/-- PWR_DOM_STAT.REFUSED, bits [48:48]. -/
def Reg.PWR_DOM_STAT.REFUSED : Fld := ⟨0x100018, 0, 48, 1⟩
/-- PWR_DOM_STAT.OFF, bits [47:0]. -/
def Reg.PWR_DOM_STAT.OFF : Fld := ⟨0x100018, 0, 0, 48⟩

/-! PWR_STAT (chapter 20). -/

/-- PWR_STAT.STATE, bits [63:61]. -/
def Reg.PWR_STAT.STATE : Fld := ⟨0x100020, 0, 61, 3⟩
/-- PWR_STAT.CLK, bits [60:58]. -/
def Reg.PWR_STAT.CLK : Fld := ⟨0x100020, 0, 58, 3⟩
/-- PWR_STAT.DUTY, bits [57:54]. -/
def Reg.PWR_STAT.DUTY : Fld := ⟨0x100020, 0, 54, 4⟩
/-- PWR_STAT.DEG, bits [53:53]. -/
def Reg.PWR_STAT.DEG : Fld := ⟨0x100020, 0, 53, 1⟩
/-- PWR_STAT.THERM, bits [52:52]. -/
def Reg.PWR_STAT.THERM : Fld := ⟨0x100020, 0, 52, 1⟩
/-- PWR_STAT.P_BEAT, bits [51:36]. -/
def Reg.PWR_STAT.P_BEAT : Fld := ⟨0x100020, 0, 36, 16⟩
/-- PWR_STAT.P_ALLOW, bits [35:20]. -/
def Reg.PWR_STAT.P_ALLOW : Fld := ⟨0x100020, 0, 20, 16⟩
/-- PWR_STAT.HOT_EVT, bits [3:3]. -/
def Reg.PWR_STAT.HOT_EVT : Fld := ⟨0x100020, 0, 3, 1⟩
/-- PWR_STAT.DROOP_EVT, bits [2:2]. -/
def Reg.PWR_STAT.DROOP_EVT : Fld := ⟨0x100020, 0, 2, 1⟩
/-- PWR_STAT.CLK_EVT, bits [1:1]. -/
def Reg.PWR_STAT.CLK_EVT : Fld := ⟨0x100020, 0, 1, 1⟩
/-- PWR_STAT.CAP_EVT, bits [0:0]. -/
def Reg.PWR_STAT.CAP_EVT : Fld := ⟨0x100020, 0, 0, 1⟩

/-! PWR_TCFG (chapter 20). -/

/-- PWR_TCFG.T_LIM, bits [63:56]. -/
def Reg.PWR_TCFG.T_LIM : Fld := ⟨0x100028, 0, 56, 8⟩
/-- PWR_TCFG.T_HOT, bits [55:48]. -/
def Reg.PWR_TCFG.T_HOT : Fld := ⟨0x100028, 0, 48, 8⟩
/-- PWR_TCFG.T_TRIP, bits [47:40]. -/
def Reg.PWR_TCFG.T_TRIP : Fld := ⟨0x100028, 0, 40, 8⟩
/-- PWR_TCFG.T_OPT, bits [39:32]. -/
def Reg.PWR_TCFG.T_OPT : Fld := ⟨0x100028, 0, 32, 8⟩

/-! PWR_HINT (chapter 20). -/

/-- PWR_HINT.KIND, bits [63:62]. -/
def Reg.PWR_HINT.KIND : Fld := ⟨0x100040, 0, 62, 2⟩
/-- PWR_HINT.LEAD, bits [11:8]. -/
def Reg.PWR_HINT.LEAD : Fld := ⟨0x100040, 0, 8, 4⟩
/-- PWR_HINT.LEVEL, bits [1:0]. -/
def Reg.PWR_HINT.LEVEL : Fld := ⟨0x100040, 0, 0, 2⟩

/-! PWR_VTAB (chapter 20). -/

/-- PWR_VTAB.V700, bits [59:0]. -/
def Reg.PWR_VTAB.V700 : Fld := ⟨0x100200, 8, 0, 60⟩

/-! PWR_TEMP (chapter 20). -/

/-- PWR_TEMP.TEMP, bits [63:56]. -/
def Reg.PWR_TEMP.TEMP : Fld := ⟨0x100400, 8, 56, 8⟩
/-- PWR_TEMP.MAX, bits [55:48]. -/
def Reg.PWR_TEMP.MAX : Fld := ⟨0x100400, 8, 48, 8⟩

/-! SNAP_CTL (chapter 21). -/

/-- SNAP_CTL.TARGET, bits [63:16]. -/
def Reg.SNAP_CTL.TARGET : Fld := ⟨0x120000, 0, 16, 48⟩
/-- SNAP_CTL.SCOPE, bits [3:2]. -/
def Reg.SNAP_CTL.SCOPE : Fld := ⟨0x120000, 0, 2, 2⟩
/-- SNAP_CTL.HOLD, bits [1:1]. -/
def Reg.SNAP_CTL.HOLD : Fld := ⟨0x120000, 0, 1, 1⟩
/-- SNAP_CTL.RING, bits [0:0]. -/
def Reg.SNAP_CTL.RING : Fld := ⟨0x120000, 0, 0, 1⟩

/-! SNAP_STAT (chapter 21). -/

/-- SNAP_STAT.BEAT, bits [63:16]. -/
def Reg.SNAP_STAT.BEAT : Fld := ⟨0x120008, 0, 16, 48⟩
/-- SNAP_STAT.SEQ, bits [15:8]. -/
def Reg.SNAP_STAT.SEQ : Fld := ⟨0x120008, 0, 8, 8⟩
/-- SNAP_STAT.ORIGIN, bits [7:6]. -/
def Reg.SNAP_STAT.ORIGIN : Fld := ⟨0x120008, 0, 6, 2⟩
/-- SNAP_STAT.HOLDOVER, bits [5:5]. -/
def Reg.SNAP_STAT.HOLDOVER : Fld := ⟨0x120008, 0, 5, 1⟩
/-- SNAP_STAT.MISSED, bits [3:3]. -/
def Reg.SNAP_STAT.MISSED : Fld := ⟨0x120008, 0, 3, 1⟩
/-- SNAP_STAT.BELL_DROP, bits [2:2]. -/
def Reg.SNAP_STAT.BELL_DROP : Fld := ⟨0x120008, 0, 2, 1⟩
/-- SNAP_STAT.BELL_LATE, bits [1:1]. -/
def Reg.SNAP_STAT.BELL_LATE : Fld := ⟨0x120008, 0, 1, 1⟩
/-- SNAP_STAT.CAPTURED, bits [0:0]. -/
def Reg.SNAP_STAT.CAPTURED : Fld := ⟨0x120008, 0, 0, 1⟩

/-! SNAP_CORE0 (chapter 21). -/

/-- SNAP_CORE0.BUNDLE, bits [63:53]. -/
def Reg.SNAP_CORE0.BUNDLE : Fld := ⟨0x124000, 16, 53, 11⟩
/-- SNAP_CORE0.AT_END, bits [52:52]. -/
def Reg.SNAP_CORE0.AT_END : Fld := ⟨0x124000, 16, 52, 1⟩
/-- SNAP_CORE0.LATE, bits [51:51]. -/
def Reg.SNAP_CORE0.LATE : Fld := ⟨0x124000, 16, 51, 1⟩
/-- SNAP_CORE0.FAULT_STALL, bits [50:50]. -/
def Reg.SNAP_CORE0.FAULT_STALL : Fld := ⟨0x124000, 16, 50, 1⟩
/-- SNAP_CORE0.ENG_BUSY, bits [49:42]. -/
def Reg.SNAP_CORE0.ENG_BUSY : Fld := ⟨0x124000, 16, 42, 8⟩
/-- SNAP_CORE0.XE0_Q, bits [41:36]. -/
def Reg.SNAP_CORE0.XE0_Q : Fld := ⟨0x124000, 16, 36, 6⟩
/-- SNAP_CORE0.XE1_Q, bits [35:30]. -/
def Reg.SNAP_CORE0.XE1_Q : Fld := ⟨0x124000, 16, 30, 6⟩
/-- SNAP_CORE0.ME_Q, bits [29:14]. -/
def Reg.SNAP_CORE0.ME_Q : Fld := ⟨0x124000, 16, 14, 16⟩
/-- SNAP_CORE0.VE_Q, bits [13:6]. -/
def Reg.SNAP_CORE0.VE_Q : Fld := ⟨0x124000, 16, 6, 8⟩

/-! DCTL_ROT_CFG (chapter 21). -/

/-- DCTL_ROT_CFG.EN, bits [63:63]. -/
def Reg.DCTL_ROT_CFG.EN : Fld := ⟨0x1007800, 0, 63, 1⟩
/-- DCTL_ROT_CFG.GAP, bits [55:48]. -/
def Reg.DCTL_ROT_CFG.GAP : Fld := ⟨0x1007800, 0, 48, 8⟩

/-! DCTL_ROT_STAT (chapter 21). -/

/-- DCTL_ROT_STAT.PASSES, bits [63:32]. -/
def Reg.DCTL_ROT_STAT.PASSES : Fld := ⟨0x1007808, 8, 32, 32⟩
/-- DCTL_ROT_STAT.FAILS, bits [31:24]. -/
def Reg.DCTL_ROT_STAT.FAILS : Fld := ⟨0x1007808, 8, 24, 8⟩
/-- DCTL_ROT_STAT.DEFERS, bits [23:16]. -/
def Reg.DCTL_ROT_STAT.DEFERS : Fld := ⟨0x1007808, 8, 16, 8⟩
/-- DCTL_ROT_STAT.CLUSTER, bits [14:11]. -/
def Reg.DCTL_ROT_STAT.CLUSTER : Fld := ⟨0x1007808, 8, 11, 4⟩
/-- DCTL_ROT_STAT.K, bits [10:6]. -/
def Reg.DCTL_ROT_STAT.K : Fld := ⟨0x1007808, 8, 6, 5⟩
/-- DCTL_ROT_STAT.STATE, bits [5:4]. -/
def Reg.DCTL_ROT_STAT.STATE : Fld := ⟨0x1007808, 8, 4, 2⟩
/-- DCTL_ROT_STAT.WINDOW_OUT, bits [2:2]. -/
def Reg.DCTL_ROT_STAT.WINDOW_OUT : Fld := ⟨0x1007808, 8, 2, 1⟩
/-- DCTL_ROT_STAT.ROT_FAIL, bits [1:1]. -/
def Reg.DCTL_ROT_STAT.ROT_FAIL : Fld := ⟨0x1007808, 8, 1, 1⟩

/-! DCTL_BOOT_STAT (chapter 22). -/

/-- DCTL_BOOT_STAT.T_RELEASE, bits [63:48]. -/
def Reg.DCTL_BOOT_STAT.T_RELEASE : Fld := ⟨0x1007900, 0, 48, 16⟩
/-- DCTL_BOOT_STAT.BANK, bits [47:40]. -/
def Reg.DCTL_BOOT_STAT.BANK : Fld := ⟨0x1007900, 0, 40, 8⟩
/-- DCTL_BOOT_STAT.ABSENT, bits [39:32]. -/
def Reg.DCTL_BOOT_STAT.ABSENT : Fld := ⟨0x1007900, 0, 32, 8⟩
/-- DCTL_BOOT_STAT.FAIL_STEP, bits [31:28]. -/
def Reg.DCTL_BOOT_STAT.FAIL_STEP : Fld := ⟨0x1007900, 0, 28, 4⟩
/-- DCTL_BOOT_STAT.LAST_STEP, bits [27:24]. -/
def Reg.DCTL_BOOT_STAT.LAST_STEP : Fld := ⟨0x1007900, 0, 24, 4⟩
/-- DCTL_BOOT_STAT.T1_RETRAIN, bits [23:16]. -/
def Reg.DCTL_BOOT_STAT.T1_RETRAIN : Fld := ⟨0x1007900, 0, 16, 8⟩
/-- DCTL_BOOT_STAT.T2_RETRAIN, bits [15:8]. -/
def Reg.DCTL_BOOT_STAT.T2_RETRAIN : Fld := ⟨0x1007900, 0, 8, 8⟩
/-- DCTL_BOOT_STAT.BOOT_LOCK_TO, bits [1:1]. -/
def Reg.DCTL_BOOT_STAT.BOOT_LOCK_TO : Fld := ⟨0x1007900, 0, 1, 1⟩
/-- DCTL_BOOT_STAT.TEST_KEYS_USED, bits [0:0]. -/
def Reg.DCTL_BOOT_STAT.TEST_KEYS_USED : Fld := ⟨0x1007900, 0, 0, 1⟩

/-! DCTL_NODE (chapter 23). -/

/-- DCTL_NODE.NODE, bits [15:0]. -/
def Reg.DCTL_NODE.NODE : Fld := ⟨0x1000080, 0, 0, 16⟩

/-! DCTL_MOD_STAT (chapter 24). -/

/-- DCTL_MOD_STAT.VIN, bits [63:54]. -/
def Reg.DCTL_MOD_STAT.VIN : Fld := ⟨0x1007a00, 0, 54, 10⟩
/-- DCTL_MOD_STAT.IIN, bits [53:44]. -/
def Reg.DCTL_MOD_STAT.IIN : Fld := ⟨0x1007a00, 0, 44, 10⟩
/-- DCTL_MOD_STAT.T_CIN, bits [43:36]. -/
def Reg.DCTL_MOD_STAT.T_CIN : Fld := ⟨0x1007a00, 0, 36, 8⟩
/-- DCTL_MOD_STAT.T_COUT, bits [35:28]. -/
def Reg.DCTL_MOD_STAT.T_COUT : Fld := ⟨0x1007a00, 0, 28, 8⟩
/-- DCTL_MOD_STAT.PIN, bits [27:12]. -/
def Reg.DCTL_MOD_STAT.PIN : Fld := ⟨0x1007a00, 0, 12, 16⟩
/-- DCTL_MOD_STAT.FCODE, bits [11:8]. -/
def Reg.DCTL_MOD_STAT.FCODE : Fld := ⟨0x1007a00, 0, 8, 4⟩
/-- DCTL_MOD_STAT.COOL_EVT, bits [3:3]. -/
def Reg.DCTL_MOD_STAT.COOL_EVT : Fld := ⟨0x1007a00, 0, 3, 1⟩
/-- DCTL_MOD_STAT.OC_EVT, bits [2:2]. -/
def Reg.DCTL_MOD_STAT.OC_EVT : Fld := ⟨0x1007a00, 0, 2, 1⟩
/-- DCTL_MOD_STAT.UV_EVT, bits [1:1]. -/
def Reg.DCTL_MOD_STAT.UV_EVT : Fld := ⟨0x1007a00, 0, 1, 1⟩

/-! QOSM_CTX_Q (chapter 14). -/

/-- QOSM_CTX_Q.COUNT, bits [63:0]. -/
def Reg.QOSM_CTX_Q.COUNT : Fld := ⟨0xc8010, 8, 0, 64⟩

/-! PWR_E_PKG (chapter 20). -/

/-- PWR_E_PKG.MJ, bits [63:0]. -/
def Reg.PWR_E_PKG.MJ : Fld := ⟨0x100030, 0, 0, 64⟩

/-! PWR_E_BAL (chapter 20). -/

/-- PWR_E_BAL.MJ, bits [63:0]. -/
def Reg.PWR_E_BAL.MJ : Fld := ⟨0x100038, 0, 0, 64⟩

/-! PWR_E_PART (chapter 20). -/

/-- PWR_E_PART.MJ, bits [63:0]. -/
def Reg.PWR_E_PART.MJ : Fld := ⟨0x100100, 8, 0, 64⟩

/-! PWR_DROOP (chapter 20). -/

/-- PWR_DROOP.COUNT, bits [31:0]. -/
def Reg.PWR_DROOP.COUNT : Fld := ⟨0x100080, 8, 0, 32⟩

/-! DCTL_SNAP_CFG (chapter 21). -/

/-- DCTL_SNAP_CFG.PART_BELL, bits [63:32]. -/
def Reg.DCTL_SNAP_CFG.PART_BELL : Fld := ⟨0x1007820, 0, 32, 32⟩

/-! SNAP_SEL (chapter 21). -/

/-- SNAP_SEL.REG, bits [24:3]. -/
def Reg.SNAP_SEL.REG : Fld := ⟨0x120010, 0, 3, 22⟩

/-! SNAP_DATA (chapter 21). -/

/-- SNAP_DATA.DATA, bits [63:0]. -/
def Reg.SNAP_DATA.DATA : Fld := ⟨0x120018, 0, 0, 64⟩

/-! SNAP_CORE1 (chapter 21). -/

/-- SNAP_CORE1.TAGS, bits [63:0]. -/
def Reg.SNAP_CORE1.TAGS : Fld := ⟨0x124008, 16, 0, 64⟩

/-! LTCH_VAL (chapter 15). -/

/-- LTCH_VAL.VAL, bits [63:0]. -/
def Reg.LTCH_VAL.VAL : Fld := ⟨0x40000, 8, 0, 64⟩

/-! PVIEW_CTX_SEL (chapter 14). -/

/-- PVIEW_CTX_SEL.SNAP_BEAT, bits [63:16]. -/
def Reg.PVIEW_CTX_SEL.SNAP_BEAT : Fld := ⟨0x11c8000, 0, 16, 48⟩
/-- PVIEW_CTX_SEL.NONE, bits [8:8]. -/
def Reg.PVIEW_CTX_SEL.NONE : Fld := ⟨0x11c8000, 0, 8, 1⟩
/-- PVIEW_CTX_SEL.CTX, bits [7:0]. -/
def Reg.PVIEW_CTX_SEL.CTX : Fld := ⟨0x11c8000, 0, 0, 8⟩

/-! PVIEW_CTX_Q (chapter 14). -/

/-- PVIEW_CTX_Q.COUNT, bits [63:0]. -/
def Reg.PVIEW_CTX_Q.COUNT : Fld := ⟨0x11c8010, 8, 0, 64⟩

/-! MSIX_ADDR (chapter 14). -/

/-- MSIX_ADDR.ADDR, bits [63:0]. -/
def Reg.MSIX_ADDR.ADDR : Fld := ⟨0x81000, 16, 0, 64⟩

/-! MSIX_CTL (chapter 14). -/

/-- MSIX_CTL.DATA, bits [31:0]. -/
def Reg.MSIX_CTL.DATA : Fld := ⟨0x81008, 16, 0, 32⟩
/-- MSIX_CTL.MASK, bits [32:32]. -/
def Reg.MSIX_CTL.MASK : Fld := ⟨0x81008, 16, 32, 1⟩

/-! MSIX_PBA (chapter 14). -/

/-- MSIX_PBA.PENDING, bits [63:0]. -/
def Reg.MSIX_PBA.PENDING : Fld := ⟨0x82000, 0, 0, 64⟩

/-- Registers of the field maps, part 0. -/
def regTable0 : List RegDef := [
  ⟨"IDC_ID", 0x0, 0, 1, 0x0, 0x0, 0x0, false⟩,
  ⟨"IDC_CAP0", 0x10, 0, 1, 0x0, 0x0, 0x0, false⟩,
  ⟨"IDC_CAP1", 0x18, 0, 1, 0x0, 0x0, 0x200100, false⟩,
  ⟨"IDC_TOPO", 0x8000, 0, 1, 0x0, 0x0, 0x0, false⟩,
  ⟨"IDC_CORE_MAP", 0x9000, 8, 512, 0x0, 0x0, 0x0, false⟩,
  ⟨"IDC_PCORE_STAT", 0xa000, 8, 544, 0x0, 0x0, 0x0, false⟩,
  ⟨"PCTL_NUM_STAT", 0x10200, 0, 1, 0x0, 0x4, 0x0, false⟩,
  ⟨"PCTL_SIEVE_STAT", 0x10300, 0, 1, 0x0, 0x1, 0x0, false⟩,
  ⟨"PCTL_SIEVE_TBL", 0x10380, 8, 16, 0x0, 0x0, 0x0, false⟩,
  ⟨"PCTL_MEM_CARVE", 0x10400, 0, 1, 0x0, 0x0, 0x0, false⟩,
  ⟨"PCTL_MEM_CARVE2", 0x10408, 0, 1, 0x0, 0x0, 0x0, false⟩,
  ⟨"PCTL_MSU_STAT", 0x10500, 0, 1, 0x0, 0x1, 0x0, false⟩,
  ⟨"PCTL_SCHED_STAT", 0x10600, 8, 32, 0x0, 0xf, 0x0, false⟩,
  ⟨"PCTL_COMP_STAT", 0x10700, 0, 1, 0x0, 0x3, 0x0, false⟩,
  ⟨"PCTL_COMP_SEQ", 0x10708, 0, 1, 0x0, 0x0, 0x0, false⟩,
  ⟨"PCTL_BAR2_MAP", 0x10800, 0, 1, 0xfffc0000000, 0x1, 0x0, false⟩,
  ⟨"PCTL_GRAPH_AREA", 0x10900, 0, 1, 0xfffffffffff, 0x0, 0x0, false⟩,
  ⟨"PCTL_CORE_EXC0", 0x18000, 16, 512, 0x0, 0x0, 0x0, false⟩,
  ⟨"PCTL_CORE_EXC1", 0x18008, 16, 512, 0x0, 0x0, 0x0, false⟩,
  ⟨"QCFG_TAILBASE", 0x20000, 0, 1, 0xffffffffffe00, 0x0, 0x0, false⟩]

/-- Registers of the field maps, part 1. -/
def regTable1 : List RegDef := [
  ⟨"QCFG_Q0", 0x21000, 32, 64, 0x800fffffffffffff, 0x0, 0x200, false⟩,
  ⟨"QCFG_Q1", 0x21008, 32, 64, 0x83fffffffffff00f, 0x0, 0x0, false⟩,
  ⟨"QCFG_QSTAT", 0x21010, 32, 64, 0x0, 0xe, 0x0, false⟩,
  ⟨"QCFG_QCTL", 0x21018, 32, 64, 0x0, 0x0, 0x0, true⟩,
  ⟨"QCFG_CQ0", 0x22000, 16, 64, 0x0, 0x0, 0x0, false⟩,
  ⟨"QCFG_CQ1", 0x22008, 16, 64, 0xffffffff, 0x0, 0x0, false⟩,
  ⟨"LTCH_VAL", 0x40000, 8, 4096, 0x0, 0x0, 0x0, false⟩,
  ⟨"LTCH_HELD", 0x48000, 8, 4096, 0x0, 0x0, 0x0, false⟩,
  ⟨"LTCH_STAT", 0x50000, 0, 1, 0x0, 0x1, 0x0, false⟩,
  ⟨"INTC_STATUS", 0x80000, 0, 1, 0x0, 0xfff, 0x0, false⟩,
  ⟨"INTC_VEC", 0x80100, 8, 12, 0x7f, 0x0, 0x0, false⟩,
  ⟨"INTC_TAIL", 0x80200, 0, 1, 0x0, 0x1, 0x0, false⟩,
  ⟨"MSIX_ADDR", 0x81000, 16, 64, 0xffffffffffffffff, 0x0, 0x0, false⟩,
  ⟨"MSIX_CTL", 0x81008, 16, 64, 0x1ffffffff, 0x0, 0x100000000, false⟩,
  ⟨"MSIX_PBA", 0x82000, 0, 1, 0x0, 0x0, 0x0, false⟩,
  ⟨"XLAT_ROOT", 0xa0000, 0, 1, 0xfffffffe001, 0x0, 0x0, false⟩,
  ⟨"XLAT_FRING_CFG", 0xa0010, 0, 1, 0x800ffffffffff3ff, 0x0, 0x0, false⟩,
  ⟨"XLAT_FRING_IDX", 0xa0018, 0, 1, 0xffffffff, 0x0, 0x0, false⟩,
  ⟨"XLAT_RESUME", 0xa0020, 0, 1, 0x0, 0x0, 0x0, true⟩,
  ⟨"XLAT_STAT", 0xa0028, 0, 1, 0x0, 0xf, 0x0, false⟩]

/-- Registers of the field maps, part 2. -/
def regTable2 : List RegDef := [
  ⟨"XLAT_FQUERY", 0xa0030, 0, 1, 0xffff, 0x0, 0x0, true⟩,
  ⟨"QOSM_CFG0", 0xc0000, 0, 1, 0x0, 0x0, 0x601007fffe00000, false⟩,
  ⟨"QOSM_CFG1", 0xc0008, 0, 1, 0x0, 0x0, 0xffffffffffffffff, false⟩,
  ⟨"QOSM_CFG2", 0xc0010, 0, 1, 0x0, 0x0, 0x0, false⟩,
  ⟨"QOSM_TGT_PORT", 0xc0100, 8, 8, 0x0, 0x0, 0x0, false⟩,
  ⟨"QOSM_STEP0", 0xc0200, 0, 1, 0x0, 0x0, 0x0, false⟩,
  ⟨"QOSM_STEP1", 0xc0208, 0, 1, 0x0, 0x0, 0x0, false⟩,
  ⟨"QOSM_MISS0", 0xc0300, 0, 1, 0x0, 0x0, 0x0, false⟩,
  ⟨"QOSM_MISS1", 0xc0308, 0, 1, 0x0, 0x0, 0x0, false⟩,
  ⟨"QOSM_SAVE", 0xc0400, 0, 1, 0x80000ffffffff800, 0x2, 0x0, false⟩,
  ⟨"QOSM_SWSTAT", 0xc0408, 0, 1, 0x0, 0x0, 0x0, false⟩,
  ⟨"QOSM_CORE_LATE", 0xc4000, 8, 512, 0x0, 0x0, 0x0, false⟩,
  ⟨"QOSM_CTX_SEL", 0xc8000, 0, 1, 0xff, 0x0, 0x0, true⟩,
  ⟨"QOSM_CTX_Q", 0xc8010, 8, 16, 0x0, 0x0, 0x0, false⟩,
  ⟨"ERRL_CFG", 0xe0000, 0, 1, 0x800ffffffffff00f, 0x0, 0x0, false⟩,
  ⟨"ERRL_IDX", 0xe0008, 0, 1, 0xffffffff, 0x0, 0x0, false⟩,
  ⟨"ERRL_STALL", 0xe0010, 0, 1, 0xffff, 0x0, 0xc8, false⟩,
  ⟨"ERRL_STAT", 0xe0018, 0, 1, 0x0, 0x1, 0x0, false⟩,
  ⟨"ERRL_PROG", 0xe4000, 8, 512, 0x0, 0x0, 0x0, false⟩,
  ⟨"PWR_CTL", 0x100000, 0, 1, 0x0, 0x0, 0x0, true⟩]

/-- Registers of the field maps, part 3. -/
def regTable3 : List RegDef := [
  ⟨"PWR_CAP", 0x100008, 0, 1, 0xffff0000ffffff00, 0x0, 0x960096000203c00, false⟩,
  ⟨"PWR_DOM_CTL", 0x100010, 0, 1, 0xffffffffffff, 0x0, 0x0, false⟩,
  ⟨"PWR_DOM_STAT", 0x100018, 0, 1, 0x0, 0x1000000000000, 0x0, false⟩,
  ⟨"PWR_STAT", 0x100020, 0, 1, 0x0, 0xf, 0x4200000000000000, false⟩,
  ⟨"PWR_TCFG", 0x100028, 0, 1, 0x0, 0x0, 0x646e785f00000000, false⟩,
  ⟨"PWR_E_PKG", 0x100030, 0, 1, 0x0, 0x0, 0x0, false⟩,
  ⟨"PWR_E_BAL", 0x100038, 0, 1, 0x0, 0x0, 0x0, false⟩,
  ⟨"PWR_HINT", 0x100040, 0, 1, 0x0, 0x0, 0x0, true⟩,
  ⟨"PWR_DROOP", 0x100080, 8, 2, 0x0, 0x0, 0x0, false⟩,
  ⟨"PWR_E_PART", 0x100100, 8, 32, 0x0, 0x0, 0x0, false⟩,
  ⟨"PWR_VTAB", 0x100200, 8, 2, 0x0, 0x0, 0x0, false⟩,
  ⟨"PWR_TEMP", 0x100400, 8, 46, 0x0, 0x0, 0x0, false⟩,
  ⟨"SNAP_CTL", 0x120000, 0, 1, 0x2, 0x0, 0x0, true⟩,
  ⟨"SNAP_STAT", 0x120008, 0, 1, 0x0, 0xf, 0x0, false⟩,
  ⟨"SNAP_SEL", 0x120010, 0, 1, 0x1fffff8, 0x0, 0x0, false⟩,
  ⟨"SNAP_DATA", 0x120018, 0, 1, 0x0, 0x0, 0x0, false⟩,
  ⟨"SNAP_CORE0", 0x124000, 16, 512, 0x0, 0x0, 0x0, false⟩,
  ⟨"SNAP_CORE1", 0x124008, 16, 512, 0x0, 0x0, 0x0, false⟩,
  ⟨"DSTP_ATTEST", 0x140000, 0, 1, 0xfffffffff8000, 0x2, 0x8, true⟩,
  ⟨"DSTP_SESSION", 0x141000, 8, 256, 0x0, 0x2, 0x0, false⟩]

/-- Registers of the field maps, part 4. -/
def regTable4 : List RegDef := [
  ⟨"DSTP_QGEN", 0x142000, 8, 64, 0x0, 0x1, 0x0, false⟩,
  ⟨"DSTP_DOOR0", 0x144000, 32, 256, 0x800ffffffffff000, 0x0, 0x0, false⟩,
  ⟨"DSTP_DOOR1", 0x144008, 32, 256, 0xfffffffffffe0, 0x0, 0x0, false⟩,
  ⟨"DSTP_DOOR2", 0x144010, 32, 256, 0xfffff, 0x0, 0x0, false⟩,
  ⟨"DSTP_DOOR3", 0x144018, 32, 256, 0x0, 0x0, 0x0, false⟩,
  ⟨"DCTL_NODE", 0x1000080, 0, 1, 0x0, 0x0, 0x0, false⟩,
  ⟨"DCTL_BEAT_CFG", 0x1000100, 0, 1, 0x0, 0x0, 0xa140005, false⟩,
  ⟨"DCTL_BEAT_NEXT", 0x1000108, 0, 1, 0x0, 0x0, 0xffffffffffff, false⟩,
  ⟨"DCTL_BEAT_STAT", 0x1000110, 0, 1, 0x0, 0x70000, 0x0, false⟩,
  ⟨"DCTL_BEAT_NUM", 0x1000118, 0, 1, 0x0, 0x0, 0x0, false⟩,
  ⟨"DCTL_PVIEW_SEL", 0x1000200, 0, 1, 0x800000000000001f, 0x0, 0x0, false⟩,
  ⟨"DCTL_CARVE_T1", 0x1002000, 8, 12, 0x0, 0x0, 0x0, false⟩,
  ⟨"DCTL_CARVE_CEL", 0x1002080, 8, 2, 0x0, 0x0, 0x0, false⟩,
  ⟨"DCTL_CARVE_T2", 0x10020a0, 8, 2, 0x0, 0x0, 0x0, false⟩,
  ⟨"DCTL_MEMSTAT", 0x1002100, 8, 30, 0x0, 0x1e, 0x0, false⟩,
  ⟨"DCTL_MEM_CFG", 0x1002200, 0, 1, 0x0, 0x0, 0x7000900018180000, false⟩,
  ⟨"DCTL_TWIN0", 0x1003000, 16, 64, 0x0, 0x0, 0x0, false⟩,
  ⟨"DCTL_TWIN1", 0x1003008, 16, 64, 0x0, 0x0, 0x0, false⟩,
  ⟨"DCTL_MSU_CFG", 0x1003800, 0, 1, 0x0, 0x0, 0x64, false⟩,
  ⟨"DCTL_XLAT_INV", 0x1004000, 0, 1, 0x0, 0x0, 0x0, true⟩]

/-- Registers of the field maps, part 5. -/
def regTable5 : List RegDef := [
  ⟨"DCTL_XLAT_INVSTAT", 0x1004008, 0, 1, 0x0, 0x2, 0x0, false⟩,
  ⟨"DCTL_DLOG_CFG", 0x1004100, 16, 32, 0x80000fffffffe000, 0x2, 0x0, false⟩,
  ⟨"DCTL_DLOG_WIN", 0x1004108, 16, 32, 0xfffffff00fffffff, 0x0, 0x0, false⟩,
  ⟨"DCTL_COMP_CFG", 0x1005000, 0, 1, 0x0, 0x0, 0xc8, false⟩,
  ⟨"DCTL_COMP_STAT", 0x1005008, 0, 1, 0x0, 0x3, 0x0, false⟩,
  ⟨"DCTL_COMP_PART0", 0x1005100, 16, 32, 0x0, 0x0, 0x0, false⟩,
  ⟨"DCTL_COMP_PART1", 0x1005108, 16, 32, 0x0, 0x0, 0x0, false⟩,
  ⟨"DCTL_COMP_REL0", 0x1005400, 16, 32, 0x0, 0x0, 0x0, false⟩,
  ⟨"DCTL_COMP_REL1", 0x1005408, 16, 32, 0x0, 0x0, 0x0, false⟩,
  ⟨"DCTL_LYS_PCFG", 0x1006000, 64, 32, 0x0, 0x0, 0xc084000000, false⟩,
  ⟨"DCTL_LYS_PSTAT", 0x1006008, 64, 32, 0x0, 0xfe, 0x0, false⟩,
  ⟨"DCTL_LYS_DLY", 0x1006010, 64, 32, 0x0, 0x0, 0x0, false⟩,
  ⟨"DCTL_LYS_CNT0", 0x1006018, 64, 32, 0x0, 0x0, 0x0, false⟩,
  ⟨"DCTL_LYS_CNT1", 0x1006020, 64, 32, 0x0, 0x0, 0x0, false⟩,
  ⟨"DCTL_LYS_OPT", 0x1006028, 64, 32, 0x0, 0x0, 0x0, false⟩,
  ⟨"DCTL_LYS_SCHED", 0x1006030, 64, 32, 0x0, 0xf, 0x0, false⟩,
  ⟨"DCTL_LYS_SCHEDCNT", 0x1006038, 64, 32, 0x0, 0x0, 0x0, false⟩,
  ⟨"DCTL_LYS_INLET", 0x1006800, 8, 8, 0x0, 0x6, 0x0, false⟩,
  ⟨"DCTL_RST_CFG", 0x1007000, 0, 1, 0x0, 0x0, 0x102, false⟩,
  ⟨"DCTL_RST_CTL", 0x1007008, 0, 1, 0x0, 0x0, 0x0, true⟩]

/-- Registers of the field maps, part 6. -/
def regTable6 : List RegDef := [
  ⟨"DCTL_RST_STAT", 0x1007010, 0, 1, 0x0, 0xe, 0x0, false⟩,
  ⟨"DCTL_DUMP_STAT", 0x1007018, 0, 1, 0x0, 0x3, 0x0, false⟩,
  ⟨"DCTL_ROT_CFG", 0x1007800, 0, 1, 0x0, 0x0, 0x8014000000000000, false⟩,
  ⟨"DCTL_ROT_STAT", 0x1007808, 8, 2, 0x0, 0x6, 0x0, false⟩,
  ⟨"DCTL_SNAP_CFG", 0x1007820, 0, 1, 0x0, 0x0, 0x0, false⟩,
  ⟨"DCTL_BOOT_STAT", 0x1007900, 0, 1, 0x0, 0x0, 0x0, false⟩,
  ⟨"DCTL_MOD_STAT", 0x1007a00, 0, 1, 0x0, 0xe, 0x0, false⟩,
  ⟨"DCTL_LYS_RT", 0x1008000, 8, 16384, 0x0, 0x0, 0x0, false⟩,
  ⟨"DCTL_LIFE", 0x1030000, 0, 1, 0x0, 0x0, 0x0, false⟩,
  ⟨"DCTL_KEY_ATTR", 0x1030100, 8, 64, 0x0, 0x0, 0x0, false⟩,
  ⟨"DCTL_PARISH0", 0x1030400, 8, 2, 0x0, 0x0, 0x0, false⟩,
  ⟨"DCTL_PARISH2", 0x1030410, 0, 1, 0x0, 0x0, 0x0, false⟩,
  ⟨"DCTL_T2SEC_CFG", 0x1030800, 0, 1, 0x0, 0x0, 0x189cc80000000000, false⟩,
  ⟨"DCTL_T2SEC_CTL", 0x1030808, 0, 1, 0x0, 0x0, 0x0, true⟩,
  ⟨"DCTL_T2SEC_STAT", 0x1030810, 0, 1, 0x0, 0x1e, 0x0, false⟩,
  ⟨"DCTL_T2ROLL", 0x1030820, 8, 16, 0x0, 0x0, 0x0, false⟩,
  ⟨"DCTL_T2CC", 0x10308a0, 8, 2, 0x0, 0x0, 0x0, false⟩,
  ⟨"PVIEW_CTX_SEL", 0x11c8000, 0, 1, 0xff, 0x0, 0x0, false⟩,
  ⟨"PVIEW_CTX_Q", 0x11c8010, 8, 16, 0x0, 0x0, 0x0, false⟩]

/-- Every register of the field maps, by rising offset (R508 for the last column: whether it takes only
8-byte writes). -/
def regTable : List RegDef :=
  regTable0 ++ regTable1 ++ regTable2 ++ regTable3 ++ regTable4 ++ regTable5 ++ regTable6

end Sys2Proof.Machine
end

