-- ==== Sys2Proof/Machine/Tab.lean ====
section
/-! DEFINITION. The operations of sparse tables by number: find, put, remove, and get and set against the value
that an unlisted number reads as. Every operation keeps the numbers strictly rising. -/

namespace Sys2Proof

/-- The entry of a number, if it is listed. -/
def Tab.find? {α : Type} : Tab α → Nat → Option α
  | [], _ => none
  | (j, v) :: t, k => if j = k then some v else Tab.find? t k

/-- The table with a number's entry put in place. -/
def Tab.put {α : Type} : Tab α → Nat → α → Tab α
  | [], k, v => [(k, v)]
  | (j, w) :: t, k, v =>
    if k < j then (k, v) :: (j, w) :: t
    else if k = j then (k, v) :: t
    else (j, w) :: Tab.put t k v

/-- The table without a number. -/
def Tab.del {α : Type} : Tab α → Nat → Tab α
  | [], _ => []
  | (j, w) :: t, k => if j = k then t else (j, w) :: Tab.del t k

/-- The value of a number, where an unlisted number reads as `d`. -/
def Tab.get {α : Type} (d : α) (t : Tab α) (k : Nat) : α := (t.find? k).getD d

/-- The table with a number's value written: writing `d`, which an unlisted number reads as, removes it. -/
def Tab.set {α : Type} [DecidableEq α] (d : α) (t : Tab α) (k : Nat) (v : α) : Tab α :=
  if v = d then t.del k else t.put k v

/-- Numbers strictly rising. -/
def Tab.rising {α : Type} : Tab α → Bool
  | [] => true
  | [_] => true
  | (j, _) :: (k, w) :: t => decide (j < k) && Tab.rising ((k, w) :: t)

/-- The canonical form against `d`: numbers strictly rising and no entry equal to `d`. -/
def Tab.wf {α : Type} [DecidableEq α] (d : α) (t : Tab α) : Bool :=
  t.rising && t.all fun e => decide (e.2 ≠ d)

/-- The canonical form of the memory: an unlisted byte reads as zero (R474, log 1). -/
def Memory.wf (m : Tab Byte) : Bool := Tab.wf 0 m

/-- Every entry mapped. -/
def Tab.mapVals {α : Type} (f : Nat → α → α) (t : Tab α) : Tab α := t.map fun e => (e.1, f e.1 e.2)

/-- Write a run of bytes from a number on. -/
def Tab.setRun (t : Tab Byte) (k : Nat) : List Byte → Tab Byte
  | [] => t
  | b :: bs => Tab.setRun (t.set 0 k b) (k + 1) bs

/-- Read a run of bytes. -/
def Tab.getRun (t : Tab Byte) (k : Nat) : Nat → List Byte
  | 0 => []
  | n + 1 => t.get 0 k :: Tab.getRun t (k + 1) n

end Sys2Proof
end

