-- ==== Sys2Proof/Machine/Ops.lean ====
section
/-! DEFINITION. The named operations over registers, memory, free values and messages that every meaning uses. -/

namespace Sys2Proof.Machine

open Sys2Proof

/-! ## Bits and bytes -/

/-- Bits [lo + w - 1 : lo] of a number. -/
def bits (n lo w : Nat) : Nat := n / 2 ^ lo % 2 ^ w

/-- One bit of a number. -/
def bitOf (n i : Nat) : Bool := n / 2 ^ i % 2 == 1

/-- A number with bits [lo + w - 1 : lo] replaced by the low `w` bits of `v`. -/
def putBits (n lo w v : Nat) : Nat :=
  n % 2 ^ lo + (v % 2 ^ w) * 2 ^ lo + n / 2 ^ (lo + w) * 2 ^ (lo + w)

/-- The two's complement reading of the low `w` bits. -/
def signed (n w : Nat) : Int :=
  let m := n % 2 ^ w
  if m < 2 ^ (w - 1) then (m : Int) else (m : Int) - (2 ^ w : Nat)

/-- The low `w` bits of an integer. -/
def wrap (i : Int) (w : Nat) : Nat := (i % (2 ^ w : Nat)).toNat

/-- Little-endian bytes of a number (R92, R134, R223). -/
def leBytes : Nat → Nat → List Byte
  | 0, _ => []
  | n + 1, v => BitVec.ofNat 8 v :: leBytes n (v / 256)

/-- The number that little-endian bytes hold. -/
def leNat : List Byte → Nat
  | [] => 0
  | b :: bs => b.toNat + 256 * leNat bs

/-- One field of little-endian bytes: `n` bytes from `off`. -/
def leField (bs : List Byte) (off n : Nat) : Nat := leNat ((bs.drop off).take n)

/-- CHANGE_AT when no change of length is pending (R27). -/
def noChange : Nat := 2 ^ 48 - 1

/-- Round up to a multiple. -/
def roundUp (n k : Nat) : Nat := (n + k - 1) / k * k

/-- Quotient rounded up. -/
def ceilDiv (n k : Nat) : Nat := (n + k - 1) / k

/-- The set bits of a number below `w`, lowest first. -/
def setBits (n w : Nat) : List Nat := (List.range w).filter (bitOf n)

/-- A key made of a function or partition number and an identifier. -/
def key2 (a b : Nat) : Nat := a * 1048576 + b

/-- CRC-32C of a byte string (R158): reflected polynomial 0x82F63B78, all ones before and after. -/
def crcStep (c : Nat) : Nat → Nat
  | 0 => c
  | n + 1 => crcStep (if c % 2 = 1 then (c / 2) ^^^ 0x82F63B78 else c / 2) n

/-- CRC-32C of a byte string. -/
def crc32c (bs : List Byte) : Nat :=
  (bs.foldl (fun c b => crcStep (c ^^^ b.toNat) 8) 0xFFFFFFFF) ^^^ 0xFFFFFFFF

/-! ## Registers -/

/-- The key of a function's register in `State.regs`. -/
def regKey (fn off : Nat) : Nat := fn * 0x2000000 + off

/-- The register table's row for an offset, with the index in its array. -/
def regFind (off : Nat) : List RegDef → Option (RegDef × Nat)
  | [] => none
  | r :: rs =>
    if r.off ≤ off ∧ (if r.stride = 0 then off = r.off
        else (off - r.off) % r.stride = 0 ∧ (off - r.off) / r.stride < r.n) then
      some (r, if r.stride = 0 then 0 else (off - r.off) / r.stride)
    else regFind off rs

/-- The values that the field maps call 'per variant', 'set at release' or 'fused', at full health of a
YX-1640 that is DEPLOYED (log 1, log 7). -/
def releaseValue (fn off : Nat) : Option Nat :=
  if off = 0x0 then some (2 ^ 48 + fn * 2 ^ 16)
  else if off = 0x10 then some (0xFFFF * 2 ^ 48 + 0xFFF * 2 ^ 36 + 0xFFFFFFFF)
  else if off = 0x18 then some (2 ^ 49 + 2 ^ 48 + 512 * 2 ^ 32 + 0xFF * 2 ^ 24 + 0x20 * 2 ^ 16 + 0x100)
  else if off = 0x8000 then some (2 ^ 48 + 16 * 2 ^ 38 + 32 * 2 ^ 32 + 256 * 2 ^ 16 + 256)
  else if 0x9000 ≤ off ∧ off < 0xA000 then
    let n := (off - 0x9000) / 8
    some (2 ^ 32 + n / 256 * 2 ^ 12 + n % 256 / 16 * 2 ^ 8 + n % 16)
  else if 0xA000 ≤ off ∧ off < 0xB100 then
    let i := (off - 0xA000) / 8
    let d := i / 272
    let c := i % 272 / 17
    let k := i % 17
    some (if k = 16 then 2 * 2 ^ 13 else 2 ^ 13 + (256 * d + 16 * c + k))
  else if 0x1002000 ≤ off ∧ off < 0x1002060 then some (2 ^ 33)
  else if 0x1002100 ≤ off ∧ off < 0x10021F0 then some (2 ^ 28)
  else if off = 0x1002200 then
    some (0x70 * 2 ^ 56 + 0x70 * 2 ^ 48 + 0x90 * 2 ^ 40 + 0x90 * 2 ^ 32 + 0x18 * 2 ^ 24 + 0x18 * 2 ^ 16)
  else if off = 0x1030100 ∨ off = 0x1030110 then some (2 ^ 63 + 2 ^ 60 + 3 * 2 ^ 46)
  else if off = 0x1030108 ∨ off = 0x1030118 then some (2 ^ 63 + 2 ^ 60 + 4 * 2 ^ 46)
  else if off = 0x1030120 then some (2 ^ 63 + 2 ^ 62 + 2 ^ 61 + 2 ^ 46)
  else if off = 0x1030128 then some (2 ^ 63 + 2 ^ 62 + 2 ^ 61 + 2 ^ 58 + 2 ^ 46)
  else if off = 0x1030000 then some (3 * 2 ^ 60 + 2 * 2 ^ 56 + 2 ^ 53 + 1)
  else none

/-- The reset value of a register of a function: its release value, its field map's Reset column, or zero. -/
def regReset (fn off : Nat) : U64 :=
  match releaseValue fn off with
  | some v => BitVec.ofNat 64 v
  | none => match regFind off regTable with
    | some (r, _) => BitVec.ofNat 64 r.reset
    | none => 0

/-- The stored value of a register of a function. -/
def State.rd (s : State) (fn off : Nat) : U64 := s.regs.get (regReset fn off) (regKey fn off)

/-- A register of a function written whole. -/
def State.wr (s : State) (fn off : Nat) (v : U64) : State :=
  { s with regs := s.regs.set (regReset fn off) (regKey fn off) v }

/-- One field of register `i` of an array, as a number. -/
def State.fld (s : State) (fn i : Nat) (f : Fld) : Nat :=
  bits (s.rd fn (f.off + f.stride * i)).toNat f.lo f.w

/-- One field of register `i` of an array, set. -/
def State.setFld (s : State) (fn i : Nat) (f : Fld) (v : Nat) : State :=
  s.wr fn (f.off + f.stride * i)
    (BitVec.ofNat 64 (putBits (s.rd fn (f.off + f.stride * i)).toNat f.lo f.w v))

/-- One field raised by `n`, saturating at its width. -/
def State.satAdd (s : State) (fn i : Nat) (f : Fld) (n : Nat) : State :=
  s.setFld fn i f (min (s.fld fn i f + n) (2 ^ f.w - 1))

/-- One field raised by `n`, modulo its width. -/
def State.modAdd (s : State) (fn i : Nat) (f : Fld) (n : Nat) : State :=
  s.setFld fn i f (s.fld fn i f + n)

/-- The companion counter of one W1C flag (R8), keyed by its register and bit. -/
def cntKey (fn off bit : Nat) : Nat := regKey fn off * 64 + bit

/-- Hardware sets a W1C flag: the flag is set and its companion counter rises, saturating at 0xFF (R8, R9). -/
def State.raise (s : State) (fn i : Nat) (f : Fld) : State :=
  let k := cntKey fn (f.off + f.stride * i) f.lo
  let c := s.cnts.get 0 k
  { s.setFld fn i f 1 with cnts := s.cnts.set 0 k (if c = 0xFF then c else c + 1) }

/-- Something leaves the block. -/
def State.send (s : State) (o : Out) : State := { s with out := s.out ++ [o] }

/-- A function's configuration as the host finds it: every enable and the function mask clear, BAR2 of 1 GiB (log 38). -/
def FnCfg.fresh : FnCfg := { msix := false, masked := false, bar2 := 30, tags10 := false, vfs := false }

/-- A function's configuration. -/
def State.cfg (s : State) (fn : Nat) : FnCfg := s.cfgs.get FnCfg.fresh fn

/-- A function's configuration, set. -/
def State.setCfg (s : State) (fn : Nat) (c : FnCfg) : State := { s with cfgs := s.cfgs.set FnCfg.fresh fn c }

/-- Whether a function sends a vector's messages: MSI-X is enabled, and neither the vector nor the whole function is masked
(R338). -/
def State.msiOpen (s : State) (fn vec : Nat) : Bool :=
  (s.cfg fn).msix && !(s.cfg fn).masked && s.fld fn vec Reg.MSIX_CTL.MASK == 0

/-- An MSI-X message of a function (R337, R338): held in the pending-bit array while its vector or the whole function is
masked. -/
def State.msi (s : State) (fn vec : Nat) : State :=
  if s.msiOpen fn vec then s.send (.msix fn vec)
  else s.setFld fn 0 ⟨0x82000, 0, vec, 1⟩ 1

/-- Messages held for vectors that are no longer masked are sent (R338). -/
def State.msiFlush (s : State) (fn : Nat) : State :=
  (List.range 64).foldl (fun (s : State) vec =>
    if s.fld fn 0 ⟨0x82000, 0, vec, 1⟩ = 1 ∧ s.msiOpen fn vec = true then
      (s.setFld fn 0 ⟨0x82000, 0, vec, 1⟩ 0).send (.msix fn vec) else s) s

/-- The INTC_STATUS flag of a source, with the message that its change from clear sends (R337, R338). -/
def State.intc (s : State) (fn b : Nat) : State :=
  let f : Fld := ⟨0x80000, 0, b, 1⟩
  let was := s.fld fn 0 f
  let s1 := s.raise fn 0 f
  if was = 0 ∧ s.fld fn b Reg.INTC_VEC.EN = 1 then
    s1.msi fn (s.fld fn b Reg.INTC_VEC.VECTOR) else s1

/-! ## Free values (log 5) -/

/-- The next free number, and the state that has read it. -/
def State.draw (s : State) : Nat × State := (Config.freeNat s.free, { s with free := s.free + 1 })

/-- The next free choice, and the state that has read it. -/
def State.drawBool (s : State) : Bool × State := (Config.freeBool s.free, { s with free := s.free + 1 })

/-- A free order of a list: each element is inserted at a free place. The counter rises by its length. -/
def freeOrder {α : Type} : Nat → List α → List α
  | _, [] => []
  | n, x :: xs =>
    let r := freeOrder (n + 1) xs
    r.take (Config.freeNat n % (r.length + 1)) ++ x :: r.drop (Config.freeNat n % (r.length + 1))

/-! ## The beat, partitions and functions -/

/-- The number of the current beat (R18). -/
def State.now (s : State) : Nat := s.fld 0 0 Reg.DCTL_BEAT_NUM.BEAT_NUM

/-- The edges taken so far: the instant that durations in beats are counted from (log 110). -/
def State.tick (s : State) : Nat := s.beat.edges

/-- The number of the beat that closed last, also across a jump of the beat number (R25); before one has, a free value. -/
def State.closedBeat (s : State) : Nat × State :=
  match s.beat.last with
  | some n => (n, s)
  | none => let (n, s) := s.draw; (n % 2 ^ 48, s)

/-- Whether the device has been released (R474, R442): PWR_STAT.STATE holds 2 READY, 3 RUN or 4 PARKED, and before release
0 OFF or 1 BOOT (log 1). -/
def State.inService (s : State) : Bool := decide (2 ≤ s.fld 0 0 Reg.PWR_STAT.STATE)

/-- The partition that owns a logical core (IDC_CORE_MAP). -/
def State.owner (s : State) (n : Nat) : Option Nat :=
  if s.fld 0 n Reg.IDC_CORE_MAP.OWNED = 1 then some (s.fld 0 n Reg.IDC_CORE_MAP.PART) else none

/-- The function that serves a partition (R297). -/
def vf (q : Nat) : Nat := q + 1

/-- The logical cores that a partition owns, ascending. -/
def State.ownedCores (s : State) (q : Nat) : List Nat := (List.range 512).filter fun n => s.owner n = some q

/-! ## Granules (R176, R299) -/

/-- The owner byte of a granule: its register's field. -/
def ownerFld (g : Nat) : Fld :=
  if g < 16 then ⟨0x1002080 + 8 * (g / 8), 0, 8 * (g % 8), 8⟩
  else if g < 64 then ⟨0x1002000 + 8 * ((g - 16) / 4), 0, 8 * ((g - 16) % 4), 8⟩
  else ⟨0x10020A0 + 8 * ((g - 64) / 8), 0, 8 * ((g - 64) % 8), 8⟩

/-- Owner byte of a granule (R176): STATE [7:6], PART [4:0]. -/
def State.ownerByte (s : State) (g : Nat) : Nat := s.fld 0 0 (ownerFld g)

/-- Owner byte of a granule, set. -/
def State.setOwner (s : State) (g b : Nat) : State := s.setFld 0 0 (ownerFld g) b

/-- STATE of a granule: 0 UNOWNED, 1 OWNED, 2 SHARED, 3 WIPING. -/
def State.granState (s : State) (g : Nat) : Nat := bits (s.ownerByte g) 6 2

/-- Whether a partition OWNS a granule. -/
def State.owns (s : State) (q g : Nat) : Bool := s.granState g == 1 && bits (s.ownerByte g) 0 5 == q

/-- A-clock in force, MHz, by step (PWR_STAT.CLK). -/
def clockMHz (c : Nat) : Nat :=
  if c = 0 then 700 else if c = 1 then 600 else if c = 2 then 500 else if c = 3 then 400 else 350

end Sys2Proof.Machine
end

