-- ==== Sys2Proof/Machine/Wire.lean ====
section
/-! DEFINITION. Cells as bytes (R259, R260), sealed cells (R265, R418), and the blocks, lanes and codewords that carry them
(R252, R253). -/

namespace Sys2Proof.Machine

open Sys2Proof

/-! ## The cell as 544 bytes (R259, R260) -/

/-- Twelve zero bytes: the tag of an unsealed cell (R259). -/
def noTag : List Byte := List.replicate 12 0

/-- The ROUTE field: entry h in bits [5h + 4 : 5h]. -/
def routeField (ports : List Nat) : Nat := ((List.range 6).map fun h => ports.getD h 0 % 32 * 2 ^ (5 * h)).sum

/-- The 160-bit header of a cell (R260). -/
def headerNat (c : Cell) : Nat :=
  c.addr % 2 ^ 44 + c.retry.toNat * 2 ^ 44 + c.poison.toNat * 2 ^ 45 + c.sched.toNat * 2 ^ 46 + c.log.toNat * 2 ^ 47
    + c.len % 2 ^ 9 * 2 ^ 48 + c.ttag % 2 ^ 18 * 2 ^ 57 + c.op % 2 ^ 6 * 2 ^ 75 + c.epoch % 2 ^ 4 * 2 ^ 81
    + c.vd % 2 ^ 16 * 2 ^ 85 + c.src % 2 ^ 16 * 2 ^ 101 + routeField c.route * 2 ^ 117 + c.hop % 2 ^ 3 * 2 ^ 147
    + c.nhop % 2 ^ 3 * 2 ^ 150 + c.vc % 2 ^ 3 * 2 ^ 153 + c.typ % 2 ^ 4 * 2 ^ 156

/-- Header bytes 0 to 19. -/
def headerBytes (c : Cell) : List Byte := leBytes 20 (headerNat c)

/-- Bytes with zeros after them up to a length. -/
def padTo (n : Nat) (bs : List Byte) : List Byte := bs.take n ++ List.replicate (n - bs.length) 0

/-- The 544 bytes of a cell: header, payload padded with zeros, tag (R259). -/
def cellBytes (c : Cell) : List Byte := headerBytes c ++ padTo 512 c.payload ++ padTo 12 c.tag

/-- Meaningful payload bytes of a cell: none in a RD_REQ, nor in a response without data, else LEN + 1 (R260, R261). -/
def payloadLen (c : Cell) : Nat :=
  if c.typ = 2 ∨ ((c.typ = 3 ∨ c.typ = 8) ∧ c.op ≠ 0 ∧ c.len = 0) then 0 else c.len + 1

/-- The cell that a header spells, with its payload bytes and tag. -/
def cellOfHeader (h : Nat) (payload tag : List Byte) : Cell :=
  let c : Cell :=
    { typ := bits h 156 4, vc := bits h 153 3, sched := bitOf h 46, nhop := bits h 150 3, hop := bits h 147 3
      route := (List.range 6).map fun i => bits h (117 + 5 * i) 5, src := bits h 101 16, vd := bits h 85 16
      epoch := bits h 81 4, op := bits h 75 6, ttag := bits h 57 18, len := bits h 48 9, log := bitOf h 47
      retry := bitOf h 44, poison := bitOf h 45, tag := tag, resync := false, addr := bits h 0 44, payload := [] }
  { c with payload := payload.take (payloadLen c) }

/-- The cell that 544 bytes spell. -/
def cellOfBytes (b : List Byte) : Cell := cellOfHeader (leNat (b.take 20)) ((b.drop 20).take 512) (b.drop 532)

/-- Whether every header field fits its width (R260): a cell on a fibre has no other. -/
def cellWidths (c : Cell) : Bool :=
  decide (c.typ < 16 ∧ c.vc < 8 ∧ c.nhop < 8 ∧ c.hop < 8 ∧ c.src < 65536 ∧ c.vd < 65536)
    && decide (c.epoch < 16 ∧ c.op < 64 ∧ c.ttag < 2 ^ 18 ∧ c.len < 512 ∧ c.addr < 2 ^ 44)

/-! ## Sealed cells (R265, R418) -/

/-- The nonce of a sealed cell (R418): the sender's node and port, whether it is a LINK cell, and its counter. -/
def cellNonce (node port : Nat) (link : Bool) (ctr : Nat) : List Byte :=
  leBytes 2 node ++ leBytes 1 port ++ [if link then 1 else 0] ++ leBytes 8 ctr

/-- A cell sealed under a link key (R265): its header is authenticated, its 512 payload bytes are encrypted, and it carries the
first 96 bits of the tag. -/
def sealCell (key nonce : List Byte) (c : Cell) : Cell :=
  let x := Config.gcmSeal key nonce (headerBytes c) (padTo 512 c.payload)
  { c with payload := x.take 512, tag := (x.drop 512).take 12 }

/-- A sealed cell opened (R265), where its tag verifies. -/
def openCell (key nonce : List Byte) (c : Cell) : Option Cell :=
  (Config.gcmOpen key nonce (headerBytes c) (padTo 512 c.payload ++ padTo 12 c.tag)).map fun d =>
    { c with payload := d.take (payloadLen c), tag := noTag }

/-! ## Blocks (R252) -/

/-- A block of a lane: 32 bytes of the cell stream, or a control block. -/
inductive Block where
  | data (b : List Byte)
  | idle
  | align (lane count : Nat)
  | resync
  deriving DecidableEq, Repr

/-- The header bit of a block. -/
def Block.isData : Block → Bool
  | .data _ => true
  | _ => false

/-- The 32 bytes after the header bit. -/
def Block.bytes : Block → List Byte
  | .data b => padTo 32 b
  | .idle => padTo 32 [0x00]
  | .align l n => padTo 32 ([0x5A, BitVec.ofNat 8 l] ++ leBytes 4 n)
  | .resync => padTo 32 [0x3C]

/-- The block that a header bit and 32 bytes spell; none for a reserved value of byte 0. -/
def blockOf (h : Bool) (b : List Byte) : Option Block :=
  if h then some (.data b)
  else if leField b 0 1 = 0x00 then some .idle
  else if leField b 0 1 = 0x5A then some (.align (leField b 1 1) (leField b 2 4))
  else if leField b 0 1 = 0x3C then some .resync
  else none

/-- The 257 bits of a block, its header bit first. -/
def Block.toBits (b : Block) : BitVec 257 := BitVec.ofNat 257 (b.isData.toNat + 2 * leNat b.bytes)

/-- The twenty blocks of a lane's codeword number `n` (R252): an ALIGN block takes the place of the first one in every
16,384th. -/
def codewordBlocks (lane n : Nat) (bs : List Block) : List Block :=
  if n % 16384 = 0 then .align lane (n % 2 ^ 32) :: bs.take 19 else bs.take 20

/-- A codeword (R252): the 5,140 bits of twenty blocks and the 300 check bits of RS(544,514). -/
def codewordBits (bs : List Block) : BitVec 5440 :=
  let d := BitVec.ofNat 5140 (bs.zipIdx.map fun x => x.1.toBits.toNat * 2 ^ (257 * x.2)).sum
  BitVec.ofNat 5440 (d.toNat + (Config.fecParity d).toNat * 2 ^ 5140)

/-! ## The cell stream (R253) -/

/-- Bytes cut into blocks of 32. -/
def cut32 : Nat → List Byte → List (List Byte)
  | 0, _ => []
  | n + 1, bs => bs.take 32 :: cut32 n (bs.drop 32)

/-- The 17 data blocks of a cell. -/
def cellBlocks (c : Cell) : List (List Byte) := cut32 17 (cellBytes c)

/-- The blocks that a cell takes on its port: a RESYNC block goes before the first cell of a replay (R268). -/
def streamBlocks (c : Cell) : List Block := (if c.resync then [.resync] else []) ++ (cellBlocks c).map .data

/-- Data blocks from number `j` on, each with its lane (R253): block j goes to the (j mod w)-th lane in use. -/
def spread (lanes : List Nat) (j : Nat) (bs : List (List Byte)) : List (Nat × List Byte) :=
  bs.zipIdx.map fun x => (lanes.getD ((j + x.2) % lanes.length) 0, x.1)

/-- What the lane at a place among those in use receives: every w-th block from it. -/
def laneStream (w k : Nat) (bs : List (List Byte)) : List (List Byte) :=
  (bs.zipIdx.filter fun x => x.2 % w == k).map (·.1)

/-- The receiver's deskew (R253): each lane is read from its first ALIGN block on. -/
def deskew (bs : List Block) : List Block :=
  (bs.dropWhile fun b => match b with | .align _ _ => false | _ => true).drop 1

/-- The cell stream from the streams of deskewed lanes, in the order of the lanes: `n` blocks from number `j` on. -/
def collect (ls : List (List (List Byte))) (j : Nat) : Nat → List (List Byte)
  | 0 => []
  | n + 1 => (ls.getD (j % ls.length) []).getD (j / ls.length) [] :: collect ls (j + 1) n

/-- Cells found in a stream (R253, R254): the first data block after a control block begins a cell, and so does every 17th
after it. `part` holds the blocks of a cell begun; while delineation is lost it is none, and data blocks are discarded. -/
def delineate : Option (List (List Byte)) → List Block → List (List Byte)
  | _, [] => []
  | none, .data _ :: bs => delineate none bs
  | some part, .data b :: bs =>
    if part.length = 16 then (part ++ [b]).flatten :: delineate (some []) bs else delineate (some (part ++ [b])) bs
  | _, _ :: bs => delineate (some []) bs

end Sys2Proof.Machine
end

