-- ==== Sys2Proof/Machine/Keys.lean ====
section
/-! DEFINITION. Digests, derivation and the device's own keys (R384 to R388), and what lies sealed under its dump key: the
blocks of the log (R426) and the crash dumps (R440). -/

namespace Sys2Proof.Machine

open Sys2Proof

/-! ## Derivation (R384) -/

/-- The bytes of an ASCII label (R384). -/
def ascii (x : String) : List Byte := x.toList.map fun c => BitVec.ofNat 8 c.toNat

/-- Big-endian bytes. -/
def beBytes (n v : Nat) : List Byte := (leBytes n v).reverse

/-- The derivation function of R384 for outputs of at most 48 bytes. -/
def kdf (k : List Byte) (label : String) (ctx : List Byte) (n : Nat) : List Byte :=
  (beBytes 48 (Config.hmac384 k (beBytes 4 1 ++ ascii label ++ [0] ++ ctx ++ beBytes 4 (8 * n))).toNat).take n

/-- Bytes of a SHA-384 digest, first byte first. -/
def shaBytes (d : List Byte) : List Byte := beBytes 48 (Config.sha384 d).toNat

/-- A byte string of exactly `n` bytes. -/
def fixed (n : Nat) (l : List Byte) : List Byte := (l ++ List.replicate n 0).take n

/-- This device's serial (R385). -/
def serial : List Byte := fixed 16 (Config.document 0 0)

/-! ## The device's own keys (R380, R385, R388) -/

/-- The digest of an image, as bytes: 48 zero bytes where the image is absent (R388, R476). -/
def State.imageDigest (s : State) (i : Nat) : List Byte :=
  match s.sec.digests[i]? with
  | some d => beBytes 48 d.toNat
  | none => shaBytes (Config.document 2 i)

/-- H_FW (R388). -/
def State.hFw (s : State) : List Byte := shaBytes ((List.range 8).flatMap s.imageDigest)

/-- The root that a code of DCTL_LIFE.ROOT selects (R379, R380): 48 bytes of fuses. -/
def rootSecret (root : Nat) : List Byte := fixed 48 (Config.document 30 root)

/-- The dump key under a root (R385). -/
def dumpKey (root : Nat) : List Byte := kdf (rootSecret root) "YX-DUMP" serial 32

/-- The keys that the device holds of its own (R385, R386): identity in slots 0 and 1, attestation in slots 2 and 3, the dump
key in slot 4; other slots hold bytes of the entropy source (log 14). -/
def State.deviceKey (s : State) (k : Nat) : List Byte :=
  let root := s.fld 0 0 Reg.DCTL_LIFE.ROOT
  if k ≤ 1 then Config.keyPair (kdf (rootSecret root) "YX-ID" serial 48) k
  else if k ≤ 3 then Config.keyPair (kdf (rootSecret root) "YX-ATT" (serial ++ s.hFw) 48) (k - 2)
  else if k = 4 then dumpKey root
  else Config.document 1 k

/-- What a key slot holds. -/
def State.keyOf (s : State) (k : Nat) : List Byte := (s.keys.find? k).getD (s.deviceKey k)

/-! ## Blocks of the log in eMMC (R426) -/

/-- The nonce of a log block (R426). -/
def LogBlock.nonce (b : LogBlock) : List Byte := [0xD6] ++ leBytes 4 b.boots ++ leBytes 4 b.block ++ [0, 0, 0]

/-- Bytes 0 to 15 of a block's header: R426 gives them no content, and the model holds there what opening takes (DESIGN CHOICE,
log 134). -/
def LogBlock.aad (b : LogBlock) : List Byte := leBytes 4 b.boots ++ leBytes 4 b.block ++ leBytes 8 b.count

/-- A block of records, sealed under the dump key. -/
def LogBlock.made (key : List Byte) (boots block count : Nat) (recs : List Byte) : LogBlock :=
  let b : LogBlock := { boots := boots, block := block, count := count, body := [] }
  { b with body := Config.gcmSeal key b.nonce b.aad (padTo 4032 recs) }

/-- The 4,096 bytes of a block: header with the tag in bytes 16 to 31, then its 63 records. -/
def LogBlock.bytes (b : LogBlock) : List Byte :=
  b.aad ++ padTo 16 (b.body.drop 4032) ++ List.replicate 32 0 ++ padTo 4032 b.body

/-- The records of a block, 64 bytes each, where it opens under a key. -/
def LogBlock.records (key : List Byte) (b : LogBlock) : List (List Byte) :=
  match Config.gcmOpen key b.nonce b.aad b.body with
  | some d => (List.range b.count).map fun i => (d.drop (64 * i)).take 64
  | none => []

/-- A block sealed anew under another key (R383). -/
def LogBlock.reseal (old new : List Byte) (b : LogBlock) : LogBlock :=
  match Config.gcmOpen old b.nonce b.aad b.body with
  | some d => { b with body := Config.gcmSeal new b.nonce b.aad d }
  | none => b

/-! ## Crash dumps in eMMC (R440) -/

/-- The nonce of a dump (R440): BOOTS and DUMP_SEQ as its header gives them. -/
def Dump.nonce (d : Dump) : List Byte := [0xD5] ++ (d.head.drop 40).take 4 ++ (d.head.drop 12).take 4 ++ [0, 0, 0]

/-- A dump sealed under the dump key: its header authenticated, everything after it encrypted, its tag last. -/
def Dump.sealed (d : Dump) (key : List Byte) : Dump := { d with body := Config.gcmSeal key d.nonce d.head d.body }

/-- The opened plaintext of a sealed dump, its header first, where it opens under a key. -/
def Dump.opened (d : Dump) (key : List Byte) : Option (List Byte) :=
  (Config.gcmOpen key d.nonce d.head d.body).map (d.head ++ ·)

/-- A dump sealed anew under another key (R383). -/
def Dump.reseal (old new : List Byte) (d : Dump) : Dump :=
  match Config.gcmOpen old d.nonce d.head d.body with
  | some b => { d with body := Config.gcmSeal new d.nonce d.head b }
  | none => d

/-- What eMMC holds sealed anew under the dump key of another root (R383). -/
def State.resealStore (s : State) (root : Nat) : State :=
  { s with
    log := { s.log with stored := s.log.stored.map (LogBlock.reseal (s.keyOf 4) (dumpKey root)) }
    dump := { s.dump with slots := s.dump.slots.map fun (e : Nat × Dump) => (e.1, e.2.reseal (s.keyOf 4) (dumpKey root)) } }

end Sys2Proof.Machine
end

