-- ==== Sys2Proof/Machine/Log.lean ====
section
/-! DEFINITION. The error log (R422 to R426): how an error is recorded, folded and posted to the rings. -/

namespace Sys2Proof.Machine

open Sys2Proof

/-- A record with nothing named but its class and source (R423). -/
def ErrRec.of (cls source : Nat) : ErrRec :=
  { seq := 0, cls := cls, source := source, status := 0, cause := 0, beat := 0, part := none, folded := false,
    received := false, ctx := none, isVa := false, boot := false, node := 0, unit := 0, queue := 0, tag := 0,
    addr := 0, cmdSeq := 0, count := 1, detail := [] }

/-- UNIT of a logical core (R511). -/
def unitCore (n : Nat) : Nat := 0x1000 + n
/-- UNIT of a Lyston port (R511). -/
def unitPort (p : Nat) : Nat := 0xA000 + p
/-- UNIT of a partition (R511). -/
def unitPart (q : Nat) : Nat := 0xC000 + q
/-- UNIT of the physical core that holds a logical core (R511). -/
def State.unitPcore (s : State) (n : Nat) : Nat :=
  0x2000 + 272 * s.fld 0 n Reg.IDC_CORE_MAP.DIE + 17 * s.fld 0 n Reg.IDC_CORE_MAP.CLUSTER
    + s.fld 0 n Reg.IDC_CORE_MAP.K

/-- The 64 bytes of a record (R423). -/
def ErrRec.bytes (r : ErrRec) : List Byte :=
  leBytes 4 r.seq ++ leBytes 1 r.cls ++ leBytes 1 r.source ++ leBytes 1 r.status ++ leBytes 1 r.cause
    ++ leBytes 6 r.beat ++ leBytes 1 (r.part.getD 0xFF)
    ++ leBytes 1 ((if r.folded then 1 else 0) + (if r.received then 2 else 0) + (if r.ctx.isSome then 4 else 0)
        + (if r.isVa then 8 else 0) + (if r.boot then 16 else 0))
    ++ leBytes 2 r.node ++ leBytes 2 r.unit ++ leBytes 1 (r.ctx.getD 0) ++ leBytes 1 r.queue ++ leBytes 1 r.tag
    ++ [0] ++ leBytes 8 r.addr ++ leBytes 4 r.cmdSeq ++ leBytes 2 r.count
    ++ (r.detail.take 26 ++ List.replicate (26 - min 26 r.detail.length) 0)

/-- The saturating count of ERRL_STAT for a class. -/
def errStatFld (cls : Nat) : Fld :=
  if cls = 0 then Reg.ERRL_STAT.CE else if cls = 1 then Reg.ERRL_STAT.UCE_C
  else if cls = 2 then Reg.ERRL_STAT.UCE_P else if cls = 3 then Reg.ERRL_STAT.FATAL else Reg.ERRL_STAT.ALARM

/-- A record is posted to one function's ring (R425, R238): counted, then written before PROD advances, with the
ERRLOG event; a full ring drops it and raises LOST and RING_FULL. -/
def State.postErr (s : State) (fn : Nat) (r : ErrRec) : State :=
  let s := s.satAdd fn 0 (errStatFld r.cls) 1
  if s.fld fn 0 Reg.ERRL_CFG.EN = 0 then s else
  let size := 2 ^ (s.fld fn 0 Reg.ERRL_CFG.SIZE + 6)
  let prod := s.fld fn 0 Reg.ERRL_IDX.PROD
  if (prod + 2 ^ 32 - s.fld fn 0 Reg.ERRL_IDX.CONS) % 2 ^ 32 ≥ size then
    (s.satAdd fn 0 Reg.ERRL_STAT.LOST 1).raise fn 0 Reg.ERRL_STAT.RING_FULL
  else
    let s := s.send (.host (s.fld fn 0 Reg.ERRL_CFG.BASE * 4096 + 64 * (prod % size)) r.bytes)
    (s.modAdd fn 0 Reg.ERRL_IDX.PROD 1).intc fn 8

/-- Whether a CE folds into an earlier record of the beat (R425). -/
def ErrRec.foldsInto (r : ErrRec) (beat : Nat) (o : ErrRec) : Bool :=
  r.cls == 0 && o.cls == 0 && o.beat == beat && o.unit == r.unit && o.cause == r.cause && o.source == r.source

/-- DETAIL of a record (R423): the physical core where UNIT names a logical core or an engine (R511). -/
def State.recDetail (s : State) (r : ErrRec) : List Byte :=
  if r.detail.isEmpty && r.unit / 4096 == 1 then leBytes 2 (s.unitPcore (r.unit % 4096))
  else if r.detail.isEmpty && r.unit / 4096 == 3 then leBytes 2 (s.unitPcore (r.unit % 4096 / 8))
  else r.detail

/-- An error is logged (R423, R425): it folds into this beat's record of its unit and cause when it is a CE, and otherwise
makes a record, kept among the last 4,096 on chip and posted to PF0's ring and its partition's. A power-up record carries beat
0 (R481). -/
def State.logErr (s : State) (r : ErrRec) : State :=
  let beat := if r.boot then 0 else s.now
  if s.log.recs.any (r.foldsInto beat) then
    let fold (o : ErrRec) : ErrRec :=
      if r.foldsInto beat o then { o with folded := true, count := min (o.count + 1) 0xFFFF } else o
    { s with log := { s.log with recs := s.log.recs.map fold } }
  else
    let node := if r.received then r.node else s.fld 0 0 Reg.DCTL_NODE.NODE
    let r := { r with seq := s.log.next, beat := beat, node := node, detail := s.recDetail r }
    let recs := s.log.recs ++ [r]
    let log' : ErrLog :=
      { s.log with
        next := (s.log.next + 1) % 2 ^ 32
        recs := recs.drop (recs.length - 4096)
        unstored := min (s.log.unstored + 1) 4096 }
    let s := { s with log := log', dump := { s.dump with erred := s.dump.erred || s.dump.due.isSome } }
    let s := s.postErr 0 r
    match r.part with
    | some q => s.postErr (vf q) r
    | none => s

/-- A CE of one unit (R422). -/
def State.logCE (s : State) (source cause unit : Nat) (part : Option Nat) : State :=
  s.logErr { ErrRec.of 0 source with cause := cause, unit := unit, part := part }

end Sys2Proof.Machine
end

