-- ==== Sys2Proof/Machine/Cells.lean ====
section
/-! DEFINITION. Sending Lyston cells: credits, the replay buffer and the order of channels (R262, R266, R268), routes (R269,
R270), and flooded alarms and bells (R275 to R277). -/

namespace Sys2Proof.Machine

open Sys2Proof

/-- A port as it stands before training. -/
def Port.fresh : Port :=
  { txSeq := 0, rxSeq := 0, replay := [], wait := [], sent := [], credit := [], recv := [], tries := 0,
    trySeq := 0, awaiting := false, replayDue := false, lcRun := 0, lastLc := 0, lastBe := 2, blocks := 0
    step := 0, fails := 0, retryDue := false, passed := 0, meas := [], repeated := false, ident := false, farVd := 0,
    farSealed := false, farParish := 0, acks := [], tagFails := 0, ceBeat := none, base := 0, used := 0,
    rxBase := 0, rxUsed := 0, linkTx := 0, linkRx := 0, reseal := false, active := none, next := none, openWin := none,
    winAt := 0, winLeft := 0, fwd := [] }

/-- A port of the package. -/
def State.port (s : State) (p : Nat) : Port := s.ports.get Port.fresh p

/-- A port of the package, set. -/
def State.setPort (s : State) (p : Nat) (v : Port) : State := { s with ports := s.ports.set Port.fresh p v }

/-- A cell with nothing but its type and channel. -/
def cellOf (typ vc : Nat) : Cell :=
  { typ := typ, vc := vc, sched := false, nhop := 0, hop := 0, route := [], src := 0, vd := 0, epoch := 0,
    op := 0, ttag := 0, len := 0, log := false, retry := false, poison := false, tag := noTag, resync := false, addr := 0, payload := [] }

/-- The credit pool of a cell (R262, R266): its virtual channel, or 7 when it is scheduled. -/
def cellPool (c : Cell) : Nat := if c.sched then 7 else c.vc

/-- Cells in a pool (R266). -/
def poolSize (k : Nat) : Nat :=
  if k ≤ 1 then 1024 else if k ≤ 3 then 640 else if k ≤ 6 then 64 else 576

/-- Port states of DCTL_LYS_PSTAT.STATE. -/
def State.portState (s : State) (p : Nat) : Nat := s.fld 0 p Reg.DCTL_LYS_PSTAT.STATE

/-- Whether a port is ACTIVE. -/
def State.portActive (s : State) (p : Nat) : Bool := s.portState p == 2

/-- Whether a port may send a cell now: there is room in its replay buffer, no replay waits, and it holds a credit for the
cell's pool (R266 to R268). -/
def Port.canSend (t : Port) (c : Cell) : Bool :=
  t.replay.length < 4096 && !t.replayDue &&
    (c.sched || (t.sent.get 0 (cellPool c) + 65536 - t.credit.get 0 (cellPool c)) % 65536 < poolSize (cellPool c))

/-- Whether sealing is in force on a port. -/
def State.sealing (s : State) (p : Nat) : Bool := s.fld 0 p Reg.DCTL_LYS_PSTAT.SEALED_NOW == 1

/-- A sequenced cell as it goes onto the fibre (R265, R418): sealed under the link key, slot 7, where sealing is in force. A
replay computes the same bytes again, for the counter is that of the cell's sequence. -/
def State.wire (s : State) (p seq : Nat) (c : Cell) : Cell :=
  if s.sealing p then
    sealCell (s.keyOf 7) (cellNonce (s.fld 0 0 Reg.DCTL_NODE.NODE) p false ((s.port p).base + seq)) c
  else { c with tag := noTag }

/-- The account of an unscheduled cell that is sent: a credit of its pool is drawn (R266). -/
def Port.draw (t : Port) (c : Cell) : Port :=
  if c.sched then t else { t with sent := t.sent.set 0 (cellPool c) ((t.sent.get 0 (cellPool c) + 1) % 65536) }

/-- The account of the channels that have been served (R262): LC cells since the last BE cell, and the last channel of each
class. -/
def Port.served (t : Port) (c : Cell) : Port :=
  if c.sched then t
  else if c.vc ≤ 1 then { t with lcRun := t.lcRun + 1, lastLc := c.vc }
  else if c.vc ≤ 3 then { t with lcRun := 0, lastBe := c.vc }
  else t

/-- A cell goes onto the fibre as 17 data blocks (R253), into the replay buffer and under the next link sequence (R268). -/
def State.transmit (s : State) (p : Nat) (c : Cell) : State :=
  let t := s.port p
  let t' : Port :=
    { (t.draw c).served c with
      txSeq := (t.txSeq + 1) % 2 ^ 32
      replay := t.replay ++ [(t.txSeq, c)]
      blocks := t.blocks + 17
      used := if s.sealing p then t.base + t.txSeq + 1 else t.used }
  (s.setPort p t').send (.cell p (s.wire p t.txSeq c))

/-- A LINK cell (R261, R263): OPX and payload. -/
def linkCell (op : Nat) (payload : List Byte) : Cell := { cellOf 1 0 with op := op, len := payload.length - 1, payload := payload }

/-- A LINK cell goes out at once: it needs no credit, is not sequenced and is not replayed (R266). A CREDIT_ACK or NAK of
a sealing port is sealed and carries its LINK counter in ADDR (R265, R418). -/
def State.sendLink (s : State) (p : Nat) (c : Cell) : State :=
  let t := s.port p
  if s.sealing p ∧ 4 ≤ c.op then
    (s.setPort p { t with linkTx := t.linkTx + 1, blocks := t.blocks + 17 }).send (.cell p
      (sealCell (s.keyOf 7) (cellNonce (s.fld 0 0 Reg.DCTL_NODE.NODE) p true t.linkTx) { c with addr := t.linkTx }))
  else (s.setPort p { t with blocks := t.blocks + 17 }).send (.cell p c)

/-- Whether a port keeps its cells: it is ACTIVE, or in QUICK_RETRAIN (R258). -/
def State.portUp (s : State) (p : Nat) : Bool := s.portState p == 2 || s.portState p == 3

/-- A cell leaves on a port: at once where the port is ACTIVE and holds credit, otherwise after it has some (R266); a scheduled
one that cannot leave in its window waits as an unscheduled cell (R288, R289). `held` is the input buffer that a forwarded cell
keeps until then. What is sent on a port that has lost its cells is lost (R279). -/
def State.sendHeld (s : State) (p : Nat) (c : Cell) (held : Option (Nat × Nat)) : State :=
  let t := s.port p
  if !s.portUp p then s
  else if s.portActive p && !t.reseal && (t.wait.filter fun x => cellPool x.cell == cellPool c).isEmpty && t.canSend c then
    s.transmit p c
  else
    (s.setPort p { t with wait := t.wait ++ [⟨{ c with sched := false }, held⟩] }).satAdd 0 p Reg.DCTL_LYS_CNT1.CREDIT_WAIT 1

/-- A cell of this package leaves on a port. -/
def State.sendCell (s : State) (p : Nat) (c : Cell) : State := s.sendHeld p c none

/-- The first cell that waits on one of some channels and may be sent: within a channel the order is kept (R272). -/
def Port.firstOf (t : Port) (vcs : List Nat) : Option Waiting :=
  vcs.findSome? fun k => (t.wait.find? fun x => x.cell.vc == k).filter fun x => t.canSend x.cell

/-- The waiting cell that is served next (R262): privileged channels in level order; then LC before BE, with BE granted one
cell in every 16; round robin within a class. -/
def Port.nextWait (t : Port) : Option Waiting :=
  let lc := if t.lastLc = 0 then [1, 0] else [0, 1]
  let be := if t.lastBe = 2 then [3, 2] else [2, 3]
  t.firstOf ([4, 5, 6] ++ (if 15 ≤ t.lcRun then be ++ lc else lc ++ be))

/-- Cells that waited go out as credit allows. -/
def State.drainWait : Nat → State → Nat → State
  | 0, s, _ => s
  | n + 1, s, p =>
    let t := s.port p
    match if s.portActive p && !t.reseal then t.nextWait else none with
    | none => s
    | some x => State.drainWait n ((s.setPort p { t with wait := t.wait.erase x }).transmit p x.cell) p

/-- Entry `i` of a partition's route table. -/
def State.rtEntry (s : State) (q i : Nat) : Route :=
  let j := 512 * q + i
  let r := s.fld 0 j Reg.DCTL_LYS_RT.ROUTE
  { node := s.fld 0 j Reg.DCTL_LYS_RT.NODE, nhop := s.fld 0 j Reg.DCTL_LYS_RT.NHOP
    ports := (List.range 6).map fun h => bits r (5 * h) 5 }

/-- The valid entries of a partition's route table, in order. -/
def State.routeTable (s : State) (q : Nat) : List Route :=
  ((List.range 512).filter fun i => s.fld 0 (512 * q + i) Reg.DCTL_LYS_RT.VALID == 1).map (s.rtEntry q)

/-- The first valid entry whose NODE is the one asked for (R269). -/
def State.routeToNode (s : State) (q node : Nat) : Option Route := (s.routeTable q).find? (·.node == node)

/-- The first valid entry with the member asked for (R269). -/
def State.routeToMember (s : State) (q m : Nat) : Option Route :=
  ((List.range 512).find? fun i =>
    s.fld 0 (512 * q + i) Reg.DCTL_LYS_RT.VALID == 1 && s.fld 0 (512 * q + i) Reg.DCTL_LYS_RT.MEMBER_V == 1
      && s.fld 0 (512 * q + i) Reg.DCTL_LYS_RT.MEMBER == m).map (s.rtEntry q)

/-- Whether a port carries the cells of a virtual device (R271). -/
def State.carries (s : State) (p vd : Nat) : Bool :=
  s.fld 0 p Reg.DCTL_LYS_PCFG.BOUND == 1 && s.fld 0 p Reg.DCTL_LYS_PCFG.VD == vd
    && s.fld 0 p Reg.DCTL_LYS_PSTAT.VD_MATCH == 1

/-- Whether a port is being released: a change that drains names it (R308). -/
def State.portLeaving (s : State) (p : Nat) : Bool := s.changes.any fun x => x.phase == 2 && bitOf x.c.ports p

/-- Whether a partition's requests may leave on a port (R271, R308): it is bound to the partition with its virtual device
matched; a port or membership that is being given up serves the draining epoch alone. -/
def State.portServes (s : State) (p q : Nat) (old : Bool) : Bool :=
  s.fld 0 p Reg.DCTL_LYS_PCFG.PART == q && s.carries p (s.fld 0 p Reg.DCTL_LYS_PCFG.VD)
    && (old || !s.portLeaving p && s.fld 0 p Reg.DCTL_LYS_PCFG.VD == s.fld 0 q Reg.DCTL_COMP_PART0.VD)

/-- A request cell of a partition along a route: it leaves on entry 0 with HOP 1 (R269), under that port's binding. -/
def State.requestCell (s : State) (q : Nat) (r : Route) (c : Cell) : Cell :=
  { c with
    nhop := r.nhop, hop := 1, route := r.ports, src := s.fld 0 0 Reg.DCTL_NODE.NODE
    vd := s.fld 0 (r.ports.getD 0 0) Reg.DCTL_LYS_PCFG.VD, epoch := s.fld 0 q Reg.DCTL_COMP_PART0.CUR_EPOCH }

/-- The reverse route of a request that has arrived on port `p` (R270). -/
def reverseRoute (p : Nat) (c : Cell) : List Nat :=
  p :: ((List.range (c.nhop - 1)).map fun j => c.route.getD (c.nhop - (j + 1)) 0) ++ List.replicate (6 - c.nhop) 0

/-- The response channel that matches a request's class (R262). -/
def respVc (vc : Nat) : Nat := if vc == 0 then 1 else 3

/-- The response to a request that has arrived on port `p` (R263, R270). -/
def respond (node p : Nat) (c : Cell) (typ status : Nat) (payload : List Byte) : Cell :=
  { c with
    typ := typ, vc := respVc c.vc, sched := false, hop := 1, route := reverseRoute p c, src := node
    op := status, len := payload.length - 1, payload := payload, log := false, retry := false
    poison := status == 3, tag := noTag, addr := 0 }

/-- The ports on which a flooded cell travels (R275): VD, PARISH or FABRIC scope. -/
def State.floodPorts (s : State) (scope vd : Nat) (except : Option Nat) : List Nat :=
  (List.range 32).filter fun p =>
    s.portActive p && except != some p &&
      (if scope == 1 then
        s.carries p vd
      else if scope == 2 then s.fld 0 p Reg.DCTL_LYS_PCFG.SEALED == 1
      else true)

/-- A cell sent on each of a list of ports. -/
def State.sendAll (s : State) (ps : List Nat) (c : Cell) : State := ps.foldl (fun s p => s.sendCell p c) s

/-- A triple is recorded in the flood table: the last 256, each for 16 beats (R275). -/
def State.recordFlood (s : State) (typ origin id : Nat) : State :=
  let l := (s.flood.filter fun f => s.tick < f.beat + 16) ++ [⟨typ, origin, id, s.tick⟩]
  { s with flood := l.drop (l.length - 256) }

/-- Whether the flood table holds a triple (R275). -/
def State.flooded (s : State) (typ origin id : Nat) : Bool :=
  s.flood.any fun f => f.typ == typ && f.origin == origin && f.id == id && s.tick < f.beat + 16

/-- The payload of an ALARM cell (R276). -/
def alarmPayload (origin id scope cause beat vd part : Nat) (detail : List Byte) : List Byte :=
  leBytes 2 origin ++ leBytes 2 id ++ leBytes 1 scope ++ leBytes 1 cause ++ leBytes 6 beat ++ leBytes 2 vd
    ++ leBytes 1 part ++ [0] ++ (detail.take 16 ++ List.replicate (16 - min 16 detail.length) 0)

/-- Alarm causes that abort the partitions in scope (R434). -/
def abortCause (c : Nat) : Bool := c == 1 || c == 2 || c == 3 || c == 7 || c == 8 || c == 9

/-- The partitions of the package in an alarm's scope: members of the virtual device, or of the parish (R434). -/
def State.alarmScope (s : State) (scope vd : Nat) : List Nat :=
  (List.range 32).filter fun q =>
    if scope == 2 then bitOf (s.fld 0 0 Reg.DCTL_PARISH2.PARTS) q
    else vd != 0 && s.fld 0 q Reg.DCTL_COMP_PART0.VD == vd && s.fld 0 q Reg.DCTL_COMP_PART0.STATE == 1

/-- The bytes of a BELL cell (R277). -/
def bellPayload (origin id scope target vd : Nat) : List Byte :=
  leBytes 2 origin ++ leBytes 2 id ++ leBytes 1 scope ++ [0] ++ leBytes 6 target ++ leBytes 2 vd

end Sys2Proof.Machine
end

