-- ==== Sys2Proof/Machine/Alarm.lean ====
section
/-! DEFINITION. Alarms (R434, R435) and the decision of resets (R431, R433). -/

namespace Sys2Proof.Machine

open Sys2Proof

/-- The die of a memory granule: cellar group 8d + g, quarter-stack 16 + 4s + q, controller 64 + m (log 32). -/
def granuleDie (g : Nat) : Nat := if g < 16 then g / 8 else if g < 64 then (g - 16) / 24 else (g - 64) / 8

/-- The partitions with a core, a memory granule or a port on a die (R430). -/
def State.dieParts (s : State) (d : Nat) : List Nat :=
  (List.range 32).filter fun q =>
    ((List.range 512).any fun n => s.owner n == some q && s.fld 0 n Reg.IDC_CORE_MAP.DIE == d)
      || ((List.range 80).any fun g => s.owns q g && granuleDie g == d)
      || (List.range 32).any fun p => s.fld 0 p Reg.DCTL_LYS_PCFG.BOUND == 1
          && s.fld 0 p Reg.DCTL_LYS_PCFG.PART == q && p / 16 == d

/-- The partitions that a reset covers (R430). -/
def State.resetParts (s : State) (r : Reset) : List Nat :=
  if r.domain = 4 ∨ r.domain = 5 then [r.target]
  else if r.domain = 6 then s.dieParts r.target
  else if 7 ≤ r.domain then List.range 32
  else []

/-- Whether a partition's own reset is decided or in progress (R441). -/
def State.partInReset (s : State) (q : Nat) : Bool :=
  s.resets.any fun r => decide (r.phase < 4) && (s.resetParts r).contains q

/-- Whether a partition is shuttered (R431). -/
def State.partShut (s : State) (q : Nat) : Bool :=
  s.resets.any fun r => decide (1 ≤ r.phase) && (s.resetParts r).contains q

/-- The logical cores whose work a reset stops (R430): those of its engine, core, cluster, partitions or dies. -/
def State.resetCores (s : State) (r : Reset) : List Nat :=
  if r.domain = 1 then [r.target / 8]
  else if r.domain = 2 then [r.target]
  else if r.domain = 3 then (List.range 512).filter fun n =>
    16 * s.fld 0 n Reg.IDC_CORE_MAP.DIE + s.fld 0 n Reg.IDC_CORE_MAP.CLUSTER == r.target
      && s.fld 0 n Reg.IDC_CORE_MAP.STATE != 0
  else if r.domain ≤ 5 then s.ownedCores r.target
  else if r.domain = 6 then (List.range 512).filter fun n =>
    s.fld 0 n Reg.IDC_CORE_MAP.DIE == r.target && s.fld 0 n Reg.IDC_CORE_MAP.STATE != 0
      || (s.owner n).any (s.dieParts r.target).contains
  else List.range 512

/-- Whether a core may start nothing: a reset of a domain that holds it is shuttered (R431), or the device has stopped work
(R439). -/
def State.coreShut (s : State) (n : Nat) : Bool :=
  s.halted || s.resets.any fun r => decide (1 ≤ r.phase) && (s.resetCores r).contains n

/-- An abort of a partition is recorded, to take place at step 5 of the next edge (R435); one already recorded,
an abort in progress or the partition's own reset leaves it as a log entry only (R441). -/
def State.recordAbort (s : State) (q : Nat) : State :=
  if s.partInReset q || s.aborts.any (·.part == q) then s
  else { s with aborts := s.aborts ++ [⟨q, s.tick, false⟩] }

/-- A package acts on an alarm: ALARM in INTC_STATUS of each partition in scope and of PF0, and an abort of each
for an abort cause; a PARISH_ABORT ends the parish (R434, R398). -/
def State.alarmAct (s : State) (scope cause vd : Nat) (except : Option Nat) : State :=
  let parts := (s.alarmScope scope vd).filter fun q => except != some q
  let s := parts.foldl (fun s q => s.intc (vf q) 9) (s.intc 0 9)
  let s := if abortCause cause then parts.foldl State.recordAbort s else s
  if cause == 8 then { s with parishEnd := true } else s

/-- An alarm is raised here (R434): its cell is flooded in scope and this package acts as a receiver for every
partition in scope but the originating one. The byte that names an originating partition is free where there is none
(log 50). -/
def State.raiseAlarm (s : State) (scope cause vd : Nat) (part : Option Nat) (dom : Nat) : State :=
  let node := s.fld 0 0 Reg.DCTL_NODE.NODE
  let detail := leBytes 4 ((s.log.next + 2 ^ 32 - 1) % 2 ^ 32) ++ leBytes 1 dom
  let (o, s) : Nat × State := match part with
    | some q => (q, s)
    | none => let (n, s) := s.draw; (n % 256, s)
  let pay := alarmPayload node s.alarmId scope cause s.now (if scope == 2 then 0 else vd) o detail
  let c : Cell := { cellOf 0xC (if scope == 2 then 6 else 4) with
    hop := 1, src := node, vd := if scope == 2 then 0 else vd, len := 31, payload := pay }
  let s := s.recordFlood 0xC node s.alarmId
  let s := { s with alarmId := (s.alarmId + 1) % 65536 }
  (s.sendAll (s.floodPorts scope vd none) c).alarmAct scope cause vd part

/-- The virtual device of a partition, zero when it is a member of none (R300). -/
def State.vdOf (s : State) (q : Nat) : Nat := s.fld 0 q Reg.DCTL_COMP_PART0.VD

/-- The alarm of a partition's cause over a virtual device, if it is one. -/
def State.vdAlarm (s : State) (vd q cause dom : Nat) : State := if vd = 0 then s else s.raiseAlarm 1 cause vd (some q) dom

/-- The alarm of a partition's cause over its virtual device, where it is a member (R434). -/
def State.partAlarm (s : State) (q cause dom : Nat) : State :=
  s.vdAlarm (s.vdOf q) q cause dom

/-- A reset of a domain and target by itself, to ask what it covers. -/
def resetOf (domain target : Nat) : Reset := ⟨0, domain, target, false, 0, 0, none⟩

/-- Whether the reset of domain `d` and target `t` lies within that of `D` and `T` (R433): a device holds every domain, and
otherwise engines lie in their core, cores in their cluster, partition and die, clusters in their die, and a partition in a
die where the die's reset covers it (R430). -/
def State.resetWithin (s : State) (d t D T : Nat) : Bool :=
  (d == D && t == T) || D ≥ 7 && d ≤ D
    || (D == 2 && d == 1 && t / 8 == T)
    || (D == 6 && d == 3 && t / 16 == T)
    || (D == 6 && (d == 4 || d == 5) && (s.dieParts T).contains t)
    || (3 ≤ D && D ≤ 6 && (d == 1 && (s.resetCores (resetOf D T)).contains (t / 8)
        || d == 2 && (s.resetCores (resetOf D T)).contains t))

/-- A reset is decided (R431, R433): it joins one that already covers it; otherwise it absorbs the smaller ones and
waits for step 5 of the next edge. A FATAL during a device warm reset makes it cold. A VD member reset sends its
alarm, of the cause given, when it is decided, also within a die or device reset (R431, R434). -/
def State.decideReset (s : State) (domain target : Nat) (dump error : Bool) (alarm : Nat) : State :=
  let domain := if domain == 4 && s.vdOf target != 0 then 5
    else if domain == 7 && error && s.resets.any (fun r => decide (r.phase < 4) && r.domain == 7) then 8 else domain
  if s.resets.any fun r => r.phase < 4 && s.resetWithin domain target r.domain r.target then
    { s with resets := s.resets.map fun r =>
        { r with dump := r.dump || (dump && r.phase == 0 && s.resetWithin domain target r.domain r.target) } }
  else
    let inside (r : Reset) : Bool := decide (r.phase < 4) && s.resetWithin r.domain r.target domain target
    let keep := s.resets.filter fun r => !inside r
    let asked := s.resets.any fun r => inside r && r.phase == 0 && r.dump
    let s := { s with
      resets := keep ++ [⟨s.nextReset, domain, target, dump || (error && decide (6 ≤ domain)) || asked, 0, s.tick,
        if error then (s.log.recs.getLast?.map fun r => (r.cls, r.seq)) else none⟩]
      nextReset := s.nextReset + 1 }
    if alarm = 0 then s
    else if domain = 5 then s.partAlarm target alarm 5
    else if 6 ≤ domain then
      (s.resetParts (resetOf domain target)).foldl (fun (s : State) q => s.partAlarm q alarm domain) s
    else s

end Sys2Proof.Machine
end

