-- ==== Sys2Proof/Machine/Complete.lean ====
section
/-! DEFINITION. Latches (R354, R355), and the completion of commands (R348 to R353, R371): the completion record,
the message, the halt, the completion latch and the fault policy. -/

namespace Sys2Proof.Machine

open Sys2Proof

/-! ## Fields of a command record (R340) -/

/-- `n` bytes of a command record from a byte offset. -/
def recField (w : BitVec 512) (off n : Nat) : Nat := bits w.toNat (8 * off) (8 * n)

/-- OPCODE, byte 0. -/
def recOp (w : BitVec 512) : Nat := recField w 0 1
/-- FLAGS, byte 1 (R341). -/
def recFlags (w : BitVec 512) : Nat := recField w 1 1
/-- CONTEXT, byte 2. -/
def recCtx (w : BitVec 512) : Nat := recField w 2 1
/-- HANDLE, bytes 4 to 7. -/
def recHandle (w : BitVec 512) : Nat := recField w 4 4
/-- AFTER flag. -/
def recAfter (w : BitVec 512) : Bool := bitOf (recFlags w) 5
/-- SEALED flag. -/
def recSealed (w : BitVec 512) : Bool := bitOf (recFlags w) 4
/-- FLOOR field (R150). -/
def recFloor (w : BitVec 512) : Nat := bits (recFlags w) 2 2
/-- INTR flag. -/
def recIntr (w : BitVec 512) : Bool := bitOf (recFlags w) 1
/-- HALT flag. -/
def recHalt (w : BitVec 512) : Bool := bitOf (recFlags w) 0
/-- TEN flag, which enables the completion latch. -/
def recTen (w : BitVec 512) : Bool := bitOf (recField w 40 2) 15
/-- TREMOTE flag. -/
def recTremote (w : BitVec 512) : Bool := bitOf (recField w 40 2) 14

/-! ## Queues -/

/-- A queue with nothing fetched. -/
def Queue.fresh : Queue := { recs := [], due := 0, resume := false, cause := false, cprod := 0 }

/-- Queue `q` of a function. -/
def State.queue (s : State) (fn q : Nat) : Queue := s.queues.get Queue.fresh (key2 fn q)

/-- Queue `q` of a function, set. -/
def State.setQueue (s : State) (fn q : Nat) (v : Queue) : State :=
  { s with queues := s.queues.set Queue.fresh (key2 fn q) v }

/-- QCFG_QSTAT.STATE of a queue: 0 DISABLED, 1 ACTIVE, 2 HALTED, 3 DESTROYING. -/
def State.qstate (s : State) (fn q : Nat) : Nat := s.fld fn q Reg.QCFG_QSTAT.STATE

/-- A fetched record of a queue by its sequence number. -/
def State.qrec (s : State) (fn q sq : Nat) : Option QRec := (s.queue fn q).recs.find? (·.sq == sq)

/-- A fetched record changed in place. -/
def State.updRec (s : State) (fn q sq : Nat) (f : QRec → QRec) : State :=
  let qu := s.queue fn q
  s.setQueue fn q { qu with recs := qu.recs.map fun r => if r.sq == sq then f r else r }

/-- A context of a function. -/
def State.ctx (s : State) (fn c : Nat) : Option Ctx := s.ctxs.find? (key2 fn c)

/-- A context of a function, changed in place. -/
def State.updCtx (s : State) (fn c : Nat) (f : Ctx → Ctx) : State :=
  match s.ctx fn c with
  | some x => { s with ctxs := s.ctxs.put (key2 fn c) (f x) }
  | none => s

/-- A count of a context raised (R336). -/
def Ctx.count (c : Ctx) (j n : Nat) : Ctx := { c with q := c.q.set 0 j (c.q.get 0 j + n) }

/-! ## Sealed records (R385, R400) -/

/-- The session key of a context of partition q (R385). -/
def State.sessionKey (s : State) (fn c sgen : Nat) : List Byte :=
  kdf ((s.keys.find? (8 + (fn - 1))).getD []) "YX-CTX" (beBytes 2 c ++ beBytes 4 sgen) 32

/-- The nonce of a command or completion record (R400); a record fetched before the last wrap keeps its count. -/
def State.recNonce (s : State) (fn q sq tag : Nat) : List Byte :=
  let wraps := s.fld fn q Reg.DSTP_QGEN.WRAP - (if s.fld fn q Reg.QCFG_QSTAT.HEAD ≤ sq then 1 else 0)
  leBytes 1 tag ++ leBytes 1 q ++ leBytes 2 (s.fld fn q Reg.DSTP_QGEN.QGEN) ++ leBytes 4 wraps ++ leBytes 4 sq

/-- The 32 bytes of a completion record (R348), sealed when its command was. -/
def State.recBytes (s : State) (fn q : Nat) (r : QRec) (status detail phase : Nat) (halted : Bool) : List Byte :=
  let sealing := recSealed r.w
  let head := leBytes 4 r.sq ++ leBytes 1 status
    ++ leBytes 1 (phase + (if sealing then 2 else 0) + (if halted then 4 else 0))
  let body := leBytes 1 (recCtx r.w) ++ [0] ++ leBytes 6 s.now ++ leBytes 2 detail
  if sealing then
    head ++ Config.gcmSeal (s.sessionKey fn (recCtx r.w) r.sgen)
      (s.recNonce fn q r.sq 2) head body
  else head ++ body ++ List.replicate 16 0

/-! ## Latches -/

/-- Latch `l` of a function. -/
def State.latch? (s : State) (fn l : Nat) : Option Latch := s.latches.find? (key2 fn l)

/-- An ORDERED latch advances while the next value is held (R354). -/
def Latch.advance : Nat → Latch → Latch
  | 0, t => t
  | n + 1, t =>
    if t.held.toNat % 2 = 1 then Latch.advance n { t with val := t.val + 1, held := t.held >>> 1 } else t

/-- A signal reaches a latch (R354, R355): the latch after it, and 0 taken, 1 held, 2 stale, 3 rejected. -/
def Latch.signal (t : Latch) (x : U64) : Latch × Nat :=
  let v := t.val.toNat
  let n := x.toNat
  if t.isMax then if n ≤ v then (t, 2) else ({ t with val := x }, 0)
  else if n ≤ v then (t, 2)
  else if n = v + 1 then (Latch.advance 64 { t with val := x, held := t.held >>> 1 }, 0)
  else if n ≤ v + 64 then
    if bitOf t.held.toNat (n - v - 1) then (t, 2)
    else ({ t with held := t.held ||| BitVec.ofNat 64 (2 ^ (n - v - 1)) }, 1)
  else (t, 3)

/-- The function whose launch a core holds. -/
def Core.fnIn (c : Core) (ls : List Launch) : Option Nat := (c.launch.bind fun id => ls.find? (·.id == id)).map (·.fn)

/-- A core's LATCH.WAIT ends when its latch holds the value (R83). -/
def wakeCore (ls : List Launch) (fn l : Nat) (v : U64) (c : Core) : Core :=
  match c.cur.hold with
  | .latch k x _ =>
    if c.fnIn ls == some fn && k == l && x.toNat ≤ v.toNat then
      { c with cur := { c.cur with hold := .free } } else c
  | _ => c

/-- A signal is applied to a latch of a function, with its counts and record: answers the status of R263
(0 OK, 1 REFUSED, 7 RANGE). Waiting cores whose value is reached go on. -/
def State.signalLatch (s : State) (fn l : Nat) (x : U64) : Nat × State :=
  match s.latch? fn l with
  | none => (1, s.logCE 0x0D 0 (if fn = 0 then 0 else unitPart (fn - 1)) (if fn = 0 then none else some (fn - 1)))
  | some t =>
    let (t', o) := t.signal x
    let s1 := { s with
      latches := s.latches.put (key2 fn l) t'
      cores := s.cores.mapVals fun _ c => wakeCore s.launches fn l t'.val c }
    if o = 2 then (0, s1.satAdd fn 0 Reg.LTCH_STAT.STALE 1)
    else if o = 3 then
      (7, ((s1.satAdd fn 0 Reg.LTCH_STAT.RANGE 1).raise fn 0 Reg.LTCH_STAT.LATCH_RANGE).logCE 0x0D 0
        (if fn = 0 then 0 else unitPart (fn - 1)) (if fn = 0 then none else some (fn - 1)))
    else (0, s1)

/-- Whether a transaction tag is in use by a move's request, by a signal, or by a read of the front end or a preload. -/
def State.ttagUsed (s : State) (t : Nat) : Bool :=
  s.sigs.any (·.ttag == t) || s.reads.any (·.ttag == t) || match s.cores.find? (t / 512) with
    | none => false
    | some c => c.cur.moves.any fun m => m.eng == t / 256 % 2 && m.reqs.any fun r => r.sent && r.id == t % 256

/-- A latch signal to a member goes out as a LATCH cell (R82, R352, R509): answers whether a route matched. The
issuing package chooses the transaction tag (R264). -/
def State.sendSignal (s : State) (fn member l : Nat) (x : U64) (lc : Bool) (kind q sq : Nat)
    (g : Option Nat) : Bool × State :=
  let part := fn - 1
  match (if fn = 0 then none else s.routeToMember part member).filter fun r =>
      s.portUp (r.ports.getD 0 0) && s.portServes (r.ports.getD 0 0) part false with
  | none => (false, s.logCE 0x0B 0 (if fn = 0 then 0 else unitPart part) (if fn = 0 then none else some part))
  | some r =>
    let t := (((List.range 262144).map fun k => (s.nextSig + k) % 262144).find? fun t => !s.ttagUsed t).getD 0
    let c := s.requestCell part r { cellOf 0x9 (if lc then 0 else 2) with
      ttag := t, len := 7, addr := l, payload := leBytes 8 x.toNat }
    let o : SigOut := ⟨t, kind, fn, q, sq, g⟩
    let s := { s with nextSig := s.nextSig + 1, sigs := s.sigs ++ [o] }
    (true, s.sendCell (r.ports.getD 0 0) c)

/-! ## Completion -/

/-- Statuses that a failure hands to FAULT_POLICY (R362). -/
def policyStatus (st : Nat) : Bool :=
  st == 0x12 || st == 0x13 || st == 0x14 || st == 0x15 || st == 0x18 || st == 0x19 || st == 0x1A

/-- FAULT_POLICY acts (R371): CONTEXT destroys the context from the next edge; PARTITION resets the partition. -/
def State.faultPolicy (s : State) (fn ctx : Nat) : State :=
  if fn ≠ 0 ∧ s.fld fn 0 Reg.QOSM_CFG0.POLICY = 1 then s.decideReset 4 (fn - 1) false true 1
  else match s.ctx fn ctx with
    | none => s
    | some c =>
      if c.destroying then s
      else
        let d : Destroy :=
          { id := s.nextReset, kind := 1, fn := fn, num := ctx, q := 64, sq := 0, started := false, waiting := []
            beat := s.tick }
        { (s.updCtx fn ctx fun c => { c with destroying := true }) with
          nextReset := s.nextReset + 1, destroys := s.destroys ++ [d] }

/-- A queue halts (R353): HALTED, HALT_EVT and the QUEUE event. -/
def State.haltQueue (s : State) (fn q : Nat) : State :=
  if s.qstate fn q = 2 then s.setQueue fn q { s.queue fn q with cause := true }
  else if s.qstate fn q = 1 then
    let s := s.setQueue fn q { s.queue fn q with due := 0 }
    ((s.setFld fn q Reg.QCFG_QSTAT.STATE 2).raise fn q Reg.QCFG_QSTAT.HALT_EVT).intc fn 0
  else s

/-- The completion record and its message (R349, R351). -/
def State.postRecord (s : State) (fn q : Nat) (r : QRec) (status detail : Nat) (halted : Bool) : State :=
  if s.fld fn q Reg.QCFG_Q1.EN = 1 ∧ r.willRecord then
    let qu := s.queue fn q
    let size := 2 ^ (s.fld fn q Reg.QCFG_Q1.SIZE + 7)
    let phase := if qu.cprod / size % 2 = 0 then 1 else 0
    let s := s.send (.host (s.fld fn q Reg.QCFG_Q1.BASE * 4096 + 32 * (qu.cprod % size))
      (s.recBytes fn q r status detail phase halted))
    let s := (s.setQueue fn q { qu with cprod := qu.cprod + 1 }).modAdd fn q Reg.QCFG_CQ0.CPROD 1
    if recIntr r.w then s.msi fn (s.fld fn q Reg.QCFG_Q1.VECTOR) else s
  else s

/-- The completion latch of a command that completed DONE or DONE_DEGRADED (R352). -/
def State.completionLatch (s : State) (fn q sq : Nat) (w : BitVec 512) (status : Nat) : State :=
  if recTen w && decide (status ≤ 1) then
    let l := recField w 40 2 % 4096
    let x := BitVec.ofNat 64 (recField w 32 8)
    let lc := ((s.ctx fn (recCtx w)).map (·.lc)).getD false
    if recTremote w then (s.sendSignal fn (recField w 42 1) l x lc 1 q sq none).2
    else (s.signalLatch fn l x).2
  else s

/-- A fetched command completes with a status (R346 to R353). `force` halts the queue whatever HALT holds;
`policy` says that the failure is one that FAULT_POLICY handles. -/
def State.completeRec (s : State) (fn q sq status detail : Nat) (force policy : Bool) : State :=
  match s.qrec fn q sq with
  | none => s
  | some r =>
    let halts := (force || (recHalt r.w && decide (1 < status))) && s.qstate fn q == 1
    let qu := s.queue fn q
    let s := s.setQueue fn q { qu with recs := qu.recs.filter fun x => x.sq != sq }
    let s := if halts then s.haltQueue fn q else s
    let s := if force then s else s.updCtx fn (recCtx r.w) fun c => c.count 15 1
    let s := s.postRecord fn q r status detail halts
    let s := s.completionLatch fn q sq r.w status
    if policy then s.faultPolicy fn (recCtx r.w) else s

/-- The graph launch that a command runs, if it is one in progress (R358). -/
def State.grun? (s : State) (fn q sq : Nat) : Option GRun :=
  s.gruns.find? fun g => g.fn == fn && g.q == q && g.sq == sq

/-- The records of the version that a graph launch holds. -/
def State.grecs (s : State) (g : GRun) : List (BitVec 512) :=
  match s.graphs.find? (key2 g.fn g.graph) with
  | none => []
  | some x => ((x.vers.find? (·.num == g.ver)).map (·.recs)).getD []

/-- A version is released by one launch; it is freed when none holds it and it is no longer newest (R359). -/
def State.releaseVersion (s : State) (fn graph ver : Nat) : State :=
  match s.graphs.find? (key2 fn graph) with
  | none => s
  | some x =>
    let newest := (x.vers.getLast?.map (·.num)).getD 0
    let vs := x.vers.map fun v => if v.num == ver then { v with holders := v.holders - 1 } else v
    let vs := vs.filter fun v => decide (0 < v.holders) || v.num == newest
    { s with graphs := s.graphs.put (key2 fn graph) { x with vers := vs } }

/-- The status of a graph launch from its records' statuses, in sequence order (R358). -/
def graphStatus (l : List (Nat × Nat)) : Nat :=
  match l.find? fun x => decide (1 < x.2) with
  | some x => x.2
  | none => if l.any (·.2 == 1) then 1 else 0

/-- A record of a graph launch completes (R358), under the launch's CONTEXT: its completion latch acts; after a failure the
records that have not started complete without starting; when all are complete the GRAPH_LAUNCH completes with the version
run, under FAULT_POLICY where its status is one that it handles (R371). -/
def State.completeGraph (s : State) (g : GRun) (i status : Nat) : State :=
  let ctx := ((s.qrec g.fn g.q g.sq).map fun r => recCtx r.w).getD 0
  let w := BitVec.ofNat 512 (putBits ((s.grecs g).getD i 0).toNat 16 8 ctx)
  let st := (g.st.zipIdx).map fun x => if x.2 == i then (2, status) else x.1
  let st := if 1 < status then st.map fun x => if x.1 == 0 then (2, 0) else x else st
  let s := s.completionLatch g.fn g.q g.sq w status
  if st.all (·.1 == 2) then
    let s := { s with gruns := s.gruns.filter fun x => !(x.fn == g.fn && x.q == g.q && x.sq == g.sq) }
    (s.releaseVersion g.fn g.graph g.ver).completeRec g.fn g.q g.sq (graphStatus st) g.ver false
      (policyStatus (graphStatus st))
  else
    { s with gruns := s.gruns.map fun x =>
        if x.fn == g.fn && x.q == g.q && x.sq == g.sq then { x with st := st } else x }

/-- A command, or the record `g` of a graph launch, completes. -/
def State.finish1 (s : State) (fn q sq : Nat) (g : Option Nat) (status detail : Nat) (policy : Bool) : State :=
  match g with
  | none => s.completeRec fn q sq status detail false policy
  | some i => match s.grun? fn q sq with
    | none => s
    | some r => s.completeGraph r i status

/-- A started LATCH_WAIT whose latch holds its value (R356), as (function, queue, sequence, graph record). -/
def State.waitDone (s : State) : Option (Nat × Nat × Nat × Option Nat) :=
  let sat (fn : Nat) (w : BitVec 512) : Bool :=
    recOp w == 4 && (match s.latch? fn (recField w 16 2 % 4096) with
      | some t => decide (recField w 8 8 ≤ t.val.toNat)
      | none => false)
  let inQueues := s.queues.findSome? fun e =>
    (e.2.recs.find? fun r => r.st == 1 && sat (e.1 / 1048576) r.w).map fun r =>
      (e.1 / 1048576, e.1 % 1048576, r.sq, none)
  match inQueues with
  | some x => some x
  | none => s.gruns.findSome? fun g =>
    (((s.grecs g).zip g.st).zipIdx.find? fun x => x.1.2.1 == 1 && sat g.fn x.1.1).map fun x =>
      (g.fn, g.q, g.sq, some x.2)

/-- Completions follow from latches that reached their values, until none does. -/
def State.settle : Nat → State → State
  | 0, s => s
  | n + 1, s => match s.waitDone with
    | none => s
    | some (fn, q, sq, g) => State.settle n (s.finish1 fn q sq g 0 0 false)

/-- The number of commands that could yet complete. -/
def State.openCmds (s : State) : Nat :=
  (s.queues.map fun e => e.2.recs.length).sum + (s.gruns.map fun g => g.st.length).sum

/-- Completions that a change of a latch brings about. -/
def State.settled (s : State) : State := s.settle (s.openCmds + 1)

/-- A command, or a record of a graph launch, completes, with every completion that follows from it. -/
def State.finish (s : State) (fn q sq : Nat) (g : Option Nat) (status detail : Nat) (policy : Bool) : State :=
  (s.finish1 fn q sq g status detail policy).settled

/-- A latch of a function is signalled, with every completion that follows. -/
def State.signal (s : State) (fn l : Nat) (x : U64) : Nat × State :=
  let (o, s) := s.signalLatch fn l x
  (o, s.settled)

/-- A failure that is logged UCE-C and completes its command under FAULT_POLICY (R422). -/
def State.failCmd (s : State) (fn q sq : Nat) (g : Option Nat) (status source cause unit addr : Nat) (tag : Nat)
    (detail : Nat) : State :=
  let ctx := (s.qrec fn q sq).map fun r => recCtx r.w
  let s := s.logErr { ErrRec.of 1 source with
    status := status, cause := cause, unit := unit, addr := addr, tag := tag, cmdSeq := sq, queue := q, ctx := ctx
    part := if fn = 0 then none else some (fn - 1) }
  s.finish fn q sq g status detail true

end Sys2Proof.Machine
end

