-- ==== Sys2Proof/Machine/Memory.lean ====
section
/-! DEFINITION. Package memory (chapter 08) and the checks of tier 2 (chapter 18): the address map, carve-outs, poison,
twins, counters, reads and writes, and the memory controllers' own commands. -/

namespace Sys2Proof.Machine

open Sys2Proof

/-! ## The address map (R171, R172, R175, R176) -/

/-- Where a physical address lies (R171). -/
inductive Place where
  | slice (die j : Nat)
  | cellar (die g : Nat)
  | stack (s : Nat)
  | lpc (m : Nat)
  deriving DecidableEq, Repr

/-- The place of a physical address (R171, R172); none in a reserved range. -/
def place (pa : Nat) : Option Place :=
  if pa < 0x10000000 then some (.slice (pa / 0x8000000) (pa % 0x8000000 / 0x200000))
  else
    let k := pa / 0x1000000000
    if k = 1 ∨ k = 2 then some (.cellar (k - 1) (pa % 0x1000000000 / 0x200000000))
    else if 0x10 ≤ k ∧ k < 0x1C then some (.stack (k - 0x10))
    else if 0x20 ≤ k ∧ k < 0x40 then some (.lpc ((k - 0x20) / 2))
    else none

/-- The DCTL_MEMSTAT entry of a place (R186). -/
def Place.unit : Place → Nat
  | .slice d _ => 28 + d
  | .cellar d _ => 28 + d
  | .stack s => s
  | .lpc m => 12 + m

/-- SOURCE of a place's errors (R424). -/
def Place.source : Place → Nat
  | .slice _ _ => 5
  | .cellar _ _ => 5
  | .stack _ => 6
  | .lpc _ => 7

/-- UNIT of an error at a physical address (R511): the smallest unit that is named. -/
def Place.code (pa : Nat) : Place → Nat
  | .slice d j => 0x6000 + 64 * d + j
  | .cellar d g => 0x6000 + 64 * d + 8 * g + bits pa 12 3
  | .stack s => 0x8000 + s
  | .lpc m => 0x9000 + m

/-- The granule of a physical address (R176): 0 to 15 channel groups 8d + g, 16 to 63 quarter-stacks 16 + 4s + q,
64 to 79 tier-2 controllers. -/
def Place.granule (pa : Nat) : Place → Nat
  | .slice d j => 8 * d + j / 8
  | .cellar d g => 8 * d + g
  | .stack s => 16 + 4 * s + bits pa 34 2
  | .lpc m => 64 + m

/-- The partition that owns the granule of a physical address, if one does. -/
def State.paOwner (s : State) (pa : Nat) : Option Nat :=
  match place pa with
  | none => none
  | some p => if s.granState (p.granule pa) = 1 then some (bits (s.ownerByte (p.granule pa)) 0 5) else none

/-- The place of a physical address that the map holds now: absent and unusable units are unmapped (R175). -/
def State.mapped (s : State) (pa : Nat) : Option Place :=
  match place pa with
  | none => none
  | some p =>
    let ok := match p with
      | .slice d j => s.fld 0 (28 + d) Reg.DCTL_MEMSTAT.PRESENT == 1 && !s.dead.contains (8 * d + j / 8)
      | .cellar d g => s.fld 0 (28 + d) Reg.DCTL_MEMSTAT.PRESENT == 1 && !s.dead.contains (8 * d + g)
      | .stack k => s.fld 0 k Reg.DCTL_CARVE_T1.PRESENT == 1
      | .lpc m => s.fld 0 (12 + m) Reg.DCTL_MEMSTAT.PRESENT == 1
    if ok then some p else none

/-- Whether a memory unit is stopped (R191). -/
def State.memStopped (s : State) (i : Nat) : Bool := s.fld 0 i Reg.DCTL_MEMSTAT.STEP == 4

/-- Whether the unit that holds a physical address is stopped. -/
def State.paStopped (s : State) (pa : Nat) : Bool :=
  match place pa with
  | some p => s.memStopped p.unit
  | none => false

/-- Whether the tier-2 controller of a physical address is AUTH_FAILED (R412). -/
def State.authFailed (s : State) (pa : Nat) : Bool :=
  match place pa with
  | some (.lpc m) => s.fld 0 m Reg.DCTL_T2ROLL.STATE == 2
  | _ => false

/-- Whether a 256-byte unit is poisoned (R187). -/
def State.poisoned (s : State) (pa : Nat) : Bool := s.poison.get false (pa / 256)

/-- POISON of a unit, set or cleared. -/
def State.setPoison (s : State) (pa : Nat) (b : Bool) : State :=
  { s with poison := s.poison.set false (pa / 256) b }

/-! ## Errors -/

/-- An error at a physical address is logged with its place, owner and address. -/
def State.memLog (s : State) (cls status pa : Nat) : State :=
  match place pa with
  | none => s
  | some p => s.logErr { ErrRec.of cls p.source with
      status := status, unit := p.code pa, addr := pa, part := s.paOwner pa }

/-- A corrected error of a unit: counted, flagged and logged CE (R186). -/
def State.memCE (s : State) (pa : Nat) : State :=
  match place pa with
  | none => s
  | some p => ((s.satAdd 0 p.unit Reg.DCTL_MEMSTAT.CE_COUNT 1).raise 0 p.unit Reg.DCTL_MEMSTAT.CE).memLog 0 0 pa

/-- An uncorrectable read of a unit is counted and flagged. -/
def State.memUce (s : State) (pa : Nat) : State :=
  match place pa with
  | none => s
  | some p => (s.satAdd 0 p.unit Reg.DCTL_MEMSTAT.UCE_COUNT 1).raise 0 p.unit Reg.DCTL_MEMSTAT.UCE

/-! ## Twins (R192 to R196) -/

/-- LENGTH of a twin entry in 64 KiB units: the field's zero stands for 2^20 (log 31). -/
def State.twinLen (s : State) (i : Nat) : Nat :=
  let n := s.fld 0 i Reg.DCTL_TWIN1.LENGTH
  if n = 0 then 2 ^ 20 else n

/-- PA of the primary copy of a twin entry. -/
def State.twinPri (s : State) (i : Nat) : Nat := s.fld 0 i Reg.DCTL_TWIN0.PRIMARY * 65536

/-- PA of the twin copy of a twin entry. -/
def State.twinSec (s : State) (i : Nat) : Nat := s.fld 0 i Reg.DCTL_TWIN1.TWIN * 65536

/-- The twin entry that covers a physical address, with the byte's place in the object and the PA of the same byte in
the other copy. -/
def State.twinAt (s : State) (pa : Nat) : Option (Nat × Nat × Nat) :=
  (List.range 64).findSome? fun i =>
    if s.fld 0 i Reg.DCTL_TWIN0.VALID = 0 then none
    else
      let n := s.twinLen i * 65536
      let a := s.twinPri i
      let b := s.twinSec i
      if a ≤ pa ∧ pa < a + n then some (i, pa - a, b + (pa - a))
      else if b ≤ pa ∧ pa < b + n then some (i, pa - b, a + (pa - b))
      else none

/-- The weights-intact bit of each partition that maps an object (R192, R194). -/
def State.setIntact (s : State) (fn : Nat) : State :=
  let mine := s.shared.filter fun x => x.fn == fn
  s.setFld fn 0 Reg.DSTP_ATTEST.WI
    (if mine.all fun x => s.verified.contains x.tw && s.fld 0 x.tw Reg.DCTL_TWIN0.DAMAGED == 0 then 1 else 0)

/-- An object is DAMAGED (R194): the bit is set and the weights-intact bits of its mappers are cleared. -/
def State.damage (s : State) (i : Nat) : State :=
  let s := s.setFld 0 i Reg.DCTL_TWIN0.DAMAGED 1
  (s.shared.filter fun x => x.tw == i).foldl (fun s x => s.setFld x.fn 0 Reg.DSTP_ATTEST.WI 0) s

/-- Whether a unit of an object lies in a held ledger chunk (R196). -/
def State.chunkHeld (s : State) (i off : Nat) : Bool :=
  s.chunks.any fun c => c.tw == i && c.chunk == off / 0x100000

/-- A twinned unit is repaired in this beat (R201). -/
def State.mend (s : State) (pa : Nat) : State :=
  if s.mended.contains (pa / 256) then s else { s with mended := s.mended ++ [pa / 256] }

/-- Whether the copy of a twinned unit may be served: it is neither poisoned nor awaiting repair (R193). -/
def State.copyGood (s : State) (pa : Nat) : Bool := !s.poisoned pa && !s.bad.contains (pa / 256)

/-- Whether a read of one unit can be served now (R191, R193, R196, R201). -/
def State.unitReady (s : State) (pa : Nat) : Bool :=
  match s.twinAt pa with
  | none => !s.paStopped pa
  | some (i, off, o) =>
    !s.chunkHeld i off &&
      match s.paStopped pa, s.paStopped o with
      | false, false => true
      | true, true => false
      | true, false => s.copyGood o
      | false, true => s.copyGood pa

/-- Whether every unit that a run touches can be read now. -/
def State.runReady (s : State) (pa len : Nat) : Bool :=
  (List.range ((pa % 256 + len + 255) / 256)).all fun k => s.unitReady (pa / 256 * 256 + 256 * k)

/-- Throttle step of the unit that holds a physical address. -/
def State.paStep (s : State) (pa : Nat) : Nat :=
  match place pa with
  | some p => s.fld 0 p.unit Reg.DCTL_MEMSTAT.STEP
  | none => 0

/-- A copy's unit is written back from the other copy's, with its POISON cleared (R193). -/
def State.repairUnit (s : State) (pa other : Nat) : State :=
  let d := s.mem.getRun (other / 256 * 256) 256
  ({ s with mem := s.mem.setRun (pa / 256 * 256) d } : State).setPoison pa false

/-- Both copies of a twinned unit compared (R195, R196): when both are clean and differ, its ledger chunk is held. -/
def State.compareTwin (s : State) (i off : Nat) : State :=
  let a := s.twinPri i + off / 256 * 256
  let b := s.twinSec i + off / 256 * 256
  if s.poisoned a || s.poisoned b || s.mem.getRun a 256 == s.mem.getRun b 256 then s
  else if s.chunkHeld i off then
    { s with chunks := s.chunks.map fun c =>
        if c.tw == i && c.chunk == off / 0x100000 && !c.units.contains (off / 256) then
          { c with units := c.units ++ [off / 256] } else c }
  else { s with chunks := s.chunks ++ [⟨i, off / 0x100000, [off / 256]⟩] }

/-- With VERIFY set, reads of the object compare both copies (R195). -/
def State.verifyRun (s : State) (pa len : Nat) : State :=
  (List.range ((pa % 256 + len + 255) / 256)).foldl (fun s k =>
    match s.twinAt (pa / 256 * 256 + 256 * k) with
    | some (i, off, _) => if s.fld 0 i Reg.DCTL_TWIN0.VERIFY = 1 then s.compareTwin i off else s
    | none => s) s

/-! ## Tier-2 counters (R405, R408 to R410, R413, R416) -/

/-- The key of a node: controller, half, level and index (R408). -/
def nodeKey (m half l k : Nat) : Nat := ((m * 2 + half) * 16 + l) * 2 ^ 26 + k

/-- The level of a node key. -/
def nodeLevel (n : Nat) : Nat := n / 2 ^ 26 % 16

/-- The key of a node's parent; level 9's parent is the root on chip. -/
def nodeParent (n : Nat) : Nat := (n / 2 ^ 26 + 1) * 2 ^ 26 + n % 2 ^ 26 / 8

/-- The die of a node's controller (log 32). -/
def nodeDie (n : Nat) : Nat := n / 2 ^ 31 / 8

/-- The group of a tier-2 address within its controller. -/
def groupOf (pa : Nat) : Nat := pa % 0x2000000000 / 4096

/-- The half that holds a group's path (R413). -/
def State.groupHalf (s : State) (m j : Nat) : Nat :=
  let h := s.fld 0 m Reg.DCTL_T2ROLL.HALF
  if j < s.fld 0 m Reg.DCTL_T2ROLL.THR then 1 - h else h

/-- A roll is requested (R414): at most one waits while one runs. -/
def State.requestRoll (s : State) : State :=
  let s := { s with rollWant := true }
  if s.fld 0 0 Reg.DCTL_T2SEC_STAT.STATE = 0 then s else s.setFld 0 0 Reg.DCTL_T2SEC_STAT.STATE 2

/-- A counter has been raised to `n`: at 2^HWM it flags HWM_HIT, and asks for a roll unless one runs (R414, R416). -/
def State.hwm (s : State) (n : Nat) : State :=
  if n = 2 ^ s.fld 0 0 Reg.DCTL_T2SEC_CFG.HWM then
    let s := s.raise 0 0 Reg.DCTL_T2SEC_STAT.HWM_HIT
    if s.fld 0 0 Reg.DCTL_T2SEC_STAT.STATE = 0 then s.requestRoll else s
  else s

/-- The counter of the granule that holds an address: those never written apart hold 1 after the wipe at power-up, one
more per wipe since, and 1 again once rolled (R413, R414, R417, log 33). -/
def State.granuleCtr (s : State) (m pa : Nat) : Nat :=
  (s.t2ctr.find? (pa / 512)).getD
    (if groupOf pa < s.fld 0 m Reg.DCTL_T2ROLL.THR then 1 else s.t2base.get 1 m)

/-- The eight counters that a node holds (R408): of its granules in a leaf, of its children above. -/
def State.nodeCtrs (s : State) (n : Nat) : List Nat :=
  (List.range 8).map fun i =>
    if nodeLevel n = 1 then
      let m := n / 2 ^ 31
      s.granuleCtr m (0x20000000000 + m * 0x2000000000 + 4096 * (n % 2 ^ 26) + 512 * i)
    else s.t2node.get 0 ((n / 2 ^ 26 - 1) * 2 ^ 26 + 8 * (n % 2 ^ 26) + i)

/-- A cached node becomes dirty (R410): the counters that its stored copy holds are kept until it is written back. -/
def State.dirtyNode (s : State) (n : Nat) : State :=
  if (s.t2cache.get [] n).isEmpty then { s with t2cache := s.t2cache.put n (s.nodeCtrs n) } else s

/-- A node is written back (R410): its parent's counter for it rises, and the parent becomes dirty. -/
def State.writeBack (s : State) (n : Nat) : State :=
  let c := s.t2node.get 0 n + 1
  let s := if nodeLevel n < 9 then s.dirtyNode (nodeParent n) else s
  let s := { s with
    t2node := s.t2node.set 0 n c
    t2cache := s.t2cache.put n [] }
  s.hwm c

/-- Room for one more node in a die's cache of 131,072 lines (R410): a free choice among nodes without a cached child
leaves, written back first if it is dirty. -/
def State.cacheRoom (s : State) (die : Nat) : State :=
  let mine := s.t2cache.filter fun e => nodeDie e.1 == die
  if mine.length < 131072 then s
  else
    let outer := mine.filter fun e => !(mine.any fun x => nodeLevel x.1 < 9 && nodeParent x.1 == e.1)
    let (k, s) := s.draw
    match outer[k % (outer.length + 1)]? with
    | none => match outer with
      | [] => s
      | e :: _ => let s := if e.2.isEmpty then s else s.writeBack e.1
                  { s with t2cache := s.t2cache.del e.1 }
    | some e => let s := if e.2.isEmpty then s else s.writeBack e.1
                { s with t2cache := s.t2cache.del e.1 }

/-- A node and its uncached ancestors enter the cache, each lookup counted (R410, DCTL_T2CC). -/
def State.nodeLookup : Nat → State → Nat → State
  | 0, s, _ => s
  | f + 1, s, n =>
    let d := nodeDie n
    match s.t2cache.find? n with
    | some _ => s.satAdd 0 d Reg.DCTL_T2CC.HITS 1
    | none =>
      let s := s.satAdd 0 d Reg.DCTL_T2CC.MISSES 1
      let s := if nodeLevel n < 9 then State.nodeLookup f s (nodeParent n) else s
      let s := s.cacheRoom d
      { s with t2cache := s.t2cache.put n [] }

/-- The counters of a granule's leaf are looked up (R410). -/
def State.leafLookup (s : State) (pa : Nat) : State :=
  match place pa with
  | some (.lpc m) => s.nodeLookup 9 (nodeKey m (s.groupHalf m (groupOf pa)) 1 (groupOf pa))
  | _ => s

/-- One write of a granule (R405): its counter rises in the cached leaf, which becomes dirty. -/
def State.granuleWrite (s : State) (pa : Nat) : State :=
  match place pa with
  | some (.lpc m) =>
    let n := nodeKey m (s.groupHalf m (groupOf pa)) 1 (groupOf pa)
    let s := s.nodeLookup 9 n
    let c := s.granuleCtr m pa + 1
    let s := s.dirtyNode n
    let s := { s with t2ctr := s.t2ctr.put (pa / 512) c }
    s.hwm c
  | _ => s

/-- The granules that a write touches each rise by one; a group written whole writes its leaf as well (R409). -/
def State.tier2Write (s : State) (pa len : Nat) : State :=
  match place pa with
  | some (.lpc m) =>
    let s := (List.range ((pa % 512 + len + 511) / 512)).foldl (fun s k => s.granuleWrite (pa / 512 * 512 + 512 * k)) s
    (List.range ((pa % 4096 + len + 4095) / 4096)).foldl (fun s k =>
      let g := pa / 4096 * 4096 + 4096 * k
      if pa ≤ g ∧ g + 4096 ≤ pa + len then
        s.writeBack (nodeKey m (s.groupHalf m (groupOf g)) 1 (groupOf g)) else s) s
  | _ => s

/-- Whether every granule of a write can still be counted (R416). -/
def State.countersRoom (s : State) (pa len : Nat) : Bool :=
  match place pa with
  | some (.lpc m) => (List.range ((pa % 512 + len + 511) / 512)).all fun k =>
      s.granuleCtr m (pa + 512 * k) < 2 ^ 40 - 1
  | _ => true

/-- Tier-2 granules that a read touches are looked up. -/
def State.tier2Read (s : State) (pa len : Nat) : State :=
  match place pa with
  | some (.lpc _) => (List.range ((pa % 512 + len + 511) / 512)).foldl
      (fun s k => s.leafLookup (pa / 512 * 512 + 512 * k)) s
  | _ => s

/-! ## Reads and writes -/

/-- What a read of memory gives: its bytes, whether any was poisoned, and the state after it. -/
structure Rd where
  data : List Byte
  bad : Bool
  st : State

/-- One unit of a twinned object is read (R193, R194): the copy on the lower throttle step is preferred, a stopped one is
never chosen, and the choice is otherwise free; a failed copy is served from and repaired by the other. -/
def State.readTwin (s : State) (i pa other : Nat) (off n : Nat) : Rd :=
  let (pick, s) :=
    if s.paStopped pa then (true, s)
    else if s.paStopped other then (false, s)
    else if s.paStep pa < s.paStep other then (false, s)
    else if s.paStep other < s.paStep pa then (true, s)
    else s.drawBool
  let a := if pick then other else pa
  let b := if pick then pa else other
  if s.copyGood a then ⟨s.mem.getRun (a / 256 * 256 + off) n, false, s⟩
  else if s.copyGood b then
    let d := s.mem.getRun (b / 256 * 256 + off) n
    if s.bad.contains (a / 256) then ⟨d, false, s⟩
    else if s.mended.contains (a / 256) then ⟨d, false, s.repairUnit a b⟩
    else ⟨d, false, (((s.repairUnit a b).memUce a).memCE a).mend a⟩
  else ⟨List.replicate n 0, true, (s.damage i).memLog 1 0x14 pa⟩

/-- Part of one unit is read: `n` bytes from byte `off` of the unit that holds `pa`. -/
def State.readUnit (s : State) (pa off n : Nat) : Rd :=
  match s.twinAt pa with
  | some (i, _, o) => s.readTwin i pa o off n
  | none => ⟨s.mem.getRun (pa / 256 * 256 + off) n, s.poisoned pa || s.authFailed pa, s⟩

/-- A run of memory is read unit by unit. -/
def State.readUnits : Nat → State → Nat → Nat → Rd
  | 0, s, _, _ => ⟨[], false, s⟩
  | f + 1, s, pa, len =>
    if len = 0 then ⟨[], false, s⟩
    else
      let n := min len (256 - pa % 256)
      let a := s.readUnit pa (pa % 256) n
      let b := State.readUnits f a.st (pa + n) (len - n)
      ⟨a.data ++ b.data, a.bad || b.bad, b.st⟩

/-- A run of memory on this package is read (R187, R193, R405). -/
def State.readMem (s : State) (pa len : Nat) : Rd := (s.tier2Read pa len).readUnits (len / 256 + 2) pa len

/-- A run of data is stored: a unit written whole has its POISON cleared (R187). -/
def State.storeUnits : Nat → State → Nat → List Byte → State
  | 0, s, _, _ => s
  | f + 1, s, pa, d =>
    if d.isEmpty then s
    else
      let n := min d.length (256 - pa % 256)
      let s := { s with mem := s.mem.setRun pa (d.take n) }
      let s := if n = 256 then s.setPoison pa false else s
      State.storeUnits f s (pa + n) (d.drop n)

/-- POISON is set in every unit that a write touches (R187). -/
def State.poisonRun (s : State) (pa len : Nat) : State :=
  (List.range ((pa % 256 + len + 255) / 256)).foldl (fun s k => s.setPoison (pa + 256 * k) true) s

/-- A write reaches its memory controller (R187, R405, R412): answers whether its writer faults with KIND 0x8. An
AUTH_FAILED controller discards it; a poisoned payload only poisons. -/
def State.writeMem (s : State) (pa : Nat) (d : List Byte) (isPoisoned : Bool) : Bool × State :=
  if s.authFailed pa then (true, s)
  else if isPoisoned then (true, s.poisonRun pa d.length)
  else (false, (s.tier2Write pa d.length).storeUnits (d.length / 256 + 2) pa d)

/-! ## The dirty log (R241, R242) -/

/-- A logged write of a partition sets the bit of its target page. -/
def State.dirty (s : State) (q pa : Nat) : State :=
  if s.fld 0 q ⟨0x1004100, 16, 63, 1⟩ = 0 then s
  else
    let lo := s.fld 0 q ⟨0x1004108, 16, 36, 28⟩
    let n := s.fld 0 q ⟨0x1004108, 16, 0, 28⟩
    let page := pa / 65536
    if lo ≤ page ∧ page < lo + n then
      let i := page - lo
      let a := s.fld 0 q ⟨0x1004100, 16, 13, 31⟩ * 8192 + i / 8
      let b := (s.mem.get 0 a).toNat
      { s with mem := s.mem.set 0 a (BitVec.ofNat 8 (if bitOf b (i % 8) then b else b + 2 ^ (i % 8))) }
    else s.raise 0 q ⟨0x1004100, 16, 1, 1⟩

/-- Every page that a logged write touches. -/
def State.dirtyRun (s : State) (q pa len : Nat) : State :=
  (List.range ((pa % 65536 + len + 65535) / 65536)).foldl (fun s k => s.dirty q (pa + 65536 * k)) s

/-! ## Alarms of memory (R191, R411, R412) -/

/-- The alarm of a failed tier-2 check (R411): PARISH scope for a partition in the parish, VD scope for one that is only a
member, and otherwise none. -/
def State.securityAlarm (s : State) (pa : Nat) : State :=
  let s := s.memLog 4 0 pa
  match s.paOwner pa with
  | none => s
  | some q =>
    if bitOf (s.fld 0 0 Reg.DCTL_PARISH2.PARTS) q then s.raiseAlarm 2 7 0 (some q) 0
    else s.partAlarm q 7 0

/-! ## The controllers' commands -/

/-- What the code of a unit makes of its errors (R184): in a Reed-Solomon word of 136 symbols two are corrected and four
detected, in an 8-byte word of slice SRAM one bit is corrected and two are detected. None where the code promises nothing. -/
def codeOutcome (p : Place) (errs : List Nat) : Option Ecc :=
  let errs := errs.eraseDups
  match p with
  | .slice _ _ =>
    let worst := (errs.map fun i => (errs.filter fun j => j / 72 == i / 72).length).foldl max 0
    if worst = 0 then some .clean else if worst = 1 then some .corrected else if worst = 2 then some .uncorrectable else none
  | _ =>
    let n := errs.length
    if n = 0 then some .clean else if n ≤ 2 then some .corrected else if n ≤ 4 then some .uncorrectable else none

/-- A unit whose code mistakes what it reads (log 111): it holds free bytes. -/
def State.garble (s : State) (pa : Nat) : State :=
  (List.range 256).foldl (fun s k =>
    let (v, s) := s.draw
    { s with mem := s.mem.set 0 (pa / 256 * 256 + k) (BitVec.ofNat 8 v) }) s

/-- A unit is read through its code (R184, R186). Errors beyond what the code detects are freely detected or mistaken
(log 111). -/
def State.readCoded (s : State) (pa : Nat) (errs : List Nat) : Ecc × State :=
  match place pa with
  | none => (.clean, s)
  | some p => match codeOutcome p errs with
    | some e => (e, s)
    | none =>
      let (found, s) := s.drawBool
      if found then (.uncorrectable, s) else (.corrected, s.garble pa)

/-- A unit that its code cannot correct, outside a twinned object (R186): `st` is the status of the command that it fails. -/
def State.poisonRead (s : State) (pa st : Nat) : State := ((s.setPoison pa true).memUce pa).memLog 1 st pa

/-- Both copies of a unit are uncorrectable (R194). -/
def State.loseUnit (s : State) (i pa other st : Nat) : State :=
  ((((s.setPoison pa true).setPoison other true).memUce pa).damage i).memLog 1 st pa

/-- One copy of a twinned unit failed and the other serves (R193): written back, logged CE, and read once more. A unit that
was repaired in this beat is not repaired or logged again (R201). -/
def State.serveTwin (s : State) (pa other : Nat) (again alarm : Bool) : State :=
  if s.mended.contains (pa / 256) then s.repairUnit pa other
  else
    let s := (s.repairUnit pa other).mend pa
    let s := if alarm then s.memLog 4 0 pa else (s.memUce pa).memCE pa
    if again then { s with bad := s.bad ++ [pa / 256] } else s

/-- The tier-2 check of a granule that its code has passed (R411, R412): `good` says that the other copy of a twinned unit
can serve, and `st` is as for `poisonRead`. -/
def State.authRead (s : State) (pa : Nat) (a : Auth) (twin : Option (Nat × Nat × Nat)) (again good : Bool) (st : Nat) :
    State :=
  match place pa with
  | some (.lpc m) =>
    match a with
    | .pass => s
    | .macOnce => s.memCE pa
    | .nodeOnce => s.memCE pa
    | .macTwice =>
      let s := s.raise 0 0 Reg.DCTL_T2SEC_STAT.AUTH_FAIL
      match twin with
      | some (i, _, o) =>
        if s.paStopped o then s
        else if good then s.serveTwin pa o again true
        else (s.loseUnit i pa o st).memLog 4 0 pa
      | none =>
        let g := pa / 512 * 512
        ((s.setPoison g true).setPoison (g + 256) true).securityAlarm pa
    | .nodeTwice =>
      ((s.setFld 0 m Reg.DCTL_T2ROLL.STATE 2).raise 0 0 Reg.DCTL_T2SEC_STAT.TREE_FAIL).securityAlarm pa
  | _ => s

/-- Whether the other copy of a unit can serve: its code and check pass and it is not poisoned. -/
def State.twinServes (s : State) (twin : Option (Nat × Nat × Nat)) (e : ReadIn) : Bool × State :=
  match twin with
  | none => (false, s)
  | some (_, _, o) =>
    let (c, s) := s.readCoded o e.twinErrs
    (c != .uncorrectable && e.twinAuth != .macTwice && e.twinAuth != .nodeTwice && s.copyGood o, s)

/-- A controller serves a read of the unit that holds a physical address (R186, R193, R194, R411). `st` is the status of
the command that consumes it, zero where none does. A poisoned copy of a twinned unit counts as failed. -/
def State.serveRead (s : State) (pa : Nat) (e : ReadIn) (st : Nat) : State :=
  let twin := s.twinAt pa
  let s := s.tier2Read (pa / 256 * 256) 256
  if s.poisoned pa && twin.isNone then s
  else
    let (code, s) := s.readCoded pa e.errs
    let (good, s) := s.twinServes twin e
    match if s.poisoned pa then .uncorrectable else code with
    | .clean => s.authRead pa e.auth twin e.again good st
    | .corrected => (s.memCE pa).authRead pa e.auth twin e.again good st
    | .uncorrectable =>
      match twin with
      | none => s.poisonRead pa st
      | some (i, _, o) =>
        if s.paStopped o then s
        else if good then s.serveTwin pa o e.again false
        else s.loseUnit i pa o st

/-- Whether a controller takes a read of a unit now: it is not stopped, AUTH_FAILED or held for its ledger. -/
def State.takesRead (s : State) (pa : Nat) : Bool :=
  !s.paStopped pa && !s.authFailed pa &&
    match s.twinAt pa with
    | some (i, off, _) => !s.chunkHeld i off
    | none => true

/-- MEMORY_READ (R186): a controller serves a read of one unit. -/
def execMemoryRead (pa : Nat) (e : ReadIn) (s : State) : Host.Outcome State Fault Refusal :=
  match s.mapped pa with
  | none => .fault (.unmappedAddress pa)
  | some _ => .next (if s.takesRead pa then (s.serveRead pa e 0x14).verifyRun pa 1 else s)

/-- Whether every byte of a run is mapped. -/
def State.runMapped (s : State) (pa len : Nat) : Bool :=
  (List.range ((pa % 256 + len + 255) / 256)).all fun k => (s.mapped (pa / 256 * 256 + 256 * k)).isSome

/-- MEMORY_WRITE (R187, R241): a controller applies a write, once its unit runs and its counters have room. -/
def execMemoryWrite (pa : Nat) (data : List Byte) (poisoned log : Bool) (fn : Nat) (s : State) :
    Host.Outcome State Fault Refusal :=
  if s.runMapped pa data.length && (s.mapped pa).isSome then
    .next (if s.paStopped pa || !s.countersRoom pa data.length then s
      else
        let s := (s.writeMem pa data poisoned).2
        if log && fn != 0 then s.dirtyRun (fn - 1) pa data.length else s)
  else .fault (.unmappedAddress pa)

/-- PATROL_SCRUB (R188): the same handling as a read, for the cellar and both tiers, with no command failed. -/
def execPatrolScrub (pa : Nat) (e : ReadIn) (s : State) : Host.Outcome State Fault Refusal :=
  match s.mapped pa with
  | none => .fault (.unmappedAddress pa)
  | some (.slice _ _) => .next s
  | some _ => .next (if s.takesRead pa then s.serveRead pa e 0 else s)

/-- VERIFY_SCRUB (R195): both copies of one unit of an object are read and compared. -/
def execVerifyScrub (tw unit : Nat) (e : ReadIn) (s : State) : Host.Outcome State Fault Refusal :=
  let a := s.twinPri tw + 256 * unit
  let b := s.twinSec tw + 256 * unit
  let swapped : ReadIn := { e with errs := e.twinErrs, auth := e.twinAuth, twinErrs := [], twinAuth := .pass }
  .next (if tw < 64 ∧ s.fld 0 tw Reg.DCTL_TWIN0.VALID = 1 ∧ 256 * unit < s.twinLen tw * 65536
      ∧ !s.paStopped a ∧ !s.paStopped b ∧ !s.chunkHeld tw (256 * unit) then
    let s := s.serveRead a e 0
    let s := if s.copyGood b && !s.mended.contains (a / 256) then s.serveRead b swapped 0 else s
    s.compareTwin tw (256 * unit)
  else s)

/-! ### Ledgers (R389 to R391, R196) -/

/-- Leaf `i` of a ledger (R389). -/
def ledgerLeaf (i : Nat) (chunk : List Byte) : List Byte := shaBytes (0 :: beBytes 8 i ++ chunk)

/-- An inner node of a ledger (R389). -/
def ledgerNode (l r : List Byte) : List Byte := shaBytes (1 :: l ++ r)

/-- Node `k` of the level that begins `base` nodes into a ledger's image (R390). -/
def State.ledgerAt (s : State) (image base k : Nat) : List Byte := s.mem.getRun (image + 64 + 48 * (base + k)) 48

/-- A node is hashed up to the root over its sibling path (R389, R391): `n` is the count of its level. -/
def State.ledgerUp (s : State) (image : Nat) : Nat → Nat → Nat → Nat → List Byte → List Byte
  | 0, _, _, _, h => h
  | f + 1, base, n, k, h =>
    if n ≤ 1 then h
    else
      let h' := if k % 2 = 1 then ledgerNode (s.ledgerAt image base (k - 1)) h
        else if k + 1 < n then ledgerNode h (s.ledgerAt image base (k + 1)) else h
      State.ledgerUp s image f (base + n) ((n + 1) / 2) (k / 2) h'

/-- Whether a run holds a poisoned unit. -/
def State.poisonIn (s : State) (pa len : Nat) : Bool :=
  s.poison.any fun e => decide (pa < 256 * e.1 + 256) && decide (256 * e.1 < pa + len)

/-- Whether a copy's chunk matches its ledger (R196, R391): a poisoned unit never does. -/
def State.chunkMatches (s : State) (g : Ledger) (i pa len : Nat) : Bool :=
  let h := ledgerLeaf i (s.mem.getRun pa len)
  !s.poisonIn pa len && h == s.ledgerAt g.image 0 i && s.ledgerUp g.image g.levels 0 g.chunks i h == g.root

/-- The units of a chunk, by their number in the object, at which its two copies differ: only units with a listed byte can. -/
def State.chunkDiffs (s : State) (tw chunk len : Nat) : List Nat :=
  let (a, b) := (s.twinPri tw + 0x100000 * chunk, s.twinSec tw + 0x100000 * chunk)
  let at_ (lo k : Nat) : List Nat := if lo ≤ k ∧ k < lo + len then [(k - lo) / 256] else []
  ((s.mem.flatMap fun (e : Nat × Byte) => at_ a e.1 ++ at_ b e.1).eraseDups.filter fun u =>
    s.mem.getRun (a + 256 * u) 256 != s.mem.getRun (b + 256 * u) 256).map (4096 * chunk + ·)

/-- A chunk of one copy is written over the other's, whole units with their POISON cleared, and logged CE (R196). -/
def State.copyChunk (s : State) (fr dst len : Nat) : State :=
  let s := (List.range (len / 256)).foldl (fun (s : State) k =>
    if s.poisoned (dst + 256 * k) then s.setPoison (dst + 256 * k) false else s) s
  (({ s with mem := s.mem.setRun dst (s.mem.getRun fr len) } : State).tier2Write dst len).memCE dst

/-- LEDGER_CHUNK_CHECK (R196): the copy that alone matches is written over the other; where both match, nothing is left to
repair; when neither matches, or there is no ledger, the units that differ are poisoned in both, the security complex logs
an ALARM, and the object is DAMAGED. -/
def execLedgerChunkCheck (tw chunk : Nat) (s : State) : Host.Outcome State Fault Refusal :=
  match s.chunks.find? fun c => c.tw == tw && c.chunk == chunk with
  | none => .next s
  | some c =>
    let s := { s with chunks := s.chunks.filter fun x => !(x.tw == tw && x.chunk == chunk) }
    let len := min 0x100000 (s.twinLen tw * 65536 - 0x100000 * chunk)
    let a := s.twinPri tw + 0x100000 * chunk
    let b := s.twinSec tw + 0x100000 * chunk
    let (ma, mb) := match s.ledgers.find? tw with
      | none => (false, false)
      | some g => (s.chunkMatches g chunk a len, s.chunkMatches g chunk b len)
    .next (match ma, mb with
      | true, false => s.copyChunk a b len
      | false, true => s.copyChunk b a len
      | true, true => s
      | false, false =>
        let s := (c.units ++ s.chunkDiffs tw chunk len).eraseDups.foldl (fun (s : State) u =>
          (s.setPoison (s.twinPri tw + 256 * u) true).setPoison (s.twinSec tw + 256 * u) true) s
        (s.damage tw).logErr { ErrRec.of 4 0x0F with unit := 0, addr := a })

/-! ### Throttling (R189 to R191) -/

/-- The step-1, step-2, step-3 and critical thresholds of a unit, degrees C (R189). -/
def tempSteps (unit : Nat) : Nat × Nat × Nat × Nat :=
  if unit < 12 then (95, 99, 103, 107) else if unit < 28 then (95, 99, 102, 105) else (100, 104, 108, 112)

/-- The virtual devices with a member that holds a carve-out in a unit, as partitions (R191). -/
def State.unitMembers (s : State) (unit : Nat) : List Nat :=
  let gs := if unit < 12 then (List.range 4).map (16 + 4 * unit + ·)
    else if unit < 28 then [64 + (unit - 12)] else (List.range 8).map (8 * (unit - 28) + ·)
  (List.range 32).filter fun q => s.vdOf q != 0 && gs.any (s.owns q)

/-- SOURCE of a unit's errors, and its UNIT code; the cellar is named by its die (R424, R511). -/
def unitNames (unit : Nat) : Nat × Nat :=
  if unit < 12 then (6, 0x8000 + unit) else if unit < 28 then (7, 0x9000 + (unit - 12)) else (5, 0x5000 + (unit - 28))

/-- A unit reaches its critical temperature (R191): it stops at once, an ALARM is logged, and each virtual device with a
carve-out in the unit is told. -/
def State.stopUnit (s : State) (unit temp : Nat) : State :=
    let s := { s with hot := s.hot.put unit (max temp (s.hot.get 0 unit)) }
    let s := (s.setFld 0 unit Reg.DCTL_MEMSTAT.STEP 4).raise 0 unit Reg.DCTL_MEMSTAT.STOP
    let s := s.logErr { ErrRec.of 4 (unitNames unit).1 with unit := (unitNames unit).2 }
    let told := s.unitMembers unit
    let firsts := told.filter fun q => !(told.any fun r => decide (r < q) && s.vdOf r == s.vdOf q)
    firsts.foldl (fun s q => s.raiseAlarm 1 6 (s.vdOf q) (some q) 0) s

/-- Whether a reading stops a unit: it is fitted, runs, and the reading is at or above its critical threshold (R189). -/
def State.critical (s : State) (unit temp : Nat) : Bool :=
  decide (unit < 30) && s.fld 0 unit Reg.DCTL_MEMSTAT.PRESENT == 1 && decide ((tempSteps unit).2.2.2 ≤ temp)
    && !s.memStopped unit

/-- MEMORY_UNIT_RESTART (R191): at the first edge after a full beat below its step-1 threshold less 3 degrees, a stopped
unit restarts at step 3. A unit that stopped in the present beat has not had one. -/
def State.restartUnit (s : State) (unit : Nat) : State :=
  if unit < 30 ∧ s.memStopped unit ∧ s.hot.get 0 unit = 0 ∧ s.fld 0 unit Reg.DCTL_MEMSTAT.TEMP + 3 < (tempSteps unit).1 then
    s.setFld 0 unit Reg.DCTL_MEMSTAT.STEP 3 else s

/-- MEMORY_UNIT_RESTART (R191). -/
def execMemoryUnitRestart (unit : Nat) (s : State) : Host.Outcome State Fault Refusal := .next (s.restartUnit unit)

/-- The throttle step of a unit at an edge (R190), from the hottest reading of the beat that closed: entered as soon as a
threshold was reached, left one at a time after a beat 3 degrees or more below it. -/
def nextStep (unit step temp : Nat) : Nat :=
  let (a, b, c, _) := tempSteps unit
  let want := if c ≤ temp then 3 else if b ≤ temp then 2 else if a ≤ temp then 1 else 0
  let here := if step = 1 then a else if step = 2 then b else c
  if step < want then want else if 0 < step ∧ temp + 3 ≤ here then step - 1 else step

/-- TEMP at an edge (R189): the hottest reading of the unit during the beat that closed. -/
def State.noteTemp (s : State) (unit temp : Nat) : State :=
  s.setFld 0 unit Reg.DCTL_MEMSTAT.TEMP (max temp (s.hot.get 0 unit) % 256)

/-- Throttle steps at an edge (R190), from TEMP: a stopped unit keeps its state here. -/
def State.throttle (s : State) (unit : Nat) : State :=
  if s.fld 0 unit Reg.DCTL_MEMSTAT.PRESENT = 0 ∨ s.memStopped unit then s
  else
    let old := s.fld 0 unit Reg.DCTL_MEMSTAT.STEP
    let new := nextStep unit old (s.fld 0 unit Reg.DCTL_MEMSTAT.TEMP)
    let s := s.setFld 0 unit Reg.DCTL_MEMSTAT.STEP new
    if old = 0 ∧ 0 < new then s.raise 0 unit Reg.DCTL_MEMSTAT.THROTTLE else s

/-! ### Wipe (R200, R417, R510) -/

/-- The PA range of a granule, and a second range for the slices of a channel group. -/
def granuleRanges (g : Nat) : List (Nat × Nat) :=
  if g < 16 then
    [((g / 8 + 1) * 0x1000000000 + g % 8 * 0x200000000, 0x200000000), (g / 8 * 0x8000000 + g % 8 * 0x1000000, 0x1000000)]
  else if g < 64 then [(0x10000000000 + (g - 16) / 4 * 0x1000000000 + (g - 16) % 4 * 0x400000000, 0x400000000)]
  else [(0x20000000000 + (g - 64) * 0x2000000000, 0x2000000000)]

/-- Every byte of a range reads zero, and every unit is clean. -/
def State.zeroRange (s : State) (lo n : Nat) : State :=
  { s with
    mem := s.mem.filter fun e => !(decide (lo ≤ e.1) && decide (e.1 < lo + n))
    poison := s.poison.filter fun e => !(decide (lo ≤ 256 * e.1) && decide (256 * e.1 < lo + n))
    bad := s.bad.filter fun u => !(decide (lo ≤ 256 * u) && decide (256 * u < lo + n)) }

/-- Whether two granules are quarters of one stack. -/
def sameStack (g h : Nat) : Bool := decide (16 ≤ g ∧ g < 64 ∧ 16 ≤ h ∧ h < 64 ∧ (g - 16) / 4 = (h - 16) / 4)

/-- The turn of wipes among the quarters of each stack (R510): the one under way goes on, and when it is done the lowest
quarter that waits is next. -/
def State.beginWipes (s : State) : State :=
  let left := s.wipes.filter fun w => !w.done
  let next (w : Wipe) : Bool :=
    !w.done && !(left.any fun x => sameStack x.granule w.granule && (x.begun || decide (x.granule < w.granule)))
  { s with wipes := s.wipes.map fun w => if next w then { w with begun := true } else w }

/-- Whether another wipe of the same stack goes first (R510), in STACK mode. -/
def State.wipeBehind (s : State) (g : Nat) : Bool :=
  decide (16 ≤ g ∧ g < 64) && s.fld 0 ((g - 16) / 4) Reg.DCTL_CARVE_T1.MODE == 0
    && s.wipes.any fun w => !w.done && w.granule == g && !w.begun

/-- The MEMSTAT entry of a granule's unit. -/
def granuleUnit (g : Nat) : Nat := if g < 16 then 28 + g / 8 else if g < 64 then (g - 16) / 4 else 12 + (g - 64)

/-- Whether a key roll is in progress (R413): slot 6 holds the key being rolled in. -/
def State.rolling (s : State) : Bool := s.fld 0 6 Reg.DCTL_KEY_ATTR.VALID == 1

/-- A granule is zeroed. A tier-2 controller's wipe is an encrypted write of each of its granules: its counters rise by
one, or under a roll are those of the new key, and it ends AUTH_FAILED and that controller's part of the roll (R412,
R417). -/
def State.wipeGranule (s : State) (g : Nat) : State :=
  let s := (granuleRanges g).foldl (fun s r => s.zeroRange r.1 r.2) s
  if g < 64 then s
  else
    let m := g - 64
    let base := (0x20000000000 + m * 0x2000000000) / 512
    let mine (k : Nat) : Bool := decide (base ≤ k) && decide (k < base + 0x10000000)
    let rolling := s.rolling
    let ctr : Tab Nat := if rolling then s.t2ctr.filter (fun e => !mine e.1)
      else s.t2ctr.map fun e => if mine e.1 then (e.1, e.2 + 1) else e
    let s1 : State := { s with
      t2ctr := ctr
      t2base := if rolling then s.t2base else s.t2base.put m (s.t2base.get 1 m + 1) }
    if rolling then (s1.setFld 0 m Reg.DCTL_T2ROLL.THR (2 ^ 25)).setFld 0 m Reg.DCTL_T2ROLL.STATE 1
    else if s1.fld 0 m Reg.DCTL_T2ROLL.STATE = 2 then s1.setFld 0 m Reg.DCTL_T2ROLL.STATE 0 else s1

/-- WIPE_COMPLETE (R200): a wipe in progress has written every unit of its granule; it is UNOWNED from the next edge. A
stopped unit holds its wipe (R201), and quarters of one stack follow one another (R510). -/
def execWipeComplete (granule : Nat) (s : State) : Host.Outcome State Fault Refusal :=
  .next (if s.wipes.any (fun w => w.granule == granule && !w.done) && !s.memStopped (granuleUnit granule)
      && !s.wipeBehind granule then
    ({ s.wipeGranule granule with
      wipes := s.wipes.map fun w => if w.granule == granule then { w with done := true } else w } : State).beginWipes
  else s)

/-- Granules whose wipes have completed become UNOWNED at an edge (R200), or stay with their owner after a reset. -/
def State.freeWiped (s : State) : State :=
  let s' := (s.wipes.filter (·.done)).foldl (fun s w => s.setOwner w.granule (w.keep.getD 0)) s
  { s' with wipes := s'.wipes.filter fun w => !w.done }

/-- A granule is released: it is WIPING until its wipe completes (R176, R200). -/
def State.startWipe (s : State) (g : Nat) : State :=
  { s.setOwner g 0xC0 with wipes := s.wipes ++ [⟨g, false, none, false⟩] }

end Sys2Proof.Machine
end

