-- ==== Sys2Proof/Machine/Numerics.lean ====
section
/-! DEFINITION. Numbers and arithmetic (chapter 06): formats, exact values, rounding, saturation and MX
quantisation. A conversion rounds the exact value and then applies the range rule (R138). -/

namespace Sys2Proof.Machine

open Sys2Proof

/-- The exact value of a floating or integer element: `fin neg m e` is (-1)^neg * m * 2^e. -/
inductive FV where
  | nan
  | inf (neg : Bool)
  | fin (neg : Bool) (m : Nat) (e : Int)
  deriving DecidableEq, Repr

/-- Bits of one element of a FORMAT code (R134). -/
def fmtBits (f : Nat) : Nat :=
  match f with
  | 0x0 => 32 | 0x1 => 16 | 0x2 => 16 | 0x3 => 8 | 0x4 => 8 | 0x5 => 8 | 0x6 => 8 | 0x7 => 6 | 0x8 => 6
  | 0x9 => 4 | 0xA => 8 | 0xB => 8 | 0xC => 4 | 0xD => 32 | _ => 0

/-- Exponent and mantissa bits of a floating FORMAT code (R134). -/
def fmtExp (f : Nat) : Nat × Nat :=
  match f with
  | 0x0 => (8, 23) | 0x1 => (8, 7) | 0x2 => (5, 10) | 0x3 => (4, 3) | 0x5 => (4, 3) | 0x4 => (5, 2)
  | 0x6 => (5, 2) | 0x7 => (3, 2) | 0x8 => (2, 3) | 0x9 => (2, 1) | _ => (0, 0)

/-- Whether a FORMAT code is floating (R134). -/
def fmtFloat (f : Nat) : Bool := decide (f ≤ 0x9)
/-- Whether a FORMAT code is an MX format (R134). -/
def fmtMx (f : Nat) : Bool := decide (0x5 ≤ f) && decide (f ≤ 0xA)
/-- Whether a floating format is IEEE-like: its top exponent holds infinities and NaNs (R134). -/
def fmtIeee (f : Nat) : Bool := f == 0x0 || f == 0x1 || f == 0x2 || f == 0x4 || f == 0x6

/-- Exponent bias: 2^(exponent bits - 1) - 1 (R134). -/
def fmtBias (f : Nat) : Int := (2 ^ ((fmtExp f).1 - 1) : Nat) - 1

/-- The largest finite code of a floating format, sign aside (R134). -/
def fmtMaxCode (f : Nat) : Nat :=
  match f with
  | 0x0 => 0x7F7FFFFF | 0x1 => 0x7F7F | 0x2 => 0x7BFF | 0x3 => 0x7E | 0x5 => 0x7E | 0x4 => 0x7B | 0x6 => 0x7B
  | 0x7 => 0x1F | 0x8 => 0x1F | 0x9 => 0x7 | _ => 0

/-- The canonical NaN of a format (R137). -/
def fmtNaN (f : Nat) : Nat :=
  match f with
  | 0x0 => 0x7FC00000 | 0x1 => 0x7FC0 | 0x2 => 0x7E00 | 0x3 => 0x7F | 0x5 => 0x7F | 0x4 => 0x7E | 0x6 => 0x7E
  | _ => 0

/-- An integer as an exact value scaled by 2^e. -/
def FV.ofInt (i : Int) (e : Int) : FV := .fin (decide (i < 0)) i.natAbs e

/-- The exact value of an element's code (R134). -/
def decodeEl (f n : Nat) : FV :=
  if f = 0xA then FV.ofInt (signed n 8) (-6)
  else if f = 0xB then FV.ofInt (signed n 8) 0
  else if f = 0xC then FV.ofInt (signed n 4) 0
  else if f = 0xD then FV.ofInt (signed n 32) 0
  else
    let (eb, mb) := fmtExp f
    let neg := bitOf n (eb + mb)
    let ex := bits n mb eb
    let man := bits n 0 mb
    if fmtIeee f && ex == 2 ^ eb - 1 then (if man = 0 then .inf neg else .nan)
    else if (f == 0x3 || f == 0x5) && n % 128 == 0x7F then .nan
    else if ex = 0 then .fin neg man (1 - fmtBias f - mb)
    else .fin neg (man + 2 ^ mb) (ex - fmtBias f - mb)

/-- The value of an E8M0 scale byte: 2^(b - 127), or NaN for 0xFF (R134). -/
def decodeScale (b : Nat) : FV := if b = 0xFF then .nan else .fin false 1 ((b : Int) - 127)

/-- The binary exponent of a non-zero magnitude m * 2^e. -/
def msbExp (m : Nat) (e : Int) : Int := (Nat.log2 m : Int) + e

/-- Whether m * 2^e is a multiple of 2^q. -/
def exactAt (m : Nat) (e q : Int) : Bool := decide (q ≤ e) || m % 2 ^ (q - e).toNat == 0

/-- m * 2^e as a multiple of 2^q, rounded: mode 0 nearest even, 1 toward zero, 2 stochastic with draw `u`
(R146, R147). -/
def roundAt (mode u m : Nat) (e q : Int) : Nat :=
  if q ≤ e then m * 2 ^ (e - q).toNat
  else
    let d := (q - e).toNat
    let lo := m / 2 ^ d
    let r := m % 2 ^ d
    if r = 0 then lo
    else if mode = 1 then lo
    else if mode = 2 then
      let f := if 16 ≤ d then r / 2 ^ (d - 16) else r * 2 ^ (16 - d)
      if 2 ^ 16 ≤ f + u then lo + 1 else lo
    else if 2 * r < 2 ^ d then lo
    else if 2 ^ d < 2 * r then lo + 1
    else if lo % 2 = 0 then lo else lo + 1

/-- The exponent of the last place of a floating format at a magnitude. -/
def quantum (f m : Nat) (e : Int) : Int :=
  let mb : Int := (fmtExp f).2
  max (msbExp m e - mb) (1 - fmtBias f - mb)

/-- The sign bit of a format. -/
def signBit (f : Nat) (neg : Bool) : Nat := if neg then 2 ^ (fmtBits f - 1) else 0

/-- The code for a magnitude k * 2^q already rounded to a floating format, with the range rule (R138). -/
def encodeMag (f mode k : Nat) (q : Int) : Nat :=
  let mb := (fmtExp f).2
  let (k, q) := if 2 ^ (mb + 1) ≤ k then (k / 2, q + 1) else (k, q)
  let code : Nat := if k < 2 ^ mb then k else (q + mb + fmtBias f).toNat * 2 ^ mb + (k - 2 ^ mb)
  if code ≤ fmtMaxCode f then code
  else if (f == 0x0 || f == 0x1 || f == 0x2) && mode != 1 then fmtMaxCode f + 1
  else fmtMaxCode f

/-- The range limits of an integer format. -/
def intLimit (f : Nat) (neg : Bool) : Int :=
  let w := fmtBits f
  if neg then -(2 ^ (w - 1) : Nat) else (2 ^ (w - 1) : Nat) - 1

/-- An integer limited to a format's range (R138). -/
def clampInt (f : Nat) (i : Int) : Int := max (intLimit f true) (min (intLimit f false) i)

/-- Whether a conversion takes a stochastic draw: only an inexact value does (R147). -/
def needsDraw (f mode : Nat) (x : FV) : Bool :=
  match x with
  | .fin _ m e =>
    mode == 2 && m != 0 && !(exactAt m e (if fmtFloat f then quantum f m e else if f = 0xA then -6 else 0))
  | _ => false

/-- A value converted to a format under a rounding mode, with draw `u` where it is stochastic (R138, R139). -/
def narrowEl (f mode u : Nat) (x : FV) : Nat :=
  match x with
  | .nan => if fmtFloat f then fmtNaN f else 0
  | .inf neg =>
    if fmtFloat f then
      signBit f neg + (if fmtIeee f then
        (if f == 0x4 || f == 0x6 then 0x7C else fmtMaxCode f + 1) else fmtMaxCode f)
    else wrap (intLimit f neg) (fmtBits f)
  | .fin neg m e =>
    if fmtFloat f then
      if m = 0 then signBit f neg
      else signBit f neg + encodeMag f mode (roundAt mode u m e (quantum f m e)) (quantum f m e)
    else
      let k : Int := roundAt mode u m e (if f = 0xA then -6 else 0)
      wrap (clampInt f (if neg then -k else k)) (fmtBits f)

/-- The sign of an exact value. -/
def FV.isNeg : FV → Bool
  | .nan => false
  | .inf n => n
  | .fin n _ _ => n

/-- Negation of an exact value. -/
def FV.neg : FV → FV
  | .nan => .nan
  | .inf n => .inf (!n)
  | .fin n m e => .fin (!n) m e

/-- Magnitude of an exact value. -/
def FV.abs : FV → FV
  | .nan => .nan
  | .inf _ => .inf false
  | .fin _ m e => .fin false m e

/-- The signed integer multiple of 2^q that an exact finite value is, for q at most its exponent. -/
def scaledInt (neg : Bool) (m : Nat) (e q : Int) : Int :=
  let k : Int := m * 2 ^ (e - q).toNat
  if neg then -k else k

/-- Exact sum (R136, R137): opposite zeros and exact cancellation give +0. -/
def FV.add (a b : FV) : FV :=
  match a, b with
  | .nan, _ => .nan
  | _, .nan => .nan
  | .inf x, .inf y => if x == y then .inf x else .nan
  | .inf x, _ => .inf x
  | _, .inf y => .inf y
  | .fin na ma ea, .fin nb mb eb =>
    if ma = 0 ∧ mb = 0 then .fin (na && nb) 0 ea
    else
      let q := min ea eb
      FV.ofInt (scaledInt na ma ea q + scaledInt nb mb eb q) q

/-- Exact product (R137): zero times infinity is NaN. -/
def FV.mul (a b : FV) : FV :=
  match a, b with
  | .nan, _ => .nan
  | _, .nan => .nan
  | .inf x, .inf y => .inf (x != y)
  | .inf x, .fin y m _ => if m = 0 then .nan else .inf (x != y)
  | .fin x m _, .inf y => if m = 0 then .nan else .inf (x != y)
  | .fin x m e, .fin y n f => .fin (x != y) (m * n) (e + f)

/-- Exact order of two values, neither NaN, with -0 below +0 (R144). -/
def FV.lt (a b : FV) : Bool :=
  match a, b with
  | .inf x, .inf y => x && !y
  | .inf x, .fin _ _ _ => x
  | .fin _ _ _, .inf y => !y
  | .fin na ma ea, .fin nb mb eb =>
    let q := min ea eb
    if ma = 0 ∧ mb = 0 then na && !nb
    else decide (scaledInt na ma ea q < scaledInt nb mb eb q)
  | _, _ => false

/-- Numerical equality of two values, neither NaN: zeros of either sign are equal. -/
def FV.eq (a b : FV) : Bool :=
  match a, b with
  | .inf x, .inf y => x == y
  | .fin na ma ea, .fin nb mb eb =>
    decide (scaledInt na ma ea (min ea eb) = scaledInt nb mb eb (min ea eb))
  | _, _ => false

/-- The larger of two values: the other operand when exactly one is NaN (R144). -/
def FV.max (a b : FV) : FV :=
  match a, b with
  | .nan, y => y
  | x, .nan => x
  | x, y => if x.lt y then y else x

/-- The smaller of two values: the other operand when exactly one is NaN (R144). -/
def FV.min (a b : FV) : FV :=
  match a, b with
  | .nan, y => y
  | x, .nan => x
  | x, y => if y.lt x then y else x

/-- One FP32 accumulation with round to nearest even (R142). -/
def addF32 (a b : FV) : FV := decodeEl 0 (narrowEl 0 0 0 (a.add b))

/-- Terms added one at a time in FP32, in the order given (R142, R120). -/
def sumF32 : List FV → FV
  | [] => .fin false 0 0
  | x :: xs => xs.foldl addF32 x

/-- emax of an MX element format (R140). -/
def mxEmax (f : Nat) : Int :=
  match f with
  | 0x5 => 8 | 0x6 => 15 | 0x7 => 4 | 0x8 => 2 | 0x9 => 2 | _ => 0

/-- Whether a value is NaN or infinite. -/
def FV.special : FV → Bool
  | .fin _ _ _ => false
  | _ => true

/-- The scale byte of a block by the quantisation rule, and the power of two by which its elements are divided
(R140); none where every element is written as zero. -/
def mxScale (f : Nat) (block : List FV) : Nat × Option Int :=
  if block.any FV.special then (0xFF, none)
  else match (block.foldl (fun a x => FV.max a x.abs) (.fin false 0 0)) with
    | .fin _ m e =>
      if m = 0 then (0, none)
      else
        let x := max (-127) (min 127 (msbExp m e - mxEmax f))
        ((x + 127).toNat, some x)
    | _ => (0xFF, none)

/-- A value times 2^(-x). -/
def FV.scaleDown (v : FV) (x : Int) : FV :=
  match v with
  | .fin n m e => .fin n m (e - x)
  | w => w

/-- One element of a quantised block (R140, R138): every MX element saturates, and MXINT8 stays in -127 to 127. -/
def mxElement (f mode u : Nat) (x : Option Int) (v : FV) : Nat :=
  match x with
  | none => 0
  | some x =>
    let c := narrowEl f mode u (v.scaleDown x)
    if f = 0xA then (if c = 0x80 then 0x81 else c)
    else if bits c 0 (fmtBits f - 1) > fmtMaxCode f then
      (if v.isNeg then signBit f true else 0) + fmtMaxCode f
    else c

/-- One step of a rounding generator (R148). -/
def genStep (s : U64) : U64 :=
  let s := s ^^^ (s <<< 13)
  let s := s ^^^ (s >>> 7)
  s ^^^ (s <<< 17)

/-- Steps of a generator. -/
def genSteps : Nat → U64 → U64
  | 0, s => s
  | n + 1, s => genSteps n (genStep s)

/-- The next 16-bit draw: a step gives four, low half first (R148). -/
def Gen.draw (g : Gen) : Nat × Gen :=
  let st := if g.taken % 4 = 0 then genStep g.state else g.state
  (bits st.toNat (16 * (g.taken % 4)) 16, { state := st, taken := (g.taken + 1) % 4 })

/-- Several draws. -/
def Gen.draws : Nat → Gen → List Nat × Gen
  | 0, g => ([], g)
  | n + 1, g =>
    let (u, g) := g.draw
    let (us, g) := Gen.draws n g
    (u :: us, g)

/-- A generator at the start of a launch (R149): seed, launch sequence number, logical core, engine 0 to 5. -/
def genInit (seed : U64) (sq core e : Nat) : Gen :=
  let s := seed ^^^ (BitVec.ofNat 64 (sq * 2 ^ 20)) ^^^ (BitVec.ofNat 64 (core * 16)) ^^^ (BitVec.ofNat 64 e)
  { state := genSteps 16 (if s = 0 then 1 else s), taken := 0 }

/-- Whether candidate `c` lies within `k` units in the last place of 1 / (m * 2^e), or of its square root when
`root` (R144): the check by which a free result is bounded. -/
def within (f k : Nat) (root : Bool) (m : Nat) (e : Int) (c : FV) : Bool :=
  match c with
  | .fin false n x =>
    if n = 0 then false else
    let q := quantum f n x
    let w : Int := n * 2 ^ (x - min x q).toNat
    let d : Int := k * 2 ^ (q - min x q).toNat
    let lo := w - d
    let hi := w + d
    let z := min x q
    let le1 (a : Int) : Bool :=
      let p : Int := if root then a * a * m else a * m
      let ez : Int := if root then 2 * z + e else z + e
      if a < 0 then true
      else if 0 ≤ ez then decide (p * (2 ^ ez.toNat : Nat) ≤ 1) else decide (p ≤ (2 ^ (-ez).toNat : Nat))
    let ge1 (a : Int) : Bool :=
      let p : Int := if root then a * a * m else a * m
      let ez : Int := if root then 2 * z + e else z + e
      if a < 0 then false
      else if 0 ≤ ez then decide (1 ≤ p * (2 ^ ez.toNat : Nat)) else decide ((2 ^ (-ez).toNat : Nat) ≤ p)
    le1 lo && ge1 hi
  | _ => false

/-! ## Functions whose true result is no rational number (R144) -/

/-- The natural logarithm of 2, in units of 2^-96. -/
def ln2Fix : Nat := 54916777467707473351141471128

/-- e^y for y = t * 2^-96 below 1, by its series, in units of 2^-96. -/
def expFix (t : Nat) : Nat :=
  ((List.range 40).foldl (fun (a : Nat × Nat) n =>
    let x := a.2 * t / (n + 1) / 2 ^ 96
    (a.1 + x, x)) (2 ^ 96, 2 ^ 96)).1

/-- 2^x for x = X * 2^-96, far beyond a working format's precision. Exponents that no format reaches are cut off. -/
def exp2Fix (x : Int) : FV :=
  let f := (x % (2 ^ 96 : Nat)).toNat
  .fin false (expFix (f * ln2Fix / 2 ^ 96)) (max (-1000) (min 1000 (x / (2 ^ 96 : Nat))) - 96)

/-- A finite value in units of 2^-96, rounded down. -/
def toFix (neg : Bool) (m : Nat) (e : Int) : Int :=
  let k : Int := if neg then -(m : Int) else m
  if 0 ≤ e + 96 then k * (2 ^ (e + 96).toNat : Nat) else k / (2 ^ (-(e + 96)).toNat : Nat)

/-- log2 of m * 2^e: the binary exponent, and the mantissa's logarithm by the series of the inverse hyperbolic tangent. -/
def log2Fix (m : Nat) (e : Int) : FV :=
  let l := Nat.log2 m
  let z := (m - 2 ^ l) * 2 ^ 96 / (m + 2 ^ l)
  let s := ((List.range 40).foldl (fun (a : Nat × Nat) n => (a.1 + a.2 / (2 * n + 1), a.2 * z / 2 ^ 96 * z / 2 ^ 96)) (0, z)).1
  FV.ofInt (((l : Int) + e) * (2 ^ 96 : Nat) + ((2 * s * 2 ^ 96 / ln2Fix : Nat) : Int)) (-96)

/-- tanh of a finite value: by its series for a small one, by e^2x otherwise, and by 1 - 2^-96 for a large one. -/
def tanhFix (neg : Bool) (m : Nat) (e : Int) : FV :=
  if msbExp m e < -12 then
    let t := (toFix false (m * m) (2 * e)).toNat
    .fin neg (m * (2 ^ 96 - t / 3 + 2 * t * t / 2 ^ 96 / 15)) (e - 96)
  else if 6 ≤ msbExp m e then .fin neg (2 ^ 96 - 1) (-96)
  else
    let x := 2 * (toFix false m e).toNat * 2 ^ 96 / ln2Fix
    let p := expFix (x % 2 ^ 96 * ln2Fix / 2 ^ 96) * 2 ^ (x / 2 ^ 96)
    .fin neg ((p - 2 ^ 96) * 2 ^ 96 / (p + 2 ^ 96)) (-96)

/-- The value of a magnitude code of a floating format, whose codes go on past the largest finite one. -/
def magVal (f n : Nat) : Nat × Int :=
  let mb := (fmtExp f).2
  if n < 2 ^ mb then (n, 1 - fmtBias f - mb) else (n % 2 ^ mb + 2 ^ mb, (n / 2 ^ mb : Nat) - fmtBias f - mb)

/-- Whether a magnitude code lies within `k` units in the last place of m * 2^e, up to what the series leave open. -/
def withinUlp (f k n m : Nat) (e : Int) : Bool :=
  let (a, q) := magVal f n
  let u := max q (quantum f m e)
  let z := min (min q e) (u - 30)
  decide (((a * 2 ^ (q - z).toNat : Nat) - (m * 2 ^ (e - z).toNat : Nat) : Int).natAbs
    ≤ k * 2 ^ (u - z).toNat + 2 ^ (u - 30 - z).toNat)

/-- A code near a value: a free one within `k` units in the last place, of the value's sign. -/
def nearCode (f k mode free : Nat) (v : FV) : Nat :=
  match v with
  | .fin neg m e =>
    let n := narrowEl f mode 0 (.fin false m e)
    let c : Int := (n : Int) + (free % (8 * k + 1) : Nat) - 4 * k
    signBit f neg + if 0 ≤ c ∧ c ≤ fmtMaxCode f + 1 ∧ withinUlp f k c.toNat m e = true then c.toNat else n
  | v => narrowEl f mode 0 v

end Sys2Proof.Machine
end

