-- ==== Sys2Proof/Machine/MemorySide.lean ====
section
/-! DEFINITION. Memory-side operations (chapter 09): add, max, min, SWAP, CAS and CLAIM at the unit that serves them. -/

namespace Sys2Proof.Machine

open Sys2Proof

/-! ## Elements (R129, R205) -/

/-- Bytes of an EFMT element (R129). -/
def efmtBytes (e : Nat) : Nat :=
  match e with
  | 0 => 4 | 1 => 8 | 2 => 4 | 3 => 2 | _ => 1

/-- The FORMAT code of a floating EFMT: FP32, BF16, E4M3, E5M2. -/
def efmtFmt (e : Nat) : Nat :=
  match e with
  | 2 => 0x0 | 3 => 0x1 | 4 => 0x3 | _ => 0x4

/-- One element combined with a contribution (R205): 0 add, 1 max, 2 min. -/
def combineEl (op e old c : Nat) : Nat :=
  if e ≤ 1 then
    let w := 8 * efmtBytes e
    if op = 0 then (old + c) % 2 ^ w
    else if op = 1 then (if signed old w < signed c w then c else old)
    else (if signed c w < signed old w then c else old)
  else
    let f := efmtFmt e
    let a := decodeEl f old
    let b := decodeEl f c
    narrowEl f 0 0 (if op = 0 then a.add b else if op = 1 then a.max b else a.min b)

/-- Whether the units of this package have an EFMT (R203): the YX-1624 has only the integer ones. -/
def State.hasEfmt (s : State) (e : Nat) : Bool :=
  decide (e ≤ 1) || decide (e ≤ 5) && s.fld 0 0 Reg.IDC_CAP1.FP_ADD == 1

/-! ### Contributions that wait (R206) -/

/-- Contributions to one element summed in FP32, in an order that is a free choice, each sum rounded (R206). -/
def State.sumFree (e : Nat) : Nat → State → List Nat → Option FV → Option FV × State
  | 0, s, _, acc => (acc, s)
  | f + 1, s, vs, acc =>
    let (k, s) := s.draw
    match vs[k % max 1 vs.length]? with
    | none => (acc, s)
    | some v =>
      let x := decodeEl (efmtFmt e) v
      let sum := match acc with
        | none => x
        | some a => decodeEl 0 (narrowEl 0 0 0 (a.add x))
      State.sumFree e f s (vs.erase v) (some sum)

/-- The element after contributions combined (R205, R206): their FP32 sum is added to it, and the result rounded once. One
contribution alone is added as it stands. -/
def State.combineAdds (s : State) (e old : Nat) (vs : List Nat) : Nat × State :=
  match vs with
  | [v] => (combineEl 0 e old v, s)
  | _ =>
    let (sum, s) := State.sumFree e vs.length s vs none
    match sum with
    | none => (old, s)
    | some x => (narrowEl (efmtFmt e) 0 0 ((decodeEl (efmtFmt e) old).add x), s)

/-- The status of an acknowledgement that waits rises to POISONED (R211). -/
def State.owePoison (s : State) (ids : List Nat) : State :=
  { s with owing := s.owing.map fun (o : Owing) => if ids.contains o.id then { o with status := 3 } else o }

/-- The contributions that wait for one element are applied to it together with another, if any (R206): a poisoned unit
takes none (R187). Answers whether it was poisoned. -/
def State.applyElement (s : State) (pa e : Nat) (own : List Nat) : Bool × State :=
  let here := s.contribs.filter fun c => c.pa == pa && c.e == e
  let s := { s with contribs := s.contribs.filter fun c => !(c.pa == pa && c.e == e) }
  if s.poisoned pa then (true, s.owePoison (here.map (·.owed)))
  else
    let n := efmtBytes e
    let (v, s) := s.combineAdds e (leNat (s.mem.getRun pa n)) (here.map (·.v) ++ own)
    (false, { s with mem := s.mem.setRun pa (leBytes n v) })

/-- A contribution applied element by element (R187, R207): one whose unit is poisoned is not applied. A floating-point add
takes with it what waits for its elements. Answers whether any met poison. -/
def State.msoElems (op e : Nat) : Nat → State → Nat → List Byte → Bool × State
  | 0, s, _, _ => (false, s)
  | f + 1, s, pa, d =>
    let n := efmtBytes e
    if d.length < n then (false, s)
    else
      let v := leNat (d.take n)
      let (bad, s) :=
        if op = 0 ∧ 2 ≤ e then s.applyElement pa e [v]
        else if s.poisoned pa then (true, s)
        else (false, { s with mem := s.mem.setRun pa (leBytes n (combineEl op e (leNat (s.mem.getRun pa n)) v)) })
      let (more, s) := State.msoElems op e f s (pa + n) (d.drop n)
      (bad || more, s)

/-- Contributions that wait at addresses are applied, each element's together (R206, R209, R221); a tier-2 granule takes
one write. -/
def State.flushContribs (s : State) (p : Nat → Bool) : State :=
  let els := ((s.contribs.filter fun c => p c.pa).map fun c => (c.pa, c.e)).eraseDups
  let s := (els.map fun x => x.1 / 512).eraseDups.foldl (fun (s : State) g => s.tier2Write (512 * g) 1) s
  els.foldl (fun (s : State) x => (s.applyElement x.1 x.2 []).2) s

/-- The elements of a contribution wait at their unit for an acknowledgement (R206). -/
def contribsOf (e owed : Nat) : Nat → Nat → List Byte → List Contrib
  | 0, _, _ => []
  | f + 1, pa, d =>
    if d.length < efmtBytes e then []
    else ⟨pa, e, leNat (d.take (efmtBytes e)), owed⟩ :: contribsOf e owed f (pa + efmtBytes e) (d.drop (efmtBytes e))

/-- Whether a contribution may wait to be combined (R206): a floating-point add that its unit takes. -/
def State.mayWait (s : State) (pa op e : Nat) (isPoisoned : Bool) : Bool :=
  op == 0 && decide (2 ≤ e) && s.hasEfmt e && !s.authFailed pa && !isPoisoned

/-- A contribution waits, with the acknowledgement that it is owed. -/
def State.postContrib (s : State) (pa e : Nat) (d : List Byte) (owed : Nat) : State :=
  { s with contribs := s.contribs ++ contribsOf e owed d.length (pa / efmtBytes e * efmtBytes e) d }

/-- An acknowledgement is owed (R209). -/
def State.owe (s : State) (cell : Option (Nat × Cell × Nat × Nat)) (move : Option (Nat × Nat)) : State :=
  { s with owing := s.owing ++ [⟨s.nextOwed, cell, move, 0⟩], nextOwed := s.nextOwed + 1 }

/-- An add, max or min at its unit: the status of R263 (0 OK, 3 POISONED, 4 NO_FORMAT) and the state after it. The
address is aligned down to the element (R129). -/
def State.mso (s : State) (pa op e : Nat) (d : List Byte) (isPoisoned : Bool) : Nat × State :=
  let pa := pa / efmtBytes e * efmtBytes e
  if !s.hasEfmt e then (4, s)
  else if s.authFailed pa then (3, s)
  else if isPoisoned then (3, s.poisonRun pa d.length)
  else
    let (bad, s) := State.msoElems op e d.length (s.tier2Write pa d.length) pa d
    (if bad then 3 else 0, s)

/-! ## Single-datum atomics (R207, R211, R214 to R218) -/

/-- What an atomic answers: status of R263, value found, whether the new value was stored. -/
structure AtomRes where
  status : Nat
  found : BitVec 128
  stored : Bool
  deriving DecidableEq, Repr

/-- Fields of a state header (R215). -/
def hdrNode (h : Nat) : Nat := bits h 0 16
/-- OWNER_EPOCH. -/
def hdrEpoch (h : Nat) : Nat := bits h 16 16
/-- STATE: 0 FREE, 1 OWNED, 2 OFFERED. -/
def hdrState (h : Nat) : Nat := bits h 32 8
/-- OFFER_BEAT. -/
def hdrOffer (h : Nat) : Nat := bits h 40 40
/-- SEQ. -/
def hdrSeq (h : Nat) : Nat := bits h 80 32

/-- Whether an offer has timed out (R218). -/
def offerOver (beat old timeout : Nat) : Bool := decide (timeout ≤ (beat % 2 ^ 40 + 2 ^ 40 - hdrOffer old) % 2 ^ 40)

/-- Whether CLAIM permits a change of header (R217). -/
def claimLegal (old new req beat timeout : Nat) : Bool :=
  hdrSeq new == (hdrSeq old + 1) % 2 ^ 32 && bits new 112 16 == 0 &&
    (let taken := hdrNode new == req && hdrEpoch new == (hdrEpoch old + 1) % 65536 && hdrOffer new == 0
    match hdrState old, hdrState new with
    | 0, 1 => taken
    | 1, 2 => req == hdrNode old && hdrNode new == hdrNode old && hdrEpoch new == hdrEpoch old
    | 1, 0 => req == hdrNode old && hdrNode new == 0 && hdrEpoch new == hdrEpoch old && hdrOffer new == 0
    | 2, 1 => taken && (req != hdrNode old || offerOver beat old timeout)
    | _, _ => false)

/-- The header that a permitted CLAIM stores: an offer's beat is the unit's own (R216). -/
def claimStored (new beat : Nat) : Nat := if hdrState new = 2 then putBits new 40 40 beat else new

/-- An atomic on `n` bytes: what is stored is given by the value found; a poisoned target is left as it is, its found
value free (R211). -/
def State.atomic (s : State) (pa n : Nat) (store : Nat → Option Nat) : AtomRes × State :=
  let pa := pa / n * n
  if s.authFailed pa || s.poisoned pa then
    let (v, s) := s.draw
    (⟨3, BitVec.ofNat 128 (v % 2 ^ (8 * n)), false⟩, s)
  else
    let old := leNat (s.mem.getRun pa n)
    match store old with
    | none => (⟨0, BitVec.ofNat 128 old, false⟩, s.tier2Read pa n)
    | some v =>
      let s := s.tier2Write pa n
      (⟨0, BitVec.ofNat 128 old, true⟩, { s with mem := s.mem.setRun pa (leBytes n v) })

/-- SWAP (R214). -/
def State.swap (s : State) (pa : Nat) (new : Nat) : AtomRes × State := s.atomic pa 8 fun _ => some (new % 2 ^ 64)

/-- CAS (R214). -/
def State.cas (s : State) (pa cmp new : Nat) : AtomRes × State :=
  s.atomic pa 8 fun old => if old = cmp % 2 ^ 64 then some (new % 2 ^ 64) else none

/-- CLAIM (R216, R217). -/
def State.claim (s : State) (pa req cmp new : Nat) : AtomRes × State :=
  let beat := s.now
  let timeout := s.fld 0 0 Reg.DCTL_MSU_CFG.OFFER_TIMEOUT
  s.atomic pa 16 fun old =>
    if old = cmp % 2 ^ 128 && claimLegal old (new % 2 ^ 128) req beat timeout then
      some (claimStored (new % 2 ^ 128) beat) else none

/-- AOP of R130 at its unit: 0 SWAP, 1 CAS, 2 CLAIM. -/
def State.atomOp (s : State) (aop pa req cmp new : Nat) : AtomRes × State :=
  if aop = 0 then s.swap pa new else if aop = 1 then s.cas pa cmp new else s.claim pa req cmp new

/-- PCTL_MSU_STAT counts a CLAIM of a partition's cores (R219). -/
def State.claimStat (s : State) (fn cmp : Nat) (r : AtomRes) : State :=
  if r.status ≠ 0 then s
  else if r.stored then s.satAdd fn 0 Reg.PCTL_MSU_STAT.CLAIM_OK 1
  else if r.found.toNat ≠ cmp % 2 ^ 128 then s.satAdd fn 0 Reg.PCTL_MSU_STAT.CLAIM_CMP 1
  else (s.satAdd fn 0 Reg.PCTL_MSU_STAT.CLAIM_RULE 1).raise fn 0 Reg.PCTL_MSU_STAT.CLAIM_RULE_SEEN

end Sys2Proof.Machine
end

