-- ==== Sys2Proof/Machine/Flags.lean ====
section
/-! DEFINITION. Comparisons and predicates (R99, R118) and the predicate condition of a slot (R63). -/

namespace Sys2Proof.Machine

open Sys2Proof

/-- COND over two 64-bit values (R99); none for a reserved code. -/
def cond64 (c : Nat) (a b : U64) : Option Bool :=
  match c with
  | 0 => some (a == b)
  | 1 => some (a != b)
  | 2 => some (decide (a.toInt < b.toInt))
  | 3 => some (decide (b.toInt ≤ a.toInt))
  | 4 => some (decide (a.toNat < b.toNat))
  | 5 => some (decide (b.toNat ≤ a.toNat))
  | 6 => some ((a &&& b) != 0)
  | _ => none

/-- POP over two predicates (R99); none for a reserved code. -/
def pop (c : Nat) (a b : Bool) : Option Bool :=
  match c with
  | 0 => some (a && b)
  | 1 => some (a || b)
  | 2 => some (a != b)
  | 3 => some (a && !b)
  | 4 => some a
  | 5 => some (!a)
  | _ => none

/-- COND of VCMP over two lanes of an element type (R118): LTU, GEU and TST only for integers, and a NaN operand
compares false except under NE; none for a reserved code. -/
def condLane (et c : Nat) (a b : Nat) : Option Bool :=
  let x := decodeEl et a
  let y := decodeEl et b
  let nanIn := x == .nan || y == .nan
  match c with
  | 0 => some (!nanIn && x.eq y)
  | 1 => some (nanIn || !x.eq y)
  | 2 => some (!nanIn && x.lt y && !x.eq y)
  | 3 => some (!nanIn && (y.lt x || x.eq y))
  | 4 => if fmtFloat et then none else some (decide (a < b))
  | 5 => if fmtFloat et then none else some (decide (b ≤ a))
  | 6 => if fmtFloat et then none else some (a &&& b != 0)
  | 7 => some (!nanIn && (x.lt y || x.eq y))
  | 8 => some (!nanIn && y.lt x && !x.eq y)
  | _ => none

/-- A predicate register: p0 always reads true (R63, R66). -/
def readP (p : BitVec 8) (i : Nat) : Bool := i == 0 || bitOf p.toNat i

/-- A predicate register written: a write to p0 is discarded (R66, R99). -/
def writeP (p : BitVec 8) (i : Nat) (b : Bool) : BitVec 8 :=
  if i = 0 then p else BitVec.ofNat 8 (putBits p.toNat i 1 (if b then 1 else 0))

end Sys2Proof.Machine
end

