-- ==== Sys2Proof/Machine/Operands.lean ====
section
/-! DEFINITION. Slot fields (R63), registers (R66, R93), tile descriptors (R67 to R69) and the core store (R40). -/

namespace Sys2Proof.Machine

open Sys2Proof

/-! ## Slot fields -/

/-- Bits [hi:lo] of a slot word. -/
def opf (f : BitVec 54) (hi lo : Nat) : Nat := bits f.toNat lo (hi - lo + 1)
/-- ENG, [53:52]. -/
def sEng (f : BitVec 54) : Nat := opf f 53 52
/-- PRED, [51:49]. -/
def sPred (f : BitVec 54) : Nat := opf f 51 49
/-- PNEG, [48]. -/
def sPneg (f : BitVec 54) : Bool := bitOf f.toNat 48
/-- MOD, [47:44]. -/
def sMod (f : BitVec 54) : Nat := opf f 47 44

/-- Whether a slot's predicate condition holds (R63). -/
def predHolds (p : BitVec 8) (f : BitVec 54) : Bool := readP p (sPred f) != sPneg f

/-! ## Registers -/

/-- A core with no work and zero state: every descriptor invalid, p0 true (R70). -/
def CoreState.idle : CoreState :=
  { s := [], a := [], p := 1, loops := [], td := [], acc := [], v := [], gen := [], store := [], pc := 0
    seq := 0, engq := [], moves := [], sigs := [], hold := .free }

/-- A logical core at release. -/
def Core.idle : Core :=
  { cur := CoreState.idle, bundle := none, launch := none, index := 0, half := 0, len := 0, running := false
    stopped := false, firstEnd := false, blockBeat := 0, lateRun := 0, lateDue := false, late := false, preload := none
    issuedBeat := false, engBeat := 0, degBeat := false, left := none, oldSlots := [] }

/-- A logical core. -/
def State.core (s : State) (n : Nat) : Core := s.cores.get Core.idle n

/-- A logical core, set. -/
def State.setCore (s : State) (n : Nat) (c : Core) : State := { s with cores := s.cores.set Core.idle n c }

/-- A scalar register: s0 reads zero (R66). -/
def CoreState.rs (c : CoreState) (i : Nat) : U64 := if i = 0 then 0 else c.s.get 0 i

/-- A scalar register written: a write to s0 is discarded (R66, R98). -/
def CoreState.ws (c : CoreState) (i : Nat) (v : U64) : CoreState :=
  if i = 0 then c else { c with s := c.s.set 0 i v }

/-- An address register. -/
def CoreState.ra (c : CoreState) (i : Nat) : U64 := c.a.get 0 i

/-- An address register written: it keeps all 64 bits (R98). -/
def CoreState.wa (c : CoreState) (i : Nat) (v : U64) : CoreState := { c with a := c.a.set 0 i v }

/-- A tile descriptor. -/
def CoreState.tdv (c : CoreState) (i : Nat) : BitVec 128 := c.td.get 0 i

/-- Destinations of one bundle, numbered so that no two kinds meet: scalar, address, predicate, descriptor, loop
counter, vector register of an engine, accumulator bank of an engine (R65). -/
def dS (i : Nat) : Nat := i
/-- Address register as a destination. -/
def dA (i : Nat) : Nat := 100 + i
/-- Predicate as a destination. -/
def dP (i : Nat) : Nat := 200 + i
/-- Tile descriptor as a destination. -/
def dT (i : Nat) : Nat := 300 + i
/-- Loop counter as a destination. -/
def dL (i : Nat) : Nat := 400 + i

/-! ## Tile descriptors (R67, R68) -/

/-- SCALE_BASE. -/
def tdScale (d : BitVec 128) : Nat := bits d.toNat 107 21
/-- FORMAT. -/
def tdFmt (d : BitVec 128) : Nat := bits d.toNat 100 4
/-- STRIDE, in 32-byte units. -/
def tdStride (d : BitVec 128) : Nat := bits d.toNat 84 16
/-- ROWS. -/
def tdRows (d : BitVec 128) : Nat := bits d.toNat 71 13
/-- COLS. -/
def tdCols (d : BitVec 128) : Nat := bits d.toNat 57 14
/-- BASE. -/
def tdBase (d : BitVec 128) : Nat := bits d.toNat 0 21

/-- Bytes of one row: COLS elements rounded up to whole bytes (R125, R135). -/
def rowBytes (d : BitVec 128) : Nat := ceilDiv (tdCols d * fmtBits (tdFmt d)) 8

/-- The first offset past the data and staging regions (R40). -/
def storeEnd : Nat := 0x1F0000

/-- The first offset of the staging region (R40). -/
def stagingAt : Nat := 0x1B0000

/-- The offset past a tile's last byte. -/
def tileEnd (d : BitVec 128) : Nat := tdBase d + (tdRows d - 1) * (32 * tdStride d) + rowBytes d

/-- The offset past a tile's last scale byte (R67). -/
def scalesEnd (d : BitVec 128) : Nat := tdScale d + tdRows d * ceilDiv (tdCols d) 32

/-- Whether a tile, or the scales of an MX tile, has a byte in the 8 bytes that hold an offset. -/
def tileTouches (d : BitVec 128) (a : Nat) : Bool :=
  let u := a / 8 * 8
  let k := (u - tdBase d) / (32 * tdStride d)
  decide (tdBase d ≤ u) && decide (k < tdRows d) && decide ((u - tdBase d) % (32 * tdStride d) < rowBytes d)
    || fmtMx (tdFmt d) && decide (tdScale d < u + 8) && decide (u < scalesEnd d)

/-- Whether a descriptor is valid under R67 and R69, formats apart: no field breaks R67 and its format is defined. SCALE_BASE
is checked for MX formats alone, which alone have scales: DESIGN CHOICE, log 120. -/
def tdOk (d : BitVec 128) : Bool :=
  tdRows d != 0 && tdCols d != 0 && tdStride d != 0 && bits d.toNat 104 3 == 0 && bits d.toNat 21 36 == 0
    && tdBase d % 32 == 0 && decide (tdFmt d ≤ 0xD) && decide (rowBytes d ≤ 32 * tdStride d)
    && decide (tileEnd d ≤ storeEnd)
    && (!fmtMx (tdFmt d) || tdScale d % 64 == 0 && decide (scalesEnd d ≤ storeEnd))

/-- The code of element (r, c) of a tile in the core store; beyond ROWS or COLS it reads zero (R112, R135). -/
def tileEl (st : Tab Byte) (d : BitVec 128) (r c : Nat) : Nat :=
  if r < tdRows d ∧ c < tdCols d then
    let row := tdBase d + r * (32 * tdStride d)
    let w := fmtBits (tdFmt d)
    if w = 6 then bits (leNat (st.getRun (row + c / 4 * 3) 3)) (6 * (c % 4)) 6
    else if w = 4 then bits (st.get 0 (row + c / 2)).toNat (4 * (c % 2)) 4
    else leNat (st.getRun (row + c * (w / 8)) (w / 8))
  else 0

/-- The scale byte of element (r, c) of a tile (R67); beyond ROWS or COLS it reads zero (R112). -/
def tileScale (st : Tab Byte) (d : BitVec 128) (r c : Nat) : Nat :=
  if r < tdRows d ∧ c < tdCols d then (st.get 0 (tdScale d + r * ceilDiv (tdCols d) 32 + c / 32)).toNat else 0

/-- The exact value of element (r, c) of a tile, its block scale included (R112, R134). -/
def tileVal (st : Tab Byte) (d : BitVec 128) (r c : Nat) : FV :=
  let x := decodeEl (tdFmt d) (tileEl st d r c)
  if fmtMx (tdFmt d) then x.mul (decodeScale (tileScale st d r c)) else x

/-! ## Exceptions (R87 to R91) -/

/-- An exception with nothing named but its kind. -/
def excOf (kind : Nat) : ExcSrc := { kind := kind, slot := 0, eng := 0, tag := 0, td := 0, qpos := 0, va := 0 }

/-- The command status of an exception KIND (R90). -/
def kindStatus (k : Nat) : Nat :=
  match k with
  | 0x1 => 0x19 | 0x2 => 0x19 | 0x3 => 0x13 | 0x4 => 0x13 | 0x5 => 0x11 | 0x6 => 0x12 | 0x7 => 0x13
  | 0x8 => 0x14 | 0x9 => 0x19 | 0xA => 0x1A | 0xB => 0x18 | _ => 0x19

/-- The exception record of a core (R87 to R91): the first is held, and further ones are counted in MORE. -/
def State.recordExc (s : State) (n : Nat) (precise : Bool) (bundle : Nat) (e : ExcSrc) : State :=
  if s.fld 0 n Reg.PCTL_CORE_EXC0.VALID = 1 then s.satAdd 0 n Reg.PCTL_CORE_EXC0.MORE 1
  else
    let w := 2 ^ 63 + (e.kind % 16) * 2 ^ 59 + (if precise then 2 ^ 58 else 0) + (e.slot % 4) * 2 ^ 56
      + (e.eng % 4) * 2 ^ 54 + (e.tag % 64) * 2 ^ 48 + (e.td % 32) * 2 ^ 43 + (e.qpos % 8) * 2 ^ 40
      + (bundle % 2048) * 2 ^ 16 + s.now % 65536
    (s.wr 0 (0x18000 + 16 * n) (BitVec.ofNat 64 w)).wr 0 (0x18008 + 16 * n) (BitVec.ofNat 64 (e.va % 2 ^ 56))

/-- A launch by its number. -/
def State.launch? (s : State) (id : Nat) : Option Launch := s.launches.find? (·.id == id)

/-- A launch changed in place. -/
def State.updLaunch (s : State) (id : Nat) (f : Launch → Launch) : State :=
  { s with launches := s.launches.map fun l => if l.id == id then f l else l }

/-- A launch ends and its command completes (R347): DONE or DONE_DEGRADED (R153), or the status of the first failure, after
which its cores run on until an edge tears them down under FAULT_POLICY. -/
def State.finishLaunch (s : State) (l : Launch) (status detail : Nat) (policy : Bool) : State :=
  if l.phase = 7 then s
  else
    let s := if status ≤ 1 then { s with launches := s.launches.filter fun x => x.id != l.id }
      else s.updLaunch l.id fun x => { x with phase := 7 }
    s.finish l.fn l.q l.sq l.g status detail policy

/-- The partition's launch on a core fails with an exception (R88, R90, R347, R422): UCE-C is logged for an imprecise fault,
by translation for KINDs 0x6 and 0x7, and the command completes with the status of the first exception, under FAULT_POLICY. -/
def State.failLaunch (s : State) (n : Nat) (status kind unit va tag : Nat) (logIt : Bool) : State :=
  match (s.core n).launch.bind s.launch? with
  | none => s
  | some l =>
    let ctx := l.ctx
    let s := if logIt then s.logErr { ErrRec.of 1 (if kind = 6 ∨ kind = 7 then 0x09 else 0x02) with
        status := status, cause := kind, unit := unit, addr := va, isVa := true, tag := tag, cmdSeq := l.sq
        queue := l.q, ctx := some ctx, part := if l.fn = 0 then none else some (l.fn - 1) } else s
    s.finishLaunch l status n true

/-- Exceptions of one bundle are recorded in order: the first is held, and MORE counts the rest (R91). -/
def State.recordAll (s : State) (n bundle : Nat) (es : List ExcSrc) : State :=
  es.foldl (fun s e => s.recordExc n true bundle e) s

/-- Precise exceptions of one bundle of a core, the one that is recorded first (R87, R91): the bundle has left no effect, no
later bundle issues, and the launch fails. Translation faults and lost data are logged (R237, R422). -/
def State.preciseAt (s : State) (n bundle : Nat) (e : ExcSrc) (es : List ExcSrc) : State :=
  let s := s.setCore n { s.core n with bundle := none, stopped := true }
  (s.recordAll n bundle (e :: es)).failLaunch n (kindStatus e.kind) e.kind (unitCore n) e.va e.tag (decide (6 ≤ e.kind))

/-- Precise exceptions of the bundle that a core would issue. -/
def State.preciseExc (s : State) (n : Nat) (e : ExcSrc) (es : List ExcSrc) : State :=
  s.preciseAt n (s.core n).cur.pc e es

end Sys2Proof.Machine
end

