-- ==== Sys2Proof/Machine/Issue.lean ====
section
/-! DEFINITION. Issue of a bundle slot by slot (R62 to R65, R87, R94, log 8), the scoreboard (R73), loops (R102), and
what a core does of itself once an instruction has issued or completed (R75, R77, R82). -/

namespace Sys2Proof.Machine

open Sys2Proof

/-! ## Scoreboard -/

/-- Whether an instruction that reads and writes the given descriptors must wait for an earlier one (R73). -/
def hazard (rd wr ord owr : List Nat) : Bool :=
  rd.any owr.contains || wr.any ord.contains || wr.any owr.contains

/-- Whether an engine instruction may start: it heads its queue and no earlier instruction conflicts (R73). -/
def CoreState.engReady (c : CoreState) (o : EngOp) : Bool :=
  (c.engq.all fun p => !(p.eng == o.eng && decide (p.seq < o.seq)))
    && (c.engq.all fun p => !(decide (p.seq < o.seq) && hazard o.rd o.wr p.rd p.wr))
    && (c.moves.all fun p => !(decide (p.seq < o.seq) && hazard o.rd o.wr p.rd p.wr))

/-- Whether a move that sends in windows has cells left: its requests are not listed yet, or one for that port is unsent. -/
def MoveOp.unspent (m : MoveOp) : Bool :=
  m.started && m.inSlot.isSome && (!m.made || m.reqs.any fun r => !r.sent && some (r.ports.getD 0 0) == m.inSlot)

/-- Whether a move may start, schedule slots apart: it is the first of its engine that has not started, an earlier one between
two windows holds its place before it, FENCE waits for every earlier move of the engine, and no earlier instruction conflicts
(R72, R73, R289). -/
def CoreState.moveReady (c : CoreState) (o : MoveOp) : Bool :=
  (c.moves.all fun p => !(p.eng == o.eng && decide (p.seq < o.seq) && (!p.started || p.unspent || o.fence)))
    && (c.engq.all fun p => !(decide (p.seq < o.seq) && hazard o.rd o.wr p.rd p.wr))
    && (c.moves.all fun p => !(decide (p.seq < o.seq) && hazard o.rd o.wr p.rd p.wr))

/-- Instructions queued on a matrix or vector engine. The one that executes keeps its entry until it completes: DESIGN CHOICE,
log 116. -/
def CoreState.engDepth (c : CoreState) (e : Nat) : Nat := (c.engq.filter (·.eng == e)).length

/-- Descriptors queued on a move engine and not started. -/
def CoreState.moveDepth (c : CoreState) (e : Nat) : Nat := (c.moves.filter fun m => m.eng == e && !m.started).length

/-- Whether a move tag is busy (R71). -/
def CoreState.tagBusy (c : CoreState) (t : Nat) : Bool := c.moves.any (·.tag == t)

/-- Whether an earlier VEXT has still to write one of these scalar registers (R65, R119). -/
def CoreState.pendingReg (c : CoreState) (rs : List Nat) : Bool :=
  c.engq.any fun o => match o.dst with
    | some d => rs.contains d
    | none => false

/-- Whether an engine of ENG.WAIT's mask has work: 0 to 5 matrix and vector engines, 6 and 7 move engines (R106). -/
def CoreState.engBusy (c : CoreState) (e : Nat) : Bool :=
  if e < 6 then c.engq.any (·.eng == e) else c.moves.any fun m => m.eng + 6 == e

/-- Whether a core's hold lets the next bundle issue (R72, R74, R83). -/
def CoreState.holdOver (c : CoreState) : Bool :=
  match c.hold with
  | .free => true
  | .tags m => c.moves.all fun o => !bitOf m.toNat o.tag
  | .engines m => (List.range 8).all fun e => !(bitOf m e && c.engBusy e)
  | .latch _ _ _ => false
  | .beatEnd => false
  | .ended => false

/-! ## What follows of itself -/

/-- Whether degradation applies to an MMA of a launch that starts now (R151, R152). -/
def State.degrades (s : State) (c : Core) (o : EngOp) : Bool :=
  match c.launch.bind s.launch? with
  | none => false
  | some l => (s.pow.deg.getD []).contains l.id && o.op == 1 && decide (o.eng < 4)
      && o.tds.any fun d => tdFmt d.2 == 1 || tdFmt d.2 == 2

/-- Engine instructions that may start do so; one that starts degraded marks its launch and the beat (R152, R153). -/
def State.startEngines (s : State) (n : Nat) : State :=
  let c := s.core n
  let go (o : EngOp) : EngOp :=
    if !o.started && c.cur.engReady o then { o with started := true, degraded := s.degrades c o } else o
  let q := c.cur.engq.map go
  let deg := (c.cur.engq.zip q).any fun x => !x.1.started && x.2.degraded
  let s := s.setCore n { c with cur := { c.cur with engq := q }, degBeat := c.degBeat || deg }
  match deg, c.launch with
  | true, some id => s.updLaunch id fun l => { l with degraded := true }
  | _, _ => s

/-- Whether every move in a posted signal's scope that was issued before it has completed (R82). -/
def CoreState.sigReady (c : CoreState) (g : PostedSig) : Bool :=
  g.scope == 0 || c.moves.all fun m =>
    !(decide (m.seq < g.seq) && (g.scope == 3 || m.eng + 1 == g.scope))

/-- The function and context of the launch that a core holds. -/
def State.shareOn (s : State) (n : Nat) : Option (Nat × Nat) :=
  ((s.core n).launch.bind s.launch?).map fun l => (l.fn, l.ctx)

/-- The class and function of the context that a core runs. -/
def State.coreFn (s : State) (n : Nat) : Nat × Nat × Bool :=
  match (s.core n).launch.bind s.launch? with
  | some l => (l.fn, l.ctx, l.lc)
  | none => (0, 0, false)

/-- The current epoch of the partition that a core works for (R307). -/
def State.coreEpoch (s : State) (n : Nat) : Nat := s.fld 0 ((s.coreFn n).1 - 1) Reg.DCTL_COMP_PART0.CUR_EPOCH

/-- One posted signal is sent (R82, R84). -/
def State.sendPosted (s : State) (n : Nat) (g : PostedSig) : State :=
  let (fn, _, lc) := s.coreFn n
  if g.remote then (s.sendSignal fn g.member g.latch g.val lc 0 0 0 none).2 else (s.signal fn g.latch g.val).2

/-- Posted signals whose scope has completed are sent (R82). -/
def State.sendSigs (s : State) (n : Nat) : State :=
  let c := s.core n
  let go := c.cur.sigs.filter c.cur.sigReady
  let c' := { c with cur := { c.cur with sigs := c.cur.sigs.filter fun g => !c.cur.sigReady g } }
  go.foldl (fun s g => s.sendPosted n g) (s.setCore n c')

/-- Whether a MOVE_CORE carries a core to another physical core: it starts no block meanwhile (R314). -/
def State.movingCore (s : State) (n : Nat) : Bool := s.changes.any fun x => x.c.op == 3 && x.phase == 1 && x.c.core == n

/-- Whether a core is at BEAT.END or END (R75, R77). -/
def Core.atEnd (c : Core) : Bool :=
  match c.cur.hold with
  | .beatEnd => c.cur.engq.isEmpty
  | .ended => c.cur.engq.isEmpty
  | _ => false

/-- Whether a core's END has retired (R77). -/
def Core.endDone (c : Core) : Bool :=
  match c.cur.hold with
  | .ended => c.cur.engq.isEmpty && c.cur.moves.isEmpty && c.cur.sigs.isEmpty
  | _ => false

/-- A core's share of its launch completes when END retires; the launch is due to complete when every share has (R77,
R347). -/
def State.retireEnd (s : State) (n : Nat) : State :=
  let c := s.core n
  if c.running && c.endDone then
    match c.launch.bind s.launch? with
    | none => s
    | some l =>
      let s := s.setCore n { c with running := false, launch := none, late := false, left := some (l.fn, l.ctx) }
      let l' := { l with ended := l.ended ++ [n] }
      s.updLaunch l.id fun _ => if l.cores.all l'.ended.contains && l.phase != 7 then { l' with phase := 6 } else l'
  else s

/-- BEAT.END retires (R75): the first one of a launch ends its use of the staging region (R79, R80). -/
def State.retireBeatEnd (s : State) (n : Nat) : State :=
  let c := s.core n
  if c.running && c.atEnd && !c.firstEnd then s.setCore n { c with firstEnd := true } else s

/-- An engine of a core advances (R427): 0 to 5 matrix and vector engines, 6 and 7 move engines. -/
def State.advanced (s : State) (n e : Nat) : State :=
  s.setCore n { s.core n with engBeat := (s.core n).engBeat ||| 2 ^ e }

/-- What follows of itself on a core after an issue or a completion. -/
def State.pump (s : State) (n : Nat) : State :=
  (((s.startEngines n).sendSigs n).retireBeatEnd n).retireEnd n

/-! ## Issue -/

/-- What a slot asks of issue: its class (0 S, 1 M, 2 V, 3 X), whether its word breaks no rule of R62, R93 and R94, the
scalar registers it reads or writes, its destinations, and whether its predicate is ignored (R103). -/
structure SlotReq where
  cls : Nat
  ok : Bool
  regs : List Nat
  dests : List Nat
  always : Bool
  deriving DecidableEq, Repr

/-- Loops after a taken branch to a bundle: a loop whose body does not hold it ends, with those inside (R102). -/
def loopsAt (t : Nat) (ls : List LoopFrame) : List LoopFrame :=
  ls.dropWhile fun l => !(decide (l.first ≤ t) && decide (t ≤ l.last))

/-- The loop-end step at the bundle just issued: the next bundle and the loops left (R102). -/
def loopStep (pc : Nat) : List LoopFrame → Nat × List LoopFrame
  | [] => (pc + 1, [])
  | l :: ls =>
    if l.last = pc then
      if l.iter + 1 < l.count then (l.first, { l with iter := l.iter + 1 } :: ls) else loopStep pc ls
    else (pc + 1, l :: ls)

/-- The bundle closes: the next bundle index and the loops. -/
def CoreState.advance (c : CoreState) (branch : Option Nat) : CoreState :=
  match branch with
  | some t => { c with pc := t, loops := loopsAt t c.loops }
  | none =>
    let (pc, ls) := loopStep c.pc c.loops
    { c with pc := pc, loops := ls }

/-- What running one slot gives: the core state, and the target of a taken branch. -/
abbrev SlotRun := Except ExcSrc (CoreState × Option Nat)

/-- The open bundle of a core, or one about to begin. -/
def Core.open (c : Core) : OpenBundle :=
  match c.bundle with
  | some b => b
  | none =>
    { base := c.cur, work := { c.cur with hold := .free }, slots := 0, dests := [], branch := none, wait := false, faults := [] }

/-- Whether a core can take a slot of a class: it runs a block, has not stopped, nothing holds it, and the open bundle
has no slot of that class yet. -/
def Core.takes (c : Core) (cls : Nat) : Bool :=
  c.running && !c.stopped && c.open.base.holdOver && !bitOf c.open.slots cls

/-- A bundle's faults in the order in which R91 records them: slots S, M, V, X. -/
def OpenBundle.inOrder (b : OpenBundle) : List ExcSrc :=
  (List.range 4).flatMap fun k => b.faults.filter fun e => e.slot == k

/-- A bundle is complete: it issues whole, with the effect `after` on the package, and the sequencer advances; or it does not
issue, since a slot waits or the core has changed meanwhile, and is to be given again; or its faults are taken (R64, R87,
log 8). -/
def State.closeBundle (s : State) (n : Nat) (b : OpenBundle) (after : State → State) : State :=
  let c := s.core n
  if b.wait || c.cur != b.base then s.setCore n { c with bundle := none }
  else match b.inOrder with
    | e :: es => s.preciseExc n e es
    | [] => ((after s).setCore n { c with cur := b.work.advance b.branch, bundle := none, issuedBeat := true }).pump n

/-- A slot has been taken into its bundle: the bundle stays open where a further slot follows, and an S slot or the last slot
completes it. -/
def State.slotIn (s : State) (x : Slot) (cls : Nat) (b : OpenBundle) (after : State → State) : State :=
  if x.more && cls != 0 then s.setCore x.core { s.core x.core with bundle := some b } else s.closeBundle x.core b after

/-- A fault that a slot of a class finds. -/
def OpenBundle.fault (b : OpenBundle) (x : Slot) (cls : Nat) (e : ExcSrc) : OpenBundle :=
  { b with faults := b.faults ++ [{ e with slot := cls, eng := sEng x.f }] }

/-- Whether a slot is a NOP in every respect (R63, R103): its OPCODE is NOP, or its predicate condition fails; an instruction
whose PRED and PNEG are reserved is never predicated off. -/
def slotNop (x : Slot) (always : Bool) (p : BitVec 8) : Bool :=
  x.op == .nop || !(always && x.op == .row || predHolds p x.f)

/-- What one slot makes of its open bundle (R64, R65, R87, R94), where it is no NOP: a fault of KIND 0x1 for a reserved
opcode, a bad word or a destination named twice; a wait where registers, queues or tags are not ready; otherwise its effect,
or a fault of its own. -/
def OpenBundle.take (b : OpenBundle) (x : Slot) (q : SlotReq) (ready : CoreState → Bool)
    (run : CoreState → CoreState → SlotRun) : OpenBundle :=
  let b := { b with slots := b.slots + 2 ^ q.cls }
  if x.op == .reserved || !q.ok || q.dests.any b.dests.contains then b.fault x q.cls (excOf 1)
  else if b.base.pendingReg q.regs || !ready b.base then { b with wait := true }
  else match run b.base b.work with
    | .error e => b.fault x q.cls e
    | .ok (cur, br) =>
      { b with work := cur, dests := b.dests ++ q.dests, branch := if br.isSome then br else b.branch }

/-- Issue of one slot: nothing where the core cannot take it; a precise exception of KIND 0x1 past the last bundle (R101);
otherwise it joins its bundle. `after` is what the instruction does beside its core when the bundle issues. -/
def State.issueWith (s : State) (x : Slot) (q : SlotReq) (ready : CoreState → Bool)
    (run : CoreState → CoreState → SlotRun) (after : State → State) : State :=
  let c := s.core x.core
  let b := c.open
  if !c.takes q.cls then s
  else if c.len ≤ b.base.pc then s.preciseAt x.core (c.len - 1) (excOf 1) []
  else if slotNop x q.always b.base.p then s.slotIn x q.cls b id
  else s.slotIn x q.cls (b.take x q ready run) after

/-- Issue of a slot that acts on its core alone. -/
def State.issue (s : State) (x : Slot) (q : SlotReq) (ready : CoreState → Bool)
    (run : CoreState → CoreState → SlotRun) : State := s.issueWith x q ready run id

/-- Nothing to wait for. -/
def readyAlways (_ : CoreState) : Bool := true

end Sys2Proof.Machine
end

