-- ==== Sys2Proof/Machine/MoveIssue.lean ====
section
/-! DEFINITION. Issue of the X slot (R123 to R131): the checks of each move instruction, and the bytes that a move moves. -/

namespace Sys2Proof.Machine

open Sys2Proof

/-! ## Fields and checks -/

/-- TAG, [43:38]. -/
def xTag (f : BitVec 54) : Nat := opf f 43 38
/-- Tile of MOVE, MOVE.ADD, GATHER and SCATTER, [37:33]. -/
def xTd (f : BitVec 54) : Nat := opf f 37 33
/-- AREG of MOVE, [32:29]. -/
def xAreg (f : BitVec 54) : Nat := opf f 32 29
/-- PITCH, [28:23]. -/
def xPitch (f : BitVec 54) : Nat := opf f 28 23
/-- DIR of MOVE, [22]: out of the tile. -/
def xOut (f : BitVec 54) : Bool := bitOf f.toNat 22
/-- EFMT, [15:13]. -/
def xEfmt (f : BitVec 54) : Nat := opf f 15 13

/-- The offset past the last byte that a core-store range may hold (R80, R124): the staging region is closed after the
first BEAT.END. -/
def Core.storeLimit (c : Core) : Nat := if c.firstEnd then stagingAt else storeEnd

/-- Whether a tag lies in its engine's range (R66, R94), and the slot's ENG bit [53] is zero (R62). -/
def xTagOk (f : BitVec 54) : Bool := decide (sEng f ≤ 1) && xTag f / 32 == sEng f

/-- An X-slot request. -/
def xReq (f : BitVec 54) (ok : Bool) (regs : List Nat) : SlotReq :=
  { cls := 3, ok := ok && xTagOk f, regs := regs, dests := [], always := false }

/-- Room in the named engine's descriptor queue of 32 entries, and a free tag (R64). -/
def xReady (f : BitVec 54) (c : CoreState) : Bool := decide (c.moveDepth (sEng f) < 32) && !c.tagBusy (xTag f)

/-- A move with nothing done. -/
def moveOf (base cur : CoreState) (op : Nat) (f : BitVec 54) (beat : Nat) : MoveOp :=
  { seq := cur.seq, bundle := base.pc, eng := sEng f, tag := xTag f, op := op, f := f, tds := [], vals := [], mdr := []
    rd := [], wr := [], fence := bitOf f.toNat 47, sched := bitOf f.toNat 46, issued := beat, started := false
    made := false, inSlot := none, epoch := 0, fid := none, reqs := [], buf := [], list := [], vers := [], farAt := [], srcAt := 0, outAt := 0
    leaves := [], hosts := [], routes := [], badAt := [], applied := false }

/-- A move joins its engine's queue. -/
def CoreState.enqueueMove (c : CoreState) (m : MoveOp) : CoreState :=
  { c with moves := c.moves ++ [m], seq := c.seq + 1 }

/-- Whether a tile, and for an MX tile its scales, lies below a limit (R124). -/
def tileBelow (d : BitVec 128) (scales : Bool) (lim : Nat) : Bool :=
  decide (tileEnd d ≤ lim) && (!scales || decide (scalesEnd d ≤ lim))

/-- Whether a module has a sieve (R170), and floating-point adders (R2). -/
def State.hasSieve (s : State) : Bool := s.fld 0 0 Reg.IDC_CAP1.SIEVE == 1

/-- Whether an EFMT is defined and its adders are present (R129). -/
def efmtOk (e : Nat) (fp : Bool) : Bool := decide (e ≤ 1) || (decide (e ≤ 5) && fp)

/-- Bytes of an EFMT element. -/
def efmtSize (e : Nat) : Nat := if e = 1 then 8 else if e = 0 ∨ e = 2 then 4 else if e = 3 then 2 else 1

/-! ## MOVE and MOVE.ADD, MAX, MIN (R125, R129) -/

/-- MOVE (R125). Opcode 1. -/
def execMove (x : Slot) (s : State) : Host.Outcome State Fault Refusal :=
  let f := x.f
  let sv := bitOf f.toNat 45
  let ok := bitOf f.toNat 44 == false && opf f 21 0 == 0 && !(sv && (xOut f || xPitch f != 0 || !s.hasSieve))
  let lim := (s.core x.core).storeLimit
  .next (s.issue x (xReq f ok [xPitch f]) (xReady f) fun base cur =>
    let d := base.tdv (xTd f)
    if !tdOk d then .error { excOf 1 with td := xTd f, tag := xTag f }
    else if !tileBelow d (fmtMx (tdFmt d) && !sv) lim then .error { excOf 3 with td := xTd f, tag := xTag f }
    else .ok (cur.enqueueMove { moveOf base cur 1 f s.tick with
      tds := [(xTd f, d)], vals := [base.ra (xAreg f), base.rs (xPitch f)]
      rd := if xOut f then [xTd f] else [], wr := if xOut f then [] else [xTd f] }, none))

/-- MOVE.ADD, MOVE.MAX and MOVE.MIN (R129): `k` is the MOD[45:44] of the instruction. Opcode 5. -/
def State.moveArith (s : State) (x : Slot) (k : Nat) : State :=
  let f := x.f
  let fp := s.fld 0 0 Reg.IDC_CAP1.FP_ADD == 1
  let ok := opf f 45 44 == k && opf f 22 16 == 0 && opf f 12 0 == 0 && efmtOk (xEfmt f) fp
  let lim := (s.core x.core).storeLimit
  s.issue x (xReq f ok [xPitch f]) (xReady f) fun base cur =>
    let d := base.tdv (xTd f)
    if !tdOk d || tdRows d * rowBytes d % efmtSize (xEfmt f) != 0 then
      .error { excOf 1 with td := xTd f, tag := xTag f }
    else if !tileBelow d false lim then .error { excOf 3 with td := xTd f, tag := xTag f }
    else .ok (cur.enqueueMove { moveOf base cur 5 f s.tick with
      tds := [(xTd f, d)], vals := [base.ra (xAreg f), base.rs (xPitch f)], rd := [xTd f] }, none)

/-- MOVE.ADD (R129). -/
def execMoveAdd (x : Slot) (s : State) : Host.Outcome State Fault Refusal := .next (s.moveArith x 0)
/-- MOVE.MAX (R129). -/
def execMoveMax (x : Slot) (s : State) : Host.Outcome State Fault Refusal := .next (s.moveArith x 1)
/-- MOVE.MIN (R129). -/
def execMoveMin (x : Slot) (s : State) : Host.Outcome State Fault Refusal := .next (s.moveArith x 2)

/-! ## MOVE.D (R126, R127) -/

/-- Word `w` of a move descriptor record. -/
def mdrWord (r : List Byte) (w : Nat) : Nat := leField r (8 * w) 8
/-- SSPACE: the source is the core store. -/
def mdrSrcCore (r : List Byte) : Bool := bitOf (mdrWord r 0) 63
/-- DSPACE: the destination is the core store. -/
def mdrDstCore (r : List Byte) : Bool := bitOf (mdrWord r 1) 63
/-- D0, bytes per run. -/
def mdrD0 (r : List Byte) : Nat := bits (mdrWord r 2) 32 32
/-- Counts of dimensions 1 to 3, with their source and destination strides. -/
def mdrDims (r : List Byte) : List (Nat × Int × Int) :=
  [(bits (mdrWord r 2) 16 16, signed (bits (mdrWord r 4) 32 32) 32, signed (bits (mdrWord r 6) 32 32) 32),
   (bits (mdrWord r 2) 0 16, signed (bits (mdrWord r 4) 0 32) 32, signed (bits (mdrWord r 6) 0 32) 32),
   (bits (mdrWord r 3) 48 16, signed (bits (mdrWord r 3) 0 48) 48, signed (bits (mdrWord r 5) 0 48) 48)]
/-- SIEVE of word 7. -/
def mdrSieve (r : List Byte) : Bool := bitOf (mdrWord r 7) 63
/-- OP of word 7: 0 copy, 1 add, 2 max, 3 min. -/
def mdrOp (r : List Byte) : Nat := bits (mdrWord r 7) 58 2
/-- EFMT of word 7. -/
def mdrEfmt (r : List Byte) : Nat := bits (mdrWord r 7) 55 3

/-- Whether a record is valid (R127). -/
def mdrOk (r : List Byte) (sieve fp : Bool) : Bool :=
  mdrD0 r != 0 && (mdrDims r).all (fun d => d.1 != 0)
    && bits (mdrWord r 0) 56 7 == 0 && bits (mdrWord r 1) 56 7 == 0 && bits (mdrWord r 5) 48 16 == 0
    && bits (mdrWord r 7) 60 3 == 0 && bits (mdrWord r 7) 0 55 == 0
    && !(mdrOp r != 0 && (mdrDstCore r || mdrSieve r || !efmtOk (mdrEfmt r) fp
        || mdrD0 r % efmtSize (mdrEfmt r) != 0))
    && !(mdrSieve r && (!mdrDstCore r || !sieve))

/-- Whether a core-store side keeps the alignment of R124 and R127. -/
def mdrAligned (base : Nat) (dims : List (Nat × Int)) : Bool :=
  base % 32 == 0 && dims.all fun d => decide (d.1 ≤ 1) || d.2 % 32 == 0

/-- The extent that a shape reaches from its base: the lowest offset, and the offset past the highest. -/
def mdrExtent (base d0 : Nat) (dims : List (Nat × Int)) : Int × Int :=
  dims.foldl (fun e d => let k := ((d.1 : Int) - 1) * d.2; (e.1 + min 0 k, e.2 + max 0 k)) ((base : Int), (base + d0 : Int))

/-- Whether an extent lies in the core-store ranges open to moves. -/
def extentOk (e : Int × Int) (lim : Nat) : Bool := decide (0 ≤ e.1) && decide (e.2 ≤ (lim : Int))

/-- The check of one core-store side of MOVE.D: the KIND of its fault, if any. -/
def mdrSide (isCore : Bool) (base d0 : Nat) (dims : List (Nat × Int)) (lim : Nat) : Option Nat :=
  if !isCore then none
  else if !mdrAligned base dims then some 2
  else if !extentOk (mdrExtent base d0 dims) lim then some 3
  else none

/-- MOVE.D (R126, R127). Opcode 2. -/
def execMoveD (x : Slot) (s : State) : Host.Outcome State Fault Refusal :=
  let f := x.f
  let c := s.core x.core
  let lim := c.storeLimit
  let fp := s.fld 0 0 Reg.IDC_CAP1.FP_ADD == 1
  .next (s.issue x (xReq f (opf f 45 44 == 0 && opf f 33 0 == 0) []) (xReady f) fun base cur =>
    let o := (base.ra (opf f 37 34)).toNat
    let e (k : Nat) : SlotRun := .error { excOf k with tag := xTag f, va := o }
    if o % 64 ≠ 0 then e 2
    else if lim < o + 64 then e 3
    else
      let r := base.store.getRun o 64
      let src := bits (mdrWord r 0) 0 56
      let dst := bits (mdrWord r 1) 0 56
      if !mdrOk r s.hasSieve fp then e 1
      else match mdrSide (mdrSrcCore r) src (mdrD0 r) ((mdrDims r).map fun d => (d.1, d.2.1)) lim,
          mdrSide (mdrDstCore r) dst (mdrD0 r) ((mdrDims r).map fun d => (d.1, d.2.2)) lim with
        | some 2, _ => e 2
        | _, some 2 => e 2
        | some k, _ => e k
        | none, some k => e k
        | none, none => .ok (cur.enqueueMove { moveOf base cur 2 f s.tick with mdr := r }, none))

/-! ## GATHER and SCATTER (R128) -/

/-- The request and run of GATHER (opcode 3) and SCATTER (opcode 4). -/
def State.gatherScatter (s : State) (x : Slot) (op : Nat) : State :=
  let f := x.f
  let fp := s.fld 0 0 Reg.IDC_CAP1.FP_ADD == 1
  let arith := op == 4 && opf f 45 44 != 0
  let ok := opf f 12 0 == 0 && (op == 4 || opf f 45 44 == 0)
    && (if arith then efmtOk (xEfmt f) fp else xEfmt f == 0)
  let lim := (s.core x.core).storeLimit
  s.issue x (xReq f ok [opf f 27 22, opf f 21 16]) (xReady f) fun base cur =>
    let d := base.tdv (xTd f)
    let l := base.tdv (opf f 32 28)
    let cnt := (base.rs (opf f 27 22)).toNat
    let len := (base.rs (opf f 21 16)).toNat
    let e (k : Nat) : SlotRun := .error { excOf k with td := xTd f, tag := xTag f }
    if !(tdOk d && tdOk l) || 4096 < cnt || len = 0 || 2 ^ 20 < len || (arith && len % efmtSize (xEfmt f) != 0) then e 1
    else if lim < tdBase d + (if cnt = 0 then 0 else (cnt - 1) * roundUp len 32 + len) || lim < tdBase l + 8 * cnt
        || !tileBelow d false lim || !tileBelow l false lim then e 3
    else if cnt = 0 then .ok (cur, none)
    else .ok (cur.enqueueMove { moveOf base cur op f s.tick with
      tds := [(xTd f, d), (opf f 32 28, l)], vals := [BitVec.ofNat 64 cnt, BitVec.ofNat 64 len]
      rd := if op = 3 then [opf f 32 28] else [xTd f, opf f 32 28], wr := if op = 3 then [xTd f] else [] }, none)

/-- GATHER (R128). -/
def execGather (x : Slot) (s : State) : Host.Outcome State Fault Refusal := .next (s.gatherScatter x 3)
/-- SCATTER (R128). -/
def execScatter (x : Slot) (s : State) : Host.Outcome State Fault Refusal := .next (s.gatherScatter x 4)

/-! ## ATOM (R130) -/

/-- ATOM: `k` is the AOP of the instruction. Opcode 6. -/
def State.atomIssue (s : State) (x : Slot) (k : Nat) : State :=
  let f := x.f
  let lim := (s.core x.core).storeLimit
  s.issue x (xReq f (opf f 45 44 == k && opf f 29 0 == 0) []) (xReady f) fun base cur =>
    let o := (base.ra (opf f 33 30)).toNat
    if o % 64 ≠ 0 then .error { excOf 2 with tag := xTag f, va := o }
    else if lim < o + 64 then .error { excOf 3 with tag := xTag f, va := o }
    else .ok (cur.enqueueMove { moveOf base cur 6 f s.tick with
      vals := [base.ra (opf f 37 34), BitVec.ofNat 64 o] }, none)

/-- ATOM SWAP (R130). -/
def execAtomSwap (x : Slot) (s : State) : Host.Outcome State Fault Refusal := .next (s.atomIssue x 0)
/-- ATOM CAS (R130). -/
def execAtomCas (x : Slot) (s : State) : Host.Outcome State Fault Refusal := .next (s.atomIssue x 1)
/-- ATOM CLAIM (R130). -/
def execAtomClaim (x : Slot) (s : State) : Host.Outcome State Fault Refusal := .next (s.atomIssue x 2)

/-! ## What a move moves -/

/-- One end of a run: an offset in the core store, or a virtual address. -/
inductive Side where
  | core (off : Nat)
  | va (a : Nat)
  deriving DecidableEq, Repr

/-- The end `n` bytes further on. -/
def Side.plus (e : Side) (n : Nat) : Side :=
  match e with
  | .core o => .core (o + n)
  | .va a => .va (a + n)

/-- One contiguous run of a move: its ends, its first byte position in the move, and its length. -/
structure Run where
  src : Side
  dst : Side
  pos : Nat
  len : Nat
  deriving DecidableEq, Repr

/-- Runs given positions one after another. -/
def placeRuns : Nat → List (Side × Side × Nat) → List Run
  | _, [] => []
  | p, (a, b, n) :: rs => ⟨a, b, p, n⟩ :: placeRuns (p + n) rs

/-- First value captured at issue: the virtual address, or the entry count. -/
def MoveOp.v0 (m : MoveOp) : Nat := (m.vals.getD 0 0).toNat
/-- Second value captured at issue: the pitch register, the run length or the operand block. -/
def MoveOp.v1 (m : MoveOp) : Nat := (m.vals.getD 1 0).toNat
/-- The tile captured at issue. -/
def MoveOp.tile (m : MoveOp) : BitVec 128 := (m.tds.getD 0 (0, 0)).2

/-- Whether a move decompresses its source (R156). -/
def MoveOp.isSieve (m : MoveOp) : Bool := m.op == 1 && bitOf m.f.toNat 45 || m.op == 2 && mdrSieve m.mdr

/-- The memory-side operation of a move and its EFMT: 0 copy, 1 add, 2 max, 3 min. -/
def MoveOp.arith (m : MoveOp) : Nat × Nat :=
  if m.op = 5 then (opf m.f 45 44 + 1, xEfmt m.f)
  else if m.op = 4 then (opf m.f 45 44, xEfmt m.f)
  else if m.op = 2 then (mdrOp m.mdr, mdrEfmt m.mdr)
  else (0, 0)

/-- The remote row pitch (R125): packed where PITCH names s0. -/
def MoveOp.pitch (m : MoveOp) : Nat := if xPitch m.f = 0 then rowBytes m.tile else m.v1

/-- Row ends of a tile with the virtual address of each row. -/
def MoveOp.rows (m : MoveOp) : List (Side × Side × Nat) :=
  (List.range (tdRows m.tile)).map fun r =>
    (.va ((m.v0 + r * m.pitch) % 2 ^ 64), .core (tdBase m.tile + r * (32 * tdStride m.tile)), rowBytes m.tile)

/-- The destinations of MOVE.ADD, MAX and MIN (R129): the tile's bytes are one stream of elements of EFMT. An element belongs
to the row in which it begins, and lies there at its place in the row, aligned down (log 113). -/
def MoveOp.elementRows (m : MoveOp) : List (Side × Side × Nat) :=
  let n := efmtSize (xEfmt m.f)
  let rb := rowBytes m.tile
  let first (r : Nat) : Nat := ceilDiv (r * rb) n * n
  (List.range (tdRows m.tile)).filterMap fun r =>
    if first (r + 1) ≤ first r then none
    else some (.core (tdBase m.tile), .va ((m.v0 / n * n + r * m.pitch + (first r - r * rb)) % 2 ^ 64 / n * n),
      first (r + 1) - first r)

/-- The scale bytes of an MX tile: one run after the rows (R125). -/
def MoveOp.scales (m : MoveOp) : List (Side × Side × Nat) :=
  if fmtMx (tdFmt m.tile) then
    [(.va ((m.v0 + tdRows m.tile * m.pitch) % 2 ^ 64), .core (tdScale m.tile),
      tdRows m.tile * ceilDiv (tdCols m.tile) 32)]
  else []

/-- A signed displacement from a base, modulo 2^64. -/
def offsetBy (base : Nat) (k : Int) : Nat := ((base : Int) + k).toNat

/-- The runs of MOVE.D (R127). -/
def MoveOp.shape (m : MoveOp) : List (Side × Side × Nat) :=
  let r := m.mdr
  let d (i : Nat) : Nat × Int × Int := (mdrDims r).getD i (1, 0, 0)
  let src := bits (mdrWord r 0) 0 56
  let dst := bits (mdrWord r 1) 0 56
  (List.range (d 2).1).flatMap fun (i3 : Nat) => (List.range (d 1).1).flatMap fun (i2 : Nat) =>
    (List.range (d 0).1).map fun (i1 : Nat) =>
    let ks := (i3 : Int) * (d 2).2.1 + (i2 : Int) * (d 1).2.1 + (i1 : Int) * (d 0).2.1
    let kd := (i3 : Int) * (d 2).2.2 + (i2 : Int) * (d 1).2.2 + (i1 : Int) * (d 0).2.2
    let a : Side := if mdrSrcCore r then .core (offsetBy src ks) else .va (wrap ((src : Int) + ks) 64)
    let b : Side := if mdrDstCore r then .core (offsetBy dst kd) else .va (wrap ((dst : Int) + kd) 64)
    (a, b, mdrD0 r)

/-- The entries of GATHER and SCATTER that move something, with their core-store runs (R128). -/
def MoveOp.entries (m : MoveOp) : List (Side × Side × Nat) :=
  m.list.zipIdx.filterMap fun e =>
    if bitOf e.1 63 then none
    else some (.va (if bits e.1 56 7 = 0 then e.1 else 2 ^ 63), .core (tdBase m.tile + e.2 * roundUp m.v1 32), m.v1)

/-- Source and destination exchanged. -/
def flipRun (r : Side × Side × Nat) : Side × Side × Nat := (r.2.1, r.1, r.2.2)

/-- Destinations aligned down to the element of a memory-side operation (R129). -/
def alignRun (e : Nat) (r : Side × Side × Nat) : Side × Side × Nat :=
  match r.2.1 with
  | .va a => (r.1, .va (a / efmtSize e * efmtSize e), r.2.2)
  | _ => r

/-- The runs of a move, ATOM and sieve moves apart; packed rows are one run. -/
def MoveOp.runs (m : MoveOp) : List Run :=
  let raw :=
    if m.op = 1 then
      let l := m.rows ++ (if m.isSieve then [] else m.scales)
      if xOut m.f then l.map flipRun else l
    else if m.op = 5 then m.elementRows
    else if m.op = 2 then m.shape
    else if m.op = 3 then m.entries
    else if m.op = 4 then m.entries.map flipRun
    else []
  placeRuns 0 (if m.arith.1 = 0 ∨ m.op = 5 then raw else raw.map (alignRun m.arith.2))

/-- The bits that the last byte of a tile's row leaves unused (R135): none where the row fills its bytes. -/
def padMask (d : BitVec 128) : Nat :=
  let u := tdCols d * fmtBits (tdFmt d) % 8
  if u = 0 then 0xFF else 2 ^ u - 1

/-- Bytes of a MOVE at positions from `pos` on, with the padding elements that end each row written as zero (R135). -/
def MoveOp.padded (m : MoveOp) (pos : Nat) (d : List Byte) : List Byte :=
  if m.op ≠ 1 ∨ padMask m.tile = 0xFF then d
  else
    let rb := rowBytes m.tile
    d.zipIdx.map fun (b, i) =>
      let p := pos + i
      if p < tdRows m.tile * rb ∧ p % rb = rb - 1 then BitVec.ofNat 8 (b.toNat % (padMask m.tile + 1)) else b

/-- Bytes that a move's destination takes. -/
def MoveOp.total (m : MoveOp) : Nat := (m.runs.map (·.len)).sum

/-- Bytes of a piece that begins at an end: up to the next multiple of `k` of a virtual address. -/
def Side.room (k : Nat) (e : Side) : Nat :=
  match e with
  | .core _ => k
  | .va a => k - a % k

/-- A run cut where one of its ends meets a multiple of `k`: its source end, or its destination end. -/
def cutRun (k : Nat) (bySrc : Bool) : Nat → Run → List Run
  | 0, _ => []
  | f + 1, r =>
    let n := (if bySrc then r.src else r.dst).room k
    if r.len ≤ n then [r]
    else ⟨r.src, r.dst, r.pos, n⟩ :: cutRun k bySrc f ⟨r.src.plus n, r.dst.plus n, r.pos + n, r.len - n⟩

/-- The runs of a move as its source lies: those of an element stream are the tile's rows (R129). -/
def MoveOp.srcRuns (m : MoveOp) : List Run := if m.op = 5 then placeRuns 0 (m.rows.map flipRun) else m.runs

/-- The pieces that a move reads, each of one request of at most 512 bytes (R39). -/
def MoveOp.srcPieces (m : MoveOp) : List Run := m.srcRuns.flatMap fun r => cutRun 512 true (r.len / 512 + 2) r

/-- The pieces that a move writes. -/
def MoveOp.dstPieces (m : MoveOp) : List Run := m.runs.flatMap fun r => cutRun 512 false (r.len / 512 + 2) r

end Sys2Proof.Machine
end

