-- ==== Sys2Proof/Machine/Sieve.lean ====
section
/-! DEFINITION. The sieve's formats (chapter 07): Huffman table images and YEB blocks. -/

namespace Sys2Proof.Machine

open Sys2Proof

/-! ## Huffman tables (R161, R162) -/

/-- The code lengths of an image: symbol 2j in the low half of byte 16 + j (R161). -/
def imageLens (img : List Byte) : List Nat :=
  ((img.drop 16).take 128).flatMap fun b => [b.toNat % 16, b.toNat / 16]

/-- Whether lengths are complete (R162): full, or one symbol of length 1. -/
def lensComplete (ls : List Nat) : Bool :=
  (ls.filter (0 < ·)).foldl (fun n l => n + 2 ^ (12 - l)) 0 == 4096 || ls.filter (0 < ·) == [1]

/-- A table image that is valid (R161, R162): its EXP_WIDTH, lengths and TAG. Width 0 empties the table; R162 exempts no image
from its conditions: DEDUCED, log 121. -/
def tableImage (img : List Byte) : Option (Nat × List Nat × Nat) :=
  let w := leField img 2 1
  let ls := imageLens img
  if img.length = 144 ∧ leField img 0 2 = 1 ∧ leField img 3 1 = 0 ∧ leField img 12 4 = 0
      ∧ leField img 4 4 = crc32c (img.drop 16) ∧ (w = 0 ∨ w = 4 ∨ w = 5 ∨ w = 8) then
    if ls.all (· ≤ 12) && (ls.drop (2 ^ w)).all (· == 0) && lensComplete ls then
      some (w, if w = 0 then [] else ls, leField img 8 4)
    else none
  else none

/-- Symbols of one code length, ascending. -/
def symsOf (ls : List Nat) (l : Nat) : List Nat := (List.range ls.length).filter fun s => ls.getD s 0 == l

/-- Canonical codes by length (RFC 1951, R162): for lengths 1 on, the first code and the symbols. -/
def codeRows (ls : List Nat) : Nat → Nat → Nat → List (Nat × List Nat)
  | 0, _, _ => []
  | f + 1, l, first =>
    let ss := symsOf ls l
    (first, ss) :: codeRows ls f (l + 1) ((first + ss.length) * 2)

/-- One code read from bits, most significant first: its symbol and the bits left; none for an invalid or cut code. -/
def readCode : List (Nat × List Nat) → Nat → List Bool → Option (Nat × List Bool)
  | [], _, _ => none
  | _ :: _, _, [] => none
  | (first, ss) :: rows, c, b :: bs =>
    let c := 2 * c + b.toNat
    if first ≤ c ∧ c - first < ss.length then some (ss.getD (c - first) 0, bs) else readCode rows c bs

/-- `n` codes read one after another. -/
def readCodes (rows : List (Nat × List Nat)) : Nat → List Bool → Option (List Nat × List Bool)
  | 0, bs => some ([], bs)
  | n + 1, bs =>
    match readCode rows 0 bs with
    | none => none
    | some (x, bs) => (readCodes rows n bs).map fun r => (x :: r.1, r.2)

/-- Bits of bytes, bit 7 first (R160). -/
def bitsMsb (bs : List Byte) : List Bool := bs.flatMap fun b => (List.range 8).map fun i => bitOf b.toNat (7 - i)

/-! ## YEB blocks (R158 to R160, R167) -/

/-- Element bytes, exponent width and raw width of a coded FMT (R159). -/
def yebFmt (f : Nat) : Option (Nat × Nat × Nat) :=
  match f with
  | 1 => some (2, 8, 8) | 2 => some (2, 5, 11) | 3 => some (1, 4, 4) | 4 => some (1, 5, 3) | _ => none

/-- COMP_LEN of a block's header. -/
def yebLen (b : List Byte) : Nat := leField b 4 2

/-- RAW_LEN of a block's header. -/
def yebRaw (b : List Byte) : Nat := leField b 2 2

/-- TABLE of a block's header. -/
def yebTable (b : List Byte) : Nat := leField b 1 1

/-- Whether a block is STORED. -/
def yebStored (b : List Byte) : Bool := leField b 0 1 == 0x1F

/-- Bytes of the raw section. -/
def yebRawSection (b : List Byte) : Nat :=
  match yebFmt (leField b 0 1 % 16) with
  | some (eb, _, w) => yebRaw b / eb * w / 8
  | none => yebRaw b

/-- Whether a header keeps R158. -/
def yebHeader (b : List Byte) : Bool :=
  let fmt := leField b 0 1 % 16
  let raw := yebRaw b
  let exp := leField b 6 2
  leField b 0 1 / 16 == 1 && ((yebFmt fmt).isSome || fmt == 15) && decide (yebTable b < 16)
    && raw % 32 == 0 && decide (32 ≤ raw) && decide (raw ≤ 4096)
    && yebLen b == 16 * ceilDiv (16 + yebRawSection b + exp) 16 && decide (yebLen b ≤ 4112)
    && (fmt != 15 || yebTable b == 0 && exp == 0) && leField b 12 4 == 0

/-- The output of a block, or the CAUSE of R167 that its content fails. `tbl` is the table it names, if it holds a
version: width and lengths. -/
def yebOut (b : List Byte) (tbl : Option (Nat × List Nat)) : Except Nat (List Byte) :=
  let body := b.drop 16
  let exp := leField b 6 2
  let pad := b.drop (16 + yebRawSection b + exp)
  match yebFmt (leField b 0 1 % 16) with
  | none => if pad.all (· == 0) then .ok (body.take (yebRaw b)) else .error 4
  | some (eb, e, w) =>
    match tbl with
    | none => .error 3
    | some (tw, ls) =>
      if tw ≠ e then .error 3
      else
        let n := yebRaw b / eb
        let raw := leNat (body.take (yebRawSection b))
        match readCodes (codeRows ls 12 1 0) n (bitsMsb ((body.drop (yebRawSection b)).take exp)) with
        | none => .error 4
        | some (xs, rest) =>
          if rest.any id || !pad.all (· == 0) then .error 4
          else
            let m := w - 1
            .ok (xs.zipIdx.flatMap fun x =>
              let r := bits raw (w * x.2) w
              leBytes eb (r / 2 ^ m * 2 ^ (8 * eb - 1) + x.1 * 2 ^ m + r % 2 ^ m))

/-- The causes that a block fails (R167) and its output: `left` is what the destination still takes. -/
def yebCheck (b : List Byte) (tbl : Option (Nat × List Nat)) (isPoisoned : Bool) (left : Nat) :
    List Nat × List Byte :=
  let p := if isPoisoned then [6] else []
  if !yebHeader b then (p ++ [2], [])
  else
    let o := if left < yebRaw b then [5] else []
    match yebOut b tbl with
    | .error c => (p ++ o ++ [c], [])
    | .ok out => (p ++ o ++ (if crc32c out = leField b 8 4 then [] else [1]), out)

end Sys2Proof.Machine
end

