-- ==== Sys2Proof/Machine/Translation.lean ====
section
/-! DEFINITION. Address translation (chapter 10): page tables, caches, replayable faults and invalidation. -/

namespace Sys2Proof.Machine

open Sys2Proof

/-! ## Entries (R225 to R229) -/

/-- What an access needs (R229). -/
inductive Acc where
  | rd
  | wr
  | mso
  | bin
  | const
  deriving DecidableEq, Repr

/-- Whether a leaf grants an access (R229). -/
def Acc.granted (a : Acc) (pte : Nat) : Bool :=
  match a with
  | .rd => bitOf pte 1
  | .const => bitOf pte 1
  | .wr => bitOf pte 2
  | .mso => bitOf pte 2
  | .bin => bitOf pte 3

/-- ACCESS of a fault record (R238). -/
def Acc.code : Acc → Nat
  | .rd => 1
  | .const => 1
  | .bin => 1
  | .wr => 2
  | .mso => 4

/-- TIER of a leaf (R227): 0 LOCAL, 1 PEER, 2 COMMONS, 3 HOST. -/
def pteTier (e : Nat) : Nat := bits e 8 2
/-- ADDR of a leaf, as an address. -/
def pteAddr (e : Nat) : Nat := bits e 12 36 * 65536
/-- NODE of a leaf. -/
def pteNode (e : Nat) : Nat := bits e 48 16
/-- LOG of a leaf. -/
def pteLog (e : Nat) : Bool := bitOf e 4
/-- MIG of a leaf. -/
def pteMig (e : Nat) : Bool := bitOf e 5

/-- 64 KiB pages that an entry at a level covers (R222). -/
def levelPages (l : Nat) : Nat := 2 ^ (10 * (4 - l))

/-- Whether a present pointer entry breaks R228. -/
def badPtr (e : Nat) : Bool := bits e 44 20 != 0 || bits e 8 5 != 0 || bits e 1 6 != 0

/-- Whether a present leaf entry at a level breaks R228. -/
def badLeaf (e l : Nat) : Bool :=
  bits e 10 2 != 0 || l == 1 || l == 3 && bits e 12 10 != 0 || l == 2 && bits e 12 20 != 0
    || pteMig e && (l != 4 || bitOf e 6) || bitOf e 6 && pteTier e != 0
    || pteNode e != 0 && (pteTier e == 0 || pteTier e == 3) || pteTier e == 0 && bits e 40 8 != 0

/-- What a translation gives. -/
inductive Tr where
  /-- A physical address on this package, and whether the leaf has LOG set. -/
  | loc (pa : Nat) (log : Bool)
  /-- A physical address on another node. -/
  | far (node pa : Nat) (log : Bool)
  /-- A PCIe address of the partition's function, before any ATS translation (R227, R230). -/
  | host (addr : Nat)
  /-- A replayable fault: its CAUSE and the leaf (R237, R238). -/
  | replay (cause pte : Nat)
  /-- A fault of a KIND. -/
  | miss (kind : Nat)
  /-- A table lies in a stopped unit: the walk is held (R191). -/
  | wait
  deriving DecidableEq, Repr

/-- What a walk gives: a leaf with its level, an absent migratable leaf, or a fault; or it is held at a stopped unit. -/
inductive Walk where
  | leaf (level pte : Nat)
  | absent (pte : Nat)
  | miss (kind : Nat)
  | wait
  deriving DecidableEq, Repr

/-! ## Walks (R222, R223, R237) -/

/-- Whether a function may use a granule as its own (R176, R321): one that its partition OWNS, or for the manager's service
contexts one that the management controller reserves and no partition has (log 34). -/
def State.usesGranule (s : State) (fn g : Nat) : Bool :=
  if fn = 0 then s.kmc.granules.getLsbD g && s.granState g == 0 else s.owns (fn - 1) g

/-- Whether a function's walker may read a table there (R223): tier-1 granules that are the function's own. -/
def State.tableOk (s : State) (fn pa : Nat) : Bool :=
  match s.mapped pa with
  | some (.stack k) => s.usesGranule fn (Place.granule pa (.stack k))
  | _ => false

/-- One walk from a level on: the outcome, and the pointer entries read. -/
def State.walkFrom (s : State) (fn va : Nat) : Nat → Nat → Nat → Walk × List Ptr
  | 0, _, _ => (.miss 6, [])
  | f + 1, l, table =>
    let a := table + 8 * bits va (56 - 10 * l) 10
    if !s.tableOk fn a then (.miss 6, [])
    else if s.paStopped a then (.wait, [])
    else if s.poisoned a then (.miss 8, [])
    else
      let e := leNat (s.mem.getRun a 8)
      if !bitOf e 0 then
        (if l == 4 && bitOf e 7 && pteMig e then (.absent e, []) else (.miss 6, []))
      else if bitOf e 7 then (if badLeaf e l then (.miss 6, []) else (.leaf l e, []))
      else if badPtr e || l == 4 then (.miss 6, [])
      else
        let next := bits e 13 31 * 8192
        let (w, ps) := State.walkFrom s fn va f (l + 1) next
        (w, ⟨fn, l, va / 2 ^ (56 - 10 * l), next⟩ :: ps)

/-- The level and table at which a walk starts without the walk cache; none when XLAT_ROOT is not VALID. -/
def State.rootTable (s : State) (fn : Nat) : Option (Nat × Nat) :=
  if s.fld fn 0 Reg.XLAT_ROOT.VALID = 1 then some (1, s.fld fn 0 Reg.XLAT_ROOT.ROOT * 8192) else none

/-- A walk that uses no cache. -/
def State.walk (s : State) (fn va : Nat) : Walk × List Ptr :=
  match s.rootTable fn with
  | none => (.miss 6, [])
  | some (l, t) => s.walkFrom fn va 4 l t

/-- The memory granules that a change names: cellar groups, quarter-stacks and tier-2 controllers in R299's order. -/
def Compose.granules (c : Compose) : List Nat :=
  setBits c.cel 16 ++ (setBits c.t1 48).map (16 + ·) ++ (setBits c.t2 16).map (64 + ·)

/-- The change of a partition that drains. -/
def State.draining (s : State) (q : Nat) : Option Change := s.changes.find? fun x => x.phase == 2 && x.c.part == q

/-- Whether a partition's drain releases a granule (R308). -/
def State.drainsAway (s : State) (q g : Nat) : Bool := (s.draining q).any fun x => x.c.granules.contains g

/-- The check of a LOCAL leaf against the carve-outs at fill (R177): the KIND of its refusal, if it is refused. A move of a
draining epoch (`old`) keeps its epoch's map: the granules that the drain releases are still its partition's (R308). -/
def State.fillRefused (s : State) (old : Bool) (fn pte pa : Nat) : Option Nat :=
  if pteTier pte ≠ 0 then none
  else match s.mapped pa with
    | none => some 6
    | some p =>
      let g := p.granule pa
      if s.usesGranule fn g || fn != 0 && old && s.drainsAway (fn - 1) g then none
      else if s.granState g = 2 ∧ (s.twinAt pa).isSome then (if bitOf pte 2 then some 7 else none)
      else some 6

/-- The address that a leaf gives a virtual address. -/
def leafAddr (l pte va : Nat) : Nat := pteAddr pte + va % (levelPages l * 65536)

/-- A leaf in force serves an access (R227, R229, R237). -/
def useLeaf (va : Nat) (acc : Acc) (l pte : Nat) : Tr :=
  let a := leafAddr l pte va
  if !acc.granted pte then (if pteMig pte then .replay 2 pte else .miss 7)
  else if pteTier pte = 0 then .loc a (pteLog pte)
  else if pteTier pte = 3 then .host a
  else .far (pteNode pte) a (pteLog pte)

/-- A leaf that the device holds serves an access (R175, R229): an address that the map leaves out is a miss. -/
def State.leafTr (s : State) (va : Nat) (acc : Acc) (e : Leaf) : Tr :=
  if pteTier e.pte = 0 ∧ s.mapped (leafAddr e.level e.pte va) = none then .miss 6 else useLeaf va acc e.level e.pte

/-- What a walk's outcome is for an access: the fill check, then the right (R237). -/
def State.walkTr (s : State) (old : Bool) (fn va : Nat) (acc : Acc) : Walk → Tr
  | .miss k => .miss k
  | .wait => .wait
  | .absent e => .replay 1 e
  | .leaf l e =>
    match s.fillRefused old fn e (leafAddr l e va) with
    | some k => .miss k
    | none => useLeaf va acc l e

/-! ## Caches (R231) -/

/-- Whether a cached leaf covers a page of a function. -/
def Leaf.covers (e : Leaf) (fn page : Nat) : Bool :=
  e.fn == fn && decide (e.page ≤ page) && decide (page < e.page + levelPages e.level)

/-- A bounded cache with one more entry: when it is full, a free choice leaves. -/
def State.cachePut {α : Type} (s : State) (cap : Nat) (l : List α) (x : α) : List α × State :=
  if l.length < cap then (l ++ [x], s)
  else
    let (k, s) := s.draw
    (l.eraseIdx (k % l.length) ++ [x], s)

/-- A cached leaf of a page, if it is still there: the device is free to have evicted it (R231). -/
def State.cacheGet (s : State) (l : List Leaf) (fn page : Nat) : Option Leaf × List Leaf × State :=
  match l.find? fun e => e.covers fn page with
  | none => (none, l, s)
  | some e =>
    let (kept, s) := s.drawBool
    if kept then (some e, l, s) else (none, l.erase e, s)

/-- The cluster of a logical core. -/
def State.clusterOf (s : State) (n : Nat) : Nat :=
  16 * s.fld 0 n Reg.IDC_CORE_MAP.DIE + s.fld 0 n Reg.IDC_CORE_MAP.CLUSTER

/-- A leaf written into the TLB of a move engine (key 2·core + engine). -/
def State.engFill (s : State) (eng : Nat) (e : Leaf) : State :=
  let (l, s) := s.cachePut 64 (s.tlbs.get [] eng) e
  { s with tlbs := s.tlbs.set [] eng l }

/-- A leaf written into a cluster's TLB. -/
def State.clusterFill (s : State) (cl : Nat) (e : Leaf) : State :=
  let (l, s) := s.cachePut 4096 (s.ctlbs.get [] cl) e
  { s with ctlbs := s.ctlbs.set [] cl l }

/-- Pointer entries written into a cluster's walk cache. -/
def State.ptrFill (s : State) (cl : Nat) (ps : List Ptr) : State :=
  ps.foldl (fun s p =>
    if (s.ptrs.get [] cl).contains p then s
    else
      let (l, s) := s.cachePut 256 (s.ptrs.get [] cl) p
      { s with ptrs := s.ptrs.set [] cl l }) s

/-- Where a walk of a cluster starts: at the deepest pointer entry that the walk cache still holds, or at the root. -/
def State.walkStart (s : State) (cl fn va : Nat) : List Nat → Option (Nat × Nat) × State
  | [] => (s.rootTable fn, s)
  | l :: ls =>
    match (s.ptrs.get [] cl).find? fun p => p.fn == fn && p.level == l && p.idx == va / 2 ^ (56 - 10 * l) with
    | none => State.walkStart s cl fn va ls
    | some p =>
      let (kept, s) := s.drawBool
      if kept then (some (l + 1, p.next), s) else State.walkStart s cl fn va ls

/-- A walk on behalf of a cluster, through its walk cache, which it fills (R231). -/
def State.cachedWalk (s : State) (cl fn va : Nat) : Walk × State :=
  let (start, s) := s.walkStart cl fn va [3, 2, 1]
  match start with
  | none => (.miss 6, s)
  | some (l, t) =>
    let (w, ps) := s.walkFrom fn va 4 l t
    (w, s.ptrFill cl ps)

/-- Whether a translation may be cached: a fault never is (R231). -/
def Tr.good : Tr → Bool
  | .loc _ _ => true
  | .far _ _ _ => true
  | .host _ => true
  | _ => false

/-- A walk by a cluster for an access; a translation that passes fills the cluster's TLB, and the move engine's. Answers the
leaf that was filled. -/
def State.walkFill (s : State) (cl : Nat) (eng : Option Nat) (old : Bool) (fn va : Nat) (acc : Acc) :
    Tr × Option Leaf × State :=
  let (w, s) := s.cachedWalk cl fn va
  let t := s.walkTr old fn va acc w
  match w with
  | .leaf l e =>
    if t.good then
      let x : Leaf := ⟨fn, va / 65536 / levelPages l * levelPages l, l, e⟩
      let s := s.clusterFill cl x
      (t, some x, match eng with
        | some k => s.engFill k x
        | none => s)
    else (t, none, s)
  | _ => (t, none, s)

/-- An address beyond 56 bits is a non-replayable miss (R132). -/
def vaOk (va : Nat) : Bool := va < 2 ^ 56

/-- Whether a LOCAL leaf of a function names a granule: their addresses overlap. -/
def Leaf.names (e : Leaf) (fn g : Nat) : Bool :=
  e.fn == fn && pteTier e.pte == 0 && (granuleRanges g).any fun r =>
    decide (pteAddr e.pte < r.1 + r.2) && decide (r.1 < pteAddr e.pte + levelPages e.level * 65536)

/-- Whether a cached leaf serves a requester: one that names a granule that its partition's drain releases serves only moves
of the draining epoch (R308). The carve-outs themselves are checked at fill alone (R177). -/
def State.leafServes (s : State) (old : Bool) (fn : Nat) (e : Leaf) : Bool :=
  old || fn == 0 || !((s.draining (fn - 1)).any fun x => x.c.granules.any (e.names fn))

/-- Translation of one access of a core (R231): its engine's TLB, its cluster's TLB, then a walk; with the leaf that serves
it. `eng` is none for the preload path, and `old` says that the move belongs to a draining epoch. -/
def State.xlate (s : State) (n : Nat) (eng : Option Nat) (old : Bool) (fn va : Nat) (acc : Acc) : Tr × Option Leaf × State :=
  if !vaOk va then (.miss 6, none, s)
  else
    let page := va / 65536
    let cl := s.clusterOf n
    let (hit, s) : Option Leaf × State := match eng with
      | none => (none, s)
      | some k =>
        let (h, l, s) := s.cacheGet (s.tlbs.get [] (2 * n + k)) fn page
        (h, { s with tlbs := s.tlbs.set [] (2 * n + k) l })
    match hit.filter (s.leafServes old fn) with
    | some e => (s.leafTr va acc e, some e, s)
    | none =>
      let (h, l, s) := s.cacheGet (s.ctlbs.get [] cl) fn page
      let s := { s with ctlbs := s.ctlbs.set [] cl l }
      match h.filter (s.leafServes old fn) with
      | some e =>
        let t := s.leafTr va acc e
        (t, some e, match eng with
          | some k => if t.good then s.engFill (2 * n + k) e else s
          | none => s)
      | none => s.walkFill cl (eng.map (2 * n + ·)) old fn va acc

/-- A requester other than a move engine takes a replayable condition as KIND 0x6 or 0x7, by its cause (R237). -/
def Tr.firm (t : Tr) : Tr :=
  match t with
  | .replay 1 _ => .miss 6
  | .replay _ _ => .miss 7
  | t => t

/-- Translation for the front end, which uses no TLB (log 35). -/
def State.frontXlate (s : State) (fn va : Nat) (acc : Acc) : Tr :=
  if !vaOk va then .miss 6 else (s.walkTr false fn va acc (s.walk fn va).1).firm

/-! ## Reads by the front end and the preload path (R237, R512) -/

/-- The exception KIND of a response status (R263): a reserved one is taken as REFUSED. -/
def ansKind (st : Nat) : Nat := if st = 2 then 7 else if st = 3 then 8 else if st = 4 then 9 else if st = 5 then 0xA else 6

/-- What a requester has of a run of another node's memory. -/
inductive Far where
  | data (d : List Byte)
  | miss (kind : Nat)
  | wait
  deriving DecidableEq, Repr

/-- One read request to another node (R269, R271): it leaves along the partition's route, or cannot be sent. -/
def State.sendRead (s : State) (q node addr len : Nat) (lc retry : Bool) (t : Nat) : Option State :=
  match if node = s.fld 0 0 Reg.DCTL_NODE.NODE then none else s.routeToNode q node with
  | none => none
  | some r =>
    let p := r.ports.getD 0 0
    if !s.portUp p || !s.portServes p q false then none
    else
      let c := { cellOf 2 (if lc then 0 else 2) with ttag := t, len := len - 1, retry := retry, addr := addr }
      some (s.sendCell p (s.requestCell q r c))

/-- One piece of a run on another node, at most 512 bytes (R39): asked for once, then what its answer was. -/
def State.farPiece (s : State) (who : List Nat) (q : Nat) (lc : Bool) (node addr len : Nat) : Far × State :=
  match s.reads.find? fun r => r.who == who && r.node == node && r.addr == addr && r.len == len with
  | some r => match r.answer with
    | none => (.wait, s)
    | some (0, d) => (.data d, s)
    | some (st, _) => (.miss (ansKind st), s)
  | none =>
    let t := (((List.range 262144).map fun k => (s.nextSig + k) % 262144).find? fun t => !s.ttagUsed t).getD 0
    match s.sendRead q node addr len lc false t with
    | none => (.miss 6, s)
    | some s =>
      let r : FarRead :=
        { who := who, ttag := t, q := q, lc := lc, node := node, addr := addr, len := len, retried := false, answer := none }
      (.wait, { s with nextSig := s.nextSig + 1, reads := s.reads ++ [r] })

/-- A run on another node, piece by piece: every piece is asked for at once, and the first that fails decides. -/
def State.farRead (who : List Nat) (q : Nat) (lc : Bool) (node : Nat) : Nat → State → Nat → Nat → Far × State
  | 0, s, _, _ => (.data [], s)
  | f + 1, s, addr, len =>
    if len = 0 then (.data [], s)
    else
      let k := min len (512 - addr % 512)
      let (a, s) := s.farPiece who q lc node addr k
      let (b, s) := State.farRead who q lc node f s (addr + k) (len - k)
      (match a, b with
        | .data d, .data d' => .data (d ++ d')
        | .miss m, _ => .miss m
        | _, .miss m => .miss m
        | _, _ => .wait, s)

/-- What a read of virtual memory gives: its bytes with the rest of the host's data, a KIND, or neither yet. -/
inductive VaRead where
  | ok (d rest : List Byte) (s : State)
  | fail (kind : Nat) (s : State)
  | wait (s : State)

/-- A run of virtual memory is read page by page under a translation `tr`: local units when they can serve (R191, R195), other
nodes by requests of their own, and host memory from the bytes that the host brought; fewer of those than the run needs is
KIND 0x6 (log 112). -/
def State.vaRead (who : List Nat) (fn : Nat) (lc : Bool) (tr : State → Nat → Tr × State) :
    Nat → State → Nat → Nat → List Byte → VaRead
  | 0, s, _, _, ext => .ok [] ext s
  | f + 1, s, va, len, ext =>
    if len = 0 then .ok [] ext s
    else
      let n := min len (65536 - va % 65536)
      let (t, s) := tr s va
      let got : VaRead := match t with
        | .miss k => .fail k s
        | .replay _ _ => .fail 6 s
        | .wait => .wait s
        | .loc pa _ =>
          let s := s.verifyRun pa n
          if !s.runReady pa n then .wait s
          else
            let r := s.readMem pa n
            if r.bad then .fail 8 r.st else .ok r.data ext r.st
        | .far node pa _ => if fn = 0 then .fail 6 s else match State.farRead who (fn - 1) lc node (n / 512 + 2) s pa n with
          | (.data d, s) => .ok d ext s
          | (.miss k, s) => .fail k s
          | (.wait, s) => .wait s
        | .host _ => if ext.length < n then .fail 6 s else .ok (ext.take n) (ext.drop n) s
      match got with
      | .ok d ext s => match State.vaRead who fn lc tr f s (va + n) (len - n) ext with
        | .ok d' x s => .ok (d ++ d') x s
        | r => r
      | r => r

/-- A requester's reads of other nodes are over. -/
def State.endReads (s : State) (who : List Nat) : State := { s with reads := s.reads.filter fun r => r.who != who }

/-- A run of virtual memory read by the front end for a client. -/
def State.readVa (s : State) (who : List Nat) (fn va len : Nat) (acc : Acc) (ext : List Byte) : VaRead :=
  match State.vaRead who fn true (fun s a => (s.frontXlate fn a acc, s)) (len / 65536 + 2) s va len ext with
  | .ok d x s => .ok d x (s.endReads who)
  | .fail k s => .fail k (s.endReads who)
  | .wait s => .wait s

/-- A read by a requester other than a move engine has been answered (R263, R312): an EPOCH_STALE one is reissued once. -/
def State.readAnswered (s : State) (r : FarRead) (st : Nat) (data : List Byte) : State :=
  let put (s : State) (r' : FarRead) : State :=
    { s with reads := s.reads.map fun (x : FarRead) => if x.ttag == r.ttag then r' else x }
  if st = 5 ∧ !r.retried then
    let s := (s.raise (vf r.q) 0 Reg.PCTL_COMP_STAT.STALE).satAdd (vf r.q) 0 Reg.PCTL_COMP_STAT.STALE_RETRIES 1
    match s.sendRead r.q r.node r.addr r.len r.lc true r.ttag with
    | some s => put s { r with retried := true }
    | none => put s { r with answer := some (1, []) }
  else put s { r with answer := some (st, data) }

/-! ## ATS (R230) -/

/-- ATS and PRI of a function before the host enables them. -/
def Ats.fresh : Ats := { on := false, pri := false, quota := 0, cached := [], asked := [], waiting := [], users := [] }

/-- ATS and PRI of a function. -/
def State.atsOf (s : State) (fn : Nat) : Ats := s.ats.get Ats.fresh fn

/-- ATS and PRI of a function, set. -/
def State.setAts (s : State) (fn : Nat) (a : Ats) : State := { s with ats := s.ats.set Ats.fresh fn a }

/-- An ATS translation request is sent for a page, and the move waits for it; code 1 of `Out.pcie` (R230). -/
def State.askAts (s : State) (n tag fn page : Nat) : State :=
  let t := s.atsOf fn
  if t.users.contains (n, tag, page) then s
  else
    let s := if t.users.any (·.2.2 == page) then s else s.send (.pcie fn 1 page)
    s.setAts fn { t with users := t.users ++ [(n, tag, page)] }

/-! ## Dropping translations (R224, R233, R234) -/

/-- Whether a leaf or pointer that covers `n` pages from `p` overlaps a scope; none is ALL. -/
def overlaps (r : Option (Nat × Nat)) (p n : Nat) : Bool :=
  match r with
  | none => true
  | some (a, k) => decide (p < a + k) && decide (a < p + n)

/-- Every cache drops a function's translations that overlap a scope (R234). -/
def State.dropXlat (s : State) (fn : Nat) (r : Option (Nat × Nat)) : State :=
  let keepL (e : Leaf) : Bool := !(e.fn == fn && overlaps r e.page (levelPages e.level))
  let keepP (p : Ptr) : Bool := !(p.fn == fn && overlaps r (p.idx * levelPages p.level) (levelPages p.level))
  { s with
    tlbs := (s.tlbs.map fun e => (e.1, e.2.filter keepL)).filter fun e => !e.2.isEmpty
    ctlbs := (s.ctlbs.map fun e => (e.1, e.2.filter keepL)).filter fun e => !e.2.isEmpty
    ptrs := (s.ptrs.map fun e => (e.1, e.2.filter keepP)).filter fun e => !e.2.isEmpty }

/-- A logical core's engine TLBs are emptied when it is placed on another physical core (R233). -/
def State.dropEngTlbs (s : State) (n : Nat) : State := { s with tlbs := (s.tlbs.del (2 * n)).del (2 * n + 1) }

/-- Translations that name a granule leaving its partition are dropped (R177). -/
def State.dropGranule (s : State) (fn g : Nat) : State :=
  { s with
    tlbs := (s.tlbs.map fun e => (e.1, e.2.filter fun x => !x.names fn g)).filter fun e => !e.2.isEmpty
    ctlbs := (s.ctlbs.map fun e => (e.1, e.2.filter fun x => !x.names fn g)).filter fun e => !e.2.isEmpty }

/-! ## Replayable faults (R237 to R240) -/

/-- Open faults of a function that hold an entry. -/
def State.openCount (s : State) (fn : Nat) : Nat := (s.faults.filter fun o => o.fn == fn && o.entry).length

/-- XLAT_STAT.OPEN follows the open faults. -/
def State.countOpen (s : State) (fn : Nat) : State := s.setFld fn 0 Reg.XLAT_STAT.OPEN (s.openCount fn)

/-- The 64 bytes of a fault record (R238): the move that opened the fault is named. -/
def OpenFault.bytes (o : OpenFault) : List Byte :=
  leBytes 8 o.va ++ leBytes 2 o.id ++ leBytes 1 o.cause ++ leBytes 1 o.access ++ leBytes 2 o.core
    ++ leBytes 1 (o.tag / 32) ++ leBytes 1 o.tag ++ leBytes 6 o.beat ++ leBytes 2 o.coalesced ++ leBytes 8 o.pte
    ++ leBytes 4 o.ctx ++ List.replicate 28 0

/-- Whether a function's fault ring has room. -/
def State.fringRoom (s : State) (fn : Nat) : Bool :=
  (s.fld fn 0 Reg.XLAT_FRING_IDX.PROD + 2 ^ 32 - s.fld fn 0 Reg.XLAT_FRING_IDX.CONS) % 2 ^ 32
    < 2 ^ (s.fld fn 0 Reg.XLAT_FRING_CFG.SIZE + 6)

/-- A fault record is written (R238): the record first, then PROD; a message when PROD equalled CONS. -/
def State.writeFault (s : State) (o : OpenFault) : State :=
  let fn := o.fn
  let prod := s.fld fn 0 Reg.XLAT_FRING_IDX.PROD
  let empty := prod == s.fld fn 0 Reg.XLAT_FRING_IDX.CONS
  let size := 2 ^ (s.fld fn 0 Reg.XLAT_FRING_CFG.SIZE + 6)
  let s := s.send (.host (s.fld fn 0 Reg.XLAT_FRING_CFG.BASE * 4096 + 64 * (prod % size)) o.bytes)
  let s := (s.modAdd fn 0 Reg.XLAT_FRING_IDX.PROD 1).raise fn 0 Reg.XLAT_STAT.FAULT
  if empty then s.msi fn (s.fld fn 0 Reg.XLAT_FRING_CFG.VECTOR) else s

/-- Faults that waited take open-fault entries in fault order, as far as there are any (R238). -/
def State.takeEntries : Nat → State → Nat → State
  | 0, s, _ => s
  | f + 1, s, fn =>
    match s.faults.find? fun o => o.fn == fn && !o.entry with
    | none => s
    | some o =>
      if s.openCount fn < 4096 then
        let s := { s with faults := s.faults.map fun (x : OpenFault) => if x == o then { x with entry := true } else x }
        State.takeEntries f (s.countOpen fn) fn
      else s

/-- Records of open faults are written in fault order as the ring has room (R238). -/
def State.writeFaults : Nat → State → Nat → State
  | 0, s, _ => s
  | f + 1, s, fn =>
    match s.faults.find? fun o => o.fn == fn && o.entry && !o.written with
    | none => s
    | some o =>
      if s.fringRoom fn then
        let s := { s with faults := s.faults.map fun (x : OpenFault) =>
          if x.fn == o.fn && x.id == o.id then { x with written := true } else x }
        State.writeFaults f (s.writeFault o) fn
      else s.raise fn 0 Reg.XLAT_STAT.FRING_FULL

/-- Faults that waited take entries and ring space in fault order (R238). -/
def State.drainFaults (s : State) (fn : Nat) : State :=
  let s := State.takeEntries (s.faults.length + 1) s fn
  State.writeFaults (s.faults.length + 1) s fn

/-- A fault identifier that no open fault has (R238). -/
def State.freshFault (s : State) : Nat :=
  (((List.range 65536).map fun k => (s.nextFault + k) % 65536).find? fun i => !s.faults.any (·.id == i)).getD 0

/-- A replayable fault of a move (R238): it attaches to the page's open fault, or opens one; a fault that finds no entry
or no ring space waits. `ctx` is the context of the faulting command. -/
def State.openFault (s : State) (n tag fn va cause : Nat) (acc : Acc) (pte ctx : Nat) : Nat × State :=
  let page := va / 65536
  match s.faults.find? fun o => o.fn == fn && o.page == page with
  | some o =>
    let join (x : OpenFault) : OpenFault :=
      if x.id == o.id && !x.moves.contains (n, tag) then
        { x with
          moves := x.moves ++ [(n, tag)]
          coalesced := if x.written then x.coalesced else min (x.coalesced + 1) 0xFFFF }
      else x
    (o.id, { s with faults := s.faults.map join })
  | none =>
    let room := decide (s.openCount fn < 4096)
    let o : OpenFault :=
      { id := s.freshFault, fn := fn, page := page, core := n, tag := tag, moves := [(n, tag)], written := false, entry := room
        coalesced := 0, va := va, cause := cause, access := acc.code, beat := s.now, pte := pte, ctx := ctx }
    let s := { s with faults := s.faults ++ [o], nextFault := s.nextFault + 1 }
    let s := if room then s.countOpen fn else s.raise fn 0 Reg.XLAT_STAT.OPEN_FULL
    (o.id, if room then s.drainFaults fn else s)

/-- An open fault closes (R239), and those that waited move up. -/
def State.closeFault (s : State) (fn fid : Nat) : State :=
  let s := { s with faults := s.faults.filter fun o => !(o.fn == fn && o.id == fid) }
  (s.countOpen fn).drainFaults fn

/-- A move is gone: it is detached, and a fault with no move attached closes (R244). -/
def State.detach (s : State) (n tag : Nat) : State :=
  let faults := s.faults.map fun o => { o with moves := o.moves.filter fun m => m != (n, tag) }
  let gone := faults.filter fun o => o.moves.isEmpty
  let drop (a : Ats) : Ats := { a with users := a.users.filter fun u => !(u.1 == n && u.2.1 == tag) }
  let s := { s with faults := faults, ats := s.ats.mapVals fun _ a => drop a }
  gone.foldl (fun s o => s.closeFault o.fn o.id) s

/-- XLAT_FQUERY_WRITE (R240): the state of a fault is latched. -/
def State.fquery (s : State) (fn fid : Nat) : State :=
  let s := s.setFld fn 0 Reg.XLAT_FQUERY.FAULT_ID fid
  match s.faults.find? fun o => o.fn == fn && o.entry && o.id == fid % 65536 with
  | some o => (s.setFld fn 0 Reg.XLAT_FQUERY.OPEN 1).setFld fn 0 Reg.XLAT_FQUERY.ATTACHED (min o.moves.length 0xFFFF)
  | none => (s.setFld fn 0 Reg.XLAT_FQUERY.OPEN 0).setFld fn 0 Reg.XLAT_FQUERY.ATTACHED 0

/-- XLAT_FQUERY_WRITE (R240). -/
def execXlatFqueryWrite (fn fid : Nat) (s : State) : Host.Outcome State Fault Refusal := .next (s.fquery fn fid)

end Sys2Proof.Machine
end

