-- ==== Sys2Proof/Machine/Moves.lean ====
section
/-! DEFINITION. Moves in flight (R71, R72, R88, R131, R132, R402): translation, requests to other nodes, completion and
faults, with the walk, replay and sieve commands. -/

namespace Sys2Proof.Machine

open Sys2Proof

/-! ## Pages of a move -/

/-- The virtual address of an ATOM's target, aligned down (R130). -/
def MoveOp.target (m : MoveOp) : Nat :=
  let n := if opf m.f 45 44 = 2 then 16 else 8
  m.v0 / n * n

/-- The access that one end of a piece makes. -/
def sideAccess (acc : Acc) (e : Side) : List (Nat × Acc) :=
  match e with
  | .core _ => []
  | .va a => [(a, acc)]

/-- The first address of each page that a move reaches, with its access. A sieve's source is reached block by block. -/
def MoveOp.accesses (m : MoveOp) : List (Nat × Acc) :=
  let w : Acc := if m.arith.1 = 0 then .wr else .mso
  let all := (if m.isSieve then [] else m.srcPieces.flatMap fun r => sideAccess .rd r.src)
    ++ (m.dstPieces.flatMap fun r => sideAccess w r.dst) ++ (if m.op = 6 then [(m.target, .mso)] else [])
  all.foldl (fun l x => if l.any fun y => y.1 / 65536 == x.1 / 65536 && y.2 == x.2 then l else l ++ [x]) []

/-- Translations of a move's pages. -/
abbrev XTab := List (Nat × Acc × Tr)

/-- A page's translation at another address of the page. -/
def Tr.at (t : Tr) (a : Nat) : Tr :=
  match t with
  | .loc pa l => .loc (pa / 65536 * 65536 + a % 65536) l
  | .far n pa l => .far n (pa / 65536 * 65536 + a % 65536) l
  | .host h => .host (h / 65536 * 65536 + a % 65536)
  | t => t

/-- The translation of an address among those of a move's pages. -/
def XTab.look (t : XTab) (a : Nat) (acc : Acc) : Tr :=
  match t.find? fun e => e.1 / 65536 == a / 65536 && e.2.1 == acc with
  | some e => e.2.2.at a
  | none => .miss 6

/-- Whether a started move of a core belongs to its partition's draining epoch (R307, R308). -/
def State.moveOld (s : State) (n : Nat) (m : MoveOp) : Bool :=
  let q := (s.coreFn n).1 - 1
  m.started && (s.coreFn n).1 != 0 && s.fld 0 q Reg.DCTL_COMP_PART0.DRAINING == 1
    && m.epoch == s.fld 0 q Reg.DCTL_COMP_PART0.DRAIN_EPOCH

/-- The translation that a move holds for an access, if that serves it (R224, R234). -/
def State.heldTr (s : State) (m : MoveOp) (fn va : Nat) (acc : Acc) : Option Tr :=
  (m.leaves.find? fun e => e.covers fn (va / 65536) && (s.leafTr va acc e).good).map (s.leafTr va acc)

/-- One access of a move translated: under the translation that it holds, or through its engine's TLB, its cluster's and a
walk, whose leaf it then holds. -/
def State.xlateFor (s : State) (n : Nat) (m : MoveOp) (va : Nat) (acc : Acc) : Tr × MoveOp × State :=
  let fn := (s.coreFn n).1
  match s.heldTr m fn va acc with
  | some t => (t, m, s)
  | none =>
    let (t, e, s) := s.xlate n (some m.eng) (s.moveOld n m) fn va acc
    (t, if t.good then { m with leaves := m.leaves ++ e.toList } else m, s)

/-- A move's pages translated in order, up to the first that fails; with the move and what it then holds. -/
def State.xlateMove (s : State) (n : Nat) (m : MoveOp) : List (Nat × Acc) → Option (Nat × Acc × Tr) × XTab × MoveOp × State
  | [] => (none, [], m, s)
  | (a, acc) :: rest =>
    let (t, m, s) := s.xlateFor n m a acc
    if t.good then
      let (f, x, m, s) := State.xlateMove s n m rest
      (f, (a, acc, t) :: x, m, s)
    else (some (a, acc, t), [], m, s)

/-! ## Faults of moves (R88, R132, R237) -/

/-- A move of a core by its tag. -/
def State.move? (s : State) (n tag : Nat) : Option MoveOp := (s.core n).cur.moves.find? (·.tag == tag)

/-- A move of a core, changed in place. -/
def State.setMove (s : State) (n : Nat) (m : MoveOp) : State :=
  let c := s.core n
  s.setCore n { c with cur := { c.cur with moves := c.cur.moves.map fun x => if x.tag == m.tag then m else x } }

/-- Bytes stored under their numbers whatever their value. -/
def putRun (t : Tab Byte) (k : Nat) : List Byte → Tab Byte
  | [] => t
  | b :: bs => putRun (t.put k b) (k + 1) bs

/-- Whether a run of bytes is all present. -/
def hasRun (t : Tab Byte) (k n : Nat) : Bool := (List.range n).all fun i => (t.find? (k + i)).isSome

/-- Bytes of this package's memory as they stand, and whether a unit of them is poisoned or refused (R187, R412): of a
twinned object the copy that can serve. -/
def State.peek (s : State) (pa len : Nat) : List Byte × Bool :=
  let bad (p : Nat) : Bool := s.poisonIn p len || s.authFailed p
  match if bad pa then s.twinAt pa else none with
  | some (_, _, o) => (s.mem.getRun o len, bad o)
  | none => (s.mem.getRun pa len, bad pa)

/-- Whether a run of a move's positions arrived marked poisoned (R53). -/
def MoveOp.spoiled (m : MoveOp) (pos len : Nat) : Bool :=
  m.badAt.any fun b => decide (b.1 < pos + len) && decide (pos < b.1 + b.2)

/-- The source bytes of a move's positions [pos, pos + len) that stand on this package or have arrived, under the
translations that it holds, with whether they are marked poisoned; none when some are elsewhere. -/
def State.peekSrc (s : State) (n fn : Nat) (m : MoveOp) (pos len : Nat) : List Run → Option (List Byte × Bool)
  | [] => some ([], false)
  | r :: rs =>
    let lo := max pos r.pos
    let hi := min (pos + len) (r.pos + r.len)
    if hi ≤ lo then State.peekSrc s n fn m pos len rs
    else
      let here : Option (List Byte × Bool) := match r.src.plus (lo - r.pos) with
        | .core o => some ((s.core n).cur.store.getRun o (hi - lo), m.spoiled lo (hi - lo))
        | .va a =>
          if hasRun m.buf lo (hi - lo) then some (m.buf.getRun lo (hi - lo), m.spoiled lo (hi - lo))
          else match s.heldTr m fn a .rd with
            | some (.loc pa _) => some ((s.peek pa (hi - lo)).1, (s.peek pa (hi - lo)).2 || m.spoiled lo (hi - lo))
            | _ => none
      match here, State.peekSrc s n fn m pos len rs with
      | some (d, b), some (d', b') => some (d ++ d', b || b')
      | _, _ => none

/-- What a move that is squashed may have written (R88, R361, log 13): each piece whose source stands on this package, and
whose destination the move has translated, lands or not, freely. Poisoned data lands as poison (R187), and a logged write is
logged (R241). -/
def State.landPiece (s : State) (n fn : Nat) (m : MoveOp) (r : Run) : State :=
  let (lands, s) := s.drawBool
  if !lands || m.farAt.contains r.pos then s
  else match s.peekSrc n fn m r.pos r.len m.srcPieces with
    | none => s
    | some (d, bad) =>
      let d := m.padded r.pos d
      match r.dst with
      | .core o =>
        let c := s.core n
        if bad then s else s.setCore n { c with cur := { c.cur with store := c.cur.store.setRun o d } }
      | .va a =>
        match s.heldTr m fn a (if m.arith.1 = 0 then .wr else .mso) with
        | some (.loc pa log) =>
          if s.paStopped pa then s
          else
            let s := if log && fn != 0 then s.dirtyRun (fn - 1) pa d.length else s
            if m.arith.1 = 0 then (s.writeMem pa d bad).2 else (s.mso pa (m.arith.1 - 1) m.arith.2 d bad).2
        | _ => s

/-- Contributions of a move that wait at their units when it is squashed are applied or not, freely (R221); nothing is owed to
it. -/
def State.dropOwed (s : State) (n tag : Nat) : State :=
  let mine := s.owing.filter fun o => o.move == some (n, tag)
  let s := { s with owing := s.owing.filter fun o => o.move != some (n, tag) }
  mine.foldl (fun (s : State) o =>
    let (lands, s) := s.drawBool
    if lands then s else { s with contribs := s.contribs.filter fun c => c.owed != o.id }) s

/-- Moves of a core are squashed (R88, R361): started ones may have landed in part, and all leave their faults and tags. A move
whose local pieces are written lands no more. -/
def State.squashWhere (s : State) (n fn : Nat) (p : MoveOp → Bool) : State :=
  let ms := (s.core n).cur.moves.filter p
  let s := ms.foldl (fun s m => if m.started && !m.isSieve && !m.applied then
    m.dstPieces.foldl (fun s r => s.landPiece n fn m r) s else s) s
  let s := ms.foldl (fun s m => (s.detach n m.tag).dropOwed n m.tag) s
  let c := s.core n
  s.setCore n { c with cur := { c.cur with moves := c.cur.moves.filter fun m => !p m } }

/-- Every outstanding move of a core is squashed. -/
def State.squashMoves (s : State) (n fn : Nat) : State := s.squashWhere n fn fun _ => true

/-- A core's moves that are stalled on a replayable fault answer FENCED as their reset domain is shuttered, and their faults
close (R244): those of one engine where `eng` names it. -/
def State.closeStalled (s : State) (n : Nat) (eng : Option Nat) : State :=
  s.squashWhere n (s.coreFn n).1 fun m => m.fid.isSome && eng.all fun e => m.eng + 6 == e

/-- A core stops (R88, R361): its queued engine instructions and unsent signals are discarded, and its moves squashed. -/
def State.stopCore (s : State) (n fn : Nat) : State :=
  let s := s.squashMoves n fn
  let c := s.core n
  s.setCore n { c with cur := { c.cur with engq := [], sigs := [] }, bundle := none, stopped := true }

/-- An imprecise exception of a move (R88, R90, R422): the core stops and its launch fails. -/
def State.moveFault (s : State) (n : Nat) (m : MoveOp) (kind va : Nat) (logIt : Bool) : State :=
  let fn := (s.coreFn n).1
  let s := s.recordExc n false m.bundle { excOf kind with slot := 3, eng := m.eng, tag := m.tag, va := va }
  (s.stopCore n fn).failLaunch n (kindStatus kind) kind (0x3000 + 8 * n + 6 + m.eng) va m.tag logIt

/-- A move gives up the translations that it holds, as it stalls (R234): no invalidation waits for it. -/
def State.dropLeaves (s : State) (n : Nat) (m : MoveOp) : State :=
  let s := s.setMove n { m with leaves := [], hosts := [] }
  { s with invals := s.invals.map fun (v : Inval) => { v with waiting := v.waiting.filter fun w => w != (n, m.seq) } }

/-- A translation of a move has failed (R237): a replayable condition stalls it, with its ring in use; anything else is
an exception, but for a walk that is held at a stopped unit (R191). -/
def State.xlateFailed (s : State) (n : Nat) (m : MoveOp) (va : Nat) (acc : Acc) (t : Tr) : State :=
  let (fn, ctx, _) := s.coreFn n
  match t with
  | .replay cause pte =>
    if s.fld fn 0 Reg.XLAT_FRING_CFG.EN = 0 then s.moveFault n m 6 va true
    else
      let (id, s) := s.openFault n m.tag fn va cause acc pte ctx
      s.dropLeaves n { m with fid := some id }
  | .miss k => s.moveFault n m k va true
  | _ => s.setMove n m

/-! ## Source bytes -/

/-- Part of the source that lies in one piece: bytes and poison, when they are here. -/
def State.srcPart (s : State) (n : Nat) (m : MoveOp) (x : XTab) (e : Side) (pos len : Nat) :
    Option (List Byte × Bool) × State :=
  match e with
  | .core o => (some ((s.core n).cur.store.getRun o len, m.spoiled pos len), s)
  | .va a =>
    if hasRun m.buf pos len then (some (m.buf.getRun pos len, m.spoiled pos len), s)
    else match x.look a .rd with
      | .loc pa _ =>
        let s := s.verifyRun pa len
        if s.runReady pa len then
          let r := s.readMem pa len
          (some (r.data, r.bad || m.spoiled pos len), r.st)
        else (none, s)
      | _ => (none, s)

/-- Source bytes at positions [pos, pos + len) of a move, gathered over its source pieces. -/
def State.srcBytes (s : State) (n fn : Nat) (m : MoveOp) (x : XTab) (pos len : Nat) :
    List Run → Option (List Byte × Bool) × State
  | [] => (some ([], false), s)
  | r :: rs =>
    let lo := max pos r.pos
    let hi := min (pos + len) (r.pos + r.len)
    if hi ≤ lo then State.srcBytes s n fn m x pos len rs
    else
      match s.srcPart n m x (r.src.plus (lo - r.pos)) lo (hi - lo) with
      | (none, s) => (none, s)
      | (some (d, b), s) =>
        match State.srcBytes s n fn m x pos len rs with
        | (none, s) => (none, s)
        | (some (d', b'), s) => (some (d ++ d', b || b'), s)

/-- Every started move in its partition's present epoch notes the route table at an edge, before anything changes there: it
keeps that table should an epoch open at this edge (R308). -/
def State.noteRoutes (s : State) : State :=
  let note (n : Nat) (c : Core) : Core :=
    let fn := (s.coreFn n).1
    if fn = 0 ∨ c.cur.moves.all (fun m => !m.started) then c
    else { c with cur := { c.cur with moves := c.cur.moves.map fun (m : MoveOp) =>
      if m.started && m.epoch == s.coreEpoch n then { m with routes := s.routeTable (fn - 1) } else m } }
  { s with cores := s.cores.mapVals note }

/-! ## Requests to other nodes (R260 to R263, R269, R372) -/

/-- The requests of a move at pages of other nodes, in order: reads of sources, writes and operations at destinations. -/
def MoveOp.farReqs (m : MoveOp) (x : XTab) : List Req :=
  let mk (kind : Nat) (acc : Acc) (e : Side) (pos len : Nat) : List Req := match e with
    | .core _ => []
    | .va a => match x.look a acc with
      | .far node pa l => [⟨0, kind, node, pos, len, pa, 0, false, false, 0, 0, [], l⟩]
      | _ => []
  (m.srcPieces.flatMap fun r => mk 0 .rd r.src r.pos r.len)
    ++ (m.dstPieces.flatMap fun r => mk (if m.arith.1 = 0 then 1 else 2) (if m.arith.1 = 0 then .wr else .mso)
        r.dst r.pos r.len)
    ++ (if m.op = 6 then mk 3 .mso (.va m.target) 0 32 else [])

/-- Requests of a core that are sent and unanswered. -/
def sentCount (ms : List MoveOp) (f : Req → Bool) : Nat :=
  (ms.map fun m => (m.reqs.filter fun r => r.sent && f r).length).sum

/-- Whether the limits of R372 let a move send one more request on a port. -/
def State.limitsOpen (s : State) (n fn : Nat) (m : MoveOp) (port : Nat) : Bool :=
  let ms := (s.core n).cur.moves
  let part := (s.cores.filter fun e => (s.owner e.1).map vf == some fn).map fun e => e.2.cur.moves
  decide (sentCount (ms.filter (·.eng == m.eng)) (fun _ => true) < min 256 (s.fld fn 0 Reg.QOSM_CFG0.XE_LIM))
    && decide (sentCount ms (fun _ => true) < s.fld fn 0 Reg.QOSM_CFG0.CORE_LIM)
    && decide ((part.map fun l => sentCount l fun _ => true).sum < s.fld fn 0 Reg.QOSM_CFG0.PART_LIM)
    && decide ((part.map fun l => sentCount l fun r => r.port == port).sum < s.fld fn 0 Reg.QOSM_CFG1.PORT_LIM)

/-- The lowest request index that an engine has free (R260): a signal's transaction tag is never taken. -/
def State.freeIndex (s : State) (n eng : Nat) : Nat :=
  ((List.range 256).find? fun i => !s.ttagUsed (n * 512 + eng * 256 + i)).getD 0

/-- The route table that a move's requests use: that of its epoch, as the edge that ended it found it, or the present one
(R269, R308). Function 0 has none. -/
def State.moveRoutes (s : State) (n : Nat) (m : MoveOp) : List Route :=
  let fn := (s.coreFn n).1
  if fn = 0 then [] else if s.moveOld n m then m.routes else s.routeTable (fn - 1)

/-- A request with the entry of its node in a route table (R269). -/
def stampRoute (rs : List Route) (r : Req) : Req :=
  match rs.find? (·.node == r.node) with
  | some t => { r with nhop := t.nhop, ports := t.ports }
  | none => { r with nhop := 0, ports := [] }

/-- Whether a port's table is in service (R287). -/
def State.tableServes (s : State) (p : Nat) : Bool :=
  s.fld 0 p Reg.DCTL_LYS_SCHED.STATE == 1 && s.portActive p && s.fld 0 p Reg.DCTL_LYS_PSTAT.LANES == 0xFFFF
    && s.fld 0 0 Reg.DCTL_BEAT_STAT.LOCK != 2

/-- CORE and TAG of a TX window entry's words (R282): `w0` holds bits [31:0], `w1` bits [63:32]. -/
def winCore (w : Window) : Nat := bits w.w0 20 9
/-- TAG. -/
def winTag (w : Window) : Nat := bits w.w0 14 6
/-- IN_PORT. -/
def winIn (w : Window) : Nat := bits w.w0 9 5
/-- KIND: 1 TX, 2 FWD. -/
def winKind (w : Window) : Nat := bits w.w0 29 2
/-- LEN. -/
def winLen (w : Window) : Nat := bits (w.w0 + 2 ^ 32 * w.w1) 31 14
/-- OFFSET. -/
def winOffset (w : Window) : Nat := bits w.w1 13 19

/-- Windows of a port's active table. -/
def State.windows (s : State) (p : Nat) : List Window := ((s.port p).active.map (·.windows)).getD []

/-- Whether a TX window names a core and tag. -/
def winNames (w : Window) (n tag : Nat) : Bool := winKind w == 1 && winCore w == n && winTag w == tag

/-- Whether the window open on a port serves a core and tag and has cell times left. -/
def State.winServes (s : State) (p n tag : Nat) : Bool :=
  s.tableServes p && decide (0 < (s.port p).winLeft) &&
    match (s.port p).openWin with
    | some i => match (s.windows p)[i]? with
      | some w => winNames w n tag
      | none => false
    | none => false

/-- Whether a scheduled cell can go onto a port now: it has no credit to wait for, but the replay buffer must have room (R267,
R268, R420). -/
def State.slotRoom (s : State) (p : Nat) : Bool :=
  decide ((s.port p).replay.length < 4096) && !(s.port p).replayDue && !(s.port p).reseal

/-- The OPX of a request cell (R261): an MSO's operation and EFMT, or an ATOM's AOP. -/
def MoveOp.opx (m : MoveOp) (kind : Nat) : Nat :=
  if kind = 2 then (m.arith.1 - 1) * 16 + m.arith.2 else if kind = 3 then opf m.f 45 44 else 0

/-- TYPE of a request cell. -/
def reqType (kind : Nat) : Nat := if kind = 0 then 0x2 else if kind = 1 then 0x4 else if kind = 2 then 0x6 else 0x7

/-- The payload of a request, when it is here: none for a read. -/
def State.reqData (s : State) (n fn : Nat) (m : MoveOp) (x : XTab) (r : Req) : Option (List Byte × Bool) × State :=
  if r.kind = 0 then (some ([], false), s)
  else if r.kind = 3 then (some ((s.core n).cur.store.getRun m.v1 32, false), s)
  else match s.srcBytes n fn m x r.pos r.len m.srcPieces with
    | (some (d, b), s) => (some (m.padded r.pos d, b), s)
    | r => r

/-- One request of a move is sent along its route, once limits allow (R269, R271): none in the first place when no
route matches, its first port is down, or it does not carry the virtual device, where the move faults. -/
def State.sendReq (s : State) (n : Nat) (m : MoveOp) (x : XTab) (r : Req) : Option State × State :=
  let (fn, _, lc) := s.coreFn n
  if r.nhop = 0 ∨ !s.portUp (r.ports.getD 0 0) then (none, s)
  else if !s.portServes (r.ports.getD 0 0) (fn - 1) (s.moveOld n m && !r.retried) then
    (none, (s.satAdd 0 (r.ports.getD 0 0) Reg.DCTL_LYS_CNT1.DROP 1).raise 0 (r.ports.getD 0 0)
      Reg.DCTL_LYS_PSTAT.VD_MISMATCH)
  else
    let route : Route := { node := r.node, nhop := r.nhop, ports := r.ports }
    let p := route.ports.getD 0 0
    let slot := m.sched && m.inSlot == some p
    if !s.limitsOpen n fn m p || (slot && !(s.winServes p n m.tag && s.slotRoom p)) then (some s, s)
    else
      match s.reqData n fn m x r with
      | (none, s) => (some s, s)
      | (some (d, bad), s) =>
        let id := s.freeIndex n m.eng
        let epoch := if r.retried then s.coreEpoch n else m.epoch
        let c0 := s.requestCell (fn - 1) route { cellOf (reqType r.kind) (if lc then 0 else 2) with
          sched := slot, op := m.opx r.kind, ttag := n * 512 + m.eng * 256 + id
          len := if r.kind = 0 then r.len - 1 else d.length - 1
          log := r.log, retry := r.retried, poison := bad, addr := r.addr, payload := d }
        let c := { c0 with epoch := epoch }
        let m' := { m with reqs := m.reqs.map fun (q : Req) =>
          if q.kind == r.kind && q.pos == r.pos then
            { q with sent := true, id := id, port := p, epoch := epoch } else q }
        let s := s.setMove n m'
        let t := s.port p
        let s := if slot then s.setPort p { t with winLeft := t.winLeft - 1 } else s
        (some ((s.advanced n (6 + m.eng)).sendCell p c), s)

/-- Requests of a move go out in order as far as limits, windows and data allow (R288, R372). -/
def State.pumpReqs : Nat → State → Nat → Nat → XTab → List Req → State
  | 0, s, _, _, _, _ => s
  | f + 1, s, n, tag, x, rs =>
    match rs, s.move? n tag with
    | r :: rest, some m =>
      if r.sent then State.pumpReqs f s n tag x rest
      else if r.node = s.fld 0 0 Reg.DCTL_NODE.NODE then s.moveFault n m 6 r.addr true
      else match s.sendReq n m x r with
        | (none, s) => s.moveFault n m 6 r.addr true
        | (some s, _) => State.pumpReqs f s n tag x rest
    | _, _ => s

/-- The first source byte of a sieve move. -/
def MoveOp.sieveVa (m : MoveOp) : Nat := if m.op = 1 then m.v0 else bits (mdrWord m.mdr 0) 0 56

/-- Whether the source of MOVE.D with SIEVE is the core store. -/
def MoveOp.sieveCore (m : MoveOp) : Bool := m.op == 2 && mdrSrcCore m.mdr

/-- A move without one of its requests. -/
def MoveOp.without (m : MoveOp) (r : Req) : MoveOp := { m with reqs := m.reqs.filter fun x => x != r }

/-- A move with one of its requests replaced. -/
def MoveOp.swapReq (m : MoveOp) (r r' : Req) : MoveOp := { m with reqs := m.reqs.map fun x => if x == r then r' else x }

/-- The virtual address and access of a request of a move (R312). -/
def MoveOp.reqVa (m : MoveOp) (r : Req) : Nat × Acc :=
  if r.kind = 3 then (m.target, .mso)
  else if m.isSieve then (m.sieveVa + r.pos, .rd)
  else
    let l := if r.kind = 0 then m.srcPieces else m.dstPieces
    let va := (l.findSome? fun x => if x.pos = r.pos then (match if r.kind = 0 then x.src else x.dst with
      | .va a => some a
      | .core _ => none) else none).getD 0
    (va, if r.kind = 0 then .rd else if r.kind = 1 then .wr else .mso)

/-- The requests that wait to be reissued go wherever their addresses lead now (R312): to a node under the current route, or to
memory of this package or the host, where completion carries them out. A translation that fails is answered, and its request
waits on. -/
def State.resendAll (s : State) (n : Nat) (m : MoveOp) : List Req → Option (Nat × Acc × Tr) × MoveOp × State
  | [] => (none, m, s)
  | r :: rs =>
    let fn := (s.coreFn n).1
    let (va, acc) := m.reqVa r
    match s.xlate n (some m.eng) false fn va acc with
    | (.far node pa l, e, s) =>
      let r' := stampRoute (if fn = 0 then [] else s.routeTable (fn - 1)) { r with node := node, addr := pa, log := l }
      State.resendAll s n { m.swapReq r r' with leaves := m.leaves ++ e.toList } rs
    | (.loc _ _, e, s) | (.host _, e, s) =>
      State.resendAll s n { m.without r with
        farAt := m.farAt.filter (· != r.pos), leaves := m.leaves ++ e.toList } rs
    | (t, _, s) => (some (va, acc, t), m, s)

/-- A move's requests go on: those to be reissued are translated anew (R312), and then all go out as they may. -/
def State.pumpMove (s : State) (n tag : Nat) (x : XTab) : State :=
  match s.move? n tag with
  | none => s
  | some m =>
    if m.fid.isSome then s
    else match s.resendAll n m (m.reqs.filter fun r => r.retried && !r.sent && r.nhop == 0) with
      | (some (a, acc, t), m, s) => s.xlateFailed n m a acc t
      | (none, m, s) => State.pumpReqs (m.reqs.length + 1) (s.setMove n m) n tag x m.reqs

/-! ## Doorstep buffers (R401, R402) -/

/-- Whether a context is a parish context. -/
def State.inParish (s : State) (fn ctx : Nat) : Bool := s.fld fn ctx Reg.DSTP_SESSION.PARISH == 1

/-- The slot of a context's doorstep data area that holds a host address, if it lies in that area. -/
def State.doorSlot (s : State) (fn ctx a : Nat) : Option Nat :=
  let base := s.fld fn ctx Reg.DSTP_DOOR0.DATA * 4096
  if s.fld fn ctx Reg.DSTP_DOOR0.EN = 1 ∧ base ≤ a ∧ a < base + 4096 * s.fld fn ctx Reg.DSTP_DOOR2.COUNT then
    some ((a - base) / 4096) else none

/-- The additional data of a doorstep record (R401). -/
def State.doorAd (s : State) (fn ctx slot len dir : Nat) : List Byte :=
  beBytes 4 (s.fld fn ctx Reg.DSTP_SESSION.SGEN) ++ beBytes 2 ctx ++ beBytes 2 (s.fld 0 0 Reg.DCTL_NODE.NODE)
    ++ beBytes 1 (fn - 1) ++ beBytes 4 slot ++ beBytes 4 len ++ beBytes 1 dir

/-- The nonce of a doorstep record (R400). -/
def doorNonce (dir ctr : Nat) : List Byte := leBytes 1 dir ++ [0, 0, 0] ++ leBytes 8 ctr

/-- A record opened (R402): its tag entry of 32 bytes, then its slot of 4,096. The plaintext, padded to the slot. -/
def State.openDoor (s : State) (fn ctx slot : Nat) (entry body : List Byte) : Option (List Byte) :=
  let len := leField entry 24 4
  if leField entry 28 1 ≠ 3 ∨ leField entry 29 3 ≠ 0 ∨ len = 0 ∨ 4096 < len then none
  else
    (Config.gcmOpen (s.sessionKey fn ctx (s.fld fn ctx Reg.DSTP_SESSION.SGEN)) (doorNonce 3 (leField entry 16 8))
      (s.doorAd fn ctx slot len 3) (body.take len ++ entry.take 16)).map fun p =>
        p ++ List.replicate (4096 - p.length) 0

/-- Whole records written from a slot boundary on (R402): each is sealed, raises OUT_CTR, and is followed by its tag
entry; the last may be short. -/
def State.writeDoor (fn ctx : Nat) : Nat → State → Nat → List Byte → State
  | 0, s, _, _ => s
  | f + 1, s, slot, d =>
    if d.isEmpty then s
    else
      let n := min d.length 4096
      let ctr := (s.rd fn (0x144018 + 32 * ctx)).toNat
      let ct := Config.gcmSeal (s.sessionKey fn ctx (s.fld fn ctx Reg.DSTP_SESSION.SGEN)) (doorNonce 4 ctr)
        (s.doorAd fn ctx slot n 4) (d.take n)
      let s := s.wr fn (0x144018 + 32 * ctx) (BitVec.ofNat 64 (ctr + 1))
      let s := s.send (.host (s.fld fn ctx Reg.DSTP_DOOR0.DATA * 4096 + 4096 * slot) (ct.take n))
      let s := s.send (.host (s.fld fn ctx Reg.DSTP_DOOR1.TAGS * 32 + 32 * slot)
        ((ct.drop n).take 16 ++ leBytes 8 ctr ++ leBytes 4 n ++ [4, 0, 0, 0]))
      State.writeDoor fn ctx f s (slot + 1) (d.drop n)

/-! ## Host pages (R230, R402) -/

/-- Host runs of a move's sources in order: position, length and host address. -/
def MoveOp.hostSrc (m : MoveOp) (x : XTab) : List (Nat × Nat × Nat) :=
  m.srcPieces.filterMap fun r => match r.src with
    | .core _ => none
    | .va a => match x.look a .rd with
      | .host h => some (r.pos, r.len, h)
      | _ => none

/-- Host runs of a move's destinations in order. -/
def MoveOp.hostDst (m : MoveOp) (x : XTab) : List (Nat × Nat × Nat) :=
  m.dstPieces.filterMap fun r => match r.dst with
    | .core _ => none
    | .va a => match x.look a .wr with
      | .host h => some (r.pos, r.len, h)
      | _ => none

/-- Runs that follow one another in host memory and in the move are joined. -/
def joinHost : List (Nat × Nat × Nat) → List (Nat × Nat × Nat)
  | [] => []
  | (p, n, h) :: rest =>
    match joinHost rest with
    | (p', n', h') :: more => if p + n = p' ∧ h + n = h' then (p, n + n', h) :: more else (p, n, h) :: (p', n', h') :: more
    | [] => [(p, n, h)]

/-- Plain host reads fill the move's buffer from the bytes that arrived. -/
def fillHost (buf : Tab Byte) : List (Nat × Nat × Nat) → List Byte → Tab Byte
  | [], _ => buf
  | (p, n, _) :: rest, ext => fillHost (putRun buf p (ext.take n)) rest (ext.drop n)

/-- Sealed host reads (R402): each run's slots arrive as a tag entry and a slot each. None when a record fails. -/
def State.fillDoor (s : State) (fn ctx : Nat) : List (Nat × Nat × Nat) → List Byte → Tab Byte → Option (Tab Byte)
  | [], _, buf => some buf
  | (p, n, h) :: rest, ext, buf =>
    let base := s.fld fn ctx Reg.DSTP_DOOR0.DATA * 4096
    let first := (h - base) / 4096
    let k := (h - base + n - 1) / 4096 - first + 1
    let recs := (List.range k).map fun i =>
      s.openDoor fn ctx (first + i) ((ext.drop (4128 * i)).take 32) ((ext.drop (4128 * i + 32)).take 4096)
    if recs.any Option.isNone then none
    else
      let plain := recs.flatMap fun r => r.getD []
      State.fillDoor s fn ctx rest (ext.drop (4128 * k)) (putRun buf p ((plain.drop ((h - base) % 4096)).take n))

/-- Bytes that host reads of a move bring. -/
def State.hostNeed (s : State) (fn ctx : Nat) (l : List (Nat × Nat × Nat)) : Nat :=
  if s.inParish fn ctx then
    let base := s.fld fn ctx Reg.DSTP_DOOR0.DATA * 4096
    ((joinHost l).map fun r => 4128 * ((r.2.2 - base + r.2.1 - 1) / 4096 - (r.2.2 - base) / 4096 + 1)).sum
  else (l.map fun r => r.2.1).sum

/-- Whether every host run of a parish context lies in its data area, and every write begins at a slot boundary (R402). -/
def State.doorOk (s : State) (fn ctx : Nat) (src dst : List (Nat × Nat × Nat)) : Bool :=
  !s.inParish fn ctx ||
    ((src ++ dst).all fun r => (s.doorSlot fn ctx r.2.2).isSome && (s.doorSlot fn ctx (r.2.2 + r.2.1 - 1)).isSome)
    && (joinHost dst).all fun r => (r.2.2 - s.fld fn ctx Reg.DSTP_DOOR0.DATA * 4096) % 4096 == 0

/-! ## Progress of a move -/

/-- The address that a move's request to a host page carries: translated where the move holds an ATS translation (R230). -/
def MoveOp.hostAt (m : MoveOp) (a : Nat) : Nat :=
  match m.hosts.find? (a / 4096) with
  | some p => p * 4096 + a % 4096
  | none => a

/-- The 4 KiB pages of a host run. -/
def hostPages (a len : Nat) : List Nat := (List.range ((a % 4096 + len + 4095) / 4096)).map (a / 4096 + ·)

/-- A move takes the ATS translations of its host pages from those that its function holds; the first page that awaits one
otherwise (R230). -/
def State.takeHosts (s : State) (fn : Nat) (m : MoveOp) : List Nat → Except Nat MoveOp
  | [] => .ok m
  | p :: ps =>
    if !(s.atsOf fn).on || (m.hosts.find? p).isSome then State.takeHosts s fn m ps
    else match (s.atsOf fn).cached.find? p with
      | none => .error p
      | some h => State.takeHosts s fn { m with hosts := m.hosts.put p h } ps

/-- The reads of host memory that a move's engine issues (R230, R402): its runs, or the whole records of a parish context
with their tag entries. -/
def State.askHost (s : State) (fn ctx : Nat) (m : MoveOp) (x : XTab) : State :=
  if s.inParish fn ctx then
    let base := s.fld fn ctx Reg.DSTP_DOOR0.DATA * 4096
    (joinHost (m.hostSrc x)).foldl (fun (s : State) r =>
      let first := (r.2.2 - base) / 4096
      (List.range ((r.2.2 - base + r.2.1 - 1) / 4096 - first + 1)).foldl (fun (s : State) i =>
        (s.send (.hostRead fn (s.fld fn ctx Reg.DSTP_DOOR1.TAGS * 32 + 32 * (first + i)) 32)).send
          (.hostRead fn (base + 4096 * (first + i)) 4096)) s) s
  else
    (m.hostSrc x).foldl (fun (s : State) r => s.send (.hostRead fn (m.hostAt r.2.2) r.2.1)) s

/-- A move's pages translated and its requests to other nodes sent. Answers the translations when nothing failed. -/
def State.progress (s : State) (n tag : Nat) : Option XTab × State :=
  match s.move? n tag with
  | none => (none, s)
  | some m =>
    let (fn, ctx, _) := s.coreFn n
    let (bad, x, m, s) := s.xlateMove n m m.accesses
    match bad with
    | some (a, acc, t) => (none, s.xlateFailed n m a acc t)
    | none =>
      let s := s.setMove n m
      if m.arith.1 ≠ 0 && x.any (fun e => e.2.1 == .mso && match e.2.2 with
          | .host _ => true
          | _ => false) || (m.op == 6 && x.any fun e => match e.2.2 with
          | .host _ => true
          | _ => false) then (none, s.moveFault n m 9 m.v0 true)
      else
        let host := m.hostSrc x ++ m.hostDst x
        if !s.doorOk fn ctx (m.hostSrc x) (m.hostDst x) then (none, s.moveFault n m 7 m.v0 true)
        else match s.takeHosts fn m (host.flatMap fun r => hostPages r.2.2 r.2.1) with
          | .error page => (none, s.askAts n tag fn page)
          | .ok m =>
            if m.made then (some x, (s.setMove n m).pumpMove n tag x)
            else
              let rs := (m.farReqs x).map (stampRoute (s.moveRoutes n m))
              let m : MoveOp :=
                { m with made := true, reqs := rs, farAt := (rs.filter fun r => r.kind == 1 || r.kind == 2).map (·.pos) }
              let s := (s.setMove n m).askHost fn ctx m x
              (some x, s.pumpMove n tag x)

/-- The move's list of entries is read from its list tile (R128). -/
def State.readList (s : State) (n : Nat) (m : MoveOp) : List Nat :=
  if m.op = 3 ∨ m.op = 4 then
    let d := (m.tds.getD 1 (0, 0)).2
    (List.range m.v0).map fun i => leNat ((s.core n).cur.store.getRun (tdBase d + 8 * i) 8)
  else []

/-- The version numbers of a partition's sieve tables in force (R164); none stands for an empty table. -/
def State.sieveVers (s : State) (fn : Nat) : List Nat :=
  (List.range 16).map fun t => match s.sieve.find? (key2 fn t) with
    | some x => (x.cur.map (·.num)).getD 0
    | none => 0

/-- A move starts (R72): its list and sieve tables are taken, and its first requests go out, in the windows of a port where it
has one. -/
def State.startMove (s : State) (n : Nat) (m : MoveOp) (inSlot : Option Nat) : State :=
  let fn := (s.coreFn n).1
  let m := { m with
    started := true, inSlot := inSlot, epoch := s.coreEpoch n, list := s.readList n m
    routes := if fn = 0 then [] else s.routeTable (fn - 1)
    vers := if m.isSieve then s.sieveVers fn else [] }
  (((s.setMove n m).advanced n (6 + m.eng)).progress n m.tag).2

/-- The Lyston port that a move with SLOT leaves by: that of the first page beyond one, if any (R288, R291). -/
def State.slotPort (s : State) (n : Nat) (m : MoveOp) : Option Nat :=
  let fn := (s.coreFn n).1
  let m := { m with list := s.readList n m }
  m.accesses.findSome? fun a =>
    if !vaOk a.1 then none
    else match s.walkTr false fn a.1 a.2 (s.walk fn a.1).1 with
      | .far node _ _ => (s.routeToNode (fn - 1) node).map fun r => r.ports.getD 0 0
      | _ => none

/-- A flag of a port's schedule registers with its copy in the bound partition's PCTL window and INTC (R295). -/
def State.schedFlag (s : State) (p : Nat) (f g : Fld) : State :=
  let s := s.raise 0 p f
  if s.fld 0 p Reg.DCTL_LYS_PCFG.BOUND = 1 then
    let fn := vf (s.fld 0 p Reg.DCTL_LYS_PCFG.PART)
    (s.raise fn p g).intc fn 6
  else s

/-- A move with SLOT starts as unscheduled traffic (R291). -/
def State.fallBack (s : State) (p : Nat) : State :=
  (s.schedFlag p Reg.DCTL_LYS_SCHED.FALLBACK Reg.PCTL_SCHED_STAT.FALLBACK).satAdd 0 p Reg.DCTL_LYS_SCHEDCNT.FALLBACKS 1

/-- Whether a core has lost the windows that name it: it is late (R292), or is copied in this beat (R314). -/
def State.slotsLost (s : State) (n : Nat) : Bool := (s.core n).late || s.movingCore n

/-- How a move with SLOT starts now, outside a window (R291): none while it waits; else whether it falls back and on
which port. -/
def State.slotStart (s : State) (n : Nat) (m : MoveOp) : Option (Option Nat) :=
  match s.slotPort n m with
  | none => if m.issued < s.tick then some none else none
  | some p =>
    if !s.tableServes p || s.slotsLost n then some (some p)
    else if m.issued < s.tick && !(s.windows p).any fun w => winNames w n m.tag then some (some p)
    else none

/-- A queued move of an engine starts if it may (R72, R131); a core in a shuttered domain starts none (R431). -/
def State.tryStart (s : State) (n eng : Nat) : State :=
  let c := s.core n
  match c.cur.moves.find? fun m => m.eng == eng && !m.started with
  | none => s
  | some m =>
    if s.coreShut n || !c.cur.moveReady m then s
    else if !m.sched then s.startMove n m none
    else match (s.slotPort n m).filter fun p => s.winServes p n m.tag && !s.slotsLost n with
      | some p => s.startMove n m (some p)
      | none => match s.slotStart n m with
        | none => s
        | some none => s.startMove n m none
        | some (some p) => (s.fallBack p).startMove n m none

/-- MOVE_START (R72, R131). -/
def execMoveStart (core eng : Nat) (s : State) : Host.Outcome State Fault Refusal := .next (s.tryStart core eng)

/-! ## Completion (R71) -/

/-- A move leaves its queue: its tag is free, a fault it still held closes, and what waited for it goes on. -/
def State.dropMove (s : State) (n tag : Nat) : State :=
  let s := match s.move? n tag with
    | some m => (s.detach n tag).advanced n (6 + m.eng)
    | none => s.detach n tag
  let c := s.core n
  let moves := c.cur.moves.filter fun m => m.tag != tag
  (s.setCore n { c with cur := { c.cur with moves := moves } }).pump n

/-- One destination piece of a move is written; answers the KIND it faults with, if any. A contribution of it may wait at its
unit (R206), and the move with it. -/
def State.putPiece (s : State) (n fn : Nat) (m : MoveOp) (x : XTab) (r : Run) (d : List Byte) (bad : Bool) :
    Option Nat × State :=
  let d := m.padded r.pos d
  match r.dst with
  | .core o =>
    if bad then (some 8, s)
    else
      let c := s.core n
      (none, s.setCore n { c with cur := { c.cur with store := c.cur.store.setRun o d } })
  | .va a =>
    let (op, e) := m.arith
    match x.look a (if op = 0 then .wr else .mso) with
    | .loc pa log =>
      let s := if log && fn != 0 then s.dirtyRun (fn - 1) pa d.length else s
      if op = 0 then
        let (f, s) := s.writeMem pa d bad
        (if f then some 8 else none, s)
      else
        let (waits, s) := if s.mayWait pa (op - 1) e bad then s.drawBool else (false, s)
        if waits then (none, (s.postContrib pa e d s.nextOwed).owe none (some (n, m.tag)))
        else
          let (st, s) := s.mso pa (op - 1) e d bad
          (if st = 3 then some 8 else if st = 4 then some 9 else none, s)
    | _ => (if bad then some 8 else none, s)

/-- Every destination piece in turn; the first KIND met is kept. -/
def State.putPieces (s : State) (n fn : Nat) (m : MoveOp) (x : XTab) : List Run → Option Nat × State
  | [] => (none, s)
  | r :: rs =>
    if m.farAt.contains r.pos then State.putPieces s n fn m x rs
    else match s.srcBytes n fn m x r.pos r.len m.srcPieces with
    | (none, s) => (none, s)
    | (some (d, bad), s) =>
      let (k, s) := s.putPiece n fn m x r d bad
      let (k', s) := State.putPieces s n fn m x rs
      (k.or k', s)

/-- Bytes written to host memory, each 4 KiB page at the address that the move holds for it (R230). -/
def MoveOp.sendPages (m : MoveOp) : Nat → State → Nat → List Byte → State
  | 0, s, _, _ => s
  | f + 1, s, a, d =>
    if d.isEmpty then s
    else
      let k := min d.length (4096 - a % 4096)
      MoveOp.sendPages m f (s.send (.host (m.hostAt a) (d.take k))) (a + k) (d.drop k)

/-- Host writes of a move: plain bytes, or whole sealed records in a parish context (R402). Poisoned bytes are not written; the
move faults for them (R53). -/
def State.putHost (s : State) (n fn ctx : Nat) (m : MoveOp) (x : XTab) : State :=
  (joinHost (m.hostDst x)).foldl (fun s r =>
    match s.srcBytes n fn m x r.1 r.2.1 m.srcPieces with
    | (none, s) => s
    | (some (d, bad), s) =>
      if bad then s
      else if s.inParish fn ctx then
        State.writeDoor fn ctx (d.length / 4096 + 1) s ((s.doorSlot fn ctx r.2.2).getD 0) d
      else m.sendPages (d.length / 4096 + 2) s r.2.2 (m.padded r.1 d)) s

/-- Whether every unit that a move needs now runs: local sources can be read, and local destinations take writes. -/
def State.moveUnits (s : State) (m : MoveOp) (x : XTab) : Bool :=
  (m.srcPieces.all fun r => match r.src with
    | .core _ => true
    | .va a => hasRun m.buf r.pos r.len || match x.look a .rd with
      | .loc pa _ => s.runReady pa r.len
      | _ => true)
  && (m.dstPieces.all fun r => m.farAt.contains r.pos || match r.dst with
    | .core _ => true
    | .va a => match x.look a (if m.arith.1 = 0 then .wr else .mso) with
      | .loc pa _ => !s.paStopped pa && s.countersRoom pa r.len
      | _ => true)

/-- VERIFY reads of a move's local sources compare both copies first (R195). -/
def State.moveVerify (s : State) (m : MoveOp) (x : XTab) : State :=
  m.srcPieces.foldl (fun s r => match r.src with
    | .core _ => s
    | .va a => match x.look a .rd with
      | .loc pa _ => s.verifyRun pa r.len
      | _ => s) s

/-- The result of an ATOM is written to its operand block (R130). -/
def State.atomResult (s : State) (n : Nat) (m : MoveOp) (r : AtomRes) : State :=
  let c := s.core n
  s.setCore n { c with cur := { c.cur with
    store := c.cur.store.setRun (m.v1 + 32) (leBytes 16 r.found.toNat ++ leBytes 1 r.stored.toNat) } }

/-- An ATOM has been answered: its result, the counts of a CLAIM, then completion or its exception. -/
def State.atomDone (s : State) (n : Nat) (m : MoveOp) (r : AtomRes) : State :=
  let fn := (s.coreFn n).1
  let cmp := leNat ((s.core n).cur.store.getRun m.v1 16)
  let s := if opf m.f 45 44 = 2 then s.claimStat fn cmp r else s
  let s := s.atomResult n m r
  if r.status = 3 then s.moveFault n m 8 m.v0 true else s.dropMove n m.tag

/-- A local ATOM is applied at its unit, once that runs. -/
def State.atomHere (s : State) (n : Nat) (m : MoveOp) (x : XTab) : State :=
  let fn := (s.coreFn n).1
  match x.look m.target .mso with
  | .loc pa log =>
    let size := if opf m.f 45 44 = 2 then 16 else 8
    if s.paStopped pa || !s.countersRoom pa size then s
    else
      let s := if log && fn != 0 then s.dirtyRun (fn - 1) pa size else s
      let st := (s.core n).cur.store
      let (r, s) := s.atomOp (opf m.f 45 44) pa (s.fld 0 0 Reg.DCTL_NODE.NODE) (leNat (st.getRun m.v1 16))
        (leNat (st.getRun (m.v1 + 16) 16))
      s.atomDone n m r
  | _ => s

/-- Contributions of a move that wait at their units are applied now (R206). -/
def State.flushOwed (s : State) (n tag : Nat) : State :=
  let ids := (s.owing.filter fun o => o.move == some (n, tag)).map (·.id)
  let at_ := (s.contribs.filter fun c => ids.contains c.owed).map (·.pa)
  s.flushContribs at_.contains

/-- A move whose requests have all been answered completes (R71): its remaining bytes are written, its tag is freed, and
a fault met on the way is its exception. A move whose contributions wait completes when they are applied (R209). -/
def State.completeMove (s : State) (n tag : Nat) (ext : List Byte) : State :=
  match s.move? n tag with
  | none => s
  | some m0 =>
    if !m0.started || m0.fid.isSome then s
    else if m0.applied then s.flushOwed n tag
    else if m0.isSieve then (if m0.outAt = m0.total then s.dropMove n tag else s)
    else
      match s.progress n tag with
      | (none, s) => s
      | (some x, s) =>
        match s.move? n tag with
        | none => s
        | some m =>
          let (fn, ctx, _) := s.coreFn n
          let src := m.hostSrc x
          if ext.length < s.hostNeed fn ctx src && !hasRun m.buf (src.getD 0 (0, 0, 0)).1 1 then s
          else
            let filled : Option (Tab Byte) :=
              if src.isEmpty || hasRun m.buf (src.getD 0 (0, 0, 0)).1 1 then some m.buf
              else if s.inParish fn ctx then s.fillDoor fn ctx (joinHost src) ext m.buf
              else some (fillHost m.buf src ext)
            match filled with
            | none => (s.raise fn ctx Reg.DSTP_SESSION.TAG_FAIL).moveFault n m 0xB m.v0 true
            | some buf =>
              let m := { m with buf := buf }
              let s := (s.setMove n m).pumpMove n tag x
              match s.move? n tag with
              | none => s
              | some m =>
                if !m.reqs.isEmpty then s
                else if m.op = 6 then s.atomHere n m x
                else
                  let s := s.moveVerify m x
                  if !s.moveUnits m x then s
                  else
                    let (k, s) := s.putPieces n fn m x m.dstPieces
                    let s := s.putHost n fn ctx m x
                    let s := s.setMove n { m with applied := true }
                    match k with
                    | some k => s.moveFault n m k m.v0 true
                    | none => if s.owing.any fun o => o.move == some (n, tag) then s else s.dropMove n tag

/-! ## Walks, replayable faults and their closing -/

/-- A page of a started move is walked (R231): the TLBs fill, or the move faults. -/
def State.walkMove (s : State) (n tag va : Nat) : State :=
  match s.move? n tag with
  | none => s
  | some m =>
    if !m.started || m.fid.isSome then s
    else match m.accesses.find? fun a => a.1 / 65536 == va / 65536 with
      | none => s
      | some (_, acc) =>
        let (t, m, s) := s.xlateFor n m va acc
        if t.good then s.setMove n m else s.xlateFailed n m va acc t

/-- TRANSLATION_WALK (R231, R237). -/
def execTranslationWalk (core tag va : Nat) (s : State) : Host.Outcome State Fault Refusal :=
  .next (s.walkMove core tag va)

/-- Whether a page of a move meets a replayable condition now. -/
def State.replays (s : State) (n tag va : Nat) : Bool :=
  let fn := (s.coreFn n).1
  match s.move? n tag with
  | none => false
  | some m => match m.accesses.find? fun a => a.1 / 65536 == va / 65536 with
    | none => false
    | some (_, acc) => vaOk va && (s.heldTr m fn va acc).isNone && match s.walkTr (s.moveOld n m) fn va acc (s.walk fn va).1 with
      | .replay _ _ => true
      | _ => false

/-- REPLAYABLE_FAULT (R89, R238): a page that meets a replayable condition stalls its move. -/
def execReplayableFault (core tag va : Nat) (s : State) : Host.Outcome State Fault Refusal :=
  .next (if s.replays core tag va then s.walkMove core tag va else s)

/-- RETRY (R239): every move attached to the fault walks again. -/
def State.retryFault (s : State) (fn fid : Nat) : State :=
  match s.faults.find? fun o => o.fn == fn && o.entry && o.id == fid with
  | none => s.raise fn 0 Reg.XLAT_STAT.BAD_RESUME
  | some o =>
    o.moves.foldl (fun s m => match s.move? m.1 m.2 with
      | some x => if x.fid == some fid then s.setMove m.1 { x with fid := none } else s
      | none => s) (s.closeFault fn fid)

/-- ABORT (R239): every move attached faults with KIND 0x6. -/
def State.abortFault (s : State) (fn fid : Nat) : State :=
  match s.faults.find? fun o => o.fn == fn && o.entry && o.id == fid with
  | none => s.raise fn 0 Reg.XLAT_STAT.BAD_RESUME
  | some o =>
    o.moves.foldl (fun s m => match s.move? m.1 m.2 with
      | some x => if x.fid == some fid then s.moveFault m.1 x 6 o.va true else s
      | none => s) (s.closeFault fn fid)

/-- RETRY (R239). -/
def execRetry (fn fid : Nat) (s : State) : Host.Outcome State Fault Refusal := .next (s.retryFault fn fid)
/-- ABORT (R239). -/
def execAbort (fn fid : Nat) (s : State) : Host.Outcome State Fault Refusal := .next (s.abortFault fn fid)

/-! ## The sieve (R156 to R168) -/

/-- The version of a table that a move started under (R164). -/
def State.sieveTable (s : State) (fn : Nat) (m : MoveOp) (t : Nat) : Option (Nat × List Nat) :=
  let v := m.vers.getD t 0
  match s.sieve.find? (key2 fn t) with
  | none => none
  | some x =>
    ((x.cur.toList ++ x.held).find? fun y => y.num == v && v != 0).map fun y => (y.width, y.lens)

/-- Requests for the rest of the 4 KiB unit of a source on another node (R166). -/
def State.sieveAsk (s : State) (n : Nat) (m : MoveOp) (va node pa : Nat) (log : Bool) : State :=
  let k := 4096 - va % 4096
  let rs : List Req := (List.range ((va % 512 + k + 511) / 512)).filterMap fun i =>
    let a := max va (va / 512 * 512 + 512 * i)
    let e := va / 512 * 512 + 512 * (i + 1)
    if e ≤ a then none
    else some ⟨0, 0, node, a - m.sieveVa, e - a, pa / 4096 * 4096 + a % 4096, 0, false, false, 0, 0, [], log⟩
  let x : XTab := [(va, .rd, .far node pa log)]
  let m := { m with reqs := m.reqs ++ rs.map (stampRoute (s.moveRoutes n m)) }
  (s.setMove n m).pumpMove n m.tag x

/-- What a sieve has of its source from a position on. -/
inductive SieveIn where
  | bytes (d : List Byte) (bad : Bool)
  /-- The stream ends before the bytes asked for (R167). -/
  | short
  | wait
  deriving DecidableEq, Repr

/-- A sieve's host page is read: its 4 KiB-aligned unit, once (R166, R230). -/
def State.sieveHost (s : State) (fn : Nat) (m : MoveOp) (off h : Nat) : State :=
  if hasRun m.buf off 1 then s else s.send (.hostRead fn (m.hostAt h / 4096 * 4096) 4096)

/-- Source bytes of a sieve move from `off` on: the core store up to the end that moves may read, memory of this package,
bytes that other nodes sent, or the block that the host brought (`blk` holds the bytes from the block's first on). -/
def State.sieveBytes (s : State) (n : Nat) (blk : List Byte) : Nat → MoveOp → Nat → Nat → SieveIn × MoveOp × State
  | 0, m, _, _ => (.bytes [] false, m, s)
  | f + 1, m, off, len =>
    let va := m.sieveVa + off
    if len = 0 then (.bytes [] false, m, s)
    else if m.sieveCore then
      if (s.core n).storeLimit < va + len then (.short, m, s)
      else (.bytes ((s.core n).cur.store.getRun va len) (m.spoiled off len), m, s)
    else
      let k := min len (4096 - va % 4096)
      let fn := (s.coreFn n).1
      let (t, m, s) := s.xlateFor n m va .rd
      let here : SieveIn × MoveOp × State := match t with
        | .loc pa _ =>
          let s := s.verifyRun pa k
          if s.runReady pa k then
            let r := s.readMem pa k
            (.bytes r.data (r.bad || m.spoiled off k), m, r.st)
          else (.wait, m, s)
        | .far node pa l =>
          if hasRun m.buf off k then (.bytes (m.buf.getRun off k) (m.spoiled off k), m, s)
          else
            let s := s.setMove n m
            let s := if m.reqs.isEmpty then s.sieveAsk n m va node pa l
              else s.pumpMove n m.tag [(va, .rd, .far node pa l)]
            (.wait, (s.move? n m.tag).getD m, s)
        | .host h =>
          match s.takeHosts fn m (hostPages h k) with
          | .error page => (.wait, m, (s.setMove n m).askAts n m.tag fn page)
          | .ok m =>
            let d := (blk.drop (off - m.srcAt)).take k
            if d.length = k then (.bytes d (m.spoiled off k), m, s)
            else if blk.isEmpty then (.wait, m, s.sieveHost fn m off h)
            else (.short, m, s)
        | t =>
          let s := s.xlateFailed n m va .rd t
          (.wait, (s.move? n m.tag).getD m, s)
      match here with
      | (.bytes d b, m, s) =>
        match State.sieveBytes s n blk f m (off + k) (len - k) with
        | (.bytes d' b', m, s) => (.bytes (d ++ d') (b || b'), m, s)
        | r => r
      | r => r

/-- A refused block (R167): counted, flagged and logged UCE-C with its cause, and its move faults with KIND 0x8. -/
def State.refuseBlock (s : State) (n : Nat) (m : MoveOp) (cause : Nat) : State :=
  let (fn, ctx, _) := s.coreFn n
  let s := (s.satAdd fn 0 Reg.PCTL_SIEVE_STAT.ERR_BLOCKS 1).setFld fn 0 Reg.PCTL_SIEVE_STAT.LAST_CAUSE cause
  let s := (s.raise fn 0 Reg.PCTL_SIEVE_STAT.SIEVE_ERR).intc fn 5
  let s := s.logErr { ErrRec.of 1 0x0A with
    status := 0x14, cause := cause, unit := unitCore n, ctx := some ctx, tag := m.tag
    part := if fn = 0 then none else some (fn - 1) }
  s.moveFault n m 8 (m.sieveVa + m.srcAt) false

/-- Output bytes placed at their positions of a move's destination (R166). -/
def State.sieveOut (s : State) (n : Nat) (m : MoveOp) (d : List Byte) : State :=
  let place (st : Tab Byte) (r : Run) : Tab Byte :=
    let lo := max m.outAt r.pos
    let hi := min (m.outAt + d.length) (r.pos + r.len)
    if hi ≤ lo then st
    else match r.dst with
      | .core o => st.setRun (o + (lo - r.pos)) (m.padded lo ((d.drop (lo - m.outAt)).take (hi - lo)))
      | .va _ => st
  let c := s.core n
  s.setCore n { c with cur := { c.cur with store := m.runs.foldl place c.cur.store } }

/-- A block of a sieve move fails the checks of R167 for the causes listed; a free choice decides among them (log 36). -/
def State.failBlock (s : State) (n : Nat) (m : MoveOp) (fails : List Nat) : State :=
  let (k, s) := s.draw
  s.refuseBlock n m (fails.getD (k % fails.length) 0)

/-- One block of a sieve move, once it has arrived whole (R157, R166 to R168): earlier blocks have been written already. A
block whose header arrived poisoned has no length; one that the stream's end cuts fails for that (log 114). -/
def State.sieveBlock (s : State) (n tag : Nat) (blk : List Byte) (isPoisoned : Bool) : State :=
  match s.move? n tag with
  | none => s
  | some m =>
    if !m.started || m.fid.isSome || !m.isSieve || m.total ≤ m.outAt then s
    else
      match s.sieveBytes n blk 3 m m.srcAt 16 with
      | (.wait, m, s) => if (s.move? n tag).isSome && m.fid.isNone then s.setMove n m else s
      | (.short, m, s) => (s.setMove n m).failBlock n m [5]
      | (.bytes hdr hb, m, s) =>
        if hb then (s.setMove n m).failBlock n m [6]
        else
          let len := if yebHeader hdr then yebLen hdr else 16
          match s.sieveBytes n blk 4 m m.srcAt len with
          | (.wait, m, s) => if (s.move? n tag).isSome && m.fid.isNone then s.setMove n m else s
          | (.short, m, s) => (s.setMove n m).failBlock n m [5]
          | (.bytes b bb, m, s) =>
            let (fails, out) := yebCheck b (s.sieveTable (s.coreFn n).1 m (yebTable b)) (isPoisoned || bb)
              (m.total - m.outAt)
            if fails.isEmpty then
              (s.sieveOut n m out).setMove n { m with srcAt := m.srcAt + len, outAt := m.outAt + out.length }
            else (s.setMove n m).failBlock n m fails

/-- SIEVE_BLOCK_DECODE (R157, R167). -/
def execSieveBlockDecode (core tag : Nat) (blk : List Byte) (poisoned : Bool) (s : State) :
    Host.Outcome State Fault Refusal :=
  .next (s.sieveBlock core tag blk poisoned)

/-! ## Engine exceptions (R88) -/

/-- Whether a core has the engine work that an exception names: a started move, or a started engine instruction. -/
def CoreState.hasWork (c : CoreState) (x : ExcSrc) : Bool :=
  if x.slot = 3 then c.moves.any fun m => m.tag == x.tag && m.eng == x.eng && m.started
  else
    let e := if x.slot = 2 then 4 + x.eng else x.eng
    (x.slot == 1 || x.slot == 2) && ((c.engq.filter (·.eng == e))[x.qpos]?.map (·.started)).getD false

/-- The bundle of the work that an exception names. -/
def CoreState.workBundle (c : CoreState) (x : ExcSrc) : Nat :=
  if x.slot = 3 then ((c.moves.find? (·.tag == x.tag)).map (·.bundle)).getD 0
  else ((c.engq.filter (·.eng == (if x.slot = 2 then 4 + x.eng else x.eng)))[x.qpos]?.map (·.bundle)).getD 0

/-- An imprecise exception of an executing engine (R88, R90): its KIND is one of 0x6 to 0xB. -/
def State.engineExc (s : State) (n : Nat) (x : ExcSrc) : State :=
  let c := s.core n
  if c.running && !c.stopped && decide (6 ≤ x.kind ∧ x.kind ≤ 0xB) && c.cur.hasWork x then
    let s := s.recordExc n false (c.cur.workBundle x) x
    let e := if x.slot = 3 then 6 + x.eng else if x.slot = 2 then 4 + x.eng else x.eng
    (s.stopCore n (s.coreFn n).1).failLaunch n (kindStatus x.kind) x.kind (0x3000 + 8 * n + e) x.va x.tag true
  else s

/-- ENGINE_EXCEPTION (R88). -/
def execEngineException (core : Nat) (x : ExcSrc) (s : State) : Host.Outcome State Fault Refusal :=
  .next (s.engineExc core x)

end Sys2Proof.Machine
end

