-- ==== Sys2Proof/Machine/Link.lean ====
section
/-! DEFINITION. Receiving cells on a Lyston port: link errors and replay (R254, R268, R278), field and binding checks,
refusals (R271, R273), forwarding (R270, R293) and gathered acknowledgements (R264). -/

namespace Sys2Proof.Machine

open Sys2Proof

/-! ## Link errors (R278) -/

/-- The partition that a port is bound to. -/
def State.boundPart (s : State) (p : Nat) : Option Nat :=
  if s.fld 0 p Reg.DCTL_LYS_PCFG.BOUND = 1 then some (s.fld 0 p Reg.DCTL_LYS_PCFG.PART) else none

/-- A CE of a port, at most one per beat (R273, R278). -/
def State.portCE (s : State) (p : Nat) : State :=
  if (s.port p).ceBeat = some s.now then s
  else (s.setPort p { s.port p with ceBeat := some s.now }).logCE 0x0B 0 (unitPort p) (s.boundPart p)

/-- A NAK names the first sequence that is missing (R268). Its layout is the model's own (log 41): four bytes of sequence,
then whether the cell there met a full scheduled pool (R267). -/
def State.sendNak (s : State) (p : Nat) (ovf : Bool) : State :=
  s.sendLink p (linkCell 5 (leBytes 4 (s.port p).rxSeq ++ leBytes 1 ovf.toNat))

/-- A bad cell on a port: every later one is discarded until the replay comes (R254, R268). -/
def State.badCell (s : State) (p : Nat) (ovf : Bool) : State :=
  (s.setPort p { s.port p with awaiting := true }).sendNak p ovf

/-- Buffers of a receiving port that hold cells of a pool (R266): requests not yet served, forwarded cells that wait at their
output port, and in the scheduled pool the cells held for windows (R267). -/
def State.buffered (s : State) (p k : Nat) : Nat :=
  (s.inbound.filter fun i => i.port == p && cellPool i.cell == k).length
    + (s.ports.map fun e => (e.2.wait.filter fun x => x.held == some (p, k)).length).sum
    + (if k = 7 then (s.port p).fwd.length else 0)

/-- A CREDIT_ACK (R266, R268): the last sequence received in order, then for each of the eight pools a cumulative count of the
cells whose buffers are free again. The layout is the model's own (log 41). -/
def State.sendCreditAck (s : State) (p : Nat) : State :=
  let t := s.port p
  s.sendLink p (linkCell 4 (leBytes 4 ((t.rxSeq + 2 ^ 32 - 1) % 2 ^ 32)
    ++ (List.range 8).flatMap fun (k : Nat) =>
      leBytes 2 ((t.recv.get 0 k + 65536 - (if k = 7 then 0 else s.buffered p k)) % 65536)))

/-! ## Leaving ACTIVE (R278, R279) -/

/-- Whether a cell is a request (R261). -/
def isRequest (c : Cell) : Bool := c.typ == 2 || c.typ == 4 || c.typ == 6 || c.typ == 7 || c.typ == 9

/-- The cell that answers a request with a status and no data, toward its source by the links crossed so far (R270,
R273). -/
def refusal (node p : Nat) (c : Cell) (st : Nat) : Cell :=
  let c := { c with nhop := c.hop }
  if c.typ = 2 then respond node p c 3 st []
  else if c.typ = 7 then respond node p c 8 st []
  else respond node p c 5 0 (leBytes 4 (c.ttag + st * 2 ^ 24))

/-- A request is answered with a status and no data on the port it came by. -/
def State.refuse (s : State) (p : Nat) (c : Cell) (st : Nat) : State :=
  s.sendCell p (refusal (s.fld 0 0 Reg.DCTL_NODE.NODE) p c st)

/-- Whether a package other than this one sent a request cell that a buffer holds: it has crossed a link already. -/
def fromAfar (c : Cell) : Bool := decide (1 < c.hop)

/-- A forwarded request that is lost is answered REFUSED over the links it had crossed (R279): it came by the port that
replaced its last ROUTE entry. -/
def State.refuseLost (s : State) (c : Cell) : State :=
  s.refuse (c.route.getD (c.hop - 1) 0) { c with hop := c.hop - 1 } 1

/-- A table that is in service acts as SUSPENDED (R287), and an open window passes unused (R280). -/
def State.suspend (s : State) (p : Nat) : State :=
  let s := if s.fld 0 p Reg.DCTL_LYS_SCHED.STATE = 1 then s.setFld 0 p Reg.DCTL_LYS_SCHED.STATE 2 else s
  s.setPort p { s.port p with openWin := none, winLeft := 0 }

/-! ## Route errors (R273) -/

/-- A cell that cannot be accepted or forwarded: discarded, counted and flagged, with at most one CE per port per beat; a
request is answered REFUSED toward its source. -/
def State.routeErr (s : State) (p : Nat) (c : Cell) (mismatch : Bool) : State :=
  let s := s.satAdd 0 p Reg.DCTL_LYS_CNT1.DROP 1
  let s := (s.raise 0 p (if mismatch then Reg.DCTL_LYS_PSTAT.VD_MISMATCH else Reg.DCTL_LYS_PSTAT.ROUTE_ERR)).portCE p
  if isRequest c && decide (1 ≤ c.hop ∧ c.hop ≤ 6) then s.refuse p c 1 else s

/-! ## Acknowledgements (R264) -/

/-- Whether two acknowledgements may share a cell: one source, virtual device, route and channel. -/
def Ack.joins (a b : Ack) : Bool :=
  a.src == b.src && a.vd == b.vd && a.vc == b.vc && a.route == b.route && a.nhop == b.nhop && a.epoch == b.epoch

/-- The WR_ACK of a group of acknowledgements: four bytes each, TTAG and status. -/
def ackCell (node : Nat) (a : Ack) (g : List Ack) : Cell :=
  { cellOf 5 a.vc with
    nhop := a.nhop, hop := 1, route := a.route, src := node, vd := a.vd, epoch := a.epoch, len := 4 * g.length - 1
    payload := g.flatMap fun (x : Ack) => leBytes 4 (x.ttag % 2 ^ 18 + x.status % 64 * 2 ^ 24) }

/-- The acknowledgements that join one are sent, at most 128 in a cell. -/
def State.sendAcks (s : State) (p : Nat) (a : Ack) : State :=
  let t := s.port p
  let g := (t.acks.filter a.joins).take 128
  if g.isEmpty then s
  else
    let s := s.setPort p { t with acks := g.foldl List.erase t.acks }
    s.sendCell p (ackCell (s.fld 0 0 Reg.DCTL_NODE.NODE) a g)

/-- Every acknowledgement that a port gathers is sent. -/
def State.flushAcks (s : State) (p : Nat) : Nat → State
  | 0 => s
  | n + 1 => match (s.port p).acks with
    | [] => s
    | a :: _ => State.flushAcks (s.sendAcks p a) p n

/-- A WR, MSO or LATCH is acknowledged: gathered with others until 128 are there or 100 ns have passed. `acc` is the
partition and epoch that it was accepted in, if it was (R309). -/
def State.ack (s : State) (p : Nat) (c : Cell) (acc : Option (Nat × Nat)) (st : Nat) : State :=
  let a : Ack := ⟨c.vd, reverseRoute p c, c.nhop, respVc c.vc, c.src, c.epoch, c.ttag, st, acc⟩
  let t := s.port p
  let s := s.setPort p { t with acks := t.acks ++ [a] }
  if 128 ≤ ((s.port p).acks.filter a.joins).length then s.sendAcks p a else s

/-! ## Forwarding (R270, R293) -/

/-- Whether a FWD window for an input port is open on an output port with cell times left. -/
def State.fwdWindow (s : State) (o p : Nat) : Bool :=
  s.tableServes o && decide (0 < (s.port o).winLeft) && match (s.port o).openWin with
    | some i => match (s.windows o)[i]? with
      | some w => winKind w == 2 && winIn w == p
      | none => false
    | none => false

/-- Whether a cell held at an input port leaves in the open window now: the port has room, and no earlier cell of that input
port still waits to leave unscheduled (R293, R296). -/
def State.fwdOpen (s : State) (o p : Nat) : Bool :=
  s.fwdWindow o p && s.slotRoom o && !((s.port o).wait.any fun x => x.held == some (p, 7))

/-- Whether such a window is open or still to come in this beat. -/
def State.fwdRemains (s : State) (o p : Nat) : Bool :=
  s.fwdWindow o p || s.tableServes o && ((s.windows o).drop (s.port o).winAt).any fun w => winKind w == 2 && winIn w == p

/-- A scheduled cell of an input port leaves unscheduled, subject to credit, and is counted (R293). -/
def State.fwdMiss (s : State) (p o : Nat) (c : Cell) : State :=
  let s := s.schedFlag o Reg.DCTL_LYS_SCHED.FWD_MISS Reg.PCTL_SCHED_STAT.FWD_MISS
  (s.satAdd 0 o Reg.DCTL_LYS_SCHEDCNT.FWD_CELLS 1).sendHeld o { c with sched := false } (some (p, 7))

/-- A scheduled cell of an input port leaves in the window open on its output port. -/
def State.fwdSend (s : State) (p o : Nat) (c : Cell) : State :=
  let t := s.port o
  (s.setPort o { t with winLeft := t.winLeft - 1 }).sendHeld o c (some (p, 7))

/-- Cells held at an input port for an output port leave in arrival order: in the open window while it has time, and as
misses when no window remains. -/
def State.pumpFwd (s : State) (p o : Nat) : Nat → State
  | 0 => s
  | n + 1 =>
    let t := s.port p
    match t.fwd.find? (·.1 == o) with
    | none => s
    | some x =>
      let s' := s.setPort p { t with fwd := t.fwd.erase x }
      if s.fwdOpen o p then State.pumpFwd (s'.fwdSend p o x.2) p o n
      else if s.fwdRemains o p then s
      else State.pumpFwd (s'.fwdMiss p o x.2) p o n

/-- What input ports hold for an output port is looked at again: a window has opened or closed, or the port has room. -/
def State.pumpHeld (s : State) (o : Nat) : State :=
  (List.range 32).foldl (fun (s : State) p => s.pumpFwd p o ((s.port p).fwd.length + 1)) s

/-- No window is left for what input ports hold for an output port: it leaves unscheduled (R293). -/
def State.missHeld (s : State) (o : Nat) : State :=
  (List.range 32).foldl (fun (s : State) p =>
    ((s.port p).fwd.filter (·.1 == o)).foldl (fun (s : State) x =>
      (s.setPort p { s.port p with fwd := (s.port p).fwd.erase x }).fwdMiss p o x.2) s) s

/-- A cell that has not arrived is forwarded on ROUTE entry HOP, which takes the number of the port it came by. -/
def State.forward (s : State) (p : Nat) (c : Cell) : State :=
  let o := c.route.getD c.hop 0
  if !s.portUp o then s.routeErr p c false
  else if !s.carries o c.vd then s.routeErr p c true
  else
    let pool := cellPool c
    let c := { c with route := c.route.set c.hop p, hop := c.hop + 1 }
    if c.sched then
      let t := s.port p
      (s.setPort p { t with fwd := t.fwd ++ [(o, c)] }).pumpFwd p o (t.fwd.length + 1)
    else s.sendHeld o c (some (p, pool))

/-! ## Reception -/

/-- Whether every field of a request or response cell is in range (R260, R261, R273). -/
def cellFields (c : Cell) : Bool :=
  decide (1 ≤ c.nhop ∧ c.nhop ≤ 6 ∧ 1 ≤ c.hop ∧ c.hop ≤ c.nhop ∧ c.route.length = 6)
    && cellWidths c && (c.route.all fun r => decide (r < 32))
    && (if isRequest c then c.vc == 0 || c.vc == 2 else c.vc == 1 || c.vc == 3)
    && (if c.typ = 2 then c.payload.isEmpty && decide (c.len < 512)
      else if c.typ = 3 then c.payload.isEmpty && c.len == 0 || c.payload.length == c.len + 1 && decide (c.len < 512)
      else if c.typ = 4 then c.payload.length == c.len + 1 && decide (c.len < 512)
      else if c.typ = 5 then c.payload.length == c.len + 1 && c.payload.length % 4 == 0 && decide (c.payload.length ≤ 512)
      else if c.typ = 6 then c.payload.length == c.len + 1 && decide (c.len < 512)
        && decide (c.op / 16 ≤ 2 ∧ bitOf c.op 3 = false ∧ c.op % 8 ≤ 5)
        && c.payload.length % efmtBytes (c.op % 8) == 0
      else if c.typ = 7 then c.payload.length == 32 && c.len == 31 && decide (c.op ≤ 2)
      else if c.typ = 8 then c.payload.isEmpty && c.len == 0 || c.payload.length == 17 && c.len == 16
      else c.payload.length == 8 && c.len == 7 && decide (c.addr < 4096))

/-- A tag that fails (R265, R278): counted, flagged and logged, and the cell is bad. -/
def State.tagFailure (s : State) (p : Nat) : State :=
  let t := s.port p
  let s := s.setPort p { t with tagFails := t.tagFails + 1 }
  ((s.satAdd 0 p Reg.DCTL_LYS_CNT1.TAG_FAIL 1).raise 0 p Reg.DCTL_LYS_PSTAT.TAG_FAIL).portCE p

/-- A sequenced cell opened under the link key (R265, R418): the counter is the far BASE and the sequence that is due. An
unsealed port takes the cell as it is. -/
def State.unseal (s : State) (p : Nat) (c : Cell) : Option Cell :=
  let t := s.port p
  if s.sealing p then
    openCell (s.keyOf 7) (cellNonce (s.fld 0 p Reg.DCTL_LYS_PSTAT.FAR_NODE) (s.fld 0 p Reg.DCTL_LYS_PSTAT.FAR_PORT) false
      (t.rxBase + t.rxSeq)) c
  else some { c with tag := noTag }

/-- A sequenced cell reaches a port (R254, R265 to R268): answers the cell where it is received good and in order. -/
def State.receive (s : State) (p : Nat) (c : Cell) : Option Cell × State :=
  let t := s.port p
  if !s.portActive p || (t.awaiting && !c.resync) then (none, s)
  else
    let s := s.setPort p { t with awaiting := false }
    match s.unseal p c with
    | none => (none, (s.tagFailure p).badCell p false)
    | some c =>
      if c.sched && decide (576 ≤ s.buffered p 7) then
        (none, (s.raise 0 p Reg.DCTL_LYS_PSTAT.SCHED_OVF).badCell p true)
      else
        let t := s.port p
        (some { c with resync := false }, s.setPort p { t with
          rxSeq := (t.rxSeq + 1) % 2 ^ 32
          rxUsed := if s.sealing p then t.rxBase + t.rxSeq + 1 else t.rxUsed
          recv := if c.sched then t.recv else t.recv.set 0 (cellPool c) ((t.recv.get 0 (cellPool c) + 1) % 65536) })

/-- Whether a TYPE is reserved (R261). -/
def typeReserved (t : Nat) : Bool := t == 0 || decide (0xD ≤ t)

/-- A request or response cell received in order is checked, forwarded, or handed on where it has arrived (R270,
R271). Before release it is discarded (R479). A cell with a reserved TYPE arrives under any row of the table (log 8) and is a
route error (R261). -/
def State.route (s : State) (p : Nat) (c : Cell) (here : Cell → State → State) : State :=
  match s.receive p c with
  | (none, s) => s
  | (some c, s) =>
    if !s.inService then s
    else if typeReserved c.typ || !cellFields c then s.routeErr p c false
    else if !s.carries p c.vd then s.routeErr p c true
    else if c.hop < c.nhop then s.forward p c
    else here c s

/-- A cell under the TYPE of the row that it arrives by, unless its own is reserved. -/
def cellUnder (c : Cell) (t : Nat) : Cell := if typeReserved c.typ then c else { c with typ := t }

end Sys2Proof.Machine
end

