-- ==== Sys2Proof/Machine/Target.lean ====
section
/-! DEFINITION. Requests that have arrived at this package: the check of R310 and their service (R227, R264). -/

namespace Sys2Proof.Machine

open Sys2Proof

/-! ## The check at the target (R310) -/

/-- The draining epoch of a partition, if one drains. -/
def State.drainEpoch (s : State) (q : Nat) : Option Nat :=
  if s.fld 0 q Reg.DCTL_COMP_PART0.DRAINING = 1 then some (s.fld 0 q Reg.DCTL_COMP_PART0.DRAIN_EPOCH) else none

/-- A partition's own moves of an epoch that have started and not completed (R309). -/
def State.ownMoves (s : State) (q e : Nat) : Nat :=
  (s.cores.map fun n => if (s.coreFn n.1).1 == vf q then
    (n.2.cur.moves.filter fun m => m.started && m.epoch == e).length else 0).sum

/-- Whether a partition has released a granule (R311). -/
def State.released (s : State) (q g : Nat) : Bool :=
  if g < 16 then bitOf (s.fld 0 q Reg.DCTL_COMP_REL0.CEL) g
  else if g < 64 then bitOf (s.fld 0 q Reg.DCTL_COMP_REL0.T1) (g - 16)
  else bitOf (s.fld 0 q Reg.DCTL_COMP_REL1.T2) (g - 64)

/-- The check of R310 for the bytes that a request names: the epoch that it counts in, or the status that refuses it. -/
def State.targetCheck (s : State) (q pa len : Nat) : Except Nat Nat :=
  if s.partShut q then .error 6
  else match s.mapped pa, s.mapped (pa + len - 1) with
    | some a, some b =>
      let g := a.granule pa
      if b.granule (pa + len - 1) ≠ g then .error 1
      else if s.owns q g then .ok (s.fld 0 q Reg.DCTL_COMP_PART0.CUR_EPOCH)
      else match s.drainEpoch q, s.draining q with
        | some e, some x =>
          if x.c.granules.contains g then (if 0 < s.ownMoves q e then .ok e else .error 5)
          else .error (if s.released q g then 5 else 1)
        | _, _ => .error (if s.released q g then 5 else 1)
    | _, _ => .error 1

/-! ## Service -/

/-- Bytes that a request names. -/
def reqLen (c : Cell) : Nat := if c.typ = 2 then c.len + 1 else if c.typ = 7 then (if c.op = 2 then 16 else 8) else c.payload.length

/-- The first byte that a request touches: an operation's address is aligned down to its element (R129, R130). -/
def reqAddr (c : Cell) : Nat :=
  if c.typ = 6 then c.addr / efmtBytes (c.op % 8) * efmtBytes (c.op % 8)
  else if c.typ = 7 then c.addr / reqLen c * reqLen c
  else c.addr

/-- Whether a request's units run, so that it can be served now (R191, R201, R416). -/
def State.canServe (s : State) (c : Cell) : Bool :=
  if c.typ = 2 then s.runReady (reqAddr c) (reqLen c)
  else !s.paStopped (reqAddr c) && s.countersRoom (reqAddr c) (reqLen c)

/-- A read, write or operation is served at its memory and answered (R264, R260), for partition `q` in epoch `e`. `dirty` is
set in the log of the member partition (R241). -/
def State.serve (s : State) (p q e : Nat) (c : Cell) : State :=
  let node := s.fld 0 0 Reg.DCTL_NODE.NODE
  let pa := reqAddr c
  let s := if c.log && c.typ != 2 then s.dirtyRun q pa (reqLen c) else s
  if c.typ = 2 then
    let r := s.readMem pa (reqLen c)
    r.st.sendCell p (respond node p c 3 (if r.bad then 3 else 0) r.data)
  else if c.typ = 4 then
    let (f, s) := s.writeMem pa c.payload c.poison
    s.ack p c (some (q, e)) (if f then 3 else 0)
  else if c.typ = 6 then
    let (waits, s) := if s.mayWait pa (c.op / 16) (c.op % 8) c.poison then s.drawBool else (false, s)
    if waits then (s.postContrib pa (c.op % 8) c.payload s.nextOwed).owe (some (p, c, q, e)) none
    else
      let (st, s) := s.mso pa (c.op / 16) (c.op % 8) c.payload c.poison
      s.ack p c (some (q, e)) st
  else
    let (r, s) := s.atomOp c.op pa c.src (leNat (c.payload.take 16)) (leNat (c.payload.drop 16))
    s.sendCell p (respond node p c 8 r.status (leBytes 16 r.found.toNat ++ leBytes 1 r.stored.toNat))

/-- An arrived request is checked under R310, and served or kept until its units run. -/
def State.target (s : State) (p : Nat) (c : Cell) : State :=
  match s.boundPart p with
  | none => s.routeErr p c true
  | some q =>
    match s.targetCheck q (reqAddr c) (reqLen c) with
    | .error st => if c.typ = 2 ∨ c.typ = 7 then s.refuse p c st else s.ack p c none st
    | .ok e => if s.canServe c then s.serve p q e c else { s with inbound := s.inbound ++ [⟨p, c, q, e⟩] }

/-- Requests that waited are served in the order of their arrival as their units run. -/
def State.serveWaiting (s : State) : State :=
  s.inbound.foldl (fun (s : State) (i : Inbound) =>
    if s.inbound.contains i && s.canServe i.cell then
      ({ s with inbound := s.inbound.erase i } : State).serve i.port i.part i.epoch i.cell else s) s

/-- A request accepted and not served is answered with a status. -/
def State.dropInbound (s : State) (i : Inbound) (st : Nat) : State :=
  let s := { s with inbound := s.inbound.erase i }
  if i.cell.typ = 2 ∨ i.cell.typ = 7 then s.refuse i.port i.cell st else s.ack i.port i.cell none st

/-- A LATCH cell that has arrived (R310, R354): it is served while its partition is ACTIVE, and acknowledged once the
latch has dealt with the value. -/
def State.latchCell (s : State) (p : Nat) (c : Cell) : State :=
  match s.boundPart p with
  | none => s.routeErr p c true
  | some q =>
    if s.partShut q then s.ack p c none 6
    else if s.fld 0 q Reg.DCTL_COMP_PART0.STATE = 1 ∧ s.vdOf q = c.vd then
      let (st, s) := s.signal (vf q) c.addr (BitVec.ofNat 64 (leNat c.payload))
      s.ack p c none st
    else s.ack p c none 1

/-! ## Acknowledgements that waited (R206, R209) -/

/-- An acknowledgement is given: to the cell's source, or to a move of this package, which completes or faults. -/
def State.giveOwed (s : State) (o : Owing) : State :=
  let s := { s with owing := s.owing.filter fun x => x.id != o.id }
  match o.cell, o.move with
  | some (p, c, q, e), _ => s.ack p c (some (q, e)) o.status
  | none, some (n, tag) =>
    match s.move? n tag with
    | none => s
    | some m =>
      if o.status ≠ 0 then s.moveFault n m 8 m.v0 true
      else if s.owing.any fun x => x.move == some (n, tag) then s
      else s.dropMove n tag
  | none, none => s

/-- Every acknowledgement whose contribution is applied throughout is given. -/
def State.settleApplied (s : State) : State :=
  (s.owing.filter fun o => !s.contribs.any fun c => c.owed == o.id).foldl State.giveOwed s

/-- Contributions that wait at some addresses are applied and acknowledged. -/
def State.flushUnits (s : State) (p : Nat → Bool) : State := (s.flushContribs p).settleApplied

/-- CRITICAL_TEMPERATURE (R191, R221): contributions that wait at the unit are applied as requests already issued, and it
stops. -/
def execCriticalTemperature (unit temp : Nat) (s : State) : Host.Outcome State Fault Refusal :=
  .next (if s.critical unit temp then
    (s.flushUnits fun pa => (place pa).any fun x => x.unit == unit).stopUnit unit temp
  else s)

/-- MOVE_COMPLETE (R71): `ext` holds what the move's host reads brought. -/
def execMoveComplete (core tag : Nat) (ext : List Byte) (s : State) : Host.Outcome State Fault Refusal :=
  .next (s.completeMove core tag ext).settleApplied

/-! ## The commands at the units -/

/-- A memory-side operation reaches its unit, once the unit runs and its counters have room (R191, R416); a logged one sets
the dirty bits of its pages (R241). -/
def State.unitOp (s : State) (pa len : Nat) (log : Bool) (fn : Nat) (op : State → State) :
    Host.Outcome State Fault Refusal :=
  if s.runMapped pa len && (s.mapped pa).isSome then
    .next (if s.paStopped pa || !s.countersRoom pa len then s
      else
        let s := op s
        if log && fn != 0 then s.dirtyRun (fn - 1) pa len else s)
  else .fault (.unmappedAddress pa)

/-- MEMORY_SIDE_ADD (R205): a floating-point contribution may wait to be combined (R206). -/
def execMemorySideAdd (pa efmt : Nat) (data : List Byte) (poisoned log : Bool) (fn : Nat) (s : State) :
    Host.Outcome State Fault Refusal :=
  s.unitOp pa data.length log fn fun s =>
    let (waits, s) := if s.mayWait pa 0 efmt poisoned then s.drawBool else (false, s)
    if waits then (s.postContrib pa efmt data s.nextOwed).owe none none
    else ((s.mso pa 0 efmt data poisoned).2).settleApplied

/-- MEMORY_SIDE_MAX (R205). -/
def execMemorySideMax (pa efmt : Nat) (data : List Byte) (poisoned log : Bool) (fn : Nat) (s : State) :
    Host.Outcome State Fault Refusal :=
  s.unitOp pa data.length log fn fun s => (s.mso pa 1 efmt data poisoned).2

/-- MEMORY_SIDE_MIN (R205). -/
def execMemorySideMin (pa efmt : Nat) (data : List Byte) (poisoned log : Bool) (fn : Nat) (s : State) :
    Host.Outcome State Fault Refusal :=
  s.unitOp pa data.length log fn fun s => (s.mso pa 2 efmt data poisoned).2

/-- MEMORY_SIDE_SWAP (R214). -/
def execMemorySideSwap (pa : Nat) (new : U64) (log : Bool) (fn : Nat) (s : State) : Host.Outcome State Fault Refusal :=
  s.unitOp pa 8 log fn fun s => (s.swap pa new.toNat).2

/-- MEMORY_SIDE_CAS (R214). -/
def execMemorySideCas (pa : Nat) (cmp new : U64) (log : Bool) (fn : Nat) (s : State) :
    Host.Outcome State Fault Refusal :=
  s.unitOp pa 8 log fn fun s => (s.cas pa cmp.toNat new.toNat).2

/-- MEMORY_SIDE_CLAIM (R216), counted for the function that issued it (R219). -/
def execMemorySideClaim (pa requester : Nat) (cmp new : BitVec 128) (log : Bool) (fn : Nat) (s : State) :
    Host.Outcome State Fault Refusal :=
  s.unitOp pa 16 log fn fun s =>
    let (r, s) := s.claim pa requester cmp.toNat new.toNat
    s.claimStat fn cmp.toNat r

/-! ## The commands -/

/-- RD_REQ (R260, R310). -/
def execRdReq (port : Nat) (c : Cell) (s : State) : Host.Outcome State Fault Refusal :=
  .next (s.route port (cellUnder c 2) fun c s => s.target port c)

/-- WR (R260, R187, R310). -/
def execWr (port : Nat) (c : Cell) (s : State) : Host.Outcome State Fault Refusal :=
  .next (s.route port (cellUnder c 4) fun c s => s.target port c)

/-- MSO (R261, R205, R310). -/
def execMso (port : Nat) (c : Cell) (s : State) : Host.Outcome State Fault Refusal :=
  .next (s.route port (cellUnder c 6) fun c s => (s.target port c).settleApplied)

/-- ATOM (R261, R214 to R217, R310). -/
def execAtom (port : Nat) (c : Cell) (s : State) : Host.Outcome State Fault Refusal :=
  .next (s.route port (cellUnder c 7) fun c s => s.target port c)

/-- LATCH (R354, R310). -/
def execLatch (port : Nat) (c : Cell) (s : State) : Host.Outcome State Fault Refusal :=
  .next (s.route port (cellUnder c 9) fun c s => s.latchCell port c)

/-- ACK_GATHER_TIMEOUT (R264). -/
def execAckGatherTimeout (port : Nat) (s : State) : Host.Outcome State Fault Refusal :=
  .next (s.flushAcks port (s.port port).acks.length)

end Sys2Proof.Machine
end

