-- ==== Sys2Proof/Machine/Answer.lean ====
section
/-! DEFINITION. Responses that come back to this package: the status of each request (R263, R132, R312, R436) and the
answers to latch signals (R84, R352, R509). -/

namespace Sys2Proof.Machine

open Sys2Proof

/-! ## Signals -/

/-- A latch signal has been answered with a status: a CE for LATCH.SIG refused or fenced (R84) and for a completion latch
answered other than OK (R352); a LATCH_SIGNAL command completes (R509). -/
def State.sigDone (s : State) (g : SigOut) (st : Nat) : State :=
  let s := { s with sigs := s.sigs.erase g }
  if g.kind = 2 then
    s.finish g.fn g.q g.sq g.g (if st = 0 then 0 else if st = 7 then 0x1B else if st = 6 then 0x16 else 0x11) 0 false
  else if (if g.kind = 0 then st != 0 && st != 7 else st != 0) then
    s.logCE 0x0B 0 (if g.fn = 0 then 0 else unitPart (g.fn - 1)) (if g.fn = 0 then none else some (g.fn - 1))
  else s

/-! ## Moves -/

/-- The request that a transaction tag names: its core, move and request (R260). -/
def State.reqOf (s : State) (t : Nat) : Option (Nat × MoveOp × Req) :=
  (s.core (t / 512)).cur.moves.findSome? fun m =>
    if m.eng == t / 256 % 2 then (m.reqs.find? fun r => r.sent && r.id == t % 256).map fun r => (t / 512, m, r) else none

/-- A request answered EPOCH_STALE is reissued once, with RTY, under the current map (R312): the translation that it used is
given up. -/
def State.reissue (s : State) (n : Nat) (m : MoveOp) (r : Req) : State :=
  let fn := (s.coreFn n).1
  let (va, _) := m.reqVa r
  let s := (s.raise fn 0 Reg.PCTL_COMP_STAT.STALE).satAdd fn 0 Reg.PCTL_COMP_STAT.STALE_RETRIES 1
  let r' : Req := { r with sent := false, retried := true, nhop := 0, ports := [] }
  let m := { m.swapReq r r' with leaves := m.leaves.filter fun e => !e.covers fn (va / 65536) }
  (s.setMove n m).pumpMove n m.tag []

/-- A move answered FENCED (R132, R436): the command of a virtual device's member is held for an alarm of its peers; any
other completes FENCED. -/
def State.fenceMove (s : State) (n : Nat) : State :=
  match (s.core n).launch.bind s.launch? with
  | none => s.stopCore n 0
  | some l =>
    let s := s.stopCore n l.fn
    if l.phase = 7 then s
    else if l.fn ≠ 0 ∧ s.vdOf (l.fn - 1) ≠ 0 then
      if s.fenced.any fun h => h.fn == l.fn && h.q == l.q && h.sq == l.sq && h.g == l.g then s
      else { s with fenced := s.fenced ++ [⟨l.fn, l.q, l.sq, l.g, s.tick⟩] }
    else s.finishLaunch l 0x16 0 false

/-- A move that has taken an answer goes on: its next requests go out. -/
def State.takeAnswer (s : State) (n : Nat) (m : MoveOp) : State :=
  let s := s.setMove n m
  if m.fid.isSome then s
  else if m.isSieve then s.pumpMove n m.tag []
  else (s.progress n m.tag).2

/-- A request of a move has been answered: its bytes or its result are taken, or the move retries or fails (R132). -/
def State.answerMove (s : State) (n : Nat) (m : MoveOp) (r : Req) (st : Nat) (data : List Byte) : State :=
  let s := s.advanced n (6 + m.eng)
  if st = 0 then
    if r.kind = 3 then
      s.atomDone n (m.without r) ⟨0, BitVec.ofNat 128 (leNat (data.take 16)), (data.getD 16 0) == 1⟩
    else
      s.takeAnswer n { m.without r with buf := if r.kind = 0 then putRun m.buf r.pos (data.take r.len) else m.buf }
  else if st = 5 then
    if r.retried then
      (s.raise (s.coreFn n).1 0 Reg.PCTL_COMP_STAT.STALE).moveFault n m 0xA (m.reqVa r).1 true
    else s.reissue n m r
  else if st = 6 then s.fenceMove n
  else if st = 3 ∧ m.isSieve then
    s.takeAnswer n { m.without r with
      buf := putRun m.buf r.pos (data.take r.len ++ List.replicate (r.len - data.length) 0)
      badAt := m.badAt ++ [(r.pos, r.len)] }
  else if st = 3 ∧ r.kind = 3 then
    s.atomDone n (m.without r) ⟨3, BitVec.ofNat 128 (leNat (data.take 16)), false⟩
  else s.moveFault n m (ansKind st) (m.reqVa r).1 true

/-- A response of kind 0 RD_RESP, 1 WR_ACK, 3 ATOM_RESP for a transaction tag: one that no request of that kind awaits is
discarded. -/
def State.answer (s : State) (t kind st : Nat) (data : List Byte) : State :=
  match s.sigs.find? (fun g => g.ttag == t), s.reads.find? fun r => r.ttag == t && r.answer.isNone with
  | some g, _ => if kind = 1 then s.sigDone g st else s
  | none, some r => if kind = 0 then s.readAnswered r st data else s
  | none, none => match s.reqOf t with
    | none => s
    | some (n, m, r) =>
      if (if kind = 1 then r.kind == 1 || r.kind == 2 else r.kind == kind) then s.answerMove n m r st data else s

/-- A response with data is used only where its length fits (R261). -/
def State.answerCell (s : State) (p kind : Nat) (c : Cell) : State :=
  match s.reads.find? (fun r => r.ttag == c.ttag && r.answer.isNone), s.reqOf c.ttag with
  | some r, _ =>
    if c.op = 0 ∧ kind = 0 ∧ c.payload.length ≠ r.len then s.routeErr p c false
    else s.answer c.ttag kind c.op c.payload
  | none, some (_, _, r) =>
    if c.op = 0 ∧ c.payload.length ≠ (if kind = 0 then r.len else 17) then s.routeErr p c false
    else s.answer c.ttag kind c.op c.payload
  | none, none => s

/-- The entries of a WR_ACK in order (R264): TTAG and status of each. -/
def ackEntries : Nat → List Byte → List (Nat × Nat)
  | 0, _ => []
  | n + 1, bs => (leField bs 0 4 % 2 ^ 18, leField bs 3 1 % 64) :: ackEntries n (bs.drop 4)

/-- RD_RESP (R263, R273). -/
def execRdResp (port : Nat) (c : Cell) (s : State) : Host.Outcome State Fault Refusal :=
  .next (s.route port (cellUnder c 3) fun c s => s.answerCell port 0 c)

/-- WR_ACK (R264, R132, R312). -/
def execWrAck (port : Nat) (c : Cell) (s : State) : Host.Outcome State Fault Refusal :=
  .next (s.route port (cellUnder c 5) fun c s =>
    (ackEntries (c.payload.length / 4) c.payload).foldl (fun s e => s.answer e.1 1 e.2 []) s)

/-- ATOM_RESP (R261, R263). -/
def execAtomResp (port : Nat) (c : Cell) (s : State) : Host.Outcome State Fault Refusal :=
  .next (s.route port (cellUnder c 8) fun c s => s.answerCell port 3 c)

end Sys2Proof.Machine
end

