-- ==== Sys2Proof/Machine/Bells.lean ====
section
/-! DEFINITION. Raising bells (R469 to R471, R277) and phase hints (R455). -/

namespace Sys2Proof.Machine

open Sys2Proof

/-- A W1C flag of SNAP_STAT set in every function (R471). -/
def State.snapFlag (s : State) (f : Fld) : State := (List.range 33).foldl (fun s fn => s.raise fn 0 f) s

/-- A bell joins the pending ones (R470): those for one beat merge, the first keeping its origin; a full table of 16
drops it. A target at or before the current beat rings at the next edge. -/
def State.addBell (s : State) (origin target : Nat) : State :=
  let t := max target (s.now + 1)
  if s.bells.any (·.target == t) then s
  else if 16 ≤ s.bells.length then s.snapFlag Reg.SNAP_STAT.BELL_DROP
  else { s with bells := s.bells ++ [⟨origin, t⟩] }

/-- A bell cell is sent over a scope (R275, R277): 1 VD, 3 FABRIC. -/
def State.sendBell (s : State) (scope vd target : Nat) : State :=
  let node := s.fld 0 0 Reg.DCTL_NODE.NODE
  let c : Cell := { cellOf 0xB 5 with
    hop := 1, src := node, vd := if scope == 1 then vd else 0, len := 13
    payload := bellPayload node s.bellId scope target vd }
  let s := s.recordFlood 0xB node s.bellId
  ({ s with bellId := (s.bellId + 1) % 65536 } : State).sendAll (s.floodPorts scope vd none) c

/-- Whether a partition may raise the bell (R469). -/
def State.mayBell (s : State) (q : Nat) : Bool := bitOf (s.fld 0 0 Reg.DCTL_SNAP_CFG.PART_BELL) q

/-- A partition raises a bell on this package, or on every member of its virtual device (R110, R469); one that is not
permitted is discarded. -/
def State.partBell (s : State) (fn : Nat) (onVd : Bool) (target : Nat) : State :=
  if fn = 0 then s.addBell 0 target
  else if !s.mayBell (fn - 1) then s
  else
    let s := s.addBell 0 target
    if onVd && s.vdOf (fn - 1) != 0 then s.sendBell 1 (s.vdOf (fn - 1)) target else s

/-- A phase hint (R455): ignored outside RUN. LIGHT cancels every pending HEAVY whose edge is at or after its own,
and a HEAVY that names its very edge also where it comes later (R460). -/
def State.hint (s : State) (isLight : Bool) (lead level : Nat) : State :=
  let edge := s.tick + lead
  if s.fld 0 0 Reg.PWR_STAT.STATE ≠ 3 ∨ (!isLight && s.hints.any fun h => h.light && h.edge == edge) = true then s
  else
    let keep := if isLight then s.hints.filter fun h => h.light || decide (h.edge < edge) else s.hints
    { s with hints := keep ++ [⟨isLight, edge, level⟩] }

end Sys2Proof.Machine
end

