-- ==== Sys2Proof/Machine/Invalidate.lean ====
section
/-! DEFINITION. Invalidation (R234, R235) and the host's translations (R230). -/

namespace Sys2Proof.Machine

open Sys2Proof

/-! ## Invalidation -/

/-- Whether a started move holds a translation that overlaps a scope (R234): a leaf counts whole. A move stalled on a fault
holds none. -/
def MoveOp.uses (m : MoveOp) (r : Option (Nat × Nat)) : Bool :=
  m.started && m.leaves.any fun e => overlaps r e.page (levelPages e.level)

/-- The moves of a function that an invalidation waits for, as (core, move number). -/
def State.movesUsing (s : State) (fn : Nat) (r : Option (Nat × Nat)) : List (Nat × Nat) :=
  (s.cores.filter fun e => e.2.launch.isSome && (s.coreFn e.1).1 == fn).flatMap fun e =>
    (e.2.cur.moves.filter fun m => m.uses r).map fun m => (e.1, m.seq)

/-- An invalidation starts (R234): the caches drop the scope, and it waits for the moves that used it. `cmd` names the
command's queue, sequence number and graph record, and `cfn` its function. -/
def State.startInval (s : State) (fn : Nat) (r : Option (Nat × Nat)) (cmd : Option (Nat × Nat × Option Nat))
    (cfn : Nat := fn) : State :=
  let v : Inval :=
    { id := s.nextInval, fn := fn, range := r, cmd := cmd, cfn := cfn, ats := false, waiting := s.movesUsing fn r }
  let s := s.dropXlat fn r
  { s with nextInval := s.nextInval + 1, invals := s.invals ++ [v] }

/-- Whether every move that an invalidation waits for has completed, been squashed or stalled on a fault. -/
def State.invalReady (s : State) (v : Inval) : Bool :=
  v.waiting.all fun w => !(s.core w.1).cur.moves.any fun m => m.seq == w.2

/-- An invalidation completes (R234, R235, R230): its command, whose memory object is then gone (R360), DCTL_XLAT_INVSTAT, or
the answer to the host (code 2). -/
def State.completeInval (s : State) (v : Inval) : State :=
  let s := { s with invals := s.invals.filter fun x => x.id != v.id }
  if v.ats then s.send (.pcie v.fn 2 v.id)
  else match v.cmd with
    | some (q, sq, g) =>
      let free := (s.qrec v.cfn q sq).filter fun r => recOp r.w == 0x13 || recOp r.w == 0x14
      let s := match free with
        | some r => { s with mobjs := s.mobjs.del (key2 v.cfn (recHandle r.w)) }
        | none => s
      s.finish v.cfn q sq g 0 0 false
    | none => (s.setFld 0 0 Reg.DCTL_XLAT_INVSTAT.BUSY 0).modAdd 0 0 Reg.DCTL_XLAT_INVSTAT.DONE 1

/-- INVALIDATE_COMPLETE (R234). -/
def execInvalidateComplete (id : Nat) (s : State) : Host.Outcome State Fault Refusal :=
  .next (match s.invals.find? (·.id == id) with
    | none => s
    | some v => if s.invalReady v then s.completeInval v else s)

/-- A write of DCTL_XLAT_INV (R235). -/
def State.xlatInv (s : State) (v : Nat) : State :=
  let scope := bits v 62 2
  let pages := bits v 0 16
  if s.fld 0 0 Reg.DCTL_XLAT_INVSTAT.BUSY = 1 ∨ (scope ≠ 1 ∧ scope ≠ 2) ∨ (scope = 2 ∧ pages = 0) then
    s.raise 0 0 Reg.DCTL_XLAT_INVSTAT.IGNORED
  else
    (s.setFld 0 0 Reg.DCTL_XLAT_INVSTAT.BUSY 1).startInval (vf (bits v 57 5))
      (if scope = 1 then none else some (bits v 16 40, pages)) none

/-- DCTL_XLAT_INV_WRITE (R235). -/
def execDctlXlatInvWrite (v : U64) (s : State) : Host.Outcome State Fault Refusal := .next (s.xlatInv v.toNat)

/-! ## ATS and PRI (R230) -/

/-- An ATS invalidation request (R230): the named 4 KiB translations are dropped, and it waits for started moves that
hold one of them. -/
def State.atsInval (s : State) (fn addr pages : Nat) : State :=
  let p := addr / 4096
  let t := s.atsOf fn
  let named (k : Nat) : Bool := decide (p ≤ k) && decide (k < p + pages)
  let users := (s.cores.filter fun e => e.2.launch.isSome && (s.coreFn e.1).1 == fn).flatMap fun e =>
    (e.2.cur.moves.filter fun m => m.started && m.hosts.any fun h => named h.1).map fun m => (e.1, m.seq)
  let s := s.setAts fn { t with cached := t.cached.filter fun e => !named e.1 }
  let v : Inval := { id := s.nextInval, fn := fn, range := none, cmd := none, cfn := fn, ats := true, waiting := users }
  { s with nextInval := s.nextInval + 1, invals := s.invals ++ [v] }

/-- ATS_INVALIDATION (R230): a PCIe address and a count of 4 KiB pages. -/
def execAtsInvalidation (fn va pages : Nat) (s : State) : Host.Outcome State Fault Refusal :=
  .next (s.atsInval fn va pages)

/-- The moves that wait for a page fault with a KIND. -/
def State.failUsers (s : State) (fn page kind : Nat) : State :=
  let users := (s.atsOf fn).users.filter fun u => u.2.2 == page
  let s := s.setAts fn { s.atsOf fn with users := (s.atsOf fn).users.filter fun u => u.2.2 != page }
  users.foldl (fun s u => match s.move? u.1 u.2.1 with
    | some m => s.moveFault u.1 m kind m.v0 true
    | none => s) s

/-- Page requests that waited go out as the host's allocation allows: code 3 of `Out.pcie`. -/
def State.pumpPri (s : State) (fn : Nat) : State :=
  let t := s.atsOf fn
  let go := t.waiting.take (t.quota - t.asked.length)
  go.foldl (fun s p => s.send (.pcie fn 3 p))
    (s.setAts fn { t with asked := t.asked ++ go, waiting := t.waiting.drop go.length })

/-- The moves that wait for a page whose page request is out stall as for a replayable fault, and hold no translation
(R230, R234). -/
def State.stallUsers (s : State) (fn page : Nat) : State :=
  ((s.atsOf fn).users.filter fun u => u.2.2 == page).foldl (fun (s : State) u => match s.move? u.1 u.2.1 with
    | some m => s.dropLeaves u.1 m
    | none => s) s

/-- A translation completion (R230): cached and the waiting moves go on; where it grants no access, a page request with
PRI, and otherwise KIND 0x6 (log 39). -/
def State.atsDone (s : State) (fn page host : Nat) (granted : Bool) : State :=
  let t := s.atsOf fn
  if !t.on || !t.users.any (·.2.2 == page) then s
  else if granted then
    let users := t.users.filter fun u => u.2.2 == page
    let s := s.setAts fn { t with
      cached := t.cached.put page (host / 4096), users := t.users.filter fun u => u.2.2 != page }
    users.foldl (fun s u => (s.progress u.1 u.2.1).2) s
  else if !t.pri then s.failUsers fn page 6
  else
    let s := s.stallUsers fn page
    if t.asked.contains page || t.waiting.contains page then s
    else (s.setAts fn { t with waiting := t.waiting ++ [page] }).pumpPri fn

/-- ATS_TRANSLATION_COMPLETION (R230): the PCIe address asked for and the host's address. -/
def execAtsTranslationCompletion (fn va host : Nat) (granted : Bool) (s : State) : Host.Outcome State Fault Refusal :=
  .next (s.atsDone fn (va / 4096) host granted)

/-- A page request response (R230): Success asks for the translation again; anything else is KIND 0x6. -/
def State.priDone (s : State) (fn page : Nat) (success : Bool) : State :=
  let t := s.atsOf fn
  if !t.asked.contains page then s
  else
    let s := (s.setAts fn { t with asked := t.asked.erase page }).pumpPri fn
    if success then s.send (.pcie fn 1 page) else s.failUsers fn page 6

/-- PRI_RESPONSE (R230). -/
def execPriResponse (fn va : Nat) (success : Bool) (s : State) : Host.Outcome State Fault Refusal :=
  .next (s.priDone fn (va / 4096) success)

end Sys2Proof.Machine
end

