-- ==== Sys2Proof/Machine/Scalar.lean ====
section
/-! DEFINITION. Scalar arithmetic, compare and predicates, and loads and stores of the S slot (R96 to R100). -/

namespace Sys2Proof.Machine

open Sys2Proof

/-! ## Formats (R93, R96) -/

/-- AD: the destination is an address register. -/
def srAD (f : BitVec 54) : Bool := bitOf f.toNat 47
/-- AA: the first source is an address register. -/
def srAA (f : BitVec 54) : Bool := bitOf f.toNat 46
/-- AB: the second source is an address register. -/
def srAB (f : BitVec 54) : Bool := bitOf f.toNat 45
/-- U: unsigned. -/
def srU (f : BitVec 54) : Bool := bitOf f.toNat 44
/-- D, [43:38]. -/
def srD (f : BitVec 54) : Nat := opf f 43 38
/-- A, [37:32]. -/
def srA (f : BitVec 54) : Nat := opf f 37 32
/-- B, [31:26]. -/
def srB (f : BitVec 54) : Nat := opf f 31 26
/-- IMM, [31:0]. -/
def siImm (f : BitVec 54) : Nat := opf f 31 0

/-- A 32-bit value sign-extended to 64 bits. -/
def sext32 (i : Nat) : U64 := BitVec.ofInt 64 (signed i 32)

/-- A 6-bit field that may name an address register: then its high 2 bits are zero (R93). -/
def fieldOk (isA : Bool) (r : Nat) : Bool := !isA || decide (r < 16)

/-- A source that is a scalar or an address register. -/
def CoreState.src (c : CoreState) (isA : Bool) (r : Nat) : U64 := if isA then c.ra r else c.rs r

/-- A destination that is a scalar or an address register. -/
def CoreState.dst (c : CoreState) (isA : Bool) (r : Nat) (v : U64) : CoreState := if isA then c.wa r v else c.ws r v

/-- The scalar registers among fields. -/
def scalars (l : List (Bool × Nat)) : List Nat := l.filterMap fun x => if x.1 then none else some x.2

/-- A destination's number. -/
def dstNo (isA : Bool) (r : Nat) : Nat := if isA then dA r else dS r

/-- The request of an SR-format instruction (R94, R96). -/
def srReq (useU : Bool) (f : BitVec 54) : SlotReq :=
  { cls := 0
    ok := sEng f == 0 && fieldOk (srAD f) (srD f) && fieldOk (srAA f) (srA f) && fieldOk (srAB f) (srB f)
      && (useU || !srU f) && opf f 25 0 == 0
    regs := scalars [(srAD f, srD f), (srAA f, srA f), (srAB f, srB f)]
    dests := [dstNo (srAD f) (srD f)]
    always := false }

/-- An SR-format instruction: D is given a function of A and B (R96, R97). -/
def scalarSR (x : Slot) (useU : Bool) (g : Bool → U64 → U64 → U64) (s : State) : State :=
  s.issue x (srReq useU x.f) readyAlways fun base cur =>
    .ok (cur.dst (srAD x.f) (srD x.f)
      (g (srU x.f) (base.src (srAA x.f) (srA x.f)) (base.src (srAB x.f) (srB x.f))), none)

/-- The request of an SI-format instruction (R94, R96); `noA` says that field A must be zero (LI, LIH). -/
def siReq (noA : Bool) (chk : Nat → Bool) (f : BitVec 54) : SlotReq :=
  { cls := 0
    ok := sEng f == 0 && fieldOk (srAD f) (srD f) && fieldOk (srAA f) (srA f) && !srAB f && !srU f
      && (!noA || srA f == 0) && chk (siImm f)
    regs := scalars [(srAD f, srD f), (srAA f, srA f)]
    dests := [dstNo (srAD f) (srD f)]
    always := false }

/-- An SI-format instruction: D is given a function of its old value, A and IMM (R96, R97). -/
def scalarSI (x : Slot) (noA : Bool) (chk : Nat → Bool) (g : U64 → U64 → Nat → U64) (s : State) : State :=
  s.issue x (siReq noA chk x.f) readyAlways fun base cur =>
    .ok (cur.dst (srAD x.f) (srD x.f)
      (g (base.src (srAD x.f) (srD x.f)) (base.src (srAA x.f) (srA x.f)) (siImm x.f)), none)

/-- IMM[31:6] is zero (R97). -/
def immShift (i : Nat) : Bool := decide (i < 64)

/-- Signed quotient toward zero (R97, R98): all ones for a zero divisor, and -2^63 for -2^63 by -1. -/
def divS (a b : U64) : U64 := if b = 0 then BitVec.allOnes 64 else BitVec.ofInt 64 (a.toInt.tdiv b.toInt)

/-- Signed remainder with the sign of A (R97, R98): A for a zero divisor. -/
def remS (a b : U64) : U64 := if b = 0 then a else BitVec.ofInt 64 (a.toInt.tmod b.toInt)

/-- A below B, signed or unsigned (R97). -/
def lessU (u : Bool) (a b : U64) : Bool := if u then decide (a.toNat < b.toNat) else decide (a.toInt < b.toInt)

/-! ## Meanings -/

/-- ADD (R97). -/
def execAdd (x : Slot) (s : State) : Host.Outcome State Fault Refusal :=
  .next (scalarSR x false (fun _ a b => a + b) s)

/-- SUB (R97). -/
def execSub (x : Slot) (s : State) : Host.Outcome State Fault Refusal :=
  .next (scalarSR x false (fun _ a b => a - b) s)

/-- MUL (R97). -/
def execMul (x : Slot) (s : State) : Host.Outcome State Fault Refusal :=
  .next (scalarSR x false (fun _ a b => a * b) s)

/-- MULHU (R97). -/
def execMulhu (x : Slot) (s : State) : Host.Outcome State Fault Refusal :=
  .next (scalarSR x false (fun _ a b => BitVec.ofNat 64 (a.toNat * b.toNat / 2 ^ 64)) s)

/-- DIV (R97). -/
def execDiv (x : Slot) (s : State) : Host.Outcome State Fault Refusal :=
  .next (scalarSR x false (fun _ a b => divS a b) s)

/-- DIVU (R97). -/
def execDivu (x : Slot) (s : State) : Host.Outcome State Fault Refusal :=
  .next (scalarSR x false (fun _ a b => if b = 0 then BitVec.allOnes 64 else BitVec.ofNat 64 (a.toNat / b.toNat)) s)

/-- REM (R97). -/
def execRem (x : Slot) (s : State) : Host.Outcome State Fault Refusal :=
  .next (scalarSR x false (fun _ a b => remS a b) s)

/-- REMU (R97). -/
def execRemu (x : Slot) (s : State) : Host.Outcome State Fault Refusal :=
  .next (scalarSR x false (fun _ a b => if b = 0 then a else BitVec.ofNat 64 (a.toNat % b.toNat)) s)

/-- AND (R97). -/
def execAnd (x : Slot) (s : State) : Host.Outcome State Fault Refusal :=
  .next (scalarSR x false (fun _ a b => a &&& b) s)

/-- OR (R97). -/
def execOr (x : Slot) (s : State) : Host.Outcome State Fault Refusal :=
  .next (scalarSR x false (fun _ a b => a ||| b) s)

/-- XOR (R97). -/
def execXor (x : Slot) (s : State) : Host.Outcome State Fault Refusal :=
  .next (scalarSR x false (fun _ a b => a ^^^ b) s)

/-- SHL (R97). -/
def execShl (x : Slot) (s : State) : Host.Outcome State Fault Refusal :=
  .next (scalarSR x false (fun _ a b => a <<< (b.toNat % 64)) s)

/-- SHR (R97). -/
def execShr (x : Slot) (s : State) : Host.Outcome State Fault Refusal :=
  .next (scalarSR x false (fun _ a b => a >>> (b.toNat % 64)) s)

/-- SRA (R97). -/
def execSra (x : Slot) (s : State) : Host.Outcome State Fault Refusal :=
  .next (scalarSR x false (fun _ a b => a.sshiftRight (b.toNat % 64)) s)

/-- MIN (R97). -/
def execMin (x : Slot) (s : State) : Host.Outcome State Fault Refusal :=
  .next (scalarSR x true (fun u a b => if lessU u a b then a else b) s)

/-- MAX (R97). -/
def execMax (x : Slot) (s : State) : Host.Outcome State Fault Refusal :=
  .next (scalarSR x true (fun u a b => if lessU u a b then b else a) s)

/-- ADDI (R97). -/
def execAddi (x : Slot) (s : State) : Host.Outcome State Fault Refusal :=
  .next (scalarSI x false (fun _ => true) (fun _ a i => a + sext32 i) s)

/-- ANDI (R97). -/
def execAndi (x : Slot) (s : State) : Host.Outcome State Fault Refusal :=
  .next (scalarSI x false (fun _ => true) (fun _ a i => a &&& BitVec.ofNat 64 i) s)

/-- ORI (R97). -/
def execOri (x : Slot) (s : State) : Host.Outcome State Fault Refusal :=
  .next (scalarSI x false (fun _ => true) (fun _ a i => a ||| BitVec.ofNat 64 i) s)

/-- XORI (R97). -/
def execXori (x : Slot) (s : State) : Host.Outcome State Fault Refusal :=
  .next (scalarSI x false (fun _ => true) (fun _ a i => a ^^^ BitVec.ofNat 64 i) s)

/-- SHLI (R97). -/
def execShli (x : Slot) (s : State) : Host.Outcome State Fault Refusal :=
  .next (scalarSI x false immShift (fun _ a i => a <<< (i % 64)) s)

/-- SHRI (R97). -/
def execShri (x : Slot) (s : State) : Host.Outcome State Fault Refusal :=
  .next (scalarSI x false immShift (fun _ a i => a >>> (i % 64)) s)

/-- SRAI (R97). -/
def execSrai (x : Slot) (s : State) : Host.Outcome State Fault Refusal :=
  .next (scalarSI x false immShift (fun _ a i => a.sshiftRight (i % 64)) s)

/-- LI (R97): D is given IMM sign-extended. -/
def execLi (x : Slot) (s : State) : Host.Outcome State Fault Refusal :=
  .next (scalarSI x true (fun _ => true) (fun _ _ i => sext32 i) s)

/-- LIH (R97): D[63:32] is given IMM and D[31:0] is kept. -/
def execLih (x : Slot) (s : State) : Host.Outcome State Fault Refusal :=
  .next (scalarSI x true (fun _ => true) (fun d _ i => BitVec.ofNat 64 (d.toNat % 2 ^ 32 + i * 2 ^ 32)) s)

/-- PD of CMP, CMPI and PSET, [43:41]. -/
def cmpPD (f : BitVec 54) : Nat := opf f 43 41

/-- CMP (R99): PD is given A COND B. -/
def execCmp (x : Slot) (s : State) : Host.Outcome State Fault Refusal :=
  let f := x.f
  .next (s.issue x
    { cls := 0, ok := sEng f == 0 && (cond64 (sMod f) 0 0).isSome && opf f 40 38 == 0 && opf f 25 0 == 0
      regs := [srA f, srB f], dests := [dP (cmpPD f)], always := false } readyAlways fun base cur =>
    match cond64 (sMod f) (base.rs (srA f)) (base.rs (srB f)) with
    | some b => .ok ({ cur with p := writeP cur.p (cmpPD f) b }, none)
    | none => .error (excOf 1))

/-- CMPI (R99): PD is given A COND IMM, sign-extended. -/
def execCmpi (x : Slot) (s : State) : Host.Outcome State Fault Refusal :=
  let f := x.f
  .next (s.issue x
    { cls := 0, ok := sEng f == 0 && (cond64 (sMod f) 0 0).isSome && opf f 40 38 == 0
      regs := [srA f], dests := [dP (cmpPD f)], always := false } readyAlways fun base cur =>
    match cond64 (sMod f) (base.rs (srA f)) (sext32 (siImm f)) with
    | some b => .ok ({ cur with p := writeP cur.p (cmpPD f) b }, none)
    | none => .error (excOf 1))

/-- PSET (R99): PD is given PA POP PB. -/
def execPset (x : Slot) (s : State) : Host.Outcome State Fault Refusal :=
  let f := x.f
  .next (s.issue x
    { cls := 0, ok := sEng f == 0 && (pop (sMod f) true true).isSome && opf f 34 0 == 0
      regs := [], dests := [dP (cmpPD f)], always := false } readyAlways fun base cur =>
    match pop (sMod f) (readP base.p (opf f 40 38)) (readP base.p (opf f 37 35)) with
    | some b => .ok ({ cur with p := writeP cur.p (cmpPD f) b }, none)
    | none => .error (excOf 1))

/-- PMOV (R99): DIR 0 copies the predicates into D, DIR 1 gives p1 to p7 the bits of A; p0 stays. -/
def execPmov (x : Slot) (s : State) : Host.Outcome State Fault Refusal :=
  let f := x.f
  let dir := bitOf f.toNat 44
  .next (s.issue x
    { cls := 0, ok := sEng f == 0 && opf f 47 45 == 0 && opf f 31 0 == 0
      regs := if dir then [srA f] else [srD f]
      dests := if dir then (List.range 7).map fun i => dP (i + 1) else [dS (srD f)]
      always := false } readyAlways fun base cur =>
    if dir then .ok ({ cur with p := BitVec.ofNat 8 ((base.rs (srA f)).toNat % 256 / 2 * 2 + 1) }, none)
    else .ok (cur.ws (srD f) (BitVec.ofNat 64 (base.p.toNat / 2 * 2 + 1)), none))

/-! ## Loads and stores in the core store (R100) -/

/-- The signed byte offset OFF, [23:0]. -/
def lsOff (f : BitVec 54) : Int := signed (opf f 23 0) 24

/-- Bytes of the access, by SIZE [45:44]. -/
def lsSize (f : BitVec 54) : Nat := 2 ^ opf f 45 44

/-- The core-store offset of a load or store: BASE + OFF. -/
def lsAddr (c : CoreState) (f : BitVec 54) : Int := (c.ra (opf f 37 34)).toNat + lsOff f

/-- The checks of a scalar access, in order (R100): alignment, then the data and staging regions, and for a store the
staging region after the first BEAT.END. -/
def lsCheck (store firstEnd : Bool) (a : Int) (n : Nat) : Option ExcSrc :=
  if a % n ≠ 0 then some { excOf 2 with va := wrap a 56 }
  else if a < 0 ∨ (storeEnd : Int) < a + n then some { excOf 3 with va := wrap a 56 }
  else if store && firstEnd && decide ((stagingAt : Int) < a + n) then some { excOf 3 with va := wrap a 56 }
  else none

/-- A loaded value, sign- or zero-extended. -/
def lsExtend (sx : Bool) (n v : Nat) : U64 :=
  if sx then BitVec.ofInt 64 (signed v (8 * n)) else BitVec.ofNat 64 v

/-- Whether a load reads the staging region after the first BEAT.END, so that its data is unspecified (R100). -/
def lsStale (firstEnd : Bool) (a : Int) (n : Nat) : Bool := firstEnd && decide ((stagingAt : Int) < a + n)

/-- Whether a started engine instruction or move still writes a tile, or a MOVE.D its range, that has a byte in the 8 bytes of
an offset (R100). -/
def CoreState.beingWritten (c : CoreState) (a : Nat) : Bool :=
  let tile (tds : List (Nat × BitVec 128)) (wr : List Nat) : Bool :=
    tds.any fun d => wr.contains d.1 && tileTouches d.2 a
  (c.engq.any fun o => o.started && tile o.tds o.wr) || c.moves.any fun m => m.started && (tile m.tds m.wr ||
    m.op == 2 && mdrDstCore m.mdr &&
      (let e := mdrExtent (bits (mdrWord m.mdr 1) 0 56) (mdrD0 m.mdr) ((mdrDims m.mdr).map fun d => (d.1, d.2.2))
       decide (e.1 < (a / 8 * 8 : Nat) + 8) && decide (((a / 8 * 8 : Nat) : Int) < e.2)))

/-- LD (R100). Data from the staging region after the first BEAT.END is a free value, and so is data that an engine or a move
is still writing: the old bytes, the new or a mixture (log 119). -/
def execLd (x : Slot) (s : State) : Host.Outcome State Fault Refusal :=
  let f := x.f
  let fe := (s.core x.core).firstEnd
  let (fv, s) := s.draw
  .next (s.issue x
    { cls := 0, ok := sEng f == 0 && !bitOf f.toNat 47 && opf f 33 24 == 0
      regs := [srD f], dests := [dS (srD f)], always := false } readyAlways fun base cur =>
    let a := lsAddr base f
    let n := lsSize f
    match lsCheck false fe a n with
    | some e => .error e
    | none =>
      let v := if lsStale fe a n || base.beingWritten a.toNat then fv % 2 ^ (8 * n) else leNat (base.store.getRun a.toNat n)
      .ok (cur.ws (srD f) (lsExtend (bitOf f.toNat 46) n v), none))

/-- ST (R100). -/
def execSt (x : Slot) (s : State) : Host.Outcome State Fault Refusal :=
  let f := x.f
  let fe := (s.core x.core).firstEnd
  .next (s.issue x
    { cls := 0, ok := sEng f == 0 && opf f 47 46 == 0 && opf f 33 24 == 0
      regs := [srD f], dests := [], always := false } readyAlways fun base cur =>
    let a := lsAddr base f
    let n := lsSize f
    match lsCheck true fe a n with
    | some e => .error e
    | none => .ok ({ cur with store := cur.store.setRun a.toNat (leBytes n (base.rs (srD f)).toNat) }, none))

end Sys2Proof.Machine
end

