-- ==== Sys2Proof/Machine/Sync.lean ====
section
/-! DEFINITION. Control, special registers, descriptors, waits, latches, hints and the bell of the S slot
(R101 to R107, R109, R110). -/

namespace Sys2Proof.Machine

open Sys2Proof

/-- An S-slot request with scalar registers and destinations. -/
def sReq (f : BitVec 54) (ok : Bool) (regs dests : List Nat) : SlotReq :=
  { cls := 0, ok := sEng f == 0 && ok, regs := regs, dests := dests, always := false }

/-! ## Control -/

/-- TARGET and LEND, [10:0]. -/
def brTarget (f : BitVec 54) : Nat := opf f 10 0

/-- A branch to an index beyond the program's last bundle raises KIND 0x1 (R101). -/
def branchTo (len t : Nat) (c : CoreState) : SlotRun :=
  if t < len then .ok (c, some t) else .error (excOf 1)

/-- BR (R101). -/
def execBr (x : Slot) (s : State) : Host.Outcome State Fault Refusal :=
  let len := (s.core x.core).len
  .next (s.issue x (sReq x.f (opf x.f 47 11 == 0) [] []) readyAlways fun _ cur => branchTo len (brTarget x.f) cur)

/-- BRI (R101): higher bits of A are ignored. -/
def execBri (x : Slot) (s : State) : Host.Outcome State Fault Refusal :=
  let len := (s.core x.core).len
  .next (s.issue x (sReq x.f (opf x.f 47 38 == 0 && opf x.f 31 0 == 0) [srA x.f] []) readyAlways fun base cur =>
    branchTo len ((base.rs (srA x.f)).toNat % 2048) cur)

/-- CALL (R101): D is given the index of the next bundle. -/
def execCall (x : Slot) (s : State) : Host.Outcome State Fault Refusal :=
  let len := (s.core x.core).len
  .next (s.issue x (sReq x.f (opf x.f 47 44 == 0 && opf x.f 37 11 == 0) [srD x.f] [dS (srD x.f)]) readyAlways
    fun base cur => branchTo len (brTarget x.f) (cur.ws (srD x.f) (BitVec.ofNat 64 (base.pc + 1))))

/-- A zero-overhead loop begins (R102): the checks of LEND, nesting and the counter, then the loop, or a skip to the
bundle after LEND for a count of zero. The skip is a taken branch, whose target the next issue checks: DESIGN CHOICE,
log 117. -/
def startLoop (lc last count : Nat) (base cur : CoreState) : SlotRun :=
  if last ≤ base.pc then .error (excOf 1)
  else if base.loops.any fun l => decide (l.last < last) || l.lc == lc then .error (excOf 1)
  else if 4 ≤ base.loops.length then .error (excOf 1)
  else if count = 0 then .ok (cur, some (last + 1))
  else .ok ({ cur with loops := ⟨lc, base.pc + 1, last, count, 0⟩ :: cur.loops }, none)

/-- LC, [43:42]. -/
def loopLc (f : BitVec 54) : Nat := opf f 43 42

/-- LOOP (R101, R102): A[31:0] iterations, latched at issue. -/
def execLoop (x : Slot) (s : State) : Host.Outcome State Fault Refusal :=
  .next (s.issue x (sReq x.f (opf x.f 47 44 == 0 && opf x.f 41 38 == 0 && opf x.f 31 11 == 0) [srA x.f]
      [dL (loopLc x.f)]) readyAlways fun base cur =>
    startLoop (loopLc x.f) (brTarget x.f) ((base.rs (srA x.f)).toNat % 2 ^ 32) base cur)

/-- LOOP.I (R101, R102). -/
def execLoopI (x : Slot) (s : State) : Host.Outcome State Fault Refusal :=
  .next (s.issue x (sReq x.f (opf x.f 47 44 == 0 && opf x.f 41 32 == 0 && bitOf x.f.toNat 11 == false) []
      [dL (loopLc x.f)]) readyAlways fun base cur =>
    startLoop (loopLc x.f) (brTarget x.f) (opf x.f 31 12) base cur)

/-- The request of END and BEAT.END (R75, R103): every other slot of the bundle is NOP, and neither PRED nor PNEG
is used. -/
def endReq (s : State) (x : Slot) : SlotReq :=
  { cls := 0
    ok := x.f == 0 && (s.core x.core).open.slots == 0
    regs := [], dests := [], always := true }

/-- END (R77, R101): nothing more issues, and the core's share completes when END retires. -/
def execEndProg (x : Slot) (s : State) : Host.Outcome State Fault Refusal :=
  .next (s.issue x (endReq s x) readyAlways fun _ cur => .ok ({ cur with hold := .ended }, none))

/-- BEAT.END (R75, R101): nothing more issues until an edge resumes the core. -/
def execBeatEnd (x : Slot) (s : State) : Host.Outcome State Fault Refusal :=
  .next (s.issue x (endReq s x) readyAlways fun _ cur => .ok ({ cur with hold := .beatEnd }, none))

/-! ## Special registers -/

/-- The value of an RDSR selector (R104); none for a reserved one. `acycles` is the count of selector 0x01. -/
def State.special (s : State) (n acycles sel : Nat) : Option Nat :=
  let fn := (s.coreFn n).1
  let q := fn - 1
  let isMember := fn != 0 && s.vdOf q != 0
  match sel with
  | 0x00 => some s.now
  | 0x01 => some acycles
  | 0x02 => some (s.fld 0 n Reg.QOSM_CORE_LATE.LATE)
  | 0x03 => some n
  | 0x04 => some (if isMember then s.fld 0 q Reg.DCTL_COMP_PART0.MEMBER else 0)
  | 0x05 => some (if isMember then s.fld 0 q Reg.DCTL_COMP_PART0.MEMBERS else 0)
  | 0x06 => some (clockMHz (s.fld 0 0 Reg.PWR_STAT.CLK))
  | 0x07 => some (s.fld 0 0 Reg.DCTL_BEAT_CFG.BEAT_LEN * 10000)
  | 0x08 => some q
  | 0x09 => some (s.fld 0 q Reg.DCTL_COMP_PART0.CUR_EPOCH)
  | k =>
    if 0x10 ≤ k ∧ k ≤ 0x13 then
      some ((((s.core n).open.base.loops.find? fun l => l.lc == k - 0x10).map (·.iter)).getD 0)
    else none

/-- RDSR (R104). -/
def execRdsr (x : Slot) (acycles : Nat) (s : State) : Host.Outcome State Fault Refusal :=
  let v := s.special x.core acycles (opf x.f 7 0)
  .next (s.issue x (sReq x.f (opf x.f 47 44 == 0 && opf x.f 37 8 == 0 && v.isSome) [srD x.f] [dS (srD x.f)])
    readyAlways fun _ cur => .ok (cur.ws (srD x.f) (BitVec.ofNat 64 (v.getD 0)), none))

/-! ## Tile descriptors (R105) -/

/-- TD.SET: bits [63:0] are given LO and bits [127:64] HI. -/
def execTdSet (x : Slot) (s : State) : Host.Outcome State Fault Refusal :=
  let f := x.f
  .next (s.issue x (sReq f (opf f 47 44 == 0 && bitOf f.toNat 38 == false && opf f 25 0 == 0)
      [opf f 37 32, opf f 31 26] [dT (opf f 43 39)]) readyAlways fun base cur =>
    let v := (base.rs (opf f 37 32)).toNat + (base.rs (opf f 31 26)).toNat * 2 ^ 64
    .ok ({ cur with td := cur.td.set 0 (opf f 43 39) (BitVec.ofNat 128 v) }, none))

/-- TD.GET: LO is given bits [63:0] and HI bits [127:64]. -/
def execTdGet (x : Slot) (s : State) : Host.Outcome State Fault Refusal :=
  let f := x.f
  .next (s.issue x (sReq f (opf f 47 44 == 0 && opf f 26 0 == 0)
      [opf f 43 38, opf f 37 32] [dS (opf f 43 38), dS (opf f 37 32)]) readyAlways fun base cur =>
    let d := (base.tdv (opf f 31 27)).toNat
    .ok ((cur.ws (opf f 43 38) (BitVec.ofNat 64 d)).ws (opf f 37 32) (BitVec.ofNat 64 (d / 2 ^ 64)), none))

/-- The place of a field of TD.FLD: lowest bit and width (R67, R105); none for a reserved code. -/
def tdField (c : Nat) : Option (Nat × Nat) :=
  match c with
  | 0 => some (0, 21) | 1 => some (57, 14) | 2 => some (71, 13) | 3 => some (84, 16) | 4 => some (100, 4)
  | 5 => some (107, 21) | _ => none

/-- TD.FLD: sets one field to A, or adds A to it, truncated to the field's width. -/
def execTdFld (x : Slot) (s : State) : Host.Outcome State Fault Refusal :=
  let f := x.f
  let i := opf f 43 39
  .next (s.issue x (sReq f ((tdField (opf f 46 44)).isSome && bitOf f.toNat 38 == false && opf f 31 0 == 0)
      [srA f] [dT i]) readyAlways fun base cur =>
    match tdField (opf f 46 44) with
    | none => .error (excOf 1)
    | some (lo, w) =>
      let d := (base.tdv i).toNat
      let a := (base.rs (srA f)).toNat
      let v := if bitOf f.toNat 47 then bits d lo w + a else a
      .ok ({ cur with td := cur.td.set 0 i (BitVec.ofNat 128 (putBits d lo w v)) }, none))

/-! ## Waits (R106) -/

/-- WAIT.TAG: holds issue until every tag of the mask is free. -/
def execWaitTag (x : Slot) (s : State) : Host.Outcome State Fault Refusal :=
  let f := x.f
  .next (s.issue x (sReq f (opf f 47 38 == 0 && opf f 31 0 == 0) [srA f] []) readyAlways fun base cur =>
    .ok ({ cur with hold := .tags (base.rs (srA f)) }, none))

/-- ENG.WAIT: holds issue until every engine of the mask has drained. -/
def execEngWait (x : Slot) (s : State) : Host.Outcome State Fault Refusal :=
  let f := x.f
  .next (s.issue x (sReq f (opf f 47 8 == 0) [] []) readyAlways fun _ cur =>
    .ok ({ cur with hold := .engines (opf f 7 0) }, none))

/-! ## Latches (R82 to R84, R107) -/

/-- LATCH number, [43:32]. -/
def latchNo (f : BitVec 54) : Nat := opf f 43 32

/-- Whether a latch is allocated to the context that a core runs (R84). -/
def State.ownsLatch (s : State) (n l : Nat) : Bool :=
  let (fn, ctx, _) := s.coreFn n
  match s.latch? fn l with
  | some t => t.ctx == ctx
  | none => false

/-- Whether a remote signal names a member of the virtual device (R84). -/
def State.memberOk (s : State) (n m : Nat) : Bool :=
  let q := (s.coreFn n).1 - 1
  (s.coreFn n).1 != 0 && s.vdOf q != 0 && decide (m < s.fld 0 q Reg.DCTL_COMP_PART0.MEMBERS)

/-- LATCH.SIG: posts a signal, sent once every move of its scope that an earlier bundle issued has completed. -/
def execLatchSig (x : Slot) (s : State) : Host.Outcome State Fault Refusal :=
  let f := x.f
  let remote := bitOf f.toNat 25
  let m := opf f 24 17
  let allowed := if remote then s.memberOk x.core m else s.ownsLatch x.core (latchNo f)
  .next (s.issue x (sReq f (opf f 47 44 == 0 && opf f 14 0 == 0 && (remote || m == 0)) [opf f 31 26] [])
    readyAlways fun base cur =>
      if !allowed then .error (excOf 4)
      else .ok ({ cur with
        seq := cur.seq + 1
        sigs := cur.sigs ++ [⟨base.seq, latchNo f, base.rs (opf f 31 26), remote, m, opf f 16 15, s.coreEpoch x.core⟩] }, none))

/-- LATCH.WAIT: holds issue until the latch is at or above the value. -/
def execAcsinLatchWait (x : Slot) (s : State) : Host.Outcome State Fault Refusal :=
  let f := x.f
  let allowed := s.ownsLatch x.core (latchNo f)
  let now := ((s.latch? (s.coreFn x.core).1 (latchNo f)).map (·.val)).getD 0
  .next (s.issue x (sReq f (opf f 47 44 == 0 && opf f 25 0 == 0) [opf f 31 26] []) readyAlways fun base cur =>
    if !allowed then .error (excOf 4)
    else if (base.rs (opf f 31 26)).toNat ≤ now.toNat then .ok (cur, none)
    else .ok ({ cur with hold := .latch (latchNo f) (base.rs (opf f 31 26)) base.pc }, none))

/-- LATCH.TEST: PD tells whether the latch is at or above the value. -/
def execLatchTest (x : Slot) (s : State) : Host.Outcome State Fault Refusal :=
  let f := x.f
  let allowed := s.ownsLatch x.core (latchNo f)
  let now := ((s.latch? (s.coreFn x.core).1 (latchNo f)).map (·.val)).getD 0
  .next (s.issue x (sReq f (opf f 47 44 == 0 && opf f 22 0 == 0) [opf f 31 26] [dP (opf f 25 23)]) readyAlways
    fun base cur =>
      if !allowed then .error (excOf 4)
      else .ok ({ cur with
        p := writeP cur.p (opf f 25 23) (decide ((base.rs (opf f 31 26)).toNat ≤ now.toNat)) }, none))

/-! ## Hints and the bell (R109, R110) -/

/-- The request of PHASE.HEAVY and PHASE.LIGHT: LEAD [11:8] is not zero. -/
def phaseReq (f : BitVec 54) : SlotReq :=
  sReq f (opf f 47 12 == 0 && opf f 7 2 == 0 && opf f 11 8 != 0) [] []

/-- PHASE.HEAVY (R109, R455). -/
def execPhaseHeavy (x : Slot) (s : State) : Host.Outcome State Fault Refusal :=
  .next (s.issueWith x (phaseReq x.f) readyAlways (fun _ cur => .ok (cur, none))
    fun s => s.hint false (opf x.f 11 8) (opf x.f 1 0))

/-- PHASE.LIGHT (R109, R455). -/
def execPhaseLight (x : Slot) (s : State) : Host.Outcome State Fault Refusal :=
  .next (s.issueWith x (phaseReq x.f) readyAlways (fun _ cur => .ok (cur, none))
    fun s => s.hint true (opf x.f 11 8) (opf x.f 1 0))

/-- SNAP.BELL (R110, R469). -/
def execSnapBell (x : Slot) (s : State) : Host.Outcome State Fault Refusal :=
  let f := x.f
  let target := ((s.core x.core).open.base.rs (srA f)).toNat
  .next (s.issueWith x (sReq f (opf f 46 38 == 0 && opf f 31 0 == 0) [srA f] []) readyAlways (fun _ cur => .ok (cur, none))
    fun s => s.partBell (s.coreFn x.core).1 (bitOf f.toNat 47) target)

end Sys2Proof.Machine
end

