-- ==== Sys2Proof/Machine/Seq.lean ====
section
/-! DEFINITION. Sequence slots from code (R85, R86, R108). -/

namespace Sys2Proof.Machine

open Sys2Proof

/-- A slot that nothing is bound to. -/
def SeqSlot.fresh : SeqSlot := { fn := 0, ctx := 0, tokens := 0, pageTokens := 1, pages := [], overflow := 0 }

/-- Page entries held on chip (R85). -/
def chipPages : Nat := 128

/-- Pages that a slot's tokens take. -/
def SeqSlot.pageCount (q : SeqSlot) : Nat := ceilDiv q.tokens q.pageTokens

/-- Where entry `i` of a slot's overflow list lies (log 40). -/
def SeqSlot.spillVa (q : SeqSlot) (i : Nat) : Nat := q.overflow + 8 * (i - chipPages)

/-- The place of a spilled entry for an access (R85): in tier 1 of this package, or the fault of reaching it (R237). -/
def State.spillAt (s : State) (q : SeqSlot) (i : Nat) (acc : Acc) : Except ExcSrc Nat :=
  match s.frontXlate q.fn (q.spillVa i) acc with
  | .loc pa _ => match s.mapped pa with
    | some (.stack _) => .ok pa
    | _ => .error { excOf 6 with va := q.spillVa i }
  | .miss k => .error { excOf k with va := q.spillVa i }
  | _ => .error { excOf 6 with va := q.spillVa i }

/-- One page entry of a slot, or the fault of reading its overflow list (R85, R237). Spilled entries that a slot lists are
those that a late block still sees (R86). -/
def State.seqEntry (s : State) (q : SeqSlot) (i : Nat) : Except ExcSrc Nat :=
  if i < chipPages ∨ (q.pages.find? i).isSome then .ok (q.pages.get 0 i)
  else match s.spillAt q i .rd with
    | .error e => .error e
    | .ok pa => if s.poisoned pa then .error { excOf 8 with va := q.spillVa i } else .ok (leNat (s.mem.getRun pa 8))

/-- Several page entries, or the first fault met. -/
def State.seqEntries (s : State) (q : SeqSlot) : List Nat → Except ExcSrc (List Nat)
  | [] => .ok []
  | i :: is => match s.seqEntry q i, State.seqEntries s q is with
    | .ok x, .ok xs => .ok (x :: xs)
    | .error k, _ => .error k
    | _, .error k => .error k

/-- Whether the unit of a spilled entry runs now (R201). -/
def State.seqReady (s : State) (q : SeqSlot) (i : Nat) : Bool :=
  decide (i < chipPages) || match s.frontXlate q.fn (q.spillVa i) .rd with
    | .loc pa _ => s.unitReady pa
    | .wait => false
    | _ => true

/-- The slot that a SEQ instruction names: A[7:0] with SR, otherwise SLOT (R108). -/
def seqNo (f : BitVec 54) (a : Nat) (base : CoreState) : Nat :=
  if bitOf f.toNat 47 then (base.rs a).toNat % 256 else opf f 7 0

/-- Whether SR, SLOT and A keep R108. -/
def seqForm (f : BitVec 54) (a : Nat) : Bool :=
  opf f 46 44 == 0 && if bitOf f.toNat 47 then opf f 7 0 == 0 else a == 0

/-- A slot as a core's present block sees it (R86). -/
def State.slotSeen (s : State) (n i : Nat) : Option SeqSlot :=
  match (s.core n).oldSlots.find? fun x => x.1 == i with
  | some (_, q) => q
  | none => s.slots.find? i

/-- A slot, if it is bound to the context that a core runs (R85). -/
def State.ownSlot (s : State) (n i : Nat) : Option SeqSlot :=
  let (fn, ctx, _) := s.coreFn n
  (s.slotSeen n i).filter fun q => q.fn == fn && q.ctx == ctx

/-! ## Changes of a slot (R86) -/

/-- Whether a core's block goes on past the present edge: all its instructions see one state of each slot. -/
def Core.midBlock (c : Core) : Bool := c.running && !c.stopped && !(c.cur.hold == .beatEnd && c.atEnd)

/-- A slot as it stands, with spilled entries that are about to change. -/
def State.slotNow (s : State) (i : Nat) (spilled : List Nat) : Option SeqSlot :=
  let read (q : SeqSlot) (t : Tab Nat) (k : Nat) : Tab Nat := match s.seqEntry q k with
    | .ok v => t.put k v
    | .error _ => t
  (s.slots.find? i).map fun q => { q with pages := spilled.foldl (read q) q.pages }

/-- Blocks that run past an edge keep a slot as they have seen it, and spilled entries that change with it. -/
def State.keepSlot (s : State) (i : Nat) (spilled : List Nat) : State :=
  let now := s.slotNow i spilled
  let copy (from_ t : Tab Nat) (k : Nat) : Tab Nat := match t.find? k, from_.find? k with
    | none, some v => t.put k v
    | _, _ => t
  let add (old : Option SeqSlot) : Option SeqSlot := match old, now with
    | some o, some q => some { o with pages := spilled.foldl (copy q.pages) o.pages }
    | _, _ => old
  let keep (c : Core) : Core :=
    if c.midBlock then
      { c with oldSlots := if c.oldSlots.any fun x => x.1 == i then
          c.oldSlots.map fun x => if x.1 == i then (i, add x.2) else x
        else c.oldSlots ++ [(i, now)] }
    else c
  { s with cores := s.cores.mapVals fun _ c => keep c }

/-- Whether the spilled entries of an update can be written: the first fault, if one is met. -/
def State.spillFault (s : State) (q : SeqSlot) (is : List Nat) : Option ExcSrc :=
  is.findSome? fun i => match s.spillAt q i .wr with
    | .error e => some e
    | .ok _ => none

/-- An update takes effect at an edge (R85, R86): the token count, the entries on chip, and those that spill to the overflow
list; or a fault, which changes nothing. -/
def State.seqApply (s : State) (slot fn ctx tokens first : Nat) (pages : List Nat) : Except ExcSrc State :=
  match (s.slots.find? slot).filter fun q => q.fn == fn && q.ctx == ctx with
  | none => .ok s
  | some q =>
    let es := pages.zipIdx.map fun x => (first + x.2, x.1)
    let out := es.filter fun e => decide (chipPages ≤ e.1)
    match s.spillFault q (out.map (·.1)) with
    | some e => .error e
    | none =>
      let s := s.keepSlot slot (out.map (·.1))
      let chip := (es.filter fun e => decide (e.1 < chipPages)).foldl (fun t e => t.put e.1 e.2) q.pages
      let s := out.foldl (fun (s : State) e => match s.spillAt q e.1 .wr with
        | .ok pa => (s.writeMem pa (leBytes 8 e.2) false).2
        | .error _ => s) s
      .ok { s with slots := s.slots.put slot { q with tokens := tokens, pages := chip } }

/-! ## Instructions -/

/-- SEQ.GET (R85, R108). -/
def execSeqGet (x : Slot) (s : State) : Host.Outcome State Fault Refusal :=
  let f := x.f
  .next (s.issue x (sReq f (seqForm f (opf f 31 26) && opf f 25 8 == 0)
      ([opf f 43 38, opf f 37 32] ++ if bitOf f.toNat 47 then [opf f 31 26] else [])
      [dS (opf f 43 38), dS (opf f 37 32)]) readyAlways fun base cur =>
    match s.ownSlot x.core (seqNo f (opf f 31 26) base) with
    | none => .error (excOf 4)
    | some q =>
      .ok ((cur.ws (opf f 43 38) (BitVec.ofNat 64 q.tokens)).ws (opf f 37 32) (BitVec.ofNat 64 q.pageTokens), none))

/-- Offsets of a tile's bytes in row order. -/
def tileBytes (d : BitVec 128) : List Nat :=
  (List.range (tdRows d)).flatMap fun r => (List.range (rowBytes d)).map fun k => tdBase d + r * (32 * tdStride d) + k

/-- Bytes stored one by one at a list of offsets. -/
def storeAt (st : Tab Byte) : List Nat → List Byte → Tab Byte
  | o :: os, b :: bs => storeAt (st.set 0 o b) os bs
  | _, _ => st

/-- The page indices that SEQ.PAGE asks for: at most 16 (R108). -/
def seqIndices (f : BitVec 54) (base : CoreState) : List Nat :=
  (List.range (min (base.rs (opf f 31 26)).toNat 16)).map ((base.rs (opf f 37 32)).toNat + ·)

/-- SEQ.PAGE (R85, R108): entries go into the tile's bytes in row order, once no earlier reader or writer of the descriptor is
outstanding (R73). An instruction of the same bundle on that descriptor is not earlier: DESIGN CHOICE, log 118. -/
def execSeqPage (x : Slot) (s : State) : Host.Outcome State Fault Refusal :=
  let f := x.f
  let td := opf f 43 39
  let slot (base : CoreState) : Option SeqSlot := s.ownSlot x.core (seqNo f (opf f 25 20) base)
  let ready (base : CoreState) : Bool :=
    (base.engq.all fun o => !hazard [] [td] o.rd o.wr) && (base.moves.all fun o => !hazard [] [td] o.rd o.wr)
      && match slot base with
        | some q => (seqIndices f base).all (s.seqReady q)
        | none => true
  .next (s.issue x (sReq f (seqForm f (opf f 25 20) && bitOf f.toNat 38 == false && opf f 19 8 == 0)
      ([opf f 37 32, opf f 31 26] ++ if bitOf f.toNat 47 then [opf f 25 20] else []) []) ready fun base cur =>
    let d := base.tdv td
    let is := seqIndices f base
    if !tdOk d || !(tdFmt d == 0xD || tdFmt d == 0xB) || decide (tdRows d * rowBytes d < 8 * is.length) then
      .error (excOf 1)
    else match slot base with
      | none => .error (excOf 4)
      | some q =>
        if is.any fun i => q.pageCount ≤ i then .error (excOf 5)
        else match s.seqEntries q is with
          | .error e => .error e
          | .ok es => .ok ({ cur with store := storeAt cur.store (tileBytes d) (es.flatMap (leBytes 8)) }, none))

end Sys2Proof.Machine
end

