-- ==== Sys2Proof/Machine/Commands.lean ====
section
/-! DEFINITION. Command records: opening, form and checks (R340 to R346, R400, R507), the order of starts (R345), and the
abandonment of a command's work (R361, R431, R435). -/

namespace Sys2Proof.Machine

open Sys2Proof

/-! ## Opcodes (R343) -/

/-- Commands that start only after every earlier command on their queue has completed. -/
def opWaits (op : Nat) : Bool := op == 0 || op == 3 || op == 0x14

/-- Commands that stop later commands on their queue from starting until they have completed. -/
def opHolds (op : Nat) : Bool :=
  [4, 5, 0x10, 0x12, 0x13, 0x14, 0x15, 0x18, 0x19, 0x1C, 0x1E, 0x20, 0x30, 0x31, 0x32, 0x33, 0x34].contains op

/-- The opcodes that are not reserved. -/
def opKnown (op : Nat) : Bool :=
  opHolds op || opWaits op || [1, 2, 0x11, 0x1A, 0x1D, 0x1F, 0x21].contains op

/-! ## Form (R340, R341, R344, R507) -/

/-- Whether `n` bytes of a record from an offset are zero. -/
def zeroAt (w : BitVec 512) (off n : Nat) : Bool := recField w off n == 0

/-- Whether a virtual address field has its upper byte zero (R344). -/
def vaField (w : BitVec 512) (off : Nat) : Bool := recField w off 8 < 2 ^ 56

/-- Whether a MAP's operands obey the rules that follow R344's table. -/
def mapWf (w : BitVec 512) : Bool :=
  let va := recField w 8 8
  let a := recField w 16 8
  let len := recField w 24 4 * 65536
  let tier := recField w 30 1
  decide (va % 65536 = 0 ∧ a % 65536 = 0 ∧ 1 ≤ recField w 24 4 ∧ va + len ≤ 2 ^ 56 ∧ a + len ≤ 2 ^ 52)
    && decide (tier ≤ 3 ∧ recField w 31 1 < 32)
    && (tier != 0 || decide (a + len ≤ 2 ^ 44)) && ((tier != 0 && tier != 3) || zeroAt w 28 2)

/-- Whether HANDLE and ARGS of a command are in form (R344). -/
def argsWf (op : Nat) (w : BitVec 512) : Bool :=
  let h := recHandle w
  let noHandle := h == 0
  let latch := decide (recField w 16 2 < 4096)
  match op with
  | 0x00 => noHandle && zeroAt w 8 24
  | 0x01 => decide (h < 65536) && vaField w 8 && vaField w 16 && decide (1 ≤ recField w 26 2 ∧ recField w 26 2 ≤ 512)
      && decide (1 ≤ recField w 28 2 ∧ recField w 28 2 ≤ 2048) && decide (recField w 30 2 ≤ 256)
  | 0x02 => decide (h < 1024) && vaField w 8 && zeroAt w 16 16
  | 0x03 => noHandle && decide (bits (recField w 16 2) 12 3 = 0) && zeroAt w 19 13
  | 0x04 => noHandle && latch && zeroAt w 20 12
  | 0x05 => decide (h < 256) && decide (recField w 14 2 ≤ 512) && vaField w 16 && zeroAt w 24 8
  | 0x10 => noHandle && decide (recField w 16 1 ≤ 1) && zeroAt w 17 15
  | 0x11 => noHandle && zeroAt w 8 24
  | 0x12 => decide (h < 65536) && mapWf w
  | 0x13 => decide (h < 65536) && zeroAt w 8 24
  | 0x14 => decide (h < 65536) && zeroAt w 8 24
  | 0x15 => noHandle && zeroAt w 21 11 && (if recField w 20 1 = 1 then zeroAt w 8 12
      else recField w 20 1 == 2 && vaField w 8 && decide (1 ≤ recField w 16 4))
  | 0x18 => decide (h < 1024) && vaField w 8 && decide (1 ≤ recField w 16 2 ∧ recField w 16 2 ≤ 4096) && zeroAt w 18 14
  | 0x19 => decide (h < 1024) && vaField w 8 && zeroAt w 20 12
  | 0x1A => decide (h < 1024) && zeroAt w 8 24
  | 0x1C => noHandle && latch && decide (recField w 18 1 ≤ 1) && zeroAt w 19 13
  | 0x1D => noHandle && zeroAt w 8 8 && latch && zeroAt w 18 14
  | 0x1E => decide (h < 256) && vaField w 8 && decide (1 ≤ recField w 16 2) && zeroAt w 18 14
  | 0x1F => decide (h < 256) && zeroAt w 8 24
  | 0x20 => noHandle && vaField w 8 && decide (recField w 16 1 ≤ 15) && zeroAt w 17 15
  | 0x21 => noHandle && vaField w 8 && decide (recField w 16 1 ≤ 31) && zeroAt w 17 1 && zeroAt w 24 8
  | 0x30 => decide (h < 65536) && vaField w 8 && zeroAt w 16 16
  | 0x31 => decide (h < 65536) && zeroAt w 8 24
  | 0x32 => decide (h < 65536) && vaField w 8 && decide (recField w 16 1 ≤ 31 ∧ recField w 17 1 ≤ 1) && zeroAt w 18 14
  | 0x33 => decide (h < 65536) && zeroAt w 8 8 && decide (recField w 16 1 ≤ 31) && zeroAt w 17 15
  | 0x34 => decide (h < 65536) && zeroAt w 8 24
  | _ => false

/-- Whether a record is in form (R340, R341, R507). -/
def recWf (w : BitVec 512) : Bool :=
  opKnown (recOp w) && decide (recFlags w < 64) && zeroAt w 3 1 && decide (bits (recField w 40 2) 12 2 = 0)
    && (recTremote w || zeroAt w 42 1) && zeroAt w 43 1 && zeroAt w 46 2 && (recSealed w || zeroAt w 48 16)
    && argsWf (recOp w) w

/-! ## Sealed records (R342, R399, R400) -/

/-- The bytes of a record. -/
def recRaw (w : BitVec 512) : List Byte := leBytes 64 w.toNat

/-- Whether a function's partition is enrolled in the parish. -/
def State.enrolled (s : State) (fn : Nat) : Bool :=
  fn != 0 && bitOf (s.fld 0 0 Reg.DCTL_PARISH2.PARTS) (fn - 1)

/-- A sealed record opened under the key of one context and generation (R342, R400). -/
def State.openWith (s : State) (fn q sq : Nat) (w : BitVec 512) (c sgen : Nat) : Option (BitVec 512) :=
  let b := recRaw w
  match Config.gcmOpen (s.sessionKey fn c sgen) (s.recNonce fn q sq 1) (b.take 2 ++ leBytes 4 sq)
      ((b.drop 2).take 46 ++ b.drop 48) with
  | none => none
  | some p =>
    let w' := BitVec.ofNat 512 (leNat (b.take 2 ++ p.take 46))
    if p.length = 46 ∧ recCtx w' = c then some w' else none

/-- A record in plain form, if it passes R342: CONTEXT lies under the seal, so the record is the one that some context's
session opens (log 44); CTX_CREATE is sealed under the generation that it begins (R399). -/
def State.openRec (s : State) (fn q sq : Nat) (w : BitVec 512) : Option (BitVec 512) :=
  if recSealed w then
    if !s.enrolled fn then none
    else (List.range 256).findSome? fun c =>
      let sgen := s.fld fn c Reg.DSTP_SESSION.SGEN
      if recOp w = 0x10 then s.openWith fn q sq w c (sgen + 1)
      else if s.fld fn c Reg.DSTP_SESSION.LIVE = 1 then s.openWith fn q sq w c sgen else none
  else if s.enrolled fn then none
  else some w

/-- A sealed record that does not open keeps what stands in the clear: OPCODE and FLAGS (log 44). -/
def QRec.blank (r : QRec) : QRec :=
  if recSealed r.w then { r with w := BitVec.ofNat 512 (recOp r.w + 256 * putBits (recFlags r.w) 4 1 0) } else r

/-- The session generation that a record was sealed under (R399): for a CTX_CREATE the one that it begins. -/
def State.sealGen (s : State) (fn : Nat) (w : BitVec 512) : Nat :=
  s.fld fn (recCtx w) Reg.DSTP_SESSION.SGEN + (if recOp w = 0x10 then 1 else 0)

/-- A sealed record that will not start is opened, so that its completion names its context and is sealed as it was (R342,
R348). -/
def State.openQueued (s : State) (fn q sq : Nat) : State :=
  match (s.qrec fn q sq).filter fun r => r.st == 0 && recSealed r.w with
  | none => s
  | some r => s.updRec fn q sq fun x => match s.openRec fn q sq r.w with
    | some w => { x with w := w, st := 1, sgen := s.sealGen fn w }
    | none => { x.blank with st := 1 }

/-! ## The order of starts (R345, R428, R442) -/

/-- Whether earlier commands of a queue let a record start. -/
def earlierAllow (rs : List QRec) (w : BitVec 512) : Bool :=
  rs.all fun r => r.st != 0 && !opHolds (recOp r.w) && !(opWaits (recOp w) || recAfter w)

/-- The record that a queue may start now (R345): its first one not started, fetched in an earlier beat (R328), on an
ACTIVE queue of a partition in service, in RUN (R442). -/
def State.startable (s : State) (fn q : Nat) : Option QRec :=
  if s.qstate fn q ≠ 1 ∨ s.fld 0 0 Reg.PWR_STAT.STATE ≠ 3 ∨ (s.halted || fn ≠ 0 && s.partShut (fn - 1)) then none
  else
    let rs := (s.queue fn q).recs
    let before := rs.takeWhile fun r => r.st != 0
    match rs.drop before.length with
    | r :: _ => if !r.fresh && earlierAllow before r.w then some r else none
    | [] => none

/-! ## A command that runs -/

/-- A started command: its function, queue and sequence number, its graph record, its context, and the record. -/
structure Cmd where
  fn : Nat
  q : Nat
  sq : Nat
  g : Option Nat
  ctx : Nat
  w : BitVec 512
  deriving DecidableEq, Repr

/-- A field of a command's record. -/
def Cmd.arg (k : Cmd) (off n : Nat) : Nat := recField k.w off n

/-- The partition of a command. -/
def Cmd.part (k : Cmd) : Option Nat := if k.fn = 0 then none else some (k.fn - 1)

/-- A command completes with a status that FAULT_POLICY does not handle. -/
def State.done (s : State) (k : Cmd) (st : Nat) : State := s.finish k.fn k.q k.sq k.g st 0 false

/-- A command fails in its data (R422, R362): logged UCE-C, under FAULT_POLICY. -/
def State.failed1 (s : State) (k : Cmd) (st source addr : Nat) : State :=
  let s := s.logErr { ErrRec.of 1 source with
    status := st, unit := if k.fn = 0 then 0 else unitPart (k.fn - 1), addr := addr, isVa := true, cmdSeq := k.sq
    queue := k.q, ctx := some k.ctx, part := k.part }
  s.finish k.fn k.q k.sq k.g st 0 (policyStatus st)

/-- A command's read of memory fails with a KIND (R237, R422): translation faults and lost data each have their source. -/
def State.failedRead (s : State) (k : Cmd) (kind addr : Nat) : State :=
  s.failed1 k (kindStatus kind) (if kind = 6 ∨ kind = 7 then 0x09 else 0x02) addr

/-- The requester of a command's own reads: its function, queue, sequence number and graph record. -/
def Cmd.who (k : Cmd) : List Nat := [1, k.fn, k.q, k.sq] ++ k.g.toList

/-- Whether a context exists and is not being destroyed (R333). -/
def State.ctxLive (s : State) (fn c : Nat) : Bool :=
  match s.ctx fn c with
  | some x => !x.destroying
  | none => false

/-- Whether no page of a run lies in host memory, so that the front end needs nothing from the host. -/
def State.readsHere (s : State) (fn va len : Nat) (acc : Acc) : Bool :=
  (List.range ((va % 65536 + len + 65535) / 65536)).all fun i =>
    match s.frontXlate fn (if i = 0 then va else va / 65536 * 65536 + 65536 * i) acc with
    | .host _ => false
    | _ => true

/-! ## Abandoned work (R361) -/

/-- A core returns idle: the next launch starts it in the state of R70. -/
def State.freeCore (s : State) (n : Nat) : State :=
  let c := s.core n
  s.setCore n { c with
    launch := none, running := false, late := false, lateRun := 0, preload := none, bundle := none
    left := if c.launch.isSome then s.shareOn n else c.left }

/-- A launch's cores stop (R361): queued instructions are discarded, moves squashed, unsent signals dropped. -/
def State.stopLaunch (s : State) (l : Launch) : State :=
  let s := l.cores.foldl (fun s n => if (s.core n).launch == some l.id then s.stopCore n l.fn else s) s
  let clear (c : Core) : Core := if c.preload.any fun p => p.launch == l.id then { c with preload := none } else c
  { s with cores := s.cores.mapVals fun _ c => clear c }

/-- A launch leaves with its cores. -/
def State.dropLaunch (s : State) (l : Launch) : State :=
  let s := l.cores.foldl (fun s n => if (s.core n).launch == some l.id then s.freeCore n else s) (s.stopLaunch l)
  { s with launches := s.launches.filter fun x => x.id != l.id }

/-- The work of a fetched command is abandoned, and it completes with a status, a GRAPH_LAUNCH with the version that it ran
(R348); `policy` where FAULT_POLICY handles it. -/
def State.abandon (s : State) (fn q sq status : Nat) (policy : Bool) : State :=
  let mine (f k p : Nat) : Bool := f == fn && k == q && p == sq
  let s := s.openQueued fn q sq
  let s := (s.launches.filter fun l => mine l.fn l.q l.sq).foldl State.dropLaunch s
  let gs := s.gruns.filter fun g => mine g.fn g.q g.sq
  let kept := (s.qrec fn q sq).filter fun r => recOp r.w == 0x13 || recOp r.w == 0x14
  let s := match kept.bind fun r => (s.mobjs.find? (key2 fn (recHandle r.w))).map fun o => (recHandle r.w, o) with
    | some (h, o) => { s with mobjs := s.mobjs.put (key2 fn h) { o with dying := false } }
    | none => s
  let s := { s with
    gruns := s.gruns.filter fun g => !mine g.fn g.q g.sq
    sigs := s.sigs.filter fun g => !(g.kind == 2 && mine g.fn g.q g.sq)
    fenced := s.fenced.filter fun h => !mine h.fn h.q h.sq
    invals := s.invals.filter fun v => !(v.cmd.any fun (c : Nat × Nat × Option Nat) => mine v.cfn c.1 c.2.1)
    deferred := s.deferred.filter fun d => match d with
      | .done f k p _ _ => !mine f k p
      | .graph f _ k p => !mine f k p
      | .seq _ f _ _ _ _ k p _ => !mine f k p
      | _ => true }
  let s := gs.foldl (fun s g => s.releaseVersion g.fn g.graph g.ver) s
  (s.completeRec fn q sq status ((gs.map (·.ver)).sum) false policy).settled

/-- The command at a queue and sequence number, with its context: none when nothing like it is fetched. -/
def State.recsOf (s : State) (fn q : Nat) : List Nat := (s.queue fn q).recs.map (·.sq)

/-- Every fetched command of a queue is abandoned in sequence order. -/
def State.abandonQueue (s : State) (fn q status : Nat) : State :=
  (s.recsOf fn q).foldl (fun s sq => s.abandon fn q sq status false) s

end Sys2Proof.Machine
end

