-- ==== Sys2Proof/Machine/Objects.lean ====
section
/-! DEFINITION. The commands on objects (R332 to R334, R343, R344, R354 to R360, R509): contexts, latches, sequence slots,
memory objects, graphs, and launches as they are accepted (R347). -/

namespace Sys2Proof.Machine

open Sys2Proof

/-! ## Contexts (R332, R336, R399) -/

/-- A context that has just been created. -/
def Ctx.fresh (lc : Bool) (seed : U64) : Ctx :=
  { lc := lc, seed := seed, q := [], closed := [], uj := 0, destroying := false }

/-- CTX_CREATE (R332, R333, R399). -/
def State.ctxCreate (s : State) (k : Cmd) : State :=
  if (s.ctx k.fn k.ctx).isSome then s.done k 0x11
  else
    let s := { s with ctxs := s.ctxs.put (key2 k.fn k.ctx) (Ctx.fresh (k.arg 16 1 == 1) (BitVec.ofNat 64 (k.arg 8 8))) }
    let s := if s.enrolled k.fn then
      (s.modAdd k.fn k.ctx Reg.DSTP_SESSION.SGEN 1).setFld k.fn k.ctx Reg.DSTP_SESSION.LIVE 1 else s
    s.done k 0

/-- A destruction is asked for: it starts at the next edge, or at this one for a command that starts at an edge (R361). -/
def State.askDestroy (s : State) (k : Cmd) (kind num : Nat) : State :=
  let d : Destroy :=
    { id := s.nextReset, kind := kind, fn := k.fn, num := num, q := k.q, sq := k.sq, started := false, waiting := []
      beat := s.tick }
  { s with nextReset := s.nextReset + 1, destroys := s.destroys ++ [d] }

/-- CTX_DESTROY (R332, R361). -/
def State.ctxDestroy (s : State) (k : Cmd) : State :=
  (s.updCtx k.fn k.ctx fun c => { c with destroying := true }).askDestroy k 1 k.ctx

/-! ## Latches (R332, R354 to R356, R509) -/

/-- LATCH_ALLOC (R332, R333). -/
def State.latchAlloc (s : State) (k : Cmd) : State :=
  let l := k.arg 16 2
  if (s.latch? k.fn l).isSome then s.done k 0x11
  else
    let t : Latch := { ctx := k.ctx, val := BitVec.ofNat 64 (k.arg 8 8), isMax := k.arg 18 1 == 1, held := 0 }
    ({ s with latches := s.latches.put (key2 k.fn l) t } : State).done k 0

/-- Whether a latch is allocated to a command's context. -/
def State.latchMine (s : State) (k : Cmd) (l : Nat) : Bool :=
  match s.latch? k.fn l with
  | some t => t.ctx == k.ctx
  | none => false

/-- Commands of a function that wait on a latch, as (queue, sequence number, graph record). -/
def State.waitersOn (s : State) (fn l : Nat) : List (Nat × Nat × Option Nat) :=
  let on (w : BitVec 512) : Bool := recOp w == 4 && recField w 16 2 % 4096 == l
  (s.queues.flatMap fun e => if e.1 / 1048576 = fn then
      (e.2.recs.filter fun r => r.st == 1 && on r.w).map fun r => (e.1 % 1048576, r.sq, none) else [])
    ++ s.gruns.flatMap fun g => if g.fn = fn then
      (((s.grecs g).zip g.st).zipIdx.filter fun x => x.1.2.1 == 1 && on x.1.1).map fun x => (g.q, g.sq, some x.2) else []

/-- A latch goes: waiting commands complete ABORTED, and a core that waits on it takes RIGHTS_FAULT at its LATCH.WAIT
(R332, R84, R356). -/
def State.freeLatch (s : State) (fn l : Nat) : State :=
  let ws := s.waitersOn fn l
  let cs := s.cores.filterMap fun e => match e.2.cur.hold with
    | .latch k _ b => if k == l && (s.coreFn e.1).1 == fn && !e.2.stopped then some (e.1, b) else none
    | _ => none
  let s := { s with latches := s.latches.del (key2 fn l) }
  let s := ws.foldl (fun s x => s.finish fn x.1 x.2.1 x.2.2 0x10 0 false) s
  cs.foldl (fun (s : State) (x : Nat × Nat) => s.preciseAt x.1 x.2 (excOf 4) []) s

/-- LATCH_FREE (R332, R356). -/
def State.latchFree (s : State) (k : Cmd) : State :=
  if !s.latchMine k (k.arg 16 2) then s.done k 0x11 else (s.freeLatch k.fn (k.arg 16 2)).done k 0

/-- LATCH_SIGNAL (R509, R354). -/
def State.latchSignal (s : State) (k : Cmd) : State :=
  let l := k.arg 16 2 % 4096
  let x := BitVec.ofNat 64 (k.arg 8 8)
  if bitOf (k.arg 16 2) 15 then
    let q := k.fn - 1
    if k.fn = 0 ∨ s.vdOf q = 0 ∨ s.fld 0 q Reg.DCTL_COMP_PART0.MEMBERS ≤ k.arg 18 1 then s.done k 0x11
    else
      let lc := ((s.ctx k.fn k.ctx).map (·.lc)).getD false
      match s.sendSignal k.fn (k.arg 18 1) l x lc 2 k.q k.sq k.g with
      | (true, s) => s
      | (false, s) => s.done k 0x11
  else if !s.latchMine k l then s.done k 0x11
  else
    let (o, s) := s.signal k.fn l x
    s.done k (if o = 7 then 0x1B else 0)

/-- LATCH_WAIT (R356): it completes at once where its latch holds the value. -/
def State.latchWait (s : State) (k : Cmd) : State :=
  if !s.latchMine k (k.arg 16 2) then s.done k 0x11 else s.settled

/-! ## Sequence slots (R85, R86, R332) -/

/-- Whether a slot belongs to a function's partition (R299). -/
def State.slotOwned (s : State) (fn i : Nat) : Bool := bitOf (s.fld fn 0 Reg.PCTL_COMP_SEQ.SEQ) (i / 8)

/-- SEQ_BIND (R332, R333). -/
def State.seqBind (s : State) (k : Cmd) : State :=
  let i := recHandle k.w
  if !s.slotOwned k.fn i || (s.slots.find? i).isSome then s.done k 0x11
  else
    let q : SeqSlot :=
      { fn := k.fn, ctx := k.ctx, tokens := 0, pageTokens := k.arg 16 2, pages := [], overflow := k.arg 8 8 }
    let s := s.keepSlot i []
    ({ s with slots := s.slots.put i q } : State).done k 0

/-- A slot that a command's context holds, and that no SEQ_UNBIND is destroying (R333). -/
def State.slotMine (s : State) (k : Cmd) (i : Nat) : Option SeqSlot :=
  (s.slots.find? i).filter fun q => q.fn == k.fn && q.ctx == k.ctx
    && !s.destroys.any fun d => d.kind == 3 && d.num == i && d.fn == k.fn

/-- SEQ_UNBIND (R332, R361). -/
def State.seqUnbind (s : State) (k : Cmd) : State :=
  match s.slotMine k (recHandle k.w) with
  | none => s.done k 0x11
  | some _ => s.askDestroy k 3 (recHandle k.w)

/-- SEQ_UPDATE (R343, R85, R86): the token count and page entries change at the next edge, where it completes; entries that
spill need an overflow list that can be written now. -/
def State.seqUpdate (s : State) (k : Cmd) (ext : List Byte) : State :=
  match s.slotMine k (recHandle k.w) with
  | none => s.done k 0x11
  | some q =>
    let (first, n) := (k.arg 12 2, k.arg 14 2)
    let spilled := ((List.range n).map (first + ·)).filter fun i => decide (chipPages ≤ i)
    match s.readVa k.who k.fn (k.arg 16 8) (8 * n) .rd ext with
    | .wait s => s
    | .fail e s => s.failedRead k e (k.arg 16 8)
    | .ok d _ s =>
      if !spilled.all (s.seqReady q) then s
      else match s.spillFault q spilled with
      | some e => s.failedRead k e.kind e.va
      | none =>
        let pages := (List.range n).map fun i => leField d (8 * i) 8
        { s with deferred := s.deferred ++ [.seq (recHandle k.w) k.fn k.ctx (k.arg 8 4) first pages k.q k.sq k.g] }

/-! ## Memory objects (R334, R360, R243) -/

/-- The largest leaf that alignment and length allow at a page: its level (R344). -/
def mapLevel (va a pages : Nat) (mig : Bool) : Nat :=
  if mig then 4
  else if va % (levelPages 2 * 65536) = 0 ∧ a % (levelPages 2 * 65536) = 0 ∧ levelPages 2 ≤ pages then 2
  else if va % (levelPages 3 * 65536) = 0 ∧ a % (levelPages 3 * 65536) = 0 ∧ levelPages 3 ≤ pages then 3
  else 4

/-- The leaves of a run of pages: address, target and level of each. -/
def mapLeaves : Nat → Nat → Nat → Nat → Bool → List (Nat × Nat × Nat)
  | 0, _, _, _, _ => []
  | f + 1, va, a, pages, mig =>
    if pages = 0 then []
    else
      let l := mapLevel va a pages mig
      let n := levelPages l
      (va, a, l) :: mapLeaves f (va + n * 65536) (a + n * 65536) (pages - n) mig

/-- The address of a level's entry for a virtual address, through present pointers from a table down (R225). -/
def State.entryAt (s : State) (fn va target : Nat) : Nat → Nat → Nat → Option Nat
  | 0, _, _ => none
  | f + 1, l, table =>
    let a := table + 8 * bits va (56 - 10 * l) 10
    if !s.tableOk fn a || s.poisoned a then none
    else if l = target then some a
    else
      let e := leNat (s.mem.getRun a 8)
      if bitOf e 0 && !bitOf e 7 && !badPtr e then State.entryAt s fn va target f (l + 1) (bits e 13 31 * 8192) else none

/-- The entry's address from a function's root table. -/
def State.leafEntry (s : State) (fn va level : Nat) : Option Nat :=
  match s.rootTable fn with
  | some (l, t) => s.entryAt fn va level 4 l t
  | none => none

/-- The value of a leaf (R226, R344): present, rights byte in bits [5:1], tier, address and node; `twin` for SHARE_MAP. -/
def leafValue (rights tier a node : Nat) (twin : Bool) : Nat :=
  1 + rights % 32 * 2 + twin.toNat * 64 + 128 + tier % 4 * 256 + a / 65536 % 2 ^ 36 * 4096 + node % 65536 * 2 ^ 48

/-- Leaves written for a run of pages: none where a table is missing or an entry is present (R362), and then nothing is
written. -/
def State.writeLeaves (s : State) (fn : Nat) (l : List (Nat × Nat × Nat)) (val : Nat → Nat) : Option State :=
  let es := l.map fun x => (s.leafEntry fn x.1 x.2.2, val x.2.1)
  if es.all fun e => match e.1 with
    | some a => !bitOf (leNat (s.mem.getRun a 8)) 0
    | none => false
  then some (es.foldl (fun s e => match e.1 with
    | some a => (s.writeMem a (leBytes 8 e.2) false).2
    | none => s) s)
  else none

/-- Leaves of a run of pages cleared; a missing table holds none. -/
def State.clearLeaves (s : State) (fn : Nat) (l : List (Nat × Nat × Nat)) : State :=
  l.foldl (fun s x => match s.leafEntry fn x.1 x.2.2 with
    | some a => if bitOf (leNat (s.mem.getRun a 8)) 7 then (s.writeMem a (leBytes 8 0) false).2 else s
    | none => s) s

/-- MAP (R334, R344). -/
def State.mapObj (s : State) (k : Cmd) : State :=
  let h := key2 k.fn (recHandle k.w)
  let (va, a, pages, tier, rights) := (k.arg 8 8, k.arg 16 8, k.arg 24 4, k.arg 30 1, k.arg 31 1)
  if (s.mobjs.find? h).isSome then s.done k 0x11
  else match s.writeLeaves k.fn (mapLeaves pages va a pages (bitOf rights 4))
      fun x => leafValue rights tier x (k.arg 28 2) false with
    | none => s.done k 0x11
    | some s =>
      let o : MemObj := { va := va, pages := pages, tier := tier, rights := rights, addr := a, ctx := k.ctx, dying := false }
      ({ s with mobjs := s.mobjs.put h o } : State).done k 0

/-- The leaves of a memory object. -/
def MemObj.leaves (o : MemObj) : List (Nat × Nat × Nat) := mapLeaves o.pages o.va o.addr o.pages (bitOf o.rights 4)

/-- UNMAP and RELEASE (R360): the object's leaves are cleared and invalidated, and the command completes with that
invalidation (R234). -/
def State.unmapObj (s : State) (k : Cmd) : State :=
  let h := key2 k.fn (recHandle k.w)
  match (s.mobjs.find? h).filter fun o => !o.dying with
  | none => s.done k 0x11
  | some o =>
    let s := s.clearLeaves k.fn o.leaves
    ({ s with mobjs := s.mobjs.put h { o with dying := true } } : State).startInval k.fn (some (o.va / 65536, o.pages))
      (some (k.q, k.sq, k.g))

/-- The 64 KiB pages that an address range of `n` of them overlaps, as the first page and their count (R234): one more
where the range does not begin on a page (log 103). -/
def pagesTouched (va n : Nat) : Nat × Nat := (va / 65536, n + if va % 65536 = 0 then 0 else 1)

/-- INVALIDATE (R234). -/
def State.invalidateCmd (s : State) (k : Cmd) : State :=
  s.startInval k.fn (if k.arg 20 1 = 1 then none else some (pagesTouched (k.arg 8 8) (k.arg 16 4))) (some (k.q, k.sq, k.g))

/-! ## Graphs (R357 to R359) -/

/-- Whether a record may stand in a graph (R357): its kind, with SEALED, INTR and STALL zero, and in form. -/
def graphRec (w : BitVec 512) : Bool :=
  [0, 1, 3, 4, 5].contains (recOp w) && !recSealed w && !recIntr w && zeroAt w 44 2 && recWf w

/-- Records out of bytes. -/
def recsFrom : Nat → List Byte → List (BitVec 512)
  | 0, _ => []
  | n + 1, d => BitVec.ofNat 512 (leNat (d.take 64)) :: recsFrom n (d.drop 64)

/-- Records that a function's graphs hold, with versions that become newest at the next edge (R357). -/
def State.graphUse (s : State) (fn : Nat) : Nat :=
  (s.graphs.map fun e => if e.1 / 1048576 = fn then
    (e.2.vers.map fun v => v.recs.length).sum + ((e.2.next.map fun v => v.recs.length).getD 0) else 0).sum

/-- Whether the graph area has room for more records: 64 bytes each. -/
def State.graphRoom (s : State) (fn n : Nat) : Bool :=
  decide (64 * (s.graphUse fn + n) ≤ s.fld fn 0 Reg.PCTL_GRAPH_AREA.SIZE * 65536)

/-- GRAPH_STORE (R357). -/
def State.graphStore (s : State) (k : Cmd) (ext : List Byte) : State :=
  let n := k.arg 16 2
  if (s.graphs.find? (key2 k.fn (recHandle k.w))).isSome || !s.graphRoom k.fn n then s.done k 0x11
  else match s.readVa k.who k.fn (k.arg 8 8) (64 * n) .rd ext with
    | .wait s => s
    | .fail e s => s.failedRead k e (k.arg 8 8)
    | .ok d _ s =>
      let rs := recsFrom n d
      if !rs.all graphRec then s.done k 0x19
      else
        let x : Graph := { ctx := k.ctx, vers := [⟨1, rs, 0⟩], next := none, destroying := false }
        ({ s with graphs := s.graphs.put (key2 k.fn (recHandle k.w)) x } : State).done k 0

/-- A graph that a command may use. -/
def State.graphLive (s : State) (k : Cmd) : Option Graph :=
  (s.graphs.find? (key2 k.fn (recHandle k.w))).filter fun g => !g.destroying

/-- GRAPH_PATCH (R359): it waits while 16 versions are held; the copy becomes newest at the next edge. -/
def State.graphPatch (s : State) (k : Cmd) (ext : List Byte) : State :=
  match s.graphLive k with
  | none => s.done k 0x11
  | some x =>
    let newest := (x.vers.getLast?.map (·.recs)).getD []
    let num := (x.vers.getLast?.map (·.num)).getD 0
    let (first, n) := (k.arg 16 2, k.arg 18 2)
    if newest.length < first + n || !s.graphRoom k.fn newest.length then s.done k 0x11
    else if 16 ≤ x.vers.length || x.next.isSome then s
    else match s.readVa k.who k.fn (k.arg 8 8) (64 * n) .rd ext with
      | .wait s => s
      | .fail e s => s.failedRead k e (k.arg 8 8)
      | .ok d _ s =>
        let rs := recsFrom n d
        if !rs.all graphRec then s.done k 0x19
        else
          let v : GVersion := ⟨(num + 1) % 65536, newest.take first ++ rs ++ newest.drop (first + n), 0⟩
          { s with
            graphs := s.graphs.put (key2 k.fn (recHandle k.w)) { x with next := some v }
            deferred := s.deferred ++ [.graph k.fn (recHandle k.w) k.q k.sq] }

/-- GRAPH_DESTROY (R361): a patch of the graph that waits completes ABORTED (R363). -/
def State.graphDestroy (s : State) (k : Cmd) : State :=
  match s.graphLive k with
  | none => s.done k 0x11
  | some x =>
    let s := { s with graphs := s.graphs.put (key2 k.fn (recHandle k.w)) { x with destroying := true } }
    s.askDestroy k 2 (recHandle k.w)

/-- GRAPH_LAUNCH (R358): the newest version is taken and held; its records start under R345. -/
def State.graphLaunch (s : State) (k : Cmd) : State :=
  match s.graphLive k with
  | none => s.done k 0x11
  | some x =>
    match x.vers.getLast? with
    | none => s.done k 0x11
    | some v =>
      let vs := x.vers.map fun (u : GVersion) => if u.num = v.num then { u with holders := u.holders + 1 } else u
      let r : GRun :=
        { fn := k.fn, q := k.q, sq := k.sq, graph := recHandle k.w, ver := v.num, argVa := k.arg 8 8
          st := v.recs.map fun _ => (0, 0), beats := v.recs.map fun _ => 0 }
      { s with
        graphs := s.graphs.put (key2 k.fn (recHandle k.w)) { x with vers := vs }, gruns := s.gruns ++ [r] }

/-! ## Launches (R347) -/

/-- The cores that the manager's service contexts run on (R321): those that the management controller reserves, where no
partition owns them. -/
def State.serviceCores (s : State) : List Nat :=
  (List.range 512).filter fun n => s.kmc.cores.getLsbD n && s.owner n == none && s.fld 0 n Reg.IDC_CORE_MAP.STATE == 1

/-- The cores of a launch: COUNT of the partition's from FIRST; none where one is beyond them, LOST or MOVING. -/
def State.launchCores (s : State) (k : Cmd) : Option (List Nat) :=
  let own := if k.fn = 0 then s.serviceCores else s.ownedCores (k.fn - 1)
  let cs := (own.drop (k.arg 24 2)).take (k.arg 26 2)
  if cs.length = k.arg 26 2 ∧ cs.all (fun n => s.fld 0 n Reg.IDC_CORE_MAP.STATE == 1) then some cs else none

/-- LAUNCH (R347): accepted, it waits for its cores. `argVa` of a graph launch stands for a record's zero (R358). -/
def State.launchCmd (s : State) (k : Cmd) (argVa : Nat) : State :=
  match (s.mobjs.find? (key2 k.fn (recHandle k.w))).filter fun o => !o.dying, s.launchCores k with
  | some o, some cs =>
    let l : Launch :=
      { id := s.nextLaunch, fn := k.fn, q := k.q, sq := k.sq, ctx := k.ctx, lc := ((s.ctx k.fn k.ctx).map (·.lc)).getD false
        floor := recFloor k.w, prog := o.va, argVa := if k.arg 8 8 = 0 then argVa else k.arg 8 8, constVa := k.arg 16 8
        bundles := k.arg 28 2, constKib := k.arg 30 2, cores := cs, ended := [], status := 0, excCore := 0
        degraded := false, measured := false, phase := 0, startBeat := s.tick, since := s.now, heldFrom := s.tick, lowBeats := 0, saved := []
        slots := [], phaseEdge := 0, g := k.g }
    { s with launches := s.launches ++ [l], nextLaunch := s.nextLaunch + 1 }
  | _, _ => s.done k 0x11

end Sys2Proof.Machine
end

