-- ==== Sys2Proof/Machine/Share.lean ====
section
/-! DEFINITION. The SHARE_ commands (R335, R192, R389 to R392). -/

namespace Sys2Proof.Machine

open Sys2Proof

/-! ## Ledgers (R389, R390) -/

/-- One level up: pairs are hashed, and an odd last node passes up unchanged. -/
def ledgerPairs : List (List Byte) → List (List Byte)
  | a :: b :: rest => ledgerNode a b :: ledgerPairs rest
  | l => l

/-- The root over a level's nodes, with the levels above it. -/
def ledgerRoot : Nat → List (List Byte) → List Byte × Nat
  | 0, l => (l.headD [], 1)
  | f + 1, l => match l with
    | [] => ([], 1)
    | [a] => (a, 1)
    | l => let (r, k) := ledgerRoot f (ledgerPairs l); (r, k + 1)

/-- The image at a physical address, if it passes R390 for an object of `len` 64 KiB units. -/
def State.ledgerImage (s : State) (pa len : Nat) : Option Ledger :=
  let h := s.mem.getRun pa 64
  let chunks := leField h 8 4
  let leaves := (List.range chunks).map fun i => s.mem.getRun (pa + 64 + 48 * i) 48
  let (root, levels) := ledgerRoot 33 leaves
  if h.take 4 = ascii "YXLG" ∧ leField h 4 2 = 1 ∧ leField h 12 4 = len ∧ chunks = ceilDiv (len * 65536) 0x100000
      ∧ leField h 6 2 = levels ∧ (h.drop 16).take 48 = root then
    some { root := root, image := pa, levels := levels, chunks := chunks }
  else none

/-- What SHARE_CREATE finds at LEDGER_VA: a ledger, a KIND, or a unit that cannot serve yet. -/
inductive LedgerRead where
  | ok (g : Option Ledger)
  | bad (kind : Nat)
  | wait

/-- The ledger image at a virtual address of PF0 (R390): on this package, since its PA is kept, and without poison. One that
fails its check is taken as lost data, KIND 0x8. -/
def State.ledgerRead (s : State) (va len : Nat) : LedgerRead :=
  match s.frontXlate 0 va .rd with
  | .miss k => .bad k
  | .wait => .wait
  | .loc pa _ =>
    let n := 64 + 48 * ceilDiv (len * 65536) 0x100000
    if !s.runReady pa n then .wait
    else if s.poisonIn pa n then .bad 8
    else match s.ledgerImage pa len with
      | some g => .ok (some g)
      | none => .bad 8
  | _ => .bad 8

/-! ## Entries -/

/-- The twin entry of an object identifier. -/
def State.twinOf (s : State) (obj : Nat) : Option Nat :=
  (List.range 64).find? fun i => s.fld 0 i Reg.DCTL_TWIN0.VALID == 1 && s.fld 0 i Reg.DCTL_TWIN0.OBJECT == obj

/-- Tier of a place: 0 cellar, 1 tier 1, 2 tier 2. -/
def placeTier : Place → Option Nat
  | .slice _ _ => none
  | .cellar _ _ => some 0
  | .stack _ => some 1
  | .lpc _ => some 2

/-- Whether a copy of an object may lie at an address (R192): mapped, in one tier, in SHARED granules throughout. -/
def State.copyOk (s : State) (tier pa len : Nat) : Bool :=
  pa % 65536 == 0 && (List.range len).all fun i => match s.mapped (pa + 65536 * i) with
    | some p => placeTier p == some tier && s.granState (p.granule (pa + 65536 * i)) == 2
    | none => false

/-- The memory units that a run of 64 KiB pages lies in: stacks, controllers, or a die's cellar. -/
def runUnits (pa len : Nat) : List Nat :=
  ((List.range len).filterMap fun i => (place (pa + 65536 * i)).map Place.unit).eraseDups

/-- Whether two copies lie apart (R192): throughout in different stacks, controllers, or dies of the cellar. -/
def copiesApart (a b len : Nat) : Bool := (runUnits a len).all fun u => !(runUnits b len).contains u

/-- Whether a copy lies in a unit that the module lacks (R2). -/
def State.copyLacks (s : State) (pa len : Nat) : Bool :=
  (List.range len).any fun i => (place (pa + 65536 * i)).isSome && (s.mapped (pa + 65536 * i)).isNone

/-- Whether a descriptor of SHARE_CREATE is in form (R344, R507): copies that begin on 64 KiB boundaries of the physical
address space, 1 to 2²⁰ pages, a tier, a virtual address, and zero elsewhere (R192, log 127). -/
def shareForm (d : List Byte) : Bool :=
  let pa (o : Nat) : Bool := leField d o 8 % 65536 == 0 && decide (leField d o 8 < 2 ^ 44)
  pa 0 && pa 8 && decide (1 ≤ leField d 16 4 ∧ leField d 16 4 ≤ 2 ^ 20) && decide (leField d 20 1 ≤ 2)
    && decide (leField d 24 8 < 2 ^ 56) && leField d 21 3 == 0 && leNat (d.drop 32) == 0

/-- SHARE_CREATE (R335, R192, R390): the descriptor is read, it and the object and its ledger are checked in R346's order,
and its entry is set. -/
def State.shareCreate (s : State) (k : Cmd) (ext : List Byte) : State :=
  if k.fn ≠ 0 then s.done k 0x11
  else match s.readVa k.who 0 (k.arg 8 8) 64 .rd ext with
    | .wait s => s
    | .fail e s => s.failedRead k e (k.arg 8 8)
    | .ok d _ s =>
      let (a, b, len, tier, va) := (leField d 0 8, leField d 8 8, leField d 16 4, leField d 20 1, leField d 24 8)
      if !shareForm d then s.done k 0x19
      else if s.copyLacks a len || s.copyLacks b len then s.done k 0x1F
      else if (s.twinOf (recHandle k.w)).isSome then s.done k 0x11
      else match (List.range 64).find? fun i => s.fld 0 i Reg.DCTL_TWIN0.VALID == 0 with
      | none => s.done k 0x11
      | some i =>
        if !(s.copyOk tier a len && s.copyOk tier b len && copiesApart a b len) then
          s.done k 0x11
        else
          match if va = 0 then .ok none else s.ledgerRead va len with
          | .wait => s
          | .bad kind => if kind = 8 then s.failed1 k 0x14 0x0F va else s.failedRead k kind va
          | .ok g =>
            let w0 := 2 ^ 63 + g.isSome.toNat * 2 ^ 60 + tier * 2 ^ 58 + a / 65536 * 2 ^ 16 + recHandle k.w
            let w1 := len % 2 ^ 20 * 2 ^ 44 + b / 65536 * 2 ^ 16
            let s := (s.wr 0 (0x1003000 + 16 * i) (BitVec.ofNat 64 w0)).wr 0 (0x1003008 + 16 * i) (BitVec.ofNat 64 w1)
            let s := match g with
              | some g => { s with ledgers := s.ledgers.put i g }
              | none => { s with ledgers := s.ledgers.del i }
            ({ s with verified := s.verified.filter (· != i) } : State).done k 0

/-- Whether a copy of an object matches its ledger throughout, and holds no poison. -/
def State.copyMatches (s : State) (g : Ledger) (pa len : Nat) : Bool :=
  !(s.poison.any fun e => decide (pa ≤ 256 * e.1) && decide (256 * e.1 < pa + len))
    && (List.range g.chunks).all fun i => s.chunkMatches g i (pa + 0x100000 * i) (min 0x100000 (len - 0x100000 * i))

/-- Whether some unit is lost in both copies (R194). -/
def State.bothLost (s : State) (i : Nat) : Bool :=
  let n := s.twinLen i * 65536
  s.poison.any fun e => decide (s.twinPri i ≤ 256 * e.1) && decide (256 * e.1 < s.twinPri i + n)
    && s.poisoned (s.twinSec i + (256 * e.1 - s.twinPri i))

/-- SHARE_VERIFY (R335, R392, R194): both copies are hashed against the ledger. -/
def State.shareVerify (s : State) (k : Cmd) : State :=
  match if k.fn = 0 then s.twinOf (recHandle k.w) else none with
  | none => s.done k 0x11
  | some i => match s.ledgers.find? i with
    | none => s.done k 0x11
    | some g =>
      let len := s.twinLen i * 65536
      if s.copyMatches g (s.twinPri i) len && s.copyMatches g (s.twinSec i) len then
        let s := { s with verified := (s.verified.filter (· != i)) ++ [i] }
        let s := s.setFld 0 i Reg.DCTL_TWIN0.DAMAGED 0
        ((s.shared.filter fun x => x.tw == i).foldl (fun s x => s.setIntact x.fn) s).done k 0
      else (if s.bothLost i then s.damage i else s).failed1 k 0x14 0x0F 0

/-- SHARED_MAP of a function: its partition maps at least one shared object. -/
def State.setSharedMap (s : State) (fn : Nat) : State :=
  (s.setFld fn 0 Reg.PCTL_MEM_CARVE2.SHARED_MAP (s.shared.any fun x => x.fn == fn).toNat).setIntact fn

/-- SHARE_MAP (R335): leaves with TWIN, R and, when asked for, A. -/
def State.shareMap (s : State) (k : Cmd) : State :=
  let fn := vf (k.arg 16 1)
  let va := k.arg 8 8
  match if k.fn = 0 then s.twinOf (recHandle k.w) else none with
  | none => s.done k 0x11
  | some i =>
    let len := s.twinLen i
    if !s.verified.contains i || va % 65536 != 0 || decide (2 ^ 56 < va + len * 65536)
        || s.fld 0 (fn - 1) Reg.DCTL_COMP_PART0.STATE != 1 then s.done k 0x11
    else match s.writeLeaves fn (mapLeaves len va (s.twinPri i) len false)
        fun x => leafValue (1 + 4 * (k.arg 17 1 % 2)) 0 x 0 true with
      | none => s.done k 0x11
      | some s => (({ s with shared := s.shared ++ [⟨fn, i, va⟩] } : State).setSharedMap fn).done k 0

/-- SHARE_UNMAP (R335): the partition's leaves are cleared, and the command completes with their invalidation. -/
def State.shareUnmap (s : State) (k : Cmd) : State :=
  let fn := vf (k.arg 16 1)
  match if k.fn = 0 then s.twinOf (recHandle k.w) else none with
  | none => s.done k 0x11
  | some i => match s.shared.filter fun x => x.fn == fn && x.tw == i with
    | [] => s.done k 0x11
    | x :: more =>
      let len := s.twinLen i
      let s := (x :: more).foldl (fun s (y : SharedMap) =>
        s.clearLeaves fn (mapLeaves len y.va (s.twinPri i) len false)) s
      let s := more.foldl (fun s (y : SharedMap) => s.dropXlat fn (some (y.va / 65536, len))) s
      let s := { s with shared := s.shared.filter fun y => !(y.fn == fn && y.tw == i) }
      (s.setSharedMap fn).startInval fn (some (x.va / 65536, len)) (some (k.q, k.sq, k.g)) 0

/-- SHARE_DESTROY (R335): only an object that no partition maps; its entry is cleared. -/
def State.shareDestroy (s : State) (k : Cmd) : State :=
  match if k.fn = 0 then s.twinOf (recHandle k.w) else none with
  | none => s.done k 0x11
  | some i =>
    if s.shared.any fun x => x.tw == i then s.done k 0x11
    else
      let s := (s.wr 0 (0x1003000 + 16 * i) 0).wr 0 (0x1003008 + 16 * i) 0
      ({ s with
        ledgers := s.ledgers.del i, verified := s.verified.filter (· != i)
        chunks := s.chunks.filter (·.tw != i) } : State).done k 0

end Sys2Proof.Machine
end

