-- ==== Sys2Proof/Machine/Start.lean ====
section
/-! DEFINITION. The start of command records at an edge (R342, R345, R346), the graph sub-streams (R358), and one command
per opcode. -/

namespace Sys2Proof.Machine

open Sys2Proof

/-! ## Checks (R346) -/

/-- The status with which a command in form completes at its start, or zero where its own chapter decides (R346). -/
def State.cmdCheck (s : State) (k : Cmd) : Nat :=
  let op := recOp k.w
  if k.fn ≠ 0 ∧ s.fld 0 (k.fn - 1) Reg.DCTL_COMP_PART0.STATE ≠ 1 then 0x11
  else if op = 0x20 ∧ s.fld 0 0 Reg.IDC_CAP1.SIEVE = 0 then 0x1F
  else if op = 0x21 ∧ !bitOf (s.fld 0 0 Reg.IDC_CAP0.PORT_MASK) (k.arg 16 1) then 0x1F
  else if 0x30 ≤ op ∧ k.fn ≠ 0 then 0x11
  else if op ≠ 0x10 ∧ !s.ctxLive k.fn k.ctx then 0x11
  else 0

/-- The virtual memory that a command reads as it runs (R344): address and length. -/
def Cmd.reads (k : Cmd) : Option (Nat × Nat) :=
  match recOp k.w with
  | 0x05 => some (k.arg 16 8, 8 * k.arg 14 2)
  | 0x18 => some (k.arg 8 8, 64 * k.arg 16 2)
  | 0x19 => some (k.arg 8 8, 64 * k.arg 18 2)
  | 0x30 => some (k.arg 8 8, 64)
  | _ => none

/-- Whether a command runs without data from elsewhere. -/
def State.runsHere (s : State) (k : Cmd) : Bool :=
  match k.reads with
  | some (va, len) => s.readsHere k.fn va len .rd
  | none => true

/-- A command's own effect (R343). SIEVE_TABLE and SCHED_LOAD are finished by their checks (R163, R285). -/
def State.runOp (s : State) (k : Cmd) (argVa : Nat) (ext : List Byte) : State :=
  match recOp k.w with
  | 0x00 => s.done k 0
  | 0x01 => s.launchCmd k argVa
  | 0x02 => s.graphLaunch k
  | 0x03 => s.latchSignal k
  | 0x04 => s.latchWait k
  | 0x05 => s.seqUpdate k ext
  | 0x10 => s.ctxCreate k
  | 0x11 => s.ctxDestroy k
  | 0x12 => s.mapObj k
  | 0x13 => s.unmapObj k
  | 0x14 => s.unmapObj k
  | 0x15 => s.invalidateCmd k
  | 0x18 => s.graphStore k ext
  | 0x19 => s.graphPatch k ext
  | 0x1A => s.graphDestroy k
  | 0x1C => s.latchAlloc k
  | 0x1D => s.latchFree k
  | 0x1E => s.seqBind k
  | 0x1F => s.seqUnbind k
  | 0x30 => s.shareCreate k ext
  | 0x31 => s.shareVerify k
  | 0x32 => s.shareMap k
  | 0x33 => s.shareUnmap k
  | 0x34 => s.shareDestroy k
  | _ => s

/-- A started command is checked and runs, unless it waits for data from elsewhere (`ext` none). -/
def State.runCmd (s : State) (k : Cmd) (argVa : Nat) (ext : Option (List Byte)) : State :=
  match s.cmdCheck k with
  | 0 => if ext.isNone && !s.runsHere k then s else s.runOp k argVa (ext.getD [])
  | st => s.done k st

/-! ## Starts -/

/-- A record that fails R342 completes SEAL_FAILURE and halts its queue; a sealed one gives no CONTEXT away (log 44). -/
def State.sealFailed (s : State) (fn q sq : Nat) : State :=
  ((s.updRec fn q sq QRec.blank).completeRec fn q sq 0x18 0 true false).settled

/-- A fetched record starts (R345, R346): one whose bytes came poisoned fails as their consumer (R53). -/
def State.startRec (s : State) (fn q : Nat) (r : QRec) (ext : Option (List Byte)) : State :=
  match if r.sealBad then none else s.openRec fn q r.sq r.w with
  | none => s.sealFailed fn q r.sq
  | some w =>
    let s := s.updRec fn q r.sq fun x => { x with w := w, st := 1, beat := s.tick, stallFrom := s.tick, sgen := s.sealGen fn w }
    let k : Cmd := ⟨fn, q, r.sq, none, recCtx w, w⟩
    if r.badRead then s.failed1 k 0x14 0x04 0 else if recWf w then s.runCmd k 0 ext else s.done k 0x19

/-- A graph launch's record as a command (R358). -/
def State.graphCmd (s : State) (g : GRun) (i : Nat) : Cmd :=
  let ctx := ((s.qrec g.fn g.q g.sq).map fun r => recCtx r.w).getD 0
  ⟨g.fn, g.q, g.sq, some i, ctx, BitVec.ofNat 512 (putBits ((s.grecs g).getD i 0).toNat 16 8 ctx)⟩

/-- The record that a graph launch may start now: its first one not started, as earlier ones allow (R345, R358). A started
graph launch runs on where its queue has halted (R353). -/
def State.graphNext (s : State) (g : GRun) : Option Nat :=
  match g.st.findIdx? fun x => x.1 == 0 with
  | none => none
  | some i =>
    let rs := s.grecs g
    let w := rs.getD i 0
    if (List.range i).all fun j => (g.st.getD j (0, 0)).1 == 2
        || !opHolds (recOp (rs.getD j 0)) && !(opWaits (recOp w) || recAfter w) then some i
    else none

/-- A graph launch changed in place. -/
def State.updGrun (s : State) (g : GRun) (f : GRun → GRun) : State :=
  { s with gruns := s.gruns.map fun x => if x.fn == g.fn && x.q == g.q && x.sq == g.sq then f x else x }

/-- A record of a graph launch starts. -/
def State.startGraphRec (s : State) (g : GRun) (i : Nat) (ext : Option (List Byte)) : State :=
  let s := s.updGrun g fun x => { x with st := x.st.set i (1, 0), beats := x.beats.set i s.tick }
  s.runCmd (s.graphCmd g i) g.argVa ext

/-- One queue's startable records start, at most `n`. -/
def State.startQueue : Nat → State → Nat → Nat → State
  | 0, s, _, _ => s
  | n + 1, s, fn, q => match s.startable fn q with
    | none => s
    | some r => State.startQueue n (s.startRec fn q r none) fn q

/-- One graph launch's startable records start, at most `n`. -/
def State.startGraph : Nat → State → Nat → Nat → Nat → State
  | 0, s, _, _, _ => s
  | n + 1, s, fn, q, sq => match s.grun? fn q sq with
    | none => s
    | some g => match s.graphNext g with
      | none => s
      | some i => State.startGraph n (s.startGraphRec g i none) fn q sq

/-- Every queue's and graph launch's startable records start, queues in the order of their numbers (R345). -/
def State.startAll (s : State) : State :=
  let qs := s.queues.map fun e => (e.1 / 1048576, e.1 % 1048576, e.2.recs.length)
  let s := qs.foldl (fun s (x : Nat × Nat × Nat) => State.startQueue x.2.2 s x.1 x.2.1) s
  let gs := s.gruns.map fun g => (g.fn, g.q, g.sq, g.st.length)
  gs.foldl (fun s (x : Nat × Nat × Nat × Nat) => State.startGraph x.2.2.2 s x.1 x.2.1 x.2.2.1) s

/-! ## One command per opcode -/

/-- Whether a started command has still to run: its data were not here, or it waits in queue order (R164, R285, R359). -/
def State.unrun (s : State) (k : Cmd) : Bool :=
  [0x05, 0x18, 0x19, 0x20, 0x21, 0x30].contains (recOp k.w) && !(s.deferred.any fun d => match d with
    | .done f q sq g _ => f == k.fn && q == k.q && sq == k.sq && g == k.g
    | .graph f _ q sq => f == k.fn && q == k.q && sq == k.sq && k.g.isNone
    | .seq _ f _ _ _ _ q sq g => f == k.fn && q == k.q && sq == k.sq && g == k.g
    | _ => false) && !(s.ports.any fun e => e.2.next.any fun t => t.fn == k.fn && t.q == k.q && t.sq == k.sq && t.g == k.g)

/-- The first started command of an opcode on a queue that has still to run and does not wait for another (R164, R285). -/
def State.unrunCmd (s : State) (fn q op : Nat) (goes : Cmd → Bool := fun _ => true) : Option (Cmd × Nat) :=
  let inQueue := (s.queue fn q).recs.findSome? fun r =>
    let k : Cmd := ⟨fn, q, r.sq, none, recCtx r.w, r.w⟩
    if r.st = 1 ∧ recOp r.w = op ∧ s.unrun k ∧ goes k then some (k, 0) else none
  match inQueue with
  | some x => some x
  | none => (s.gruns.filter fun g => g.fn == fn && g.q == q).findSome? fun g =>
      (List.range g.st.length).findSome? fun i =>
        let k := s.graphCmd g i
        if (g.st.getD i (0, 0)).1 = 1 ∧ recOp k.w = op ∧ s.unrun k ∧ goes k then some (k, g.argVa) else none

/-- The graph record of an opcode that a graph launch of a queue may start. -/
def State.graphDue (s : State) (fn q op : Nat) : Option (GRun × Nat) :=
  (s.gruns.filter fun g => g.fn == fn && g.q == q).findSome? fun g => match s.graphNext g with
    | some i => if recOp (s.graphCmd g i).w = op then some (g, i) else none
    | none => none

/-- The opcode of a record that may start; a sealed one's is in the clear (R342). -/
def State.command (s : State) (fn q op : Nat) (ext : List Byte) : State :=
  match (s.startable fn q).filter fun r => recOp r.w == op with
  | some r => s.startRec fn q r (some ext)
  | none => match s.unrunCmd fn q op with
    | some (k, argVa) => if k.g.isNone && (s.qrec fn q k.sq).any (·.badRead) then s.failed1 k 0x14 0x04 0
        else s.runCmd k argVa (some ext)
    | none => match s.graphDue fn q op with
      | some (g, i) => s.startGraphRec g i (some ext)
      | none => s

/-- NOP (R343). -/
def execNop (fn q : Nat) (s : State) : Host.Outcome State Fault Refusal := .next (s.command fn q 0x00 [])
/-- LAUNCH (R347). -/
def execLaunch (fn q : Nat) (s : State) : Host.Outcome State Fault Refusal := .next (s.command fn q 0x01 [])
/-- GRAPH_LAUNCH (R358). -/
def execGraphLaunch (fn q : Nat) (s : State) : Host.Outcome State Fault Refusal := .next (s.command fn q 0x02 [])
/-- LATCH_SIGNAL (R509). -/
def execLatchSignal (fn q : Nat) (s : State) : Host.Outcome State Fault Refusal := .next (s.command fn q 0x03 [])
/-- LATCH_WAIT (R356). -/
def execLatchWait (fn q : Nat) (s : State) : Host.Outcome State Fault Refusal := .next (s.command fn q 0x04 [])
/-- SEQ_UPDATE (R86). -/
def execSeqUpdate (fn q : Nat) (ext : List Byte) (s : State) : Host.Outcome State Fault Refusal :=
  .next (s.command fn q 0x05 ext)
/-- CTX_CREATE (R332). -/
def execCtxCreate (fn q : Nat) (s : State) : Host.Outcome State Fault Refusal := .next (s.command fn q 0x10 [])
/-- CTX_DESTROY (R361). -/
def execCtxDestroy (fn q : Nat) (s : State) : Host.Outcome State Fault Refusal := .next (s.command fn q 0x11 [])
/-- MAP (R334). -/
def execMap (fn q : Nat) (s : State) : Host.Outcome State Fault Refusal := .next (s.command fn q 0x12 [])
/-- UNMAP (R360). -/
def execUnmap (fn q : Nat) (s : State) : Host.Outcome State Fault Refusal := .next (s.command fn q 0x13 [])
/-- RELEASE (R360). -/
def execRelease (fn q : Nat) (s : State) : Host.Outcome State Fault Refusal := .next (s.command fn q 0x14 [])
/-- INVALIDATE (R234). -/
def execInvalidate (fn q : Nat) (s : State) : Host.Outcome State Fault Refusal := .next (s.command fn q 0x15 [])
/-- GRAPH_STORE (R357). -/
def execGraphStore (fn q : Nat) (ext : List Byte) (s : State) : Host.Outcome State Fault Refusal :=
  .next (s.command fn q 0x18 ext)
/-- GRAPH_PATCH (R359). -/
def execGraphPatch (fn q : Nat) (ext : List Byte) (s : State) : Host.Outcome State Fault Refusal :=
  .next (s.command fn q 0x19 ext)
/-- GRAPH_DESTROY (R361). -/
def execGraphDestroy (fn q : Nat) (s : State) : Host.Outcome State Fault Refusal := .next (s.command fn q 0x1A [])
/-- LATCH_ALLOC (R332). -/
def execLatchAlloc (fn q : Nat) (s : State) : Host.Outcome State Fault Refusal := .next (s.command fn q 0x1C [])
/-- LATCH_FREE (R332). -/
def execLatchFree (fn q : Nat) (s : State) : Host.Outcome State Fault Refusal := .next (s.command fn q 0x1D [])
/-- SEQ_BIND (R332). -/
def execSeqBind (fn q : Nat) (s : State) : Host.Outcome State Fault Refusal := .next (s.command fn q 0x1E [])
/-- SEQ_UNBIND (R332). -/
def execSeqUnbind (fn q : Nat) (s : State) : Host.Outcome State Fault Refusal := .next (s.command fn q 0x1F [])
/-- SIEVE_TABLE (R163): it starts, and its check completes it. -/
def execSieveTable (fn q : Nat) (s : State) : Host.Outcome State Fault Refusal := .next (s.command fn q 0x20 [])
/-- SCHED_LOAD (R284): it starts, and its check completes it. -/
def execSchedLoad (fn q : Nat) (s : State) : Host.Outcome State Fault Refusal := .next (s.command fn q 0x21 [])
/-- SHARE_CREATE (R335). -/
def execShareCreate (fn q : Nat) (ext : List Byte) (s : State) : Host.Outcome State Fault Refusal :=
  .next (s.command fn q 0x30 ext)
/-- SHARE_VERIFY (R392). -/
def execShareVerify (fn q : Nat) (s : State) : Host.Outcome State Fault Refusal := .next (s.command fn q 0x31 [])
/-- SHARE_MAP (R335). -/
def execShareMap (fn q : Nat) (s : State) : Host.Outcome State Fault Refusal := .next (s.command fn q 0x32 [])
/-- SHARE_UNMAP (R335). -/
def execShareUnmap (fn q : Nat) (s : State) : Host.Outcome State Fault Refusal := .next (s.command fn q 0x33 [])
/-- SHARE_DESTROY (R335). -/
def execShareDestroy (fn q : Nat) (s : State) : Host.Outcome State Fault Refusal := .next (s.command fn q 0x34 [])

/-! ## LATCH_WAIT timeouts (R356) -/

/-- The stall budget of a command (R428): its STALL field, or its function's default. -/
def State.budget (s : State) (fn : Nat) (w : BitVec 512) : Nat :=
  if recField w 44 2 = 0 then s.fld fn 0 Reg.ERRL_STALL.STALL_DEF else recField w 44 2

/-- The beats that a LATCH_WAIT may wait: TIMEOUT, or the stall budget of its command (R356, R428). -/
def State.waitBeats (s : State) (fn : Nat) (w cmd : BitVec 512) : Nat :=
  if recField w 18 2 = 0 then s.budget fn cmd else recField w 18 2

/-- The waiting LATCH_WAIT of a queue and sequence number whose time has passed, as its graph record. -/
def State.waitOver (s : State) (fn q sq : Nat) : Option (Option Nat) :=
  match s.qrec fn q sq with
  | none => none
  | some r =>
    let timedOut (w : BitVec 512) (beat : Nat) : Bool := recOp w == 4 && decide (beat + s.waitBeats fn w r.w ≤ s.tick)
    if r.st = 1 ∧ timedOut r.w r.beat then some none
    else match s.grun? fn q sq with
      | none => none
      | some g => ((List.range g.st.length).find? fun i =>
          (g.st.getD i (0, 0)).1 == 1 && timedOut ((s.grecs g).getD i 0) (g.beats.getD i 0)).map some

/-- LATCH_WAIT_TIMEOUT (R356, R362): STALLED, under FAULT_POLICY. -/
def execLatchWaitTimeout (fn q sq : Nat) (s : State) : Host.Outcome State Fault Refusal :=
  .next (match s.waitOver fn q sq with
    | some g => s.failCmd fn q sq g 0x15 0x11 0 (if fn = 0 then 0 else unitPart (fn - 1)) 0 0 0
    | none => s)

/-! ## Launches whose shares have all ended (R347, R349) -/

/-- A launch that has ended on every core completes (R347, R153). -/
def State.completeLaunch (s : State) (l : Launch) : State := s.finishLaunch l (if l.degraded then 1 else 0) 0 false

/-- COMMAND_COMPLETE (R349, R347): the launch of a command, or of one record of its graph, has ended on every core. -/
def execCommandComplete (fn q sq : Nat) (s : State) : Host.Outcome State Fault Refusal :=
  .next (match s.launches.find? fun l => l.fn == fn && l.q == q && l.sq == sq && l.phase == 6 with
    | some l => s.completeLaunch l
    | none => s)

/-- Every launch that has ended completes, before an edge's starts (R345). -/
def State.completeEnded (s : State) : State :=
  (s.launches.filter fun l => l.phase == 6).foldl State.completeLaunch s

/-! ## SIEVE_TABLE (R163, R164) -/

/-- A table that nothing was loaded into. -/
def SieveTbl.fresh : SieveTbl := { cur := none, held := [], num := 0 }

/-- A partition's sieve table. -/
def State.sieveTbl (s : State) (fn t : Nat) : SieveTbl := s.sieve.get SieveTbl.fresh (key2 fn t)

/-- Whether a version of a table is still held (R164): an outstanding move of the function started under it. -/
def State.versionHeld (s : State) (fn t : Nat) (v : SieveVer) : Bool :=
  s.cores.any fun e => (s.coreFn e.1).1 == fn && e.2.cur.moves.any fun m => m.vers.getD t 0 == v.num

/-- The replaced versions of a table that are still held. -/
def State.oldVersions (s : State) (fn t : Nat) : List SieveVer := (s.sieveTbl fn t).held.filter (s.versionHeld fn t)

/-- Whether a version of a table has been checked and waits for its edge (R163). -/
def State.sieveComing (s : State) (fn t : Nat) : Bool :=
  s.deferred.any fun d => match d with | .sieve f u _ => f == fn && u == t | _ => false

/-- SIEVE_TABLE_CHECKED (R163, R164): an image that passes takes effect at the next edge, where its command completes; a
load for a table whose older version is held, or that is about to be replaced, waits. -/
def State.sieveChecked (s : State) (fn q : Nat) (image : List Byte) : State :=
  match s.unrunCmd fn q 0x20 fun k => (s.oldVersions fn (k.arg 16 1)).isEmpty && !s.sieveComing fn (k.arg 16 1) with
  | none => s
  | some (k, _) =>
    let t := k.arg 16 1
    match s.readVa k.who fn (k.arg 8 8) 144 .rd image with
      | .wait s => s
      | .fail e s => s.failedRead k e (k.arg 8 8)
      | .ok d _ s => match tableImage d with
        | none => s.failed1 k 0x14 0x0A (k.arg 8 8)
        | some (w, lens, tag) =>
          let v : Option SieveVer := if w = 0 then none else some ⟨(s.sieveTbl fn t).num + 1, w, lens, tag⟩
          { s with deferred := s.deferred ++ [.sieve fn t v, .done fn q k.sq k.g 0] }

/-- SIEVE_TABLE_CHECKED (R163). -/
def execSieveTableChecked (fn q : Nat) (image : List Byte) (s : State) : Host.Outcome State Fault Refusal :=
  .next (s.sieveChecked fn q image)

/-- A table's new version takes effect (R163, R164): the replaced one is held while moves use it. -/
def State.setSieve (s : State) (fn t : Nat) (v : Option SieveVer) : State :=
  let x := s.sieveTbl fn t
  let y : SieveTbl := { cur := v, held := s.oldVersions fn t ++ x.cur.toList, num := x.num + 1 }
  { s with sieve := s.sieve.set SieveTbl.fresh (key2 fn t) y }

end Sys2Proof.Machine
end

