-- ==== Sys2Proof/Machine/Destroy.lean ====
section
/-! DEFINITION. Destruction of queues, contexts, graphs and sequence slots (R332, R333, R361). -/

namespace Sys2Proof.Machine

open Sys2Proof

/-! ## What is abandoned -/

/-- CONTEXT of a fetched record: a sealed one that has not started is opened for it (R342). -/
def State.recContext (s : State) (fn q : Nat) (r : QRec) : Option Nat :=
  if r.st = 0 ∧ recSealed r.w then (s.openRec fn q r.sq r.w).map recCtx else some (recCtx r.w)

/-- The queues of a function. -/
def queuesOf (s : State) (fn : Nat) : List (Nat × List QRec) :=
  (s.queues.filter fun e => e.1 / 1048576 == fn).map fun e => (e.1 % 1048576, e.2.recs)

/-- The commands that a destruction or an abort (kind 4, R435) abandons, as (queue, sequence number), in sequence order on
each queue (R332, R361). -/
def State.abandoned (s : State) (d : Destroy) : List (Nat × Nat) :=
  let pick (f : Nat → QRec → Bool) : List (Nat × Nat) :=
    (queuesOf s d.fn).flatMap fun e => (e.2.filter (f e.1)).map fun r => (e.1, r.sq)
  match d.kind with
  | 0 => pick fun q _ => q == d.num
  | 1 => pick fun q r => !(q == d.q && r.sq == d.sq) && s.recContext d.fn q r == some d.num
  | 2 => pick fun q r => r.st == 1 && (recOp r.w == 0x02 || recOp r.w == 0x19) && recHandle r.w == d.num
      && !(q == d.q && r.sq == d.sq)
  | 4 => pick fun _ _ => true
  | _ => match s.slots.find? d.num with
    | none => []
    | some x => pick fun _ r => r.st == 1 && (recOp r.w == 0x01 || recOp r.w == 0x02) && recCtx r.w == x.ctx

/-- The launches among abandoned commands. -/
def State.abandonedRuns (s : State) (d : Destroy) : List Launch :=
  let cs := s.abandoned d
  s.launches.filter fun l => l.fn == d.fn && (cs.contains (l.q, l.sq) || d.kind == 1 && l.ctx == d.num || d.kind == 4)

/-- The engines that hold work of a core (R361): 0 to 5 matrix and vector engines, 6 and 7 move engines. -/
def State.busyEngines (s : State) (n : Nat) : List (Nat × Nat) :=
  ((List.range 8).filter fun e => (s.core n).cur.engBusy e).map fun e => (n, e)

/-! ## Steps -/

/-- The first record that each queue of an aborted partition completes carries HALTED (R435). -/
def State.haltFirsts (s : State) (fn : Nat) : State :=
  (queuesOf s fn).foldl (fun (s : State) (e : Nat × List QRec) => match e.2 with
    | r :: _ => if s.qstate fn e.1 = 1 then (s.openQueued fn e.1 r.sq).updRec fn e.1 r.sq fun r => { r with w := r.w ||| 0x100 } else s
    | [] => s) s

/-- Every ACTIVE queue of a function becomes HALTED (R435). -/
def State.haltAll (s : State) (fn : Nat) : State := (List.range 64).foldl (fun s k => s.haltQueue fn k) s

/-- The last step of a destruction (R361 steps 4 and 5, R332): its commands complete ABORTED in sequence order, its objects
go, and its own command completes DONE. -/
def State.finishDestroy (s : State) (d : Destroy) : State :=
  let cs := s.abandoned d
  let s := { s with destroys := s.destroys.filter fun x => x.id != d.id }
  let s := if d.kind = 4 then s.haltFirsts d.fn else s
  let s := cs.foldl (fun s (c : Nat × Nat) => s.abandon d.fn c.1 c.2 (if d.kind = 4 then 0x17 else 0x10) false) s
  let own (k : Nat) : Bool := k / 1048576 == d.fn
  let s : State := match d.kind with
    | 0 => { s with deferred := s.deferred ++ [.queueOff d.fn d.num] }
    | 1 =>
      let ls := (s.latches.filter fun e => own e.1 && e.2.ctx == d.num).map (·.1)
      let s := ls.foldl (fun s k => s.freeLatch d.fn (k % 1048576)) s
      let s := (s.launches.filter fun l => l.fn == d.fn && l.ctx == d.num).foldl State.dropLaunch s
      let os := s.mobjs.filter fun e => own e.1 && e.2.ctx == d.num
      let s := os.foldl (fun s (o : Nat × MemObj) =>
        (s.clearLeaves d.fn o.2.leaves).dropXlat d.fn (some (o.2.va / 65536, o.2.pages))) s
      let s := { s with
        mobjs := s.mobjs.filter fun e => !(own e.1 && e.2.ctx == d.num)
        graphs := s.graphs.filter fun e => !(own e.1 && e.2.ctx == d.num)
        slots := s.slots.filter fun e => !(e.2.fn == d.fn && e.2.ctx == d.num)
        ctxs := s.ctxs.del (key2 d.fn d.num) }
      s.setFld d.fn d.num Reg.DSTP_SESSION.LIVE 0
    | 2 => { s with graphs := s.graphs.del (key2 d.fn d.num) }
    | 4 => { s.haltAll d.fn with aborts := s.aborts.filter fun a => a.part != d.num }
    | _ => { s with slots := s.slots.del d.num }
  if d.kind = 0 ∨ d.q = 64 then s else s.finish d.fn d.q d.sq none 0 0 false

/-- A destruction starts (R361 steps 1 to 3): its cores stop, and each engine that held its work must acknowledge. -/
def State.startDestroy (s : State) (d : Destroy) : State :=
  let ls := s.abandonedRuns d
  let busy := ls.flatMap fun l => (l.cores.filter fun n => (s.core n).launch == some l.id).flatMap s.busyEngines
  let s := if d.kind = 0 then (s.setFld d.fn d.num Reg.QCFG_QSTAT.STATE 3).setFld d.fn d.num Reg.QCFG_Q0.EN 0 else s
  let s := ls.foldl State.stopLaunch s
  let d' := { d with started := true, waiting := busy, beat := s.tick }
  let s := { s with destroys := s.destroys.map fun x => if x.id = d.id then d' else x }
  if busy.isEmpty then s.finishDestroy d' else s

/-- Destructions that are due start at an edge. -/
def State.startDestroys (s : State) : State :=
  (s.destroys.filter fun d => !d.started).foldl State.startDestroy s

/-- Launches that have failed are torn down at an edge, but for those that a destruction waits for (R347, R371). -/
def State.dropFailed (s : State) : State :=
  let held (l : Launch) : Bool := s.destroys.any fun d => d.started && d.kind == 1 && d.fn == l.fn && d.num == l.ctx
  (s.launches.filter fun l => l.phase == 7 && !held l).foldl State.dropLaunch s

/-- Clearing EN asks for a queue's destruction (R331, R361); it starts at the next edge. -/
def State.askQueueDestroy (s : State) (fn q : Nat) : State :=
  if (s.qstate fn q = 1 ∨ s.qstate fn q = 2)
      ∧ (s.destroys.any fun d => d.kind == 0 && d.fn == fn && d.num == q) = false then
    let d : Destroy :=
      { id := s.nextReset, kind := 0, fn := fn, num := q, q := q, sq := 0, started := false, waiting := [], beat := s.tick }
    { s with nextReset := s.nextReset + 1, destroys := s.destroys ++ [d] }
  else s

/-- QUEUE_DESTROY (R361): the host clears EN of QCFG_Q0. -/
def execQueueDestroy (fn q : Nat) (s : State) : Host.Outcome State Fault Refusal := .next (s.askQueueDestroy fn q)

/-- An engine acknowledges (R361 step 3); after the last one the destruction completes. -/
def State.destroyAck (s : State) (id n eng : Nat) : State :=
  match s.destroys.find? fun d => d.id == id && d.started && d.waiting.contains (n, eng) with
  | none => s
  | some d =>
    let d' := { d with waiting := d.waiting.erase (n, eng) }
    let s := { s with destroys := s.destroys.map fun x => if x.id = id then d' else x }
    if d'.waiting.isEmpty then s.finishDestroy d' else s

/-- DESTROY_ACK (R361). -/
def execDestroyAck (id core eng : Nat) (s : State) : Host.Outcome State Fault Refusal := .next (s.destroyAck id core eng)

/-- DRAIN_B, the drain budget in beats. -/
def State.drainBudget (s : State) : Nat := s.fld 0 0 Reg.DCTL_RST_CFG.DRAIN_B

/-- Destructions whose bound has passed complete at an edge (R333, R361). -/
def State.overdueDestroys (s : State) : State :=
  (s.destroys.filter fun d => d.started && decide (d.beat + 4 + s.drainBudget ≤ s.tick)).foldl State.finishDestroy s

/-- A destroyed queue becomes DISABLED, and QUEUE is set (R361 step 5). -/
def State.queueOff (s : State) (fn q : Nat) : State :=
  let s := (s.setFld fn q Reg.QCFG_QSTAT.STATE 0).setFld fn q Reg.QCFG_Q0.EN 0
  (s.setQueue fn q { Queue.fresh with cprod := (s.queue fn q).cprod }).intc fn 0

end Sys2Proof.Machine
end

