-- ==== Sys2Proof/Machine/Front.lean ====
section
/-! DEFINITION. The host link (chapter 14): the shutter sweep and fetches (R325 to R331), context counts (R336), and BAR2
(R323, R324). -/

namespace Sys2Proof.Machine

open Sys2Proof

/-! ## Queue state (R331, R400) -/

/-- A queue is enabled with HEAD zero (R331); an enrolled partition's queue counts it, up to 0xFFFF (R400). -/
def State.enableQueue (s : State) (fn q : Nat) : State :=
  if s.enrolled fn && s.fld fn q Reg.DSTP_QGEN.QGEN == 0xFFFF then s.raise fn q Reg.DSTP_QGEN.QGEN_END
  else
    let s := ((s.setFld fn q Reg.QCFG_Q0.EN 1).setFld fn q Reg.QCFG_QSTAT.STATE 1).setFld fn q Reg.QCFG_QSTAT.HEAD 0
    let s := ((s.setFld fn q Reg.QCFG_CQ0.CPROD 0).setFld fn q Reg.DSTP_QGEN.WRAP 0).setQueue fn q Queue.fresh
    if s.enrolled fn then s.modAdd fn q Reg.DSTP_QGEN.QGEN 1 else s

/-- BASE and SIZE of a command or completion ring, bits [51:12] and [3:0]. -/
def ringFields (v : Nat) : Nat := bits v 12 40 * 4096 + bits v 0 4

/-- A write of QCFG_Q0 takes effect at the edge (R331): BASE and SIZE while the queue is DISABLED, then EN. -/
def State.applyQ0 (s : State) (fn q v : Nat) : State :=
  let off := 0x21000 + 32 * q
  let s := if s.qstate fn q = 0 then
      s.wr fn off (BitVec.ofNat 64 (putBits (putBits (s.rd fn off).toNat 12 40 (bits v 12 40)) 0 4 (bits v 0 4)))
    else s
  if bitOf v 63 then (if s.qstate fn q = 0 then s.enableQueue fn q else s)
  else if s.qstate fn q = 1 ∨ s.qstate fn q = 2 then (s.setFld fn q Reg.QCFG_Q0.EN 0).askQueueDestroy fn q
  else s

/-- A write of QCFG_Q1 takes effect at the edge (R331). -/
def State.applyQ1 (s : State) (fn q v : Nat) : State :=
  let off := 0x21008 + 32 * q
  let s := if s.qstate fn q = 0 then
      s.wr fn off (BitVec.ofNat 64 (putBits (putBits (s.rd fn off).toNat 12 40 (bits v 12 40)) 0 4 (bits v 0 4)))
    else s
  s.setFld fn q Reg.QCFG_Q1.EN (bits v 63 1)

/-- A write of QCFG_Q0 (R331): one whose SIZE exceeds 10 is ignored whole; FETCH_MAX changes at once, and the rest waits
for the edge. -/
def State.writeQ0 (s : State) (fn q v : Nat) : State :=
  if 10 < bits v 0 4 then s
  else
    { s.setFld fn q Reg.QCFG_Q0.FETCH_MAX (bits v 4 8) with
      deferred := s.deferred ++ [.reg fn (0x21000 + 32 * q) (BitVec.ofNat 64 v)] }

/-- A write of QCFG_Q1 (R331): one whose SIZE exceeds 9 is ignored whole; VECTOR changes at once. -/
def State.writeQ1 (s : State) (fn q v : Nat) : State :=
  if 9 < bits v 0 4 then s
  else
    { s.setFld fn q Reg.QCFG_Q1.VECTOR (bits v 52 6) with
      deferred := s.deferred ++ [.reg fn (0x21008 + 32 * q) (BitVec.ofNat 64 v)] }

/-- QUEUE_ENABLE (R331): a write of QCFG_Q0 that sets EN. -/
def execQueueEnable (fn q : Nat) (v : U64) (s : State) : Host.Outcome State Fault Refusal :=
  .next (s.writeQ0 fn q (putBits v.toNat 63 1 1))

/-- RESUME of a HALTED queue (R331): ACTIVE at the next edge. -/
def State.askResume (s : State) (fn q : Nat) : State :=
  if s.qstate fn q = 2 then s.setQueue fn q { s.queue fn q with resume := true } else s

/-- RESUME (R331). -/
def execResume (fn q : Nat) (s : State) : Host.Outcome State Fault Refusal := .next (s.askResume fn q)

/-- Queues that a RESUME waits for become ACTIVE at an edge (R331). A further halt cause of the beat that has closed stays for
the sweep of a queue that resumes (R339), and is spent on any other. -/
def State.applyResumes (s : State) : State :=
  (s.queues.filter fun e => e.2.resume || e.2.cause).foldl (fun s e =>
    let (fn, q) := (e.1 / 1048576, e.1 % 1048576)
    let s := s.setQueue fn q { s.queue fn q with resume := false, cause := e.2.resume && e.2.cause }
    if e.2.resume ∧ s.qstate fn q = 2 then s.setFld fn q Reg.QCFG_QSTAT.STATE 1 else s) s

/-- Queues that resumed at this edge with a further halt cause halt again at its sweep (R339). -/
def State.haltAgain (s : State) : State :=
  (s.queues.filter fun e => e.2.cause).foldl (fun (s : State) e =>
    let (fn, q) := (e.1 / 1048576, e.1 % 1048576)
    (s.setQueue fn q { s.queue fn q with cause := false }).haltQueue fn q) s

/-! ## The shutter sweep (R327, R328, R330) -/

/-- The active queues of a function. -/
def State.activeQueues (s : State) (fn : Nat) : List Nat := (List.range 64).filter fun q => s.qstate fn q == 1

/-- The records of the beat that has closed may start from this edge on, and the limits of R328 begin anew. -/
def State.newBeatRecords (s : State) : State :=
  let old (r : QRec) : QRec := { r with fresh := false }
  { s with
    fetched := 0
    queues := s.queues.mapVals fun _ (u : Queue) => if u.recs.any (·.fresh) then { u with recs := u.recs.map old } else u }

/-- The functions, beginning with the one that holds the queue whose turn it is (R328). -/
def State.sweepOrder (s : State) : List Nat := (List.range 33).map fun i => (s.turn / 64 + i) % 33

/-- The sweep of an edge (R327): a tail block is read, with one 512-byte read, for each function with an ACTIVE queue whose
partition is in service. -/
def State.sweep (s : State) : State :=
  let s := s.haltAgain.newBeatRecords
  s.sweepOrder.foldl (fun (s : State) fn =>
    if (s.activeQueues fn).isEmpty || s.halted || (fn != 0 && s.partShut (fn - 1)) then s
    else s.send (.hostRead fn (s.fld fn 0 Reg.QCFG_TAILBASE.BASE * 512) 512)) s

/-- Records that the completion ring of a queue lets the front end fetch (R349): none where its size is reached by the
commands that will write a record, those asked for among them, with the records that the host has not consumed. -/
def State.ringRoom (s : State) (fn q n : Nat) : Nat :=
  if s.fld fn q Reg.QCFG_Q1.EN = 0 then n
  else
    2 ^ (s.fld fn q Reg.QCFG_Q1.SIZE + 7) - (((s.queue fn q).recs.filter (·.willRecord)).length + (s.queue fn q).due
      + (s.fld fn q Reg.QCFG_CQ0.CPROD + 2 ^ 32 - s.fld fn q Reg.QCFG_CQ1.CCONS) % 2 ^ 32)

/-- The address of record `k` of a queue: its slot of the command ring (R325). -/
def State.recordAt (s : State) (fn q k : Nat) : Nat :=
  s.fld fn q Reg.QCFG_Q0.BASE * 4096 + 64 * (k % 2 ^ (s.fld fn q Reg.QCFG_Q0.SIZE + 6))

/-- A queue's turn (R328): of its `n` records due beyond those asked for, as many are read as FETCH_MAX, the package's limit of
4,096 in a beat and the completion ring allow; the rest wait for the next sweep. -/
def State.askRecords (s : State) (fn q n : Nat) : State :=
  let m := s.fld fn q Reg.QCFG_Q0.FETCH_MAX
  let k := min (min n (if m = 0 then 256 else m)) (min (4096 - s.fetched) (s.ringRoom fn q n))
  let u := s.queue fn q
  let h := s.fld fn q Reg.QCFG_QSTAT.HEAD + u.due
  let s : State := { s.setQueue fn q { u with due := u.due + k } with
    fetched := s.fetched + k, turn := if k = 0 then s.turn else (64 * fn + q + 1) % 2112 }
  (List.range k).foldl (fun (s : State) i => s.send (.hostRead fn (s.recordAt fn q (h + i)) 64)) s

/-- One tail word (R325, R327): the records due, or BAD_TAIL and a halt. -/
def State.takeTail (s : State) (fn q : Nat) (t : U64) : State :=
  let d := (t.toNat % 2 ^ 32 + 2 ^ 32 - s.fld fn q Reg.QCFG_QSTAT.HEAD) % 2 ^ 32
  if t.toNat / 2 ^ 32 = 0 ∧ d ≤ 2 ^ (s.fld fn q Reg.QCFG_Q0.SIZE + 6) then
    s.askRecords fn q (d - (s.queue fn q).due)
  else (s.raise fn q Reg.QCFG_QSTAT.BAD_TAIL).haltQueue fn q

/-- The active queues of a function in their turns: from the one whose turn it is on (R328). -/
def State.queueTurns (s : State) (fn : Nat) : List Nat :=
  let qs := s.activeQueues fn
  if s.turn / 64 = fn then (qs.filter fun q => decide (s.turn % 64 ≤ q)) ++ qs.filter fun q => decide (q < s.turn % 64) else qs

/-- A tail block has been read (R327, R330). -/
def State.tailBlock (s : State) (fn : Nat) (tails : List U64) (err : Bool) : State :=
  if (s.activeQueues fn).isEmpty || s.halted || (fn != 0 && s.partShut (fn - 1)) then s
  else if err then
    ((s.raise fn 0 Reg.INTC_TAIL.TAIL_ERR).intc fn 0).logCE 0x0D 0 (if fn = 0 then 0 else unitPart (fn - 1))
      (if fn = 0 then none else some (fn - 1))
  else (s.queueTurns fn).foldl (fun s q => s.takeTail fn q (tails.getD q 0)) s

/-- TAIL_BLOCK_ARRIVAL (R327). -/
def execTailBlockArrival (fn : Nat) (tails : List U64) (err : Bool) (s : State) : Host.Outcome State Fault Refusal :=
  .next (s.tailBlock fn tails err)

/-- Whether a queue takes a record that arrives: one that it asked for, while it is ACTIVE and in service (R328, R331). -/
def State.mayFetch (s : State) (fn q : Nat) : Bool :=
  s.qstate fn q == 1 && !s.halted && !(fn != 0 && s.partShut (fn - 1)) && decide (0 < (s.queue fn q).due)

/-- A fetched record, as it arrives. -/
def QRec.fetched (sq : Nat) (w : BitVec 512) (rec : Bool) : QRec :=
  { sq := sq, w := w, st := 0, status := 0, beat := 0, stallFrom := 0, willRecord := rec, fresh := true
    badRead := false, sealBad := false, sgen := 0, detail := 0 }

/-- A fetched record arrives (R328, R330): HEAD advances, or its read failed and the queue halts. -/
def State.takeRecord (s : State) (fn q : Nat) (w : BitVec 512) (err : Bool) : State :=
  if !s.mayFetch fn q then s
  else if err then (s.raise fn q Reg.QCFG_QSTAT.FETCH_ERR).haltQueue fn q
  else
    let h := s.fld fn q Reg.QCFG_QSTAT.HEAD
    let qu := s.queue fn q
    let r := QRec.fetched h w (s.fld fn q Reg.QCFG_Q1.EN == 1)
    let s := s.setQueue fn q { qu with recs := qu.recs ++ [r], due := qu.due - 1 }
    let s := s.modAdd fn q Reg.QCFG_QSTAT.HEAD 1
    if h + 1 = 2 ^ 32 then s.modAdd fn q Reg.DSTP_QGEN.WRAP 1 else s

/-- COMMAND_RECORD_ARRIVAL (R328). -/
def execCommandRecordArrival (fn q : Nat) (rec : BitVec 512) (err : Bool) (s : State) : Host.Outcome State Fault Refusal :=
  .next (s.takeRecord fn q rec err)

/-- The registers of a function's QCFG window return to their reset values: its queues are DISABLED with EN clear (R331, R339).
What they still hold completes with its reset. -/
def State.clearQcfg (s : State) (fn : Nat) : State :=
  let gone (k : Nat) : Bool := k / 0x2000000 == fn && decide (0x20000 ≤ k % 0x2000000) && decide (k % 0x2000000 < 0x40000)
  let idle (u : Queue) : Queue := { u with due := 0, resume := false, cause := false }
  { s with
    regs := s.regs.filter fun e => !gone e.1
    cnts := s.cnts.filter fun e => !gone (e.1 / 64)
    queues := s.queues.mapVals fun k (u : Queue) => if k / 1048576 = fn then idle u else u }

/-! ## Context counts (R336) -/

/-- The counts of a context as of the last closed beat, at an offset from QOSM_CTX_SEL: `base` is the register's place and
`of` the function whose context is read. -/
def State.latchCounts (s : State) (fn selOff qOff of' c : Nat) : State :=
  let x := s.ctx of' c
  let (last, s) := s.closedBeat
  let sel := c % 256 + (if x.isSome then 0 else 256) + last * 65536
  let s := s.wr fn selOff (BitVec.ofNat 64 sel)
  (List.range 16).foldl (fun (s : State) j =>
    s.wr fn (qOff + 8 * j) (BitVec.ofNat 64 ((x.map fun y => y.closed.get 0 j).getD 0))) s

/-- A write of QOSM_CTX_SEL. -/
def State.ctxSel (s : State) (fn c : Nat) : State := s.latchCounts fn 0xC8000 0xC8010 fn c

/-- CTX_SEL_LATCH (R336). -/
def execCtxSelLatch (fn ctx : Nat) (s : State) : Host.Outcome State Fault Refusal := .next (s.ctxSel fn (ctx % 256))

/-! ## BAR2 (R323, R324) -/

/-- The physical address of an offset in a function's aperture (R323). -/
def State.bar2Pa (s : State) (fn off : Nat) : Nat :=
  let size := 2 ^ (s.cfg fn).bar2
  s.fld fn 0 Reg.PCTL_BAR2_MAP.BASE * 2 ^ 30 / size * size + off

/-- Whether BAR2 serves one address for a function (R324). -/
def State.bar2At (s : State) (fn pa : Nat) (write : Bool) : Bool :=
  match s.mapped pa with
  | none => false
  | some p =>
    let st := s.granState (p.granule pa)
    if fn = 0 then st != 3
    else st == 1 && s.owns (fn - 1) (p.granule pa)
      || st == 2 && !write && (match s.twinAt pa with
        | some (i, _, _) => s.shared.any fun x => x.fn == fn && x.tw == i
        | none => false)

/-- Whether BAR2 serves a run of bytes. -/
def State.bar2Ok (s : State) (fn pa len : Nat) (write : Bool) : Bool :=
  (List.range ((pa % 4096 + len + 4095) / 4096)).all fun i => s.bar2At fn (max pa (pa / 4096 * 4096 + 4096 * i)) write

/-- A refused access (R324): flagged and logged. -/
def State.bar2Refused (s : State) (fn : Nat) : State :=
  (s.raise fn 0 Reg.PCTL_BAR2_MAP.REFUSED).logCE 0x0D 0 (if fn = 0 then 0 else unitPart (fn - 1))
    (if fn = 0 then none else some (fn - 1))

/-- A BAR2 read (R323, R324): a refused one returns all ones. A stopped memory unit holds it (R191). -/
def State.bar2Read (s : State) (fn off len : Nat) : State :=
  let pa := s.bar2Pa fn off
  if 2 ^ (s.cfg fn).bar2 < off + len ∨ len = 0 then s
  else if !s.bar2Ok fn pa len false then (s.bar2Refused fn).send (.bar2 fn off (List.replicate len 0xFF) false)
  else
    let s := s.verifyRun pa len
    if !s.runReady pa len then s
    else
    let r := s.readMem pa len
    r.st.send (.bar2 fn off r.data r.bad)

/-- BAR2_READ (R323). -/
def execBar2Read (fn off len : Nat) (s : State) : Host.Outcome State Fault Refusal := .next (s.bar2Read fn off len)

/-- A BAR2 write (R323, R324): a refused one is discarded. -/
def State.bar2Write (s : State) (fn off : Nat) (d : List Byte) : State :=
  let pa := s.bar2Pa fn off
  if 2 ^ (s.cfg fn).bar2 < off + d.length ∨ d.length = 0 then s
  else if !s.bar2Ok fn pa d.length true then s.bar2Refused fn
  else if s.paStopped pa || !s.countersRoom pa d.length then s
  else (s.writeMem pa d false).2

/-- BAR2_WRITE (R323). -/
def execBar2Write (fn off : Nat) (data : List Byte) (s : State) : Host.Outcome State Fault Refusal :=
  .next (s.bar2Write fn off data)

end Sys2Proof.Machine
end

