-- ==== Sys2Proof/Machine/Preload.lean ====
section
/-! DEFINITION. Which launch a core takes next (R366), and the preload and start of launches (R70, R78 to R81, R393,
R512). -/

namespace Sys2Proof.Machine

open Sys2Proof

/-! ## The choice of a launch (R366) -/

/-- Rank of a launch that waits for a core: new LC, saved BE, new BE; none when it does not wait. Phases: 0 new, 1
running, 2 to 4 switched out, 5 in. -/
def Launch.rank (l : Launch) : Option Nat :=
  if l.phase ≤ 1 then some (if l.lc then 0 else 2) else if l.phase = 4 then some 1 else none

/-- Whether a launch waits for a core: it names the core, whose share has neither started nor ended. -/
def State.waitsFor (s : State) (n : Nat) (l : Launch) : Bool :=
  l.cores.contains n && !l.ended.contains n && (s.core n).launch != some l.id && l.rank.isSome

/-- The order of R366: rank, then beat of start, queue and sequence number. -/
def Launch.key (l : Launch) : List Nat := [l.rank.getD 3, l.startBeat, l.q, l.sq, l.g.getD 0]

/-- Whether one list of numbers comes before another. -/
def keyLt : List Nat → List Nat → Bool
  | a :: as, b :: bs => decide (a < b) || (a == b && keyLt as bs)
  | _, _ => false

/-- The launch that a core takes next (R366). -/
def State.nextFor (s : State) (n : Nat) : Option Launch :=
  (s.launches.filter (s.waitsFor n)).foldl (fun (b : Option Launch) l => match b with
    | some x => if keyLt l.key x.key then some l else some x
    | none => some l) none

/-! ## Preload (R78, R79, R512) -/

/-- Offset of a half of the instruction region (R40, R78). -/
def halfAt (half : Nat) : Nat := 0x1F0000 + half * 0x8000

/-- PRELOAD_START (R79): once the launch on the core has retired its first BEAT.END, or the core holds none, the next
one begins, unless either takes both halves and the other still holds the core. -/
def State.startPreload (s : State) (n : Nat) : State :=
  let c := s.core n
  match s.nextFor n with
  | none => s
  | some l =>
    if l.phase > 1 || s.coreShut n || c.preload.any fun p => p.launch == l.id then s
    else
      let go (half : Nat) : State :=
        s.setCore n { c with
          preload := some { launch := l.id, half := half, started := true, done := false, fid := none } }
      match c.launch with
      | none => go 0
      | some _ => if c.firstEnd && decide (c.len ≤ 1024) && decide (l.bundles ≤ 1024) then go (1 - c.half) else s

/-- PRELOAD_START (R79). -/
def execPreloadStart (core : Nat) (s : State) : Host.Outcome State Fault Refusal := .next (s.startPreload core)

/-- The preload path reads a run of virtual memory (R512): under its own translations, and from memory, other nodes and the
host as `State.vaRead` has it, in the BE class (R79). -/
def State.preRead (s : State) (n : Nat) (l : Launch) (acc : Acc) (va len : Nat) (ext : List Byte) : VaRead :=
  State.vaRead [0, n, l.id] l.fn false (fun s a => match s.xlate n none false l.fn a acc with
    | (t, _, s) => (t.firm, s)) (len / 65536 + 2) s va len ext

/-- A program log with nothing in it (R393). -/
def ProgLog.fresh : ProgLog := { digests := [], acc := List.replicate 48 0 }

/-- A binary's digest enters a function's program log (R393). -/
def State.measure (s : State) (fn : Nat) (d : List Byte) : State :=
  let p := s.progs.get ProgLog.fresh fn
  let set (p : ProgLog) : State := { s with progs := s.progs.set ProgLog.fresh fn p }
  if p.digests.any (·.1 == d) then
    set { p with digests := p.digests.map fun (x : List Byte × Nat) =>
      if x.1 == d then (x.1, min (x.2 + 1) (2 ^ 32 - 1)) else x }
  else
    let acc := beBytes 48 (Config.sha384 (p.acc ++ d)).toNat
    if p.digests.length < 64 then set { digests := p.digests ++ [(d, 1)], acc := acc }
    else (set { p with acc := acc }).setFld fn 0 Reg.DSTP_ATTEST.PROG_OVF 1

/-- A preload or load cannot be read (R81): UCE-C is logged and the launch completes; no core starts it. A core that had
already started it is stopped like the other cores of a failed launch (log 115). -/
def State.preloadFailed (s : State) (n : Nat) (l : Launch) (kind : Nat) : State :=
  let s := s.logErr { ErrRec.of 1 (if kind = 6 ∨ kind = 7 then 0x09 else 0x02) with
    status := kindStatus kind, cause := kind, unit := unitCore n, cmdSeq := l.sq, queue := l.q, ctx := some l.ctx
    part := if l.fn = 0 then none else some (l.fn - 1) }
  let clear (c : Core) : Core := if c.preload.any fun p => p.launch == l.id then { c with preload := none } else c
  ({ s with cores := s.cores.mapVals fun _ c => clear c } : State).finishLaunch l (kindStatus kind) 0 true

/-- PRELOAD_COMPLETE (R512, R79, R393): the binary and constants reach the core store, and the binary is measured once
for the launch. -/
def State.completePreload (s : State) (n : Nat) (ext : List Byte) : State :=
  let c := s.core n
  match c.preload with
  | none => s
  | some p =>
    match s.launch? p.launch with
    | none => s
    | some l =>
      if !p.started || p.done then s
      else match s.preRead n l .bin l.prog (32 * l.bundles) ext with
        | .wait s => s
        | .fail k s => s.preloadFailed n l k
        | .ok bin ext s =>
          match s.preRead n l .const l.constVa (1024 * l.constKib) ext with
          | .wait s => s
          | .fail k s => s.preloadFailed n l k
          | .ok cst _ s =>
            let s := s.endReads [0, n, l.id]
            let c := s.core n
            let store := (c.cur.store.setRun (halfAt p.half) bin).setRun stagingAt cst
            let s := s.setCore n { c with
              cur := { c.cur with store := store }, preload := some { p with done := true } }
            if l.measured then s
            else (s.updLaunch l.id fun l => { l with measured := true }).measure l.fn
              (beBytes 48 (Config.sha384 bin).toNat)

/-- PRELOAD_COMPLETE (R512). -/
def execPreloadComplete (core : Nat) (ext : List Byte) (s : State) : Host.Outcome State Fault Refusal :=
  .next (s.completePreload core ext)

/-! ## Start (R70, R81) -/

/-- The state of R70, with the generators of R149: `i` is the core's index and `k` the launch's cores. -/
def launchState (c : CoreState) (seed : U64) (l : Launch) (n i now : Nat) : CoreState :=
  { CoreState.idle with
    s := [i, l.cores.length, now, l.argVa].zipIdx.foldl (fun (t : Tab U64) x => t.set 0 (x.2 + 1) (BitVec.ofNat 64 x.1)) []
    gen := (List.range 6).map fun e => (e, genInit seed l.sq n e)
    store := c.store
    seq := c.seq }

/-- A launch starts on a core (R81): its exception record is cleared (R89) and its first block begins. -/
def State.startLaunch (s : State) (n : Nat) (l : Launch) (half : Nat) : State :=
  let c := s.core n
  let i := (l.cores.findIdx? (· == n)).getD 0
  let seed := ((s.ctx l.fn l.ctx).map (·.seed)).getD 0
  let start := if l.phase = 0 then s.now else l.since
  let s := (s.wr 0 (0x18000 + 16 * n) 0).wr 0 (0x18008 + 16 * n) 0
  let s := s.setCore n { c with
    cur := launchState c.cur seed l n i start, bundle := none, launch := some l.id, index := i, half := half
    len := l.bundles, running := true, stopped := false, firstEnd := false, blockBeat := s.tick, lateRun := 0
    late := false, preload := none, issuedBeat := false, degBeat := false, oldSlots := [] }
  s.updLaunch l.id fun l => { l with phase := 1, since := start }

/-- Whether a launch starts on a core now: the core is free, and the launch that it takes next is loaded. -/
def State.startDue (s : State) (n : Nat) : Option (Launch × Nat) :=
  let c := s.core n
  if c.launch.isSome || c.running || s.coreShut n || s.movingCore n then none
  else match s.nextFor n, c.preload with
    | some l, some p => if p.launch == l.id && p.done then some (l, p.half) else none
    | _, _ => none

/-- LAUNCH_CORE_START (R81). -/
def State.launchCore (s : State) (n : Nat) : State :=
  match s.startDue n with
  | some (l, half) => s.startLaunch n l half
  | none => s

/-- LAUNCH_CORE_START (R81). -/
def execLaunchCoreStart (core : Nat) (s : State) : Host.Outcome State Fault Refusal := .next (s.launchCore core)

end Sys2Proof.Machine
end

