-- ==== Sys2Proof/Machine/Ports.lean ====
section
/-! DEFINITION. The life of a Lyston port: laser inlets (R247, R248), training (R255 to R257, R419), link cells (R263, R266,
R268), quick retrain (R258) and loss (R278, R279). -/

namespace Sys2Proof.Machine

open Sys2Proof

/-! ## Moves that lose their window (R289, R291) -/

/-- The started moves that send in windows of a port, as (core, tag, whether cells are left); `only` names one core and tag. -/
def State.slotMoves (s : State) (p : Nat) (only : Option (Nat × Nat)) : List (Nat × Nat × Bool) :=
  s.cores.flatMap fun e => (e.2.cur.moves.filter fun m => m.started && m.inSlot == some p
    && (match only with
      | some x => x == (e.1, m.tag)
      | none => true)).map fun m => (e.1, m.tag, m.unspent)

/-- A move goes on as unscheduled traffic. -/
def State.unslot (s : State) (n tag : Nat) : State :=
  match s.move? n tag with
  | none => s
  | some m =>
    let s := s.setMove n { m with inSlot := none }
    if m.fid.isSome then s else (s.progress n tag).2

/-- A table that is in service acts as SUSPENDED (R287): an open window passes unused (R280), and what it still served goes on
unscheduled: moves under R291 and R296, and forwarded cells under R293. -/
def State.takeOut (s : State) (p : Nat) : State :=
  let ms := s.slotMoves p none
  let s := (s.suspend p).missHeld p
  ms.foldl (fun s (m : Nat × Nat × Bool) => (if m.2.2 then s.fallBack p else s).unslot m.1 m.2.1) s

/-- The move of the window that is open on a port goes on, and cells held for it, once the port has room again. -/
def State.pumpWindow (s : State) (p : Nat) : State :=
  if (s.port p).openWin.isSome then
    ((s.slotMoves p none).foldl (fun s (m : Nat × Nat × Bool) => (s.progress m.1 m.2.1).2) s).pumpHeld p
  else s

/-! ## Loss (R278, R279) -/

/-- The answers that requests of this package lost with a port get: REFUSED to the moves and signals they belong to. -/
def State.refuseOwn (s : State) (c : Cell) : State :=
  s.answer c.ttag (if c.typ = 2 then 0 else if c.typ = 7 then 3 else 1) 1 []

/-- A port's cells are lost (R279): its buffers are emptied, and each request among them is refused toward its source. -/
def State.loseCells (s : State) (p : Nat) : State :=
  let t := s.port p
  let out := t.replay.map (·.2) ++ t.wait.map (·.cell)
  let held := (List.range 32).flatMap fun (k : Nat) => if k = p then [] else
    ((s.port k).fwd.filter (·.1 == p)).map (·.2)
  let s := { s with
    inbound := s.inbound.filter (·.port != p)
    ports := s.ports.mapVals fun k (u : Port) => if k = p then u else { u with
      fwd := u.fwd.filter (·.1 != p), wait := u.wait.filter fun x => !x.held.any fun (h : Nat × Nat) => h.1 == p } }
  let s := s.setPort p { t with
    txSeq := 0, rxSeq := 0, replay := [], wait := [], sent := [], credit := [], recv := [], tries := 0
    awaiting := false, replayDue := false, acks := [], fwd := [], tagFails := t.tagFails, reseal := false, openWin := none, winLeft := 0 }
  let lost := (out ++ held).filter isRequest
  let s := (lost.filter fromAfar).foldl State.refuseLost s
  (lost.filter fun c => !fromAfar c).foldl State.refuseOwn s

/-- A port that was ACTIVE or in QUICK_RETRAIN leaves with its cells lost, for a STATE and a training step (R278, R279). The
alarm goes to the virtual device that the port is bound to. -/
def State.leaveActive (s : State) (p st step : Nat) (alarm : Bool) : State :=
  if !s.portUp p then s
  else
    let s := (s.setFld 0 p Reg.DCTL_LYS_PSTAT.STATE st).takeOut p
    let s := (s.setFld 0 p Reg.DCTL_LYS_PSTAT.VD_MATCH 0).setFld 0 p Reg.DCTL_LYS_PSTAT.SEALED_NOW 0
    let s := if step ≤ 2 then s.setFld 0 p Reg.DCTL_LYS_PSTAT.LANES 0 else s
    let s := s.raise 0 p Reg.DCTL_LYS_PSTAT.DOWN_EVT
    let s := s.setPort p { s.port p with step := step, fails := 0, retryDue := false, ident := false }
    let s := s.loseCells p
    if alarm then
      let s := s.logErr { ErrRec.of 4 0x0B with cause := 4, unit := unitPort p, part := s.boundPart p }
      match s.boundPart p with
      | some q => s.vdAlarm (s.fld 0 p Reg.DCTL_LYS_PCFG.VD) q 4 0
      | none => s
    else s

/-- A port leaves ACTIVE and trains from step 1 again, or stays down while it may not train. -/
def State.dropPort (s : State) (p : Nat) : State :=
  if s.fld 0 p Reg.DCTL_LYS_PCFG.EN = 1 then s.leaveActive p 1 1 true else s.leaveActive p 0 0 true

/-- PORT_DOWN (R278, R279). -/
def execPortDown (port : Nat) (s : State) : Host.Outcome State Fault Refusal := .next (s.dropPort port)

/-! ## Inlets (R247, R248) -/

/-- The ports of an optical engine (R245). -/
def enginePorts (n : Nat) : List Nat := (List.range 4).map (4 * n + ·)

/-- Whether an optical engine's power domain is on (R445). -/
def State.opticsOn (s : State) (n : Nat) : Bool :=
  s.fld 0 0 ⟨0x100018, 0, 24 * (n / 4) + 16 + n % 4, 1⟩ == 0

/-- A port that may train begins (R255): it is present, its inlet's loop is closed and EN is set. -/
def State.tryTrain (s : State) (p : Nat) : State :=
  if s.portState p = 0 ∧ s.fld 0 p Reg.DCTL_LYS_PCFG.EN = 1 ∧ s.fld 0 (p / 4) Reg.DCTL_LYS_INLET.INTERLOCK = 1
      ∧ bitOf (s.fld 0 0 Reg.IDC_CAP0.PORT_MASK) p then
    (s.setFld 0 p Reg.DCTL_LYS_PSTAT.STATE 1).setPort p
      { s.port p with step := 1, retryDue := false, ident := false }
  else s

/-- The module closes an inlet's loop while its module is seated, its domain is on and its laser is requested. -/
def State.closeLoop (s : State) (n : Nat) : State :=
  if s.fld 0 n Reg.DCTL_LYS_INLET.PRESENT = 1 ∧ s.opticsOn n ∧ s.fld 0 n Reg.DCTL_LYS_INLET.LASER_ON = 1
      ∧ s.fld 0 n Reg.DCTL_LYS_INLET.INTERLOCK = 0 then
    (enginePorts n).foldl State.tryTrain (s.setFld 0 n Reg.DCTL_LYS_INLET.INTERLOCK 1)
  else s

/-- A port whose light has gone: it leaves ACTIVE, or its training stops. -/
def State.darken (s : State) (p : Nat) : State :=
  if s.portUp p then s.leaveActive p 0 0 true
  else if s.portState p = 1 then
    (s.setFld 0 p Reg.DCTL_LYS_PSTAT.STATE 0).setPort p { s.port p with step := 0, retryDue := false, ident := false }
  else s

/-- An inlet's loop opens (R248): its engine's ports go dark. -/
def State.openLoop (s : State) (n : Nat) : State :=
  if s.fld 0 n Reg.DCTL_LYS_INLET.INTERLOCK = 1 then
    (enginePorts n).foldl State.darken
      ((s.setFld 0 n Reg.DCTL_LYS_INLET.INTERLOCK 0).raise 0 n Reg.DCTL_LYS_INLET.INTERLOCK_OPEN)
  else s

/-- Readings of an inlet as DCTL_LYS_INLET shows them in bits [55:24]: powers, their lanes and the case temperature. -/
def State.inletReads (s : State) (n : Nat) (r : InletReading) : State := s.setFld 0 n ⟨0x1006800, 8, 24, 32⟩ r.word.toNat

/-- Whether a reading keeps the limits of R247: seated, on the grid, and within +10.0 to +14.0 dBm on every wavelength. -/
def inletInLimits (r : InletReading) : Bool :=
  r.seated && r.onGrid && decide (100 ≤ bits r.word.toNat 24 8 ∧ bits r.word.toNat 12 8 ≤ 140)

/-- Whether a reading opens the interlock loop (R248): the laser module is gone, or a wavelength is above +15.0 dBm. -/
def inletOpens (r : InletReading) : Bool := !r.seated || decide (150 < bits r.word.toNat 12 8)

/-- A port whose inlet fails: it leaves ACTIVE, and trains only once its inlet is within its limits (R247, R280). -/
def State.dimPort (s : State) (p : Nat) : State :=
  if s.portUp p then s.dropPort p
  else if s.portState p = 1 then s.setPort p { s.port p with step := 1, retryDue := false, ident := false }
  else s

/-- An inlet outside its limits (R247, R248, R278, R280): its ports leave ACTIVE, and the loop opens where R248 says so. -/
def State.inletFails (s : State) (n : Nat) (opens : Bool) : State :=
  let s := s.raise 0 n Reg.DCTL_LYS_INLET.INLET_FAULT
  let s := (enginePorts n).foldl (fun s p => if s.portUp p then s.raise 0 p Reg.DCTL_LYS_PSTAT.LASER_LOSS else s) s
  if opens then s.openLoop n else (enginePorts n).foldl State.dimPort s

/-- INLET_FAULT (R247, R248): what the inlet reads; a reading within the limits is no fault. -/
def execInletFault (inlet : Nat) (r : InletReading) (s : State) : Host.Outcome State Fault Refusal :=
  .next (let s := s.inletReads inlet r
    if inletInLimits r then s
    else
      let s := if r.seated then s else s.setFld 0 inlet Reg.DCTL_LYS_INLET.PRESENT 0
      s.inletFails inlet (inletOpens r))

/-- LASER_MODULE_SEATED (R248). -/
def execLaserModuleSeated (inlet : Nat) (s : State) : Host.Outcome State Fault Refusal :=
  .next ((s.setFld 0 inlet Reg.DCTL_LYS_INLET.PRESENT 1).closeLoop inlet)

/-! ## Width (R256) -/

/-- The narrowest width that a port may take. -/
def State.widthMin (s : State) (p : Nat) : Nat :=
  let w := s.fld 0 p Reg.DCTL_LYS_PCFG.WIDTH_MIN
  if w = 0 then 16 else if w = 1 then 8 else 4

/-- The lanes in use where some pass: the lowest ones of the widest width that has enough; none where no width that is
permitted does (log 42). -/
def State.pickLanes (s : State) (p lanes : Nat) : Option Nat :=
  let l := setBits lanes 16
  (([16, 8, 4].filter fun w => decide (s.widthMin p ≤ w) && decide (w ≤ l.length)).head?).map fun w =>
    ((l.take w).map (2 ^ ·)).sum

/-! ## Link cells of training -/

/-- A TRAIN_ID (R263, R419): this package, port, variant, the lanes that passed step 2, binding, sealing, parish and BASE. -/
def State.sendTrainId (s : State) (p : Nat) : State :=
  let bound := s.fld 0 p Reg.DCTL_LYS_PCFG.BOUND
  let payload := leBytes 2 (s.fld 0 0 Reg.DCTL_NODE.NODE) ++ leBytes 1 p ++ leBytes 1 (s.fld 0 0 ⟨0x0, 0, 32, 8⟩)
    ++ leBytes 2 (s.port p).passed
    ++ leBytes 2 (if bound = 1 then s.fld 0 p Reg.DCTL_LYS_PCFG.VD else 0)
    ++ leBytes 1 (bound + 2 * s.fld 0 p Reg.DCTL_LYS_PCFG.SEALED) ++ List.replicate 7 0
    ++ leBytes 8 (s.rd 0 0x1030400).toNat ++ leBytes 8 (s.port p).used
  s.sendLink p (linkCell 1 payload)

/-- The 64 MEASURE cells of step 5 (R257): the N-cycle at which each begins is free (log 43). -/
def State.sendMeasures (s : State) (p : Nat) : State :=
  let s := s.setPort p { s.port p with meas := [] }
  (List.range 64).foldl (fun (s : State) _ =>
    let (n, s) := s.draw
    s.sendLink p (linkCell 2 (leBytes 8 n))) s

/-- Entry into a training step: step 4 sends TRAIN_ID, step 5 the measurement cells. -/
def State.enterStep (s : State) (p k : Nat) : State :=
  let s := s.setPort p { s.port p with step := k }
  if k = 4 then (s.setPort p { s.port p with ident := false, blocks := 0 }).sendTrainId p
  else if k = 5 then (s.setPort p { s.port p with repeated := false }).sendMeasures p
  else s

/-- A training step that fails (R255): after 10 ms the port returns to step 1; the third failure in a row makes it FAILED
with a CE. -/
def State.failStep (s : State) (p : Nat) : State :=
  let t := s.port p
  if 3 ≤ t.fails + 1 then
    ((s.setFld 0 p Reg.DCTL_LYS_PSTAT.STATE 4).setPort p { t with fails := 0, step := 0, retryDue := false }).logCE 0x0B 0
      (unitPort p) (s.boundPart p)
  else s.setPort p { t with fails := t.fails + 1, retryDue := true }

/-- Step 6 (R255, R266, R268, R265, R419): credits and the link sequence start, sealing begins where it is set. -/
def State.goActive (s : State) (p : Nat) : State :=
  let t := s.port p
  let s := s.setPort p { t with
    txSeq := 0, rxSeq := 0, replay := [], wait := [], sent := [], credit := [], recv := [], tries := 0
    awaiting := false, replayDue := false, lcRun := 0, step := 0, fails := 0, base := t.used }
  let s := s.setFld 0 p Reg.DCTL_LYS_PSTAT.SEALED_NOW (s.fld 0 p Reg.DCTL_LYS_PCFG.SEALED)
  s.setFld 0 p Reg.DCTL_LYS_PSTAT.STATE 2

/-- A training step is done (R255). -/
def State.stepDone (s : State) (p lanes : Nat) : State :=
  let s := s.tryTrain p
  let t := s.port p
  if s.portState p ≠ 1 ∨ t.retryDue then s
  else if t.step = 1 then
    if s.fld 0 (p / 4) Reg.DCTL_LYS_INLET.INTERLOCK = 1 then s.enterStep p 2 else s
  else if t.step = 2 then
    match s.pickLanes p lanes with
    | some l => ((s.setFld 0 p Reg.DCTL_LYS_PSTAT.LANES l).setPort p { s.port p with passed := lanes % 65536 }).enterStep p 3
    | none => s.failStep p
  else if t.step = 3 then s.enterStep p 4
  else if t.step = 4 then if t.ident then s.enterStep p 5 else s
  else if t.step = 5 then if 64 ≤ t.meas.length then s.enterStep p 6 else s
  else s.goActive p

/-- TRAINING_STEP_COMPLETE (R255, R256). -/
def execTrainingStepComplete (port : Nat) (lanes : BitVec 16) (s : State) : Host.Outcome State Fault Refusal :=
  .next (s.stepDone port lanes.toNat)

/-- TRAINING_STEP_FAIL (R255). -/
def execTrainingStepFail (port : Nat) (s : State) : Host.Outcome State Fault Refusal :=
  .next (if s.portState port = 1 ∧ (s.port port).retryDue = false then s.failStep port else s)

/-- TRAINING_RETRY_TIMER (R255): 10 ms after a failure the port is in step 1 again. -/
def execTrainingRetryTimer (port : Nat) (s : State) : Host.Outcome State Fault Refusal :=
  .next (if s.portState port = 1 ∧ (s.port port).retryDue then
    s.setPort port { s.port port with step := 1, retryDue := false, ident := false } else s)

/-- VD_MATCH from this port's binding and the one that the far end last reported (R271). -/
def State.matchVd (s : State) (p : Nat) : State :=
  let ok := s.fld 0 p Reg.DCTL_LYS_PCFG.BOUND == 1 && (s.port p).farVd != 0
    && (s.port p).farVd == s.fld 0 p Reg.DCTL_LYS_PCFG.VD && (s.portUp p || s.portState p == 1)
  s.setFld 0 p Reg.DCTL_LYS_PSTAT.VD_MATCH ok.toNat

/-- TRAIN_ID received (R255, R263, R265, R419): the far end is recorded. A different sealed flag, or a BASE at or below a
seal counter accepted already, keeps the port in step 4. -/
def State.takeTrainId (s : State) (p : Nat) (b : List Byte) : State :=
  let t := s.port p
  if b.length ≠ 32 ∨ !(s.portState p = 1 && t.step == 4 || s.portActive p) then s
  else
    let node := leField b 0 2
    let far := leField b 2 1 % 32
    let same := s.fld 0 p Reg.DCTL_LYS_PSTAT.FAR_NODE == node && s.fld 0 p Reg.DCTL_LYS_PSTAT.FAR_PORT == far
    let used := if same then t.rxUsed else 0
    let base := leField b 24 8
    let sealing := bitOf (leField b 8 1) 1
    let agree := sealing == (s.fld 0 p Reg.DCTL_LYS_PCFG.SEALED == 1)
    let low := sealing && decide (base < used)
    let s := s.setPort p { t with
      farVd := if bitOf (leField b 8 1) 0 then leField b 6 2 else 0
      farSealed := sealing, farParish := leField b 16 8, rxUsed := used
      rxBase := if s.portActive p then t.rxBase else base, ident := agree && !low }
    let s := (s.setFld 0 p Reg.DCTL_LYS_PSTAT.FAR_NODE node).setFld 0 p Reg.DCTL_LYS_PSTAT.FAR_PORT far
    let s := s.matchVd p
    if low && !s.portActive p then s.logCE 0x0B 0 (unitPort p) (s.boundPart p) else s

/-- TRAIN_ID (R263). -/
def execTrainId (port : Nat) (c : Cell) (s : State) : Host.Outcome State Fault Refusal :=
  .next (s.takeTrainId port c.payload)

/-- MEASURE (R257): answered with its transmit stamp and this end's turnaround. Payload layouts are the model's own
(log 43): eight bytes of stamp, then four of turnaround. -/
def execMeasure (port arrival sent : Nat) (c : Cell) (s : State) : Host.Outcome State Fault Refusal :=
  .next (if (s.portState port = 1 ∧ 4 ≤ (s.port port).step) ∨ s.portActive port then
    s.sendLink port (linkCell 3 (leBytes 8 (leField c.payload 0 8) ++ leBytes 4 (sent - arrival))) else s)

/-- The results of a whole measurement (R257, R21): mean round trip and turnaround, d_link rounded to the nearest N-cycle,
and the spread; a spread above 4 ns repeats it once. -/
def State.measured (s : State) (p : Nat) : State :=
  let t := s.port p
  if t.meas.length < 64 then s
  else
    let sum (f : Nat × Nat → Nat) : Nat := (t.meas.map f).sum
    let rt := t.meas.map (·.2)
    let spread := rt.foldl max 0 - rt.foldl min (rt.headD 0)
    if 4 < spread ∧ !t.repeated then (s.setPort p { t with repeated := true }).sendMeasures p
    else
      let s := s.setFld 0 p Reg.DCTL_LYS_DLY.RTT (min ((sum (·.2) + 32) / 64) 0xFFFF)
      let s := s.setFld 0 p Reg.DCTL_LYS_DLY.TURN (min ((sum (·.1) + 32) / 64) 0xFFFF)
      let s := s.setFld 0 p Reg.DCTL_LYS_DLY.D_LINK (min ((sum (·.2) - sum (·.1) + 64) / 128) 0xFFFF)
      s.setFld 0 p Reg.DCTL_LYS_DLY.SPREAD (min spread 0xFF)

/-- MEASURE_REPLY (R257). -/
def execMeasureReply (port arrival : Nat) (c : Cell) (s : State) : Host.Outcome State Fault Refusal :=
  let t := s.port port
  .next (if s.portState port = 1 ∧ t.step = 5 ∧ t.meas.length < 64 ∧ c.payload.length = 12 then
    (s.setPort port { t with
      meas := t.meas ++ [(leField c.payload 8 4, arrival - leField c.payload 0 8)] }).measured port
  else s)

/-! ## Credit and replay (R266, R268) -/

/-- A CREDIT_ACK or NAK that is accepted: on a sealing port its tag verifies and its LINK counter, which it carries in ADDR, is
above the last one (R265, R418). -/
def State.takeLink (s : State) (p : Nat) (c : Cell) : Option Cell × State :=
  if !s.portActive p then (none, s)
  else if s.sealing p then
    match openCell (s.keyOf 7) (cellNonce (s.fld 0 p Reg.DCTL_LYS_PSTAT.FAR_NODE) (s.fld 0 p Reg.DCTL_LYS_PSTAT.FAR_PORT) true
      c.addr) c with
    | none => (none, s.tagFailure p)
    | some d => if c.addr < (s.port p).linkRx then (none, s) else (some d, s.setPort p { s.port p with linkRx := c.addr + 1 })
  else (some c, s)

/-- A port whose replay buffer has emptied before sealing returns to step 4 with its lanes kept (R420). -/
def State.resealDue (s : State) (p : Nat) : State :=
  if (s.port p).reseal && (s.port p).replay.isEmpty then (s.leaveActive p 1 4 true).enterStep p 4 else s

/-- Cells up to a sequence leave the replay buffer: `n` is the first that the far end lacks. -/
def Port.ackTo (t : Port) (n : Nat) : Port :=
  { t with replay := t.replay.filter fun x => decide ((x.1 + 2 ^ 32 - n) % 2 ^ 32 < 2 ^ 31) }

/-- The cells of a replay buffer go out again in order, the first behind a RESYNC block (R268). -/
def State.sendReplay (s : State) (p : Nat) : State :=
  (s.port p).replay.zipIdx.foldl (fun (s : State) x =>
    (s.setPort p { s.port p with blocks := (s.port p).blocks + 17 }).send
      (.cell p { s.wire p x.1.1 x.1.2 with resync := x.2 == 0 })) s

/-- A replay that begins with a cell which has lost its schedule slot waits until that cell's pool has a credit, and draws it
(R266, R267). -/
def State.tryReplay (s : State) (p : Nat) : State :=
  let t := s.port p
  match t.replay with
  | [] => s.setPort p { t with replayDue := false }
  | (_, x) :: _ =>
    if t.replayDue then
      if { t with replay := [], replayDue := false }.canSend x then
        (s.setPort p { t.draw x with replayDue := false }).sendReplay p else s
    else s.sendReplay p

/-- CREDIT_ACK received (R266, R268). -/
def State.takeCredit (s : State) (p : Nat) (c : Cell) : State :=
  match s.takeLink p c with
  | (none, s) => s
  | (some c, s) =>
    if c.payload.length ≠ 20 then s
    else
      let t := (s.port p).ackTo ((leField c.payload 0 4 + 1) % 2 ^ 32)
      let credit : Tab Nat := (List.range 8).foldl (fun (k : Tab Nat) i => k.set 0 i (leField c.payload (4 + 2 * i) 2)) []
      let s := s.setPort p { t with credit := credit }
      let s := if t.replayDue then s.tryReplay p else s
      ((s.drainWait (t.wait.length + 1) p).pumpWindow p).resealDue p

/-- CREDIT_ACK (R266, R268). -/
def execCreditAck (port : Nat) (c : Cell) (s : State) : Host.Outcome State Fault Refusal := .next (s.takeCredit port c)

/-- A replay buffer whose first cell met a full scheduled pool: it goes out again as an unscheduled cell (R267). -/
def unschedule : List (Nat × Cell) → List (Nat × Cell)
  | [] => []
  | (q, x) :: rest => (q, { x with sched := false }) :: rest

/-- NAK received (R268, R267): the cells from the sequence that it names are sent again in order; one that met a full scheduled
pool goes as an unscheduled cell, once there is a credit for it. -/
def State.takeNak (s : State) (p : Nat) (c : Cell) : State :=
  match s.takeLink p c with
  | (none, s) => s
  | (some c, s) =>
    if c.payload.length ≠ 5 then s
    else
      let n := leField c.payload 0 4
      let t := (s.port p).ackTo n
      let lost := leField c.payload 4 1 == 1 && (t.replay.head?.any fun x => x.2.sched)
      let fresh := t.tries = 0 ∨ t.trySeq ≠ n
      let s := s.setPort p { t with
        replay := if lost then unschedule t.replay else t.replay, replayDue := t.replayDue || lost
        tries := if fresh then 1 else t.tries + 1, trySeq := n }
      let s := (s.satAdd 0 p Reg.DCTL_LYS_CNT0.REPLAY 1).portCE p
      (s.tryReplay p).resealDue p

/-- NAK (R268). -/
def execNak (port : Nat) (c : Cell) (s : State) : Host.Outcome State Fault Refusal := .next (s.takeNak port c)

/-- CREDIT_RETURN_TIMER (R266): a CREDIT_ACK goes out. -/
def execCreditReturnTimer (port : Nat) (s : State) : Host.Outcome State Fault Refusal :=
  .next (if s.portActive port then s.sendCreditAck port else s)

/-- CODEWORD_RECEIVE (R252, R254, R278). -/
def execCodewordReceive (port lane : Nat) (w : Codeword) (s : State) : Host.Outcome State Fault Refusal :=
  .next (if !(s.portActive port && bitOf (s.fld 0 port Reg.DCTL_LYS_PSTAT.LANES) lane) then s
  else match w with
    | .clean => s
    | .corrected n => s.satAdd 0 port Reg.DCTL_LYS_CNT0.FEC_CORR n
    | .uncorrectable => ((s.satAdd 0 port Reg.DCTL_LYS_CNT0.FEC_UNC 1).portCE port).badCell port false)

/-! ## Quick retrain and limits -/

/-- An ACTIVE port enters QUICK_RETRAIN (R258, R280). -/
def State.quickRetrain (s : State) (p : Nat) : State :=
  if s.portActive p then (s.setFld 0 p Reg.DCTL_LYS_PSTAT.STATE 3).takeOut p else s

/-- LANE_LOCK_LOSS (R258). -/
def execLaneLockLoss (port : Nat) (s : State) : Host.Outcome State Fault Refusal := .next (s.quickRetrain port)

/-- REPLAY_LIMIT (R268): one sequence has been replayed RETRY_LIM times. -/
def execReplayLimit (port : Nat) (s : State) : Host.Outcome State Fault Refusal :=
  .next (if s.fld 0 port Reg.DCTL_LYS_PCFG.RETRY_LIM ≤ (s.port port).tries ∧ 0 < (s.port port).tries then
    (s.setPort port { s.port port with tries := 0 }).quickRetrain port else s)

/-- QUICK_RETRAIN_SUCCESS (R258, R278): the port is ACTIVE again, perhaps narrower, and resumes with a replay, which each end
asks of the other (log 41). -/
def execQuickRetrainSuccess (port : Nat) (lanes : BitVec 16) (s : State) : Host.Outcome State Fault Refusal :=
  .next (if s.portState port ≠ 3 then s
  else match s.pickLanes port (s.fld 0 port Reg.DCTL_LYS_PSTAT.LANES &&& lanes.toNat) with
    | none => s
    | some l =>
      let s := (s.setFld 0 port Reg.DCTL_LYS_PSTAT.LANES l).setFld 0 port Reg.DCTL_LYS_PSTAT.STATE 2
      let s := (s.raise 0 port Reg.DCTL_LYS_PSTAT.RETRAIN).logCE 0x0B 0 (unitPort port) (s.boundPart port)
      let s := s.setPort port { s.port port with blocks := 0 }
      (s.badCell port false).drainWait ((s.port port).wait.length + 1) port)

/-- QUICK_RETRAIN_TIMEOUT (R258): the port drops to step 1, and its cells are lost. -/
def execQuickRetrainTimeout (port : Nat) (s : State) : Host.Outcome State Fault Refusal :=
  .next (if s.portState port = 3 then s.dropPort port else s)

/-- TAG_LIMIT (R278, R280): the port becomes FAILED, with an ALARM of cause SECURITY over the parish. -/
def execTagLimit (port : Nat) (s : State) : Host.Outcome State Fault Refusal :=
  .next (if s.portUp port ∧ s.fld 0 port Reg.DCTL_LYS_PCFG.TAG_LIM ≤ (s.port port).tagFails then
    let s := s.leaveActive port 4 0 true
    let s := s.logErr { ErrRec.of 4 0x0B with cause := 7, unit := unitPort port, part := s.boundPart port }
    s.raiseAlarm 2 7 0 (s.boundPart port) 0
  else s)

end Sys2Proof.Machine
end

