-- ==== Sys2Proof/Machine/Sched.lean ====
section
/-! DEFINITION. Schedule tables and their windows (R281 to R293). -/

namespace Sys2Proof.Machine

open Sys2Proof

/-! ## Images (R282 to R284) -/

/-- Cell times of a beat of `len` 10 µs units (R282): ⌊len × 10,000 ns / 1.36⌋. -/
def cellTimes (len : Nat) : Nat := len * 1000000 / 136

/-- The entries of an image. -/
def schedEntries : Nat → List Byte → List Window
  | 0, _ => []
  | n + 1, d => ⟨leField d 0 4, leField d 4 4⟩ :: schedEntries n (d.drop 8)

/-- Whether an entry's fields obey R282 for a beat of `c` cell times. -/
def windowOk (c : Nat) (w : Window) : Bool :=
  bits w.w0 0 9 == 0 && decide (1 ≤ winLen w) && decide (winOffset w < c)
    && (winKind w == 1 && winIn w == 0 || winKind w == 2 && winCore w == 0 && winTag w == 0)

/-- Whether each entry starts at or after the end of the slack of the one before it (R284). -/
def slackOk : List Window → Bool
  | a :: b :: rest => decide (winOffset a + winLen a + 4 ≤ winOffset b) && slackOk (b :: rest)
  | _ => true

/-- An image that is well formed (R283, R284): its port, beat length code and windows. -/
def schedImage (d : List Byte) : Option (Nat × Nat × List Window) :=
  let n := leField d 4 2
  let len := leField d 3 1
  let ws := schedEntries n (d.drop 16)
  let c := cellTimes len
  if leField d 0 2 = 1 ∧ leField d 2 1 < 32 ∧ len < 64 ∧ n ≤ 256 ∧ leField d 6 2 = 0 ∧ leField d 12 4 = 0
      ∧ 16 + 8 * n ≤ d.length ∧ leField d 8 4 = crc32c ((d.drop 16).take (8 * n))
      ∧ (ws.all (windowOk c) && slackOk ws) = true
      ∧ (ws.getLast?.all fun w => decide (winOffset w + winLen w + 4 + 16 ≤ c)) = true then
    some (leField d 2 1, len, ws)
  else none

/-- The beat length that will be in force at a beat to come (R284): a change that waits is taken into account. -/
def State.lengthAt (s : State) (beat : Nat) : Nat :=
  let next := s.deferred.findSome? fun d => match d with
    | .beatLen l => some l
    | _ => none
  let now := (next.orElse fun _ => s.beat.adopt).getD (s.fld 0 0 Reg.DCTL_BEAT_CFG.BEAT_LEN)
  let at_ := s.fld 0 0 Reg.DCTL_BEAT_NEXT.CHANGE_AT
  if at_ ≠ noChange ∧ at_ ≤ beat then s.fld 0 0 Reg.DCTL_BEAT_NEXT.NEXT_LEN else now

/-- Whether the windows of an image suit a port and the partition that loads it (R284). -/
def State.windowsFit (s : State) (fn p : Nat) (ws : List Window) : Bool :=
  ws.all fun w =>
    if winKind w = 1 then s.owner (winCore w) == some (fn - 1)
    else winIn w != p && s.carries (winIn w) (s.fld 0 p Reg.DCTL_LYS_PCFG.VD)

/-- SCHED_IMAGE_CHECKED (R284, R285): a table that passes becomes pending; a load for a port with a pending table waits. -/
def State.schedChecked (s : State) (fn q : Nat) (image : List Byte) : State :=
  match s.unrunCmd fn q 0x21 fun k => (s.port (k.arg 16 1)).next.isNone with
  | none => s
  | some (k, _) =>
    let p := k.arg 16 1
    let act := k.arg 18 6
    match s.readVa k.who fn (k.arg 8 8) 16 .rd image with
      | .wait s => s
      | .fail e s => s.failedRead k e (k.arg 8 8)
      | .ok h _ _ => match s.readVa k.who fn (k.arg 8 8) (16 + 8 * min (leField h 4 2) 256) .rd image with
        | .wait s => s
        | .fail e s => s.failedRead k e (k.arg 8 8)
        | .ok d _ s => match schedImage d with
          | none => s.failed1 k 0x14 0x0B (k.arg 8 8)
          | some (port, len, ws) =>
            if port ≠ p then s.failed1 k 0x14 0x0B (k.arg 8 8)
            else if fn = 0 ∨ s.fld 0 p Reg.DCTL_LYS_PCFG.BOUND = 0 ∨ s.fld 0 p Reg.DCTL_LYS_PCFG.PART ≠ fn - 1
                ∨ s.portLeaving p ∨ s.windowsFit fn p ws = false ∨ len ≠ s.lengthAt (max act (s.now + 1)) then s.done k 0x11
            else
              let t : SchedTable := ⟨act, len, fn, q, k.sq, k.g, true, false, ws⟩
              (s.setPort p { s.port p with next := some t }).setFld 0 p Reg.DCTL_LYS_SCHED.PENDING 1

/-- SCHED_IMAGE_CHECKED (R285). -/
def execSchedImageChecked (fn q : Nat) (image : List Byte) (s : State) : Host.Outcome State Fault Refusal :=
  .next (s.schedChecked fn q image)

/-! ## Tables (R281, R285 to R287) -/

/-- STATE of a port's table as an edge finds it (R286, R287): one that a change of beat length has suspended stays so. -/
def State.tableState (s : State) (p : Nat) : Nat :=
  match (s.port p).active with
  | none => 0
  | some t =>
    if t.off = false ∧ s.portActive p ∧ s.fld 0 p Reg.DCTL_LYS_PSTAT.LANES = 0xFFFF
        ∧ s.fld 0 0 Reg.DCTL_BEAT_STAT.LOCK ≠ 2 then 1 else 2

/-- An active table whose BEAT_LEN is not the length in force is suspended until it is replaced (R286). -/
def State.checkLength (s : State) (p : Nat) : State :=
  match (s.port p).active with
  | none => s
  | some t =>
    if t.beatLen = s.fld 0 0 Reg.DCTL_BEAT_CFG.BEAT_LEN then s
    else s.setPort p { s.port p with active := some { t with off := true } }

/-- A port's pending table becomes active where its beat has come, at an edge after its check (R285); one with no windows
empties the schedule. -/
def State.activateTable (s : State) (p : Nat) : State :=
  let t := s.port p
  match t.next.filter fun n => decide (n.act ≤ s.now) && !n.fresh with
  | none => s
  | some n =>
    let s := (s.setPort p { t with active := if n.windows.isEmpty then none else some n, next := none }).checkLength p
    let s := (s.setFld 0 p Reg.DCTL_LYS_SCHED.PENDING 0).setFld 0 p Reg.DCTL_LYS_SCHED.ACT_BEAT s.now
    let s := s.setFld 0 p Reg.DCTL_LYS_SCHED.COUNT n.windows.length
    let s := s.setFld 0 p Reg.DCTL_LYS_SCHED.STATE (s.tableState p)
    let s := if n.act < s.now then s.schedFlag p Reg.DCTL_LYS_SCHED.LOAD_LATE Reg.PCTL_SCHED_STAT.LOAD_LATE else s
    s.finish n.fn n.q n.sq n.g 0 0 false

/-- SCHED_TABLE_ACTIVATE (R285). -/
def execSchedTableActivate (port : Nat) (s : State) : Host.Outcome State Fault Refusal := .next (s.activateTable port)

/-- A port's tables are discarded (R286): a load that waits completes WRONG_STATE where `refuse` says so. -/
def State.clearTables (s : State) (p : Nat) (refuse : Bool) : State :=
  let t := s.port p
  let s := (s.setPort p { t with active := none, next := none, openWin := none, winLeft := 0 }).missHeld p
  let s := (s.slotMoves p none).foldl (fun s (m : Nat × Nat × Bool) => s.unslot m.1 m.2.1) s
  let s := s.wr 0 (0x1006030 + 64 * p) (BitVec.ofNat 64 (putBits (s.rd 0 (0x1006030 + 64 * p)).toNat 4 60 0))
  match t.next with
  | some n => if refuse then s.finish n.fn n.q n.sq n.g 0x11 0 false else s
  | none => s

/-! ## Windows (R288 to R293) -/

/-- A TX window opens (R288, R290, R292): its move starts or goes on; it opens idle where that move does not head its engine's
queue, or its core is shuttered (R296); a late core has lost it. -/
def State.openTx (s : State) (p : Nat) (w : Window) : State :=
  let n := winCore w
  let idle := s.satAdd 0 p Reg.DCTL_LYS_SCHEDCNT.IDLE 1
  if s.slotsLost n then s.setPort p { s.port p with winLeft := 0 }
  else if s.coreShut n then idle
  else match s.move? n (winTag w) with
    | none => idle
    | some m =>
      if m.started then
        if m.inSlot = some p ∧ m.unspent then if m.fid.isSome then s else (s.progress n m.tag).2 else idle
      else if ((s.core n).cur.moves.find? fun x => x.eng == m.eng && (!x.started || x.unspent)).map (·.seq) ≠ some m.seq
          ∨ m.sched = false ∨ s.slotPort n m ≠ some p then idle
      else if (s.core n).cur.moveReady m then s.startMove n m (some p)
      else s

/-- Cells that a port's windows may take from an input port, as fuel. -/
def State.heldCells (s : State) (p : Nat) : Nat := (s.port p).fwd.length + 1

/-- A window of the active table opens (R288 to R293). -/
def State.openWindow (s : State) (p i : Nat) : State :=
  let t := s.port p
  match (s.windows p)[i]? with
  | none => s
  | some w =>
    if !s.tableServes p || t.openWin.isSome || decide (i < t.winAt) then s
    else
      let s := s.setPort p { t with openWin := some i, winAt := i + 1, winLeft := winLen w }
      if winKind w = 1 then s.openTx p w else s.pumpFwd (winIn w) p (s.heldCells (winIn w))

/-- WINDOW_OPEN (R282, R290). -/
def execWindowOpen (port window : Nat) (s : State) : Host.Outcome State Fault Refusal := .next (s.openWindow port window)

/-- Moves end their use of windows (R289): what remains of one goes on unscheduled and is counted. -/
def State.spill (s : State) (p : Nat) (ms : List (Nat × Nat × Bool)) : State :=
  ms.foldl (fun (s : State) (m : Nat × Nat × Bool) =>
    let s := if m.2.2 then
        (s.schedFlag p Reg.DCTL_LYS_SCHED.SPILL Reg.PCTL_SCHED_STAT.SPILL).satAdd 0 p Reg.DCTL_LYS_SCHEDCNT.SPILLS 1
      else s
    s.unslot m.1 m.2.1) s

/-- A window closes (R289, R293): the last one of a beat that names a move spills what remains of it, and held cells for
which no window remains are missed. -/
def State.closeWindow (s : State) (p i : Nat) : State :=
  let t := s.port p
  match (s.windows p)[i]? with
  | none => s
  | some w =>
    if t.openWin ≠ some i then s
    else
      let s := s.setPort p { t with openWin := none, winLeft := 0 }
      if winKind w = 1 then
        if ((s.windows p).drop (i + 1)).any fun x => winNames x (winCore w) (winTag w) then s
        else s.spill p (s.slotMoves p (some (winCore w, winTag w)))
      else s.pumpFwd (winIn w) p (s.heldCells (winIn w))

/-- WINDOW_CLOSE (R289). -/
def execWindowClose (port window : Nat) (s : State) : Host.Outcome State Fault Refusal := .next (s.closeWindow port window)

/-- The close of a beat on a port: no scheduled cell is carried into a later beat, by a move (R289) or in forwarding (R293),
and offsets count anew. -/
def State.schedBeatEnd (s : State) (p : Nat) : State :=
  let ms := s.slotMoves p none
  let s := (s.setPort p { s.port p with openWin := none, winAt := 0, winLeft := 0 }).missHeld p
  s.spill p ms

/-- An edge on a port (R285 to R287): its table comes into or leaves service, and a pending one may become active, checked now
before this edge. -/
def State.schedEdge (s : State) (p : Nat) : State :=
  let s := match (s.port p).next with
    | some n => if n.fresh then s.setPort p { s.port p with next := some { n with fresh := false } } else s
    | none => s
  let s := s.checkLength p
  (s.setFld 0 p Reg.DCTL_LYS_SCHED.STATE (s.tableState p)).activateTable p

end Sys2Proof.Machine
end

