-- ==== Sys2Proof/Machine/Switch.lean ====
section
/-! DEFINITION. Context switches (R366 to R370, R133), stall budgets (R32, R427 to R429), and latency targets (R373, R374,
R376). -/

namespace Sys2Proof.Machine

open Sys2Proof

/-! ## The save area (R370) -/

/-- The address of a save slot. -/
def State.slotAt (s : State) (fn i : Nat) : Nat := s.fld fn 0 Reg.QOSM_SAVE.BASE * 0x200000 + 0x200000 * i

/-- Whether a save slot lies wholly in cellar or tier-1 granules that the partition OWNS. -/
def State.slotOk (s : State) (fn i : Nat) : Bool :=
  (List.range 32).all fun j =>
    let pa := s.slotAt fn i + 65536 * j
    match s.mapped pa with
    | some p => (placeTier p == some 0 || placeTier p == some 1) && s.owns (fn - 1) (p.granule pa)
    | none => false

/-- Whether the whole area passes R370. -/
def State.saveAreaOk (s : State) (fn : Nat) : Bool := (List.range (s.fld fn 0 Reg.QOSM_SAVE.SLOTS)).all (s.slotOk fn)

/-- The check of an edge: SAVE_BAD where an enabled area fails (R370). -/
def State.checkSave (s : State) (fn : Nat) : State :=
  if s.fld fn 0 Reg.QOSM_SAVE.EN = 1 ∧ s.saveAreaOk fn = false then s.raise fn 0 Reg.QOSM_SAVE.SAVE_BAD else s

/-- The free slots of a function's area. -/
def State.freeSlots (s : State) (fn : Nat) : List Nat :=
  let used := (s.launches.filter (·.fn == fn)).flatMap (·.slots)
  (List.range (s.fld fn 0 Reg.QOSM_SAVE.SLOTS)).filter fun i => !used.contains i

/-! ## Switching out (R367, R368) -/

/-- The cores that a launch holds. -/
def State.heldBy (s : State) (l : Launch) : List Nat := l.cores.filter fun n => (s.core n).launch == some l.id

/-- Whether a composition change that opened at this edge touches a core, or the core reads MOVING (R367). -/
def State.changeTouches (s : State) (n : Nat) : Bool :=
  s.fld 0 n Reg.IDC_CORE_MAP.STATE == 3 || s.changes.any fun x => x.opened == s.now && decide (1 ≤ x.phase)
    && (bitOf x.c.cores n || x.c.op == 3 && x.c.core == n)

/-- The triggers of R367. -/
def State.switchAsked (s : State) (l : Launch) : Bool :=
  let held := s.heldBy l
  let quantum := s.fld l.fn 0 Reg.QOSM_CFG0.QUANTUM
  s.launches.any fun x => x.fn == l.fn && held.any fun n => s.waitsFor n x &&
    (x.lc && x.phase == 0 && decide (x.startBeat + s.fld l.fn 0 Reg.QOSM_CFG2.PREEMPT_WAIT ≤ s.tick)
      || !x.lc && x.ctx != l.ctx && quantum != 0 && decide (l.heldFrom + quantum ≤ s.tick))

/-- Whether a launch is switched out at this edge (R367). -/
def State.switchDue (s : State) (l : Launch) : Bool :=
  let held := s.heldBy l
  !l.lc && l.phase == 1 && l.fn != 0 && !held.isEmpty && s.switchAsked l
    && (held.all fun n => (s.core n).running && (s.core n).cur.hold == .beatEnd && (s.core n).atEnd)
    && s.fld l.fn 0 Reg.QOSM_SAVE.EN == 1 && s.saveAreaOk l.fn && decide (held.length ≤ (s.freeSlots l.fn).length)
    && !held.any s.changeTouches

/-- A switch begins: the outgoing cores issue nothing, and a slot is kept for each (R368). -/
def State.beginSwitch (s : State) (l : Launch) : State :=
  let held := s.heldBy l
  let s := held.foldl (fun (s : State) n => s.setCore n { s.core n with running := false }) s
  let s := s.updLaunch l.id fun x =>
    { x with phase := 2, phaseEdge := s.tick, slots := (s.freeSlots l.fn).take held.length }
  s.satAdd l.fn 0 Reg.QOSM_SWSTAT.SWITCHES 1

/-- CONTEXT_SWITCH_START (R367): the launch named by its number. -/
def execContextSwitchStart (id : Nat) (s : State) : Host.Outcome State Fault Refusal :=
  .next (match s.launch? id with
    | some l => if s.switchDue l then s.beginSwitch l else s
    | none => s)

/-- A move of an outgoing core that waits for its window starts unscheduled at the next edge (R133, R131). -/
def State.startWaiting (s : State) (n : Nat) : State :=
  let ms := (s.core n).cur.moves.filter fun m => m.sched && !m.started
  ms.foldl (fun s m =>
    if !(s.core n).cur.moveReady m then s
    else match s.slotPort n m with
      | some p => (s.fallBack p).startMove n m none
      | none => s.startMove n m none) s

/-- SWITCH_DRAIN_END (R368): the first edge at which no move of the outgoing shares is outstanding. -/
def State.drainedSwitch (s : State) (l : Launch) : State :=
  if l.phase = 2 ∧ l.phaseEdge < s.tick ∧ ((s.heldBy l).all fun n => (s.core n).cur.moves.isEmpty) = true then
    s.updLaunch l.id fun x => { x with phase := 3, phaseEdge := s.tick }
  else s

/-- SWITCH_DRAIN_END (R368). -/
def execSwitchDrainEnd (id : Nat) (s : State) : Host.Outcome State Fault Refusal :=
  .next (match s.launch? id with
    | some l => s.drainedSwitch l
    | none => s)

/-! ## Saving (R368, R369) -/

/-- Bytes of a save image (R369). -/
def imageSize : Nat := 1984 * 1024

/-- Free bytes: which byte of an image holds what is the device's own affair (log 45). -/
def freeBytes (k : Nat) : Nat → List Byte
  | 0 => []
  | n + 1 => BitVec.ofNat 8 (Config.freeNat k) :: freeBytes (k + 1) n

/-- A run of bytes is written at an address of partition memory. -/
def State.writeRun (s : State) (a : Nat) (d : List Byte) : State := (s.writeMem a d false).2

/-- A core's image is written to its slot. -/
def State.writeImage (s : State) (fn i : Nat) : State :=
  ({ s with free := s.free + imageSize } : State).writeRun (s.slotAt fn i) (freeBytes s.free imageSize)

/-- What an image keeps of a core (R369): everything but the staging region and a preloaded successor. -/
def Core.image (c : Core) : Core :=
  { c with
    cur := { c.cur with store := c.cur.store.filter fun e => decide (e.1 < stagingAt) || decide (storeEnd ≤ e.1) }
    preload := none, bundle := none }

/-- A share's images have been written: its cores are free, and its state is held for its return. -/
def State.savedSwitch (s : State) (l : Launch) : State :=
  if l.phase ≠ 3 ∨ s.tick ≤ l.phaseEdge then s
  else
    let held := s.heldBy l
    let images := held.map fun n => (n, (s.core n).image)
    let s := (l.slots.take held.length).foldl (fun s i => s.writeImage l.fn i) s
    let s := held.foldl (fun (s : State) n => s.freeCore n) s
    s.updLaunch l.id fun x => { x with phase := 4, phaseEdge := s.tick, saved := images }

/-- SWITCH_SAVE_COMPLETE (R368). -/
def execSwitchSaveComplete (id : Nat) (s : State) : Host.Outcome State Fault Refusal :=
  .next (match s.launch? id with
    | some l => s.savedSwitch l
    | none => s)

/-! ## Switching in (R366, R368) -/

/-- Whether a switched-out launch is restored at this edge (R366): every one of its cores is free and takes it next. -/
def State.restoreDue (s : State) (l : Launch) : Bool :=
  l.phase == 4 && l.saved.all fun x =>
    let c := s.core x.1
    c.launch.isNone && c.preload.isNone && !s.coreShut x.1 && s.fld 0 x.1 Reg.IDC_CORE_MAP.STATE == 1
      && (match s.nextFor x.1 with
        | some b => b.id == l.id
        | none => false)

/-- A restoring in phase begins: its cores are kept for it. -/
def State.beginRestore (s : State) (l : Launch) : State :=
  let s := l.saved.foldl (fun (s : State) (x : Nat × Core) =>
    s.setCore x.1 { s.core x.1 with launch := some l.id, running := false }) s
  s.updLaunch l.id fun x => { x with phase := 5, phaseEdge := s.tick }

/-- Whether a save image meets poison as it is read back (R187). -/
def State.imageBad (s : State) (fn i : Nat) : Bool :=
  (List.range (imageSize / 256)).any fun j => s.poisoned (s.slotAt fn i + 256 * j)

/-- A restored share takes its cores and starts its block (R368); an image that cannot be read fails its launch with
POISONED_DATA (log 45). -/
def State.restore (s : State) (l : Launch) : State :=
  if (l.slots.take l.saved.length).any (s.imageBad l.fn) then
    let s := s.logErr { ErrRec.of 1 0x02 with
      status := 0x14, cause := 8, cmdSeq := l.sq, queue := l.q, ctx := some l.ctx, part := some (l.fn - 1) }
    (s.dropLaunch l).finish l.fn l.q l.sq l.g 0x14 0 true
  else
    let back (c : Core) : Core :=
      { c with
        launch := some l.id, running := true, blockBeat := s.tick, late := false, lateRun := 0
        cur := { c.cur with hold := .free } }
    let s := l.saved.foldl (fun (s : State) (x : Nat × Core) => s.setCore x.1 (back x.2)) s
    s.updLaunch l.id fun x => { x with phase := 1, since := s.now, heldFrom := s.tick, saved := [], slots := [] }

/-- The end of an in phase (R368): a restored share resumes, or a new launch that is loaded starts (R79, R81). -/
def State.switchedIn (s : State) (l : Launch) : State :=
  if l.phase = 5 then (if l.phaseEdge < s.tick then s.restore l else s)
  else if l.phase ≤ 1 then l.cores.foldl (fun (s : State) n => match s.startDue n with
    | some (x, _) => if x.id = l.id then s.launchCore n else s
    | none => s) s
  else s

/-- SWITCH_IN_COMPLETE (R368): the incoming launch named by its number. -/
def execSwitchInComplete (id : Nat) (s : State) : Host.Outcome State Fault Refusal :=
  .next (match s.launch? id with
    | some l => s.switchedIn l
    | none => s)

/-- Step 9 of an edge (R28): drains that have ended, new switches, and restores that may begin. A save or an in phase is
ended by its own event. -/
def State.switchEdge (s : State) : State :=
  let ids := s.launches.map (·.id)
  let each (f : State → Launch → State) (s : State) : State := ids.foldl (fun (s : State) id => match s.launch? id with
    | some l => f s l
    | none => s) s
  let s := each (fun s l => if l.phase = 2 then (s.heldBy l).foldl State.startWaiting s else s) s
  let s := each State.drainedSwitch s
  let s := each (fun s l => if s.switchDue l then s.beginSwitch l else s) s
  each (fun s l => if s.restoreDue l then s.beginRestore l else s) s

/-! ## Stall budgets (R32, R427 to R429) -/

/-- The command record behind a launch or a command. -/
def State.cmdRec (s : State) (fn q sq : Nat) : BitVec 512 := ((s.qrec fn q sq).map (·.w)).getD 0

/-- Whether a running launch progressed in the beat that an edge closes (R427): a core started a block at the edge that
opened it, or an engine of its cores advanced. -/
def State.progressed (s : State) (closed : Nat) (l : Launch) : Bool :=
  (s.heldBy l).any fun n => (s.core n).blockBeat == closed || (s.core n).engBeat != 0

/-- The watchdog of an edge counts beats without progress (R427), but for switched-out and moving launches (R428); `closed`
is the edge that opened the beat which now closes. -/
def State.watch (s : State) (closed : Nat) : State :=
  { s with launches := s.launches.map fun l =>
      if l.phase ≠ 1 ∨ ((s.heldBy l).any fun n => s.fld 0 n Reg.IDC_CORE_MAP.STATE == 3) = true then l
      else if s.progressed closed l then { l with lowBeats := 0 } else { l with lowBeats := l.lowBeats + 1 } }

/-- Whether a launch has failed its budget (R427). A block's age is counted in beats that have passed, also across a jump of
the beat number (DESIGN CHOICE, log 110). -/
def State.launchStalled (s : State) (l : Launch) : Bool :=
  let b := s.budget l.fn (s.cmdRec l.fn l.q l.sq)
  l.phase == 1 && (decide (b ≤ l.lowBeats) || (s.heldBy l).any fun n =>
    (s.core n).running && !(s.core n).atEnd && decide ((s.core n).blockBeat + b ≤ s.tick))

/-- Whether the later beat that a command's operand names, from which its budget runs, lies a budget back (R428). -/
def State.namedOver (s : State) (w : BitVec 512) (b : Nat) : Bool := recOp w != 0x21 || decide (recField w 18 6 + b ≤ s.now)

/-- Whether a command without engines has failed its budget: LATCH_WAIT, LAUNCH and GRAPH_LAUNCH have their own rules. -/
def State.cmdStalled (s : State) (fn : Nat) (w cmd : BitVec 512) (start : Nat) : Bool :=
  !([0x01, 0x02, 0x04].contains (recOp w)) && decide (start + s.budget fn cmd ≤ s.tick) && s.namedOver w (s.budget fn cmd)

/-- The record of a graph launch that has failed its budget. -/
def State.graphStalled (s : State) (g : GRun) : Option Nat :=
  let cmd := s.cmdRec g.fn g.q g.sq
  (List.range g.st.length).find? fun i =>
    (g.st.getD i (0, 0)).1 == 1 && s.cmdStalled g.fn ((s.grecs g).getD i 0) cmd (g.beats.getD i 0)

/-- A stalled command's error (R429). -/
def State.logStall (s : State) (fn q sq : Nat) : State :=
  s.logErr { ErrRec.of 1 0x11 with
    status := 0x15, unit := if fn = 0 then 0 else unitPart (fn - 1), cmdSeq := sq, queue := q
    ctx := some (recCtx (s.cmdRec fn q sq)), part := if fn = 0 then none else some (fn - 1) }

/-- A command whose budget has run out is abandoned and completes STALLED (R429). -/
def State.expire (s : State) (fn q sq : Nat) : State :=
  match s.launches.find? fun l => l.fn == fn && l.q == q && l.sq == sq && s.launchStalled l with
  | some l => ((s.logStall fn q sq).dropLaunch l).finish fn q sq l.g 0x15 0 true
  | none => match (s.qrec fn q sq).filter fun r => r.st == 1 && s.cmdStalled fn r.w r.w r.stallFrom with
    | some _ => (s.logStall fn q sq).abandon fn q sq 0x15 true
    | none => match (s.grun? fn q sq).bind fun g => s.graphStalled g with
      | some i =>
        let s := s.logStall fn q sq
        let s := { s with
          sigs := s.sigs.filter fun g => !(g.kind == 2 && g.fn == fn && g.q == q && g.sq == sq && g.g == some i)
          deferred := s.deferred.filter fun d => match d with
            | .done f k p g _ => !(f == fn && k == q && p == sq && g == some i)
            | _ => true }
        s.finish fn q sq (some i) 0x15 0 true
      | none => s

/-- STALL_BUDGET_EXPIRY (R427 to R429). -/
def execStallBudgetExpiry (fn q sq : Nat) (s : State) : Host.Outcome State Fault Refusal := .next (s.expire fn q sq)

/-- Every command whose budget or LATCH_WAIT has run out at an edge (step 3 of R28). -/
def State.expireAll (s : State) : State :=
  let cs := s.queues.flatMap fun e => e.2.recs.map fun r => (e.1 / 1048576, e.1 % 1048576, r.sq)
  cs.foldl (fun (s : State) (c : Nat × Nat × Nat) =>
    let s := s.expire c.1 c.2.1 c.2.2
    match s.waitOver c.1 c.2.1 c.2.2 with
    | some g => s.failCmd c.1 c.2.1 c.2.2 g 0x15 0x11 0 (if c.1 = 0 then 0 else unitPart (c.1 - 1)) 0 0 0
    | none => s) s

/-! ## Latency targets (R373, R374, R376) -/

/-- The targets of a function that are measured, as (place, target, its step's field): place 0 cellar, 1 tier 1, 2 tier 2,
0x20 + p port p. -/
def State.targets (s : State) (fn : Nat) : List (Nat × Nat × Fld) :=
  let tiers := [(0, s.fld fn 0 Reg.QOSM_CFG2.TGT_CEL, Reg.QOSM_STEP1.CEL), (1, s.fld fn 0 Reg.QOSM_CFG2.TGT_T1, Reg.QOSM_STEP1.T1),
    (2, s.fld fn 0 Reg.QOSM_CFG2.TGT_T2, Reg.QOSM_STEP1.T2)]
  let ports := (List.range 32).map fun p =>
    let bound := s.fld 0 p Reg.DCTL_LYS_PCFG.BOUND == 1 && vf (s.fld 0 p Reg.DCTL_LYS_PCFG.PART) == fn
    (0x20 + p, if bound then s.fld fn 0 ⟨0xC0100 + 8 * (p / 4), 0, 16 * (p % 4), 16⟩ else 0,
      (⟨0xC0200, 0, 2 * p, 2⟩ : Fld))
  tiers ++ ports

/-- The step that r = M ÷ target gives (R374). -/
def latencyStep (m t : Nat) : Nat :=
  if 4 * m < 3 * t then 0 else if 8 * m < 7 * t then 1 else if m < t then 2 else 3

/-- The misses of a list of measured targets with the largest M ÷ target first met (R376). -/
def worstMiss : List (Nat × Nat × Nat) → Option (Nat × Nat × Nat)
  | [] => none
  | (w, m, t) :: rest => match worstMiss rest with
    | none => if t ≤ m then some (w, m, t) else none
    | some (w', m', t') => if t ≤ m ∧ m' * t ≤ m * t' then some (w, m, t) else some (w', m', t')

/-- The QoS sampler of an edge for one partition: `mean` gives M by place (R373, R374, R376). -/
def State.qosStep (s : State) (q : Nat) (mean : Nat → Nat) : State :=
  let fn := vf q
  let ts := s.targets fn
  let s := ts.foldl (fun (s : State) (x : Nat × Nat × Fld) =>
    if x.2.1 = 0 then s.setFld fn 0 x.2.2 0
    else s.setFld fn 0 x.2.2 (max (latencyStep (mean x.1) x.2.1) (s.fld fn 0 x.2.2 - 1))) s
  match worstMiss ((ts.filter (·.2.1 != 0)).map fun x => (x.1, mean x.1, x.2.1)) with
  | none => s
  | some (w, m, t) =>
    let (last, s) := s.closedBeat
    let s := s.wr fn 0xC0300 (BitVec.ofNat 64 (m * 2 ^ 48 + t * 2 ^ 32 + w * 2 ^ 24))
    ((s.setFld fn 0 Reg.QOSM_MISS1.BEAT last).satAdd fn 0 Reg.QOSM_MISS1.MISS_BEATS 1).intc fn 7

end Sys2Proof.Machine
end

