-- ==== Sys2Proof/Machine/Shutter.lean ====
section
/-! DEFINITION. What ends work from outside: completion of composition changes (R303, R304), the end of a draining epoch
(R309, R311), key slots (R387), and the squash and wipe of cores and partitions (R298, R430, R431). -/

namespace Sys2Proof.Machine

open Sys2Proof

/-! ## Composition changes (R303 to R305) -/

/-- A notification of the Kwalet management controller to one session. -/
def State.notify (s : State) (sess typ : Nat) (body : List Byte) : State := s.send (.kmc sess typ 0 0 true body)

/-- COMP_DONE goes to the session that asked, or to every open one for a change that the device issued; with none open it is
kept, the latest 256, for the next session (R494, log 47). -/
def State.notifyDone (s : State) (sess : Option Nat) (body : List Byte) : State :=
  let sessions := s.kmc.sessions.filter fun (k : Session) => match sess with
    | some i => k.id == i
    | none => true
  if sessions.isEmpty then
    let kept := s.kmc.kept ++ [body]
    { s with kmc := { s.kmc with kept := kept.drop (kept.length - 256) } }
  else sessions.foldl (fun (s : State) (k : Session) => s.notify k.id 0x0011 body) s

/-- The partition that a change concerns: the owner of the core that MOVE_CORE names. -/
def State.changePart (s : State) (x : Change) : Option Nat := if x.c.op = 3 then s.owner x.c.core else some x.c.part

/-- Whether another MOVE_CORE than `h` waits for a core. -/
def State.moveWaits (s : State) (n h : Nat) : Bool :=
  s.changes.any fun y => y.c.op == 3 && y.phase == 0 && y.c.core == n && y.handle != h

/-- A queued MOVE_CORE that is not carried out leaves its core as it was: ACTIVE, or LOST where the old physical core is
BAD (R59, R314). -/
def State.unmove (s : State) (x : Change) : State :=
  if x.c.op = 3 ∧ x.phase = 0 ∧ (s.changes.any fun y => y.handle == x.handle) ∧ s.moveWaits x.c.core x.handle = false
      ∧ s.fld 0 x.c.core Reg.IDC_CORE_MAP.STATE = 3 then
    s.setFld 0 x.c.core Reg.IDC_CORE_MAP.STATE (if x.fresh then 2 else 1)
  else s

/-- A change completes (R303): DCTL_COMP_STAT, its event and COMP_DONE. The partition of an unowned core, and the epoch and
beat of a change that never opened, are free values (log 48). -/
def State.compDone (s : State) (x : Change) (st : Nat) : State :=
  let s := s.unmove x
  let (a, s) := s.draw
  let (b, s) := s.draw
  let (c, s) := s.draw
  let part := (s.changePart x).getD (a % 256)
  let epoch := if x.phase = 0 ∨ (s.changePart x).isNone then b % 16 else x.epoch
  let opened := if x.phase = 0 then c % 2 ^ 48 else x.opened
  let s : State := { s with changes := s.changes.filter fun y => y.handle != x.handle }
  let s := (s.setFld 0 0 Reg.DCTL_COMP_STAT.LAST_HANDLE x.handle).setFld 0 0 Reg.DCTL_COMP_STAT.LAST_STATUS st
  let s := (s.raise 0 0 Reg.DCTL_COMP_STAT.DONE_EVT).intc 0 10
  s.notifyDone x.sess (leBytes 4 x.handle ++ leBytes 1 st ++ leBytes 1 part ++ leBytes 1 epoch ++ [0] ++ leBytes 6 opened
    ++ leBytes 6 s.now)

/-- The ports bound to a partition. -/
def State.boundPorts (s : State) (q : Nat) : List Nat :=
  (List.range 32).filter fun p => s.fld 0 p Reg.DCTL_LYS_PCFG.BOUND == 1 && s.fld 0 p Reg.DCTL_LYS_PCFG.PART == q

/-- The memory granules that a partition OWNS. -/
def State.ownedGranules (s : State) (q : Nat) : List Nat := (List.range 80).filter (s.owns q)

/-- What a change touches (R305), as numbers: logical core n, memory granule 1000 + g, port 2000 + p, sequence-slot group
3000 + j, partition 4000 + q. -/
def State.touched (s : State) (x : Change) : List Nat :=
  let q := x.c.part
  let base := ((s.changePart x).map (4000 + ·)).toList
  if x.c.op = 3 then x.c.core :: base
  else if x.c.dissolve && x.phase == 0 then
    base ++ s.ownedCores q ++ (s.ownedGranules q).map (1000 + ·) ++ (s.boundPorts q).map (2000 + ·)
      ++ (setBits (s.fld (vf q) 0 Reg.PCTL_COMP_SEQ.SEQ) 32).map (3000 + ·)
  else base ++ setBits x.c.cores 512 ++ x.c.granules.map (1000 + ·) ++ (setBits x.c.ports 32).map (2000 + ·)
    ++ (setBits x.c.seqs 32).map (3000 + ·)

/-- Queued changes, and moves of cores in progress, that touch something given are abandoned FENCED (R304, R317), but for an
UNBIND whose own shuttering this is (R306); the old physical core of an abandoned move is a spare again. -/
def State.fenceChanges (s : State) (hit : List Nat) : State :=
  let xs := s.changes.filter fun x => (x.phase == 0 || x.phase == 1) && !x.shut && (s.touched x).any hit.contains
  xs.foldl (fun (s : State) x =>
    let s := if x.phase = 1 ∧ s.fld 0 x.old Reg.IDC_PCORE_STAT.STATE = 3 ∧ x.rotate.isNone then
      s.setFld 0 x.old Reg.IDC_PCORE_STAT.STATE 2 else s
    s.compDone x 0x16) s

/-! ## The end of a drain (R309, R311) -/

/-- The release record of a granule, set or cleared (R311). -/
def State.setReleased (s : State) (q g : Nat) (b : Bool) : State :=
  let f : Fld := if g < 16 then ⟨0x1005400, 16, 48 + g, 1⟩ else if g < 64 then ⟨0x1005400, 16, g - 16, 1⟩
    else ⟨0x1005408, 16, g - 64, 1⟩
  s.setFld 0 q f b.toNat

/-- A core's state is wiped: its store, the state of R66 and what its engines' TLBs hold (R299, R430). -/
def State.wipeCore (s : State) (n : Nat) : State := (s.setCore n Core.idle).dropEngTlbs n

/-- A core stops at the end of a reset's drain, or at once (R59, R306, R431): its work is squashed and answers FENCED, and
its launch completes FENCED, under FAULT_POLICY where `policy` says so. -/
def State.fenceCore (s : State) (n : Nat) (policy : Bool) : State :=
  let l := (s.core n).launch.bind s.launch?
  let s := s.stopCore n (s.coreFn n).1
  let s := match l with
    | some l => if l.phase = 7 then s else s.finishLaunch l 0x16 0 policy
    | none => s
  s.wipeCore n

/-- A released core is wiped and belongs to no partition (R309, log 49). Work that a core shuttered by FORCE still holds is
squashed, and its launch completes FENCED (R306). -/
def State.releaseCore (s : State) (n : Nat) : State :=
  (((if (s.core n).launch.isSome then s.fenceCore n true else s).wipeCore n).setFld 0 n Reg.IDC_CORE_MAP.OWNED 0).setFld 0 n Reg.IDC_CORE_MAP.PART 0

/-- A port loses its binding, or takes one (R271): a schedule table serves one binding only, and what waits for another is
refused (R281, R296). -/
def State.bindPort (s : State) (p : Nat) (b : Option Nat) (vd : Nat) : State :=
  let s := s.clearTables p true
  let s := (s.setFld 0 p Reg.DCTL_LYS_PCFG.BOUND b.isSome.toNat).setFld 0 p Reg.DCTL_LYS_PCFG.PART (b.getD 0)
  (s.setFld 0 p Reg.DCTL_LYS_PCFG.VD vd).matchVd p

/-- What an UNBIND that drains has released leaves the partition (R309): records, translations, wipes, ports, cores,
sequence slots and the commons window. -/
def State.releaseAll (s : State) (x : Change) : State :=
  let q := x.c.part
  let fn := vf q
  let s := x.c.granules.foldl (fun (s : State) g =>
    let s := (List.range 33).foldl (fun (s : State) f => s.dropGranule f g) (s.setReleased q g true)
    s.startWipe g) s |>.beginWipes
  let s := (setBits x.c.ports 32).foldl (fun (s : State) p => (s.flushAcks p (s.port p).acks.length).bindPort p none 0) s
  let s := (setBits x.c.cores 512).foldl State.releaseCore s
  let left := (s.fld fn 0 Reg.PCTL_COMP_SEQ.SEQ) &&& (2 ^ 32 - 1 - x.c.seqs % 2 ^ 32)
  let s := s.setFld fn 0 Reg.PCTL_COMP_SEQ.SEQ left
  let s : State := { s with slots := s.slots.filter fun (e : Nat × SeqSlot) => !bitOf x.c.seqs (e.1 / 8) }
  if x.c.commons = 0 then s else s.setFld fn 0 Reg.PCTL_MEM_CARVE2.COMMONS_TIB 0

/-- A partition's draining epoch ends (R309). Ports that stay bound take the virtual device that it now belongs to. -/
def State.endDrain (s : State) (q : Nat) : State :=
  let xs := s.changes.filter fun x => x.phase == 2 && x.c.part == q
  let s := xs.foldl State.releaseAll s
  let s : State := { s with changes := s.changes.map fun x =>
      if x.phase == 2 && x.c.part == q then { x with phase := 3 } else x }
  let s := s.setFld 0 q Reg.DCTL_COMP_PART0.DRAINING 0
  (s.boundPorts q).foldl (fun (s : State) p =>
    if s.fld 0 p Reg.DCTL_LYS_PCFG.VD = s.vdOf q then s else s.bindPort p (some q) (s.vdOf q)) s

/-- Requests accepted for a partition in an epoch whose acknowledgements have not been sent (R264, R309). -/
def State.owedAcks (s : State) (q e : Nat) : Nat :=
  (s.ports.map fun t => (t.2.acks.filter fun a => a.acc == some (q, e)).length).sum

/-- The draining epoch's outstanding count (R309): the partition's moves, remote signals not yet sent, and inbound requests
not yet answered, among them those whose acknowledgement is still gathered. -/
def State.drainCount (s : State) (q e : Nat) : Nat :=
  let sigs := s.cores.map fun n => if (s.coreFn n.1).1 == vf q then
    (n.2.cur.sigs.filter fun g => g.remote && g.epoch == e).length else 0
  s.ownMoves q e + sigs.sum + (s.inbound.filter fun i => i.part == q && i.epoch == e).length
    + s.owedAcks q e + (s.owing.filter fun o => o.cell.any fun c => c.2.2 == (q, e)).length

/-- A draining epoch with nothing outstanding ends. -/
def State.drainIfDone (s : State) (q : Nat) : State :=
  match s.drainEpoch q with
  | some e => if s.drainCount q e = 0 then s.endDrain q else s
  | none => s

/-- DRAIN_END (R309). -/
def execDrainEnd (part : Nat) (s : State) : Host.Outcome State Fault Refusal := .next (s.drainIfDone part)

/-! ## Key slots (R387) -/

/-- A key slot is destroyed: its material goes, VALID clears and GEN rises. -/
def State.destroySlot (s : State) (k : Nat) : State :=
  if s.fld 0 k Reg.DCTL_KEY_ATTR.VALID = 0 then s
  else
    let s : State := { s with keys := s.keys.del k }
    (s.setFld 0 k Reg.DCTL_KEY_ATTR.VALID 0).modAdd 0 k Reg.DCTL_KEY_ATTR.GEN 1

/-! ## Squash (R431) -/

/-- An engine's own state, zeroed: a matrix engine's accumulators, a vector engine's registers, its generator and its queue
(R430). -/
def CoreState.wipeEngine (c : CoreState) (e : Nat) : CoreState :=
  { c with
    acc := if e < 4 then c.acc.filter fun x => x.1 / 4096 != e else c.acc
    v := if 4 ≤ e ∧ e < 6 then c.v.filter fun x => x.1 / 32768 != e - 4 else c.v
    gen := c.gen.del e
    engq := c.engq.filter fun o => o.eng != e
    moves := c.moves.filter fun m => m.eng + 6 != e }

/-- An engine reset's squash (R430, R431): the core's launch completes FENCED, and the engine's state is wiped. -/
def State.fenceEngine (s : State) (n e : Nat) : State :=
  let l := (s.core n).launch.bind s.launch?
  let s := s.stopCore n (s.coreFn n).1
  let s := match l with
    | some l => if l.phase = 7 then s else s.finishLaunch l 0x16 0 true
    | none => s
  let c := s.core n
  s.setCore n { c with cur := c.cur.wipeEngine e }

/-- Every command of a function completes with a status, in sequence order per queue, and its cores stop (R431). -/
def State.fenceFn (s : State) (fn st : Nat) : State :=
  let qs := (s.queues.filter fun e => e.1 / 1048576 == fn).map fun e => e.1 % 1048576
  qs.foldl (fun (s : State) k => s.abandonQueue fn k st) s

/-- What a partition's shuttering squashes (R431): its commands complete FENCED, its cores' work ends, and requests
accepted for it are answered FENCED. -/
def State.fencePart (s : State) (q : Nat) : State :=
  let s := s.fenceFn (vf q) 0x16
  let s := (s.ownedCores q).foldl (fun (s : State) n => (s.stopCore n (vf q)).wipeCore n) s
  (s.inbound.filter fun i => i.part == q).foldl (fun (s : State) i => s.dropInbound i 6) s

/-! ## Emptying a partition (R298, R430) -/

/-- Whether a function's register goes with the partition (R298, R430, log 46): those of the PCTL, QCFG, LTCH, INTC, XLAT,
QOSM and DSTP windows, but the sequence slots that it owns, its commons window, and its program log's own bits. -/
def goesWithPart (off : Nat) : Bool :=
  (decide (0x10000 ≤ off ∧ off < 0xE0000) || decide (0x140000 ≤ off ∧ off < 0x160000)) && off != 0x10708 && off != 0x10408

/-- A function's register windows return to their reset values, with their companion counters. -/
def State.clearWindows (s : State) (fn : Nat) : State :=
  let gone (k : Nat) : Bool := k / 0x2000000 == fn && goesWithPart (k % 0x2000000)
  { s with
    regs := s.regs.filter fun e => !gone e.1
    cnts := s.cnts.filter fun e => !gone (e.1 / 64) }

/-- A deferred change belongs to a function. -/
def Deferred.ofFn (fn : Nat) : Deferred → Bool
  | .reg f _ _ => f == fn
  | .seq _ f _ _ _ _ _ _ _ => f == fn
  | .graph f _ _ _ => f == fn
  | .queueOff f _ => f == fn
  | .sieve f _ _ => f == fn
  | .done f _ _ _ _ => f == fn
  | .power _ => false
  | .beatLen _ => false
  | .halt => false

/-- The objects, queues and tables of a function go (R298, R430). -/
def State.clearObjects (s : State) (fn : Nat) : State :=
  let own {α : Type} (t : Tab α) : Tab α := t.filter fun e => e.1 / 1048576 != fn
  let a := s.atsOf fn
  let s := s.setAts fn { a with cached := [], asked := [], waiting := [], users := [] }
  { s with
    ctxs := own s.ctxs, mobjs := own s.mobjs, graphs := own s.graphs, latches := own s.latches, queues := own s.queues
    sieve := own s.sieve
    slots := s.slots.filter fun (e : Nat × SeqSlot) => e.2.fn != fn
    destroys := s.destroys.filter (·.fn != fn), gruns := s.gruns.filter (·.fn != fn)
    launches := s.launches.filter (·.fn != fn), sigs := s.sigs.filter (·.fn != fn)
    fenced := s.fenced.filter (·.fn != fn), faults := s.faults.filter (·.fn != fn)
    invals := s.invals.filter fun v => v.cfn != fn || v.cmd.isNone
    deferred := s.deferred.filter fun d => !d.ofFn fn
    shared := s.shared.filter (·.fn != fn), progs := s.progs.del fn
    sec := { s.sec with asked := s.sec.asked.filter (· != fn), adds := s.sec.adds.filter fun e => vf e.1 != fn } }

/-- The state of R298 is emptied, with the partition's translations, release records, port tables, exception records and
host root key (R311, R286, R387, R393); without its key it is no longer in the parish (log 53). -/
def State.emptyPart (s : State) (q : Nat) : State :=
  let fn := vf q
  let s := s.dropXlat fn none
  let s := ((s.clearObjects fn).clearWindows fn).setSharedMap fn
  let s := (s.wr 0 (0x1005400 + 16 * q) 0).wr 0 (0x1005408 + 16 * q) 0
  let s := (List.range 512).foldl (fun (s : State) i => s.wr 0 (0x1008000 + 8 * (512 * q + i)) 0) s
  let s := (s.boundPorts q).foldl (fun (s : State) p => s.clearTables p false) s
  let s := (s.ownedCores q).foldl (fun (s : State) n =>
    (s.wr 0 (0x18000 + 16 * n) 0).wr 0 (0x18008 + 16 * n) 0) s
  let s : State := { s with aborts := s.aborts.filter fun a => a.part != q }
  let parts := s.fld 0 0 Reg.DCTL_PARISH2.PARTS
  let s := if bitOf parts q then s.setFld 0 0 Reg.DCTL_PARISH2.PARTS (parts - 2 ^ q) else s
  s.destroySlot (8 + q)

/-- Whether a partition holds a granule of any kind (R297). -/
def State.holdsAny (s : State) (q : Nat) : Bool :=
  !(s.ownedCores q).isEmpty || !(s.ownedGranules q).isEmpty || !(s.boundPorts q).isEmpty
    || s.fld (vf q) 0 Reg.PCTL_COMP_SEQ.SEQ != 0 || s.fld (vf q) 0 Reg.PCTL_MEM_CARVE2.COMMONS_TIB != 0

/-- A partition whose last granule has become UNOWNED is EMPTY (R297, R298, R306): what its queues still hold completes
WRONG_STATE, and PWR_E_PART clears (chapter 20). -/
def State.emptyIfBare (s : State) (q : Nat) : State :=
  if s.fld 0 q Reg.DCTL_COMP_PART0.STATE = 1 ∧ s.holdsAny q = false ∧ s.drainEpoch q = none
      ∧ (s.changes.any fun x => x.phase == 3 && x.c.part == q) = false
      ∧ (s.wipes.any fun w => w.keep == some (0x40 + q)) = false then
    let s := s.fenceFn (vf q) 0x11
    let s : State := { s with pow := { s.pow with frac := s.pow.frac.set 0 (2 + q) 0 } }
    ((s.emptyPart q).wr 0 (0x100100 + 8 * q) 0).setFld 0 q Reg.DCTL_COMP_PART0.STATE 0
  else s

end Sys2Proof.Machine
end

