-- ==== Sys2Proof/Machine/Resets.lean ====
section
/-! DEFINITION. Resets (R430 to R433, R441), the errors that cause them (R59, R422, R439), aborts (R435, R436), the error
log's blocks (R426) and crash dumps (R438, R440). -/

namespace Sys2Proof.Machine

open Sys2Proof

/-! ## Replacement of a failed core (R59, R61) -/

/-- A physical core as IDC_PCORE_STAT numbers it: die, cluster and k. -/
def pcoreOf (d c k : Nat) : Nat := 272 * d + 17 * c + k

/-- The physical core that holds a logical core. -/
def State.pcore (s : State) (n : Nat) : Nat :=
  pcoreOf (s.fld 0 n Reg.IDC_CORE_MAP.DIE) (s.fld 0 n Reg.IDC_CORE_MAP.CLUSTER) (s.fld 0 n Reg.IDC_CORE_MAP.K)

/-- The physical cores of a logical core's cluster in a state: 2 SPARE, 3 UNDER_TEST. -/
def State.clusterIn (s : State) (n st : Nat) : List Nat :=
  (List.range 17).filter fun k =>
    s.fld 0 (s.pcore n / 17 * 17 + k) Reg.IDC_PCORE_STAT.STATE == st

/-- The k of a SPARE core of a logical core's cluster; one that a failure has claimed is taken. -/
def State.spareOf (s : State) (n : Nat) (claim : Bool) : Option Nat :=
  (s.clusterIn n 2).find? fun k => !(claim && s.changes.any fun x =>
    x.c.op == 3 && x.phase == 0 && x.fresh && x.sess.isNone && x.c.target == k && s.pcore x.c.core / 17 == s.pcore n / 17)

/-- A composition change with nothing named. -/
def Compose.none (op part : Nat) : Compose :=
  { op := op, part := part, shared := false, join := false, leave := false, dissolve := false, force := false, target := 0
    at_ := 0, vd := 0, member := 0, members := 0, commons := 0, core := 0, cel := 0, t1 := 0, t2 := 0, mode := 0, ports := 0
    seqs := 0, qosVa := 0, cores := 0 }

/-- The next handle (R303). -/
def State.takeHandle (s : State) : Nat × State :=
  (s.nextHandle, { s with nextHandle := (s.nextHandle + 1) % 2 ^ 32 })

/-- A change as it is accepted. -/
def State.newChange (s : State) (h : Nat) (sess : Option Nat) (c : Compose) (fresh : Bool) (rotate : Option Nat) : Change :=
  { handle := h, sess := sess, c := c, accepted := s.tick, phase := 0, epoch := 0, opened := 0, old := 0, new := 0
    fresh := fresh, rotate := rotate, copied := false, shut := false }

/-- Changes that are queued. -/
def State.queuedChanges (s : State) : List Change := s.changes.filter (·.phase == 0)

/-- A failed core's number goes to its cluster's free core, waits for a test of that core, or is LOST (R59, R61). Where the
composition queue already holds its 64 changes (R304), the number is LOST, with no change and no handle: DESIGN CHOICE (log
107), R59 does not name that case. -/
def State.replaceCore (s : State) (n : Nat) : State :=
  match s.spareOf n true with
  | some k =>
    if 64 ≤ s.queuedChanges.length then s.setFld 0 n Reg.IDC_CORE_MAP.STATE 2
    else
      let (h, s) := s.takeHandle
      let c : Compose := { Compose.none 3 0 with core := n, target := k }
      let s : State := { s with changes := s.changes ++ [s.newChange h none c true none] }
      s.setFld 0 n Reg.IDC_CORE_MAP.STATE 3
  | none =>
    if (s.clusterIn n 3).isEmpty then s.setFld 0 n Reg.IDC_CORE_MAP.STATE 2
    else ({ s with awaitSpare := s.awaitSpare ++ [n] } : State).setFld 0 n Reg.IDC_CORE_MAP.STATE 3

/-- Failed cores that wait for a test of their cluster's free core (R59): looked at again once none is UNDER_TEST. -/
def State.retryReplace (s : State) : State :=
  let ended := s.awaitSpare.filter fun n => (s.clusterIn n 3).isEmpty || (s.spareOf n true).isSome
  ended.foldl State.replaceCore { s with awaitSpare := s.awaitSpare.filter fun n => !ended.contains n }

/-- CORE_EVENT in PF0 and in a core's owner (R59). -/
def State.coreEvent (s : State) (n : Nat) : State :=
  let s := s.intc 0 2
  match s.owner n with
  | some q => s.intc (vf q) 2
  | none => s

/-- A core that failed in its own logic is shuttered (R59): a move of it is abandoned (R61), its work is squashed, its physical
core is BAD, and it is replaced. FAULT_POLICY does not follow where its partition's own reset is shuttered (R441). -/
def State.failCore (s : State) (n : Nat) : State :=
  let s := s.fenceChanges [n]
  let old := s.pcore n
  let s := s.fenceCore n !((s.owner n).any s.partShut)
  let s := (s.setFld 0 old Reg.IDC_PCORE_STAT.STATE 4).setFld 0 old Reg.IDC_PCORE_STAT.CAUSE 2
  let s := s.logErr { ErrRec.of 1 0x01 with unit := unitCore n, part := s.owner n }
  let s : State := { s.coreEvent n with failed := s.failed.filter (· != n) }
  s.replaceCore n

/-! ## Crash dumps (R438, R440) -/

/-- The 64 bytes of a dump's header (R440): `len` is LENGTH, tag included. Bytes that describe a causing record are free
where there is none (log 52). -/
def State.dumpHeader (s : State) (len cls seq : Nat) : List Byte :=
  ascii "YXDP" ++ leBytes 2 1 ++ leBytes 2 10 ++ leBytes 4 len ++ leBytes 4 s.dump.count ++ leBytes 6 s.now
    ++ leBytes 2 (s.fld 0 0 Reg.DCTL_NODE.NODE) ++ serial ++ leBytes 4 (s.fld 0 0 Reg.DCTL_LIFE.BOOTS)
    ++ leBytes 1 (s.fld 0 0 Reg.DCTL_LIFE.STATE) ++ leBytes 1 cls ++ leBytes 4 seq ++ List.replicate 14 0

/-- A section of a dump (R440): its header, with INCOMPLETE as given, and its content. -/
def dumpSection (typ : Nat) (incomplete : Bool) (content : List Byte) : List Byte :=
  leBytes 2 typ ++ leBytes 2 incomplete.toNat ++ leBytes 4 content.length ++ List.replicate 8 0 ++ content

/-- The ten sections of a dump (R438, R440). The first holds the records on chip; no layout is given for the others, and which
of them an error during the capture leaves INCOMPLETE (R441) is free (log 52). -/
def State.dumpSections (s : State) : List Byte :=
  (List.range 10).flatMap fun i =>
    dumpSection (i + 1) (s.dump.erred && Config.freeBool (s.free + i))
      (if i = 0 then s.log.recs.flatMap ErrRec.bytes else Config.document (10 + i) s.free)

/-- A dump that is due is captured (R438), and staged in the security complex. -/
def State.captureDump (s : State) : State :=
  match s.dump.due with
  | none => s
  | some cause =>
    let body := s.dumpSections
    let s : State := { s with free := s.free + 10 }
    let (a, s) := s.draw
    let (b, s) := s.draw
    let (cls, seq) := cause.getD (a % 256, b % 2 ^ 32)
    let d : Dump := { recSeq := seq, head := s.dumpHeader (64 + body.length + 16) cls seq, body := body }
    { s with dump := { s.dump with due := none, erred := false, staged := some d, count := s.dump.count + 1 } }

/-! ## Shuttering (R431) -/

/-- A reset's entry, changed in place. -/
def State.updReset (s : State) (id : Nat) (f : Reset → Reset) : State :=
  { s with resets := s.resets.map fun r => if r.id = id then f r else r }

/-- DCTL_RST_STAT.STATE, which shows the latest reset that was shuttered. -/
def State.rstState (s : State) (r : Reset) (st : Nat) : State :=
  if s.fld 0 0 Reg.DCTL_RST_STAT.DOMAIN = r.domain ∧ s.fld 0 0 Reg.DCTL_RST_STAT.TARGET = r.target % 65536 then
    s.setFld 0 0 Reg.DCTL_RST_STAT.STATE st else s

/-- Whether anything remains of what a shuttered domain issued or accepted (R431): a started move, or a request not yet
answered. -/
def State.resetRemains (s : State) (r : Reset) : Bool :=
  let ms := (s.resetCores r).any fun n => (s.core n).cur.moves.any fun m =>
    m.started && (r.domain != 1 || m.eng + 6 == r.target % 8)
  ms || s.inbound.any fun i => (s.resetParts r).contains i.part

/-- The ports of a reset's partitions. -/
def State.resetPorts (s : State) (r : Reset) : List Nat := (s.resetParts r).flatMap s.boundPorts

/-- Whether the drain is stuck at its end (R432): cells of the domain stand unacknowledged in a replay buffer, or a stopped
memory unit holds requests that it accepted. -/
def State.resetStuck (s : State) (r : Reset) : Bool :=
  ((s.resetPorts r).any fun p => (s.port p).replay.any fun x => !fromAfar x.2)
    || s.inbound.any fun i => (s.resetParts r).contains i.part && s.paStopped (reqAddr i.cell)

/-- A partition's part of a wipe (R430): its granules are wiped and stay its own, but for those of a DISSOLVE that has yet to
open: its drain wipes them (R306, R309). -/
def State.wipePart (s : State) (q : Nat) : State :=
  let gs := if s.changes.any fun x => x.shut && x.phase == 0 && x.c.dissolve && x.c.part == q then [] else s.ownedGranules q
  let s := s.emptyPart q
  gs.foldl (fun (s : State) g =>
    let w : Wipe := { granule := g, done := false, keep := some (0x40 + q), begun := false }
    { s.setOwner g 0xC0 with wipes := s.wipes ++ [w] }) s |>.beginWipes

/-! ## The end of a parish (R398) -/

/-- The parish's keys are destroyed, and its sealed ports are unsealed and leave ACTIVE (R398); an enrolment in progress ends
with its keys (R387). -/
def State.clearParish (s : State) : State :=
  let ports := (List.range 32).filter fun p => s.fld 0 p Reg.DCTL_LYS_PCFG.SEALED == 1
  let s := (7 :: (List.range 32).map (8 + ·) ++ [40, 41, 42, 43]).foldl State.destroySlot s
  let s := ((s.wr 0 0x1030400 0).wr 0 0x1030408 0).wr 0 0x1030410 0
  let s : State := { s with parishEnd := false, sec := { s.sec with enrol := none, adds := [] } }
  ports.foldl (fun (s : State) p => (s.setFld 0 p Reg.DCTL_LYS_PCFG.SEALED 0).dropPort p) s

/-- The parish ends (R398): every enrolled partition is reset. -/
def State.endParish (s : State) : State :=
  let qs := setBits (s.fld 0 0 Reg.DCTL_PARISH2.PARTS) 32
  qs.foldl (fun (s : State) q => s.decideReset 4 q false false 1) s.clearParish

/-- The squash and the start of the wipe (R431 steps 3 and 4). A draining epoch of a partition ends with its reset (R317). -/
def State.squashReset (s : State) (r : Reset) : State :=
  let s := s.captureDump
  let s :=
    if r.domain = 1 then s.fenceEngine (r.target / 8) (r.target % 8)
    else if r.domain ≤ 3 then (s.resetCores r).foldl (fun (s : State) n => s.fenceCore n true) s
    else
      let qs := s.resetParts r
      let s := qs.foldl State.fencePart s
      let s := qs.foldl (fun (s : State) q => if (s.drainEpoch q).isSome then s.endDrain q else s) s
      let s := qs.foldl State.wipePart s
      if r.domain = 7 then s.clearParish else s
  let s : State := if r.domain = 3 then { s with ctlbs := s.ctlbs.del r.target } else s
  (s.updReset r.id fun r => { r with phase := 3 }).rstState r 3

/-- The drain ends (R431, R432): nothing remains, or its budget has passed. -/
def State.resetDrain (s : State) (id : Nat) : State :=
  match s.resets.find? fun r => r.id == id && r.phase == 1 with
  | none => s
  | some r =>
    if s.resetRemains r ∧ s.tick < r.edge then s
    else if s.resetStuck r then
      let s := ((s.updReset id fun r => { r with phase := 2 }).rstState r 2).raise 0 0 Reg.DCTL_RST_STAT.STUCK
      s.logErr { ErrRec.of 4 0x12 with cause := r.domain }
    else s.squashReset r

/-- RESET_DRAIN_END (R431, R432). -/
def execResetDrainEnd (id : Nat) (s : State) : Host.Outcome State Fault Refusal := .next (s.resetDrain id)

/-- A decided reset is shuttered at an edge (R431): its domain starts nothing more, changes that touch it complete FENCED
(R304, R317), queues of its partitions are DISABLED (R339), aborts of its partitions are dropped (R441), a dump falls due
(R438), and moves that are stalled on a fault leave it: their faults close (R244). -/
def State.shutterReset (s : State) (r : Reset) : State :=
  let s := s.updReset r.id fun r => { r with phase := 1, edge := s.tick + s.drainBudget }
  let s := (s.setFld 0 0 Reg.DCTL_RST_STAT.DOMAIN r.domain).setFld 0 0 Reg.DCTL_RST_STAT.TARGET r.target
  let s := s.setFld 0 0 Reg.DCTL_RST_STAT.STATE 1
  let ns := s.resetCores r
  let qs := s.resetParts r
  let s := if r.domain = 1 then s else s.fenceChanges (ns ++ qs.map (4000 + ·))
  let s : State := { s with
    aborts := s.aborts.filter fun a => !qs.contains a.part
    cores := s.cores.mapVals fun n (c : Core) => if ns.contains n then { c with running := false } else c
    dump := if r.dump then { s.dump with due := some r.cause } else s.dump }
  let s := qs.foldl (fun (s : State) q => s.clearQcfg (vf q)) s
  ns.foldl (fun (s : State) n => s.closeStalled n (if r.domain = 1 then some (r.target % 8) else none)) s

/-- Cores that failed and whose reset, or a larger one, is shuttered, by rising k of their physical cores (R59, R61). A failed
core drains nothing (log 51). -/
def State.failCores (s : State) : State :=
  let ns := s.failed.filter s.coreShut
  ((List.range 17).flatMap fun k => ns.filter fun n => s.fld 0 n Reg.IDC_CORE_MAP.K == k).foldl State.failCore s

/-- Resets that were decided before the present beat are shuttered (R431), and cores that failed are then marked and
replaced. -/
def State.shutterAll (s : State) : State :=
  ((s.resets.filter fun r => r.phase == 0 && r.edge != s.tick).foldl State.shutterReset s).failCores

/-- RESET_SHUTTER (R431): step 5 of an edge for one reset that an earlier beat decided. -/
def execResetShutter (id : Nat) (s : State) : Host.Outcome State Fault Refusal :=
  .next (match s.resets.find? fun r => r.id == id && r.phase == 0 && r.edge != s.tick with
    | some r => (s.shutterReset r).failCores.resetDrain r.id
    | none => s)

/-! ## Stuck resets (R432) -/

/-- FORCE completes a stuck reset: its ports leave ACTIVE with their cells lost, held requests are answered FENCED, and the
wipe begins. -/
def State.forceReset (s : State) (domain target : Nat) : State :=
  match s.resets.find? fun r => r.phase == 2 && (r.domain == domain || domain == 4 && r.domain == 5) && r.target == target with
  | none => s
  | some r =>
    let s := (s.resetPorts r).foldl State.dropPort (s.raise 0 0 Reg.DCTL_RST_STAT.FORCED)
    s.squashReset r

/-- RESET_FORCE (R432). -/
def execResetForce (domain target : Nat) (s : State) : Host.Outcome State Fault Refusal := .next (s.forceReset domain target)

/-! ## Decisions (R422, R430) -/

/-- ENGINE_RESET (R430). -/
def execEngineReset (target : Nat) (dump : Bool) (s : State) : Host.Outcome State Fault Refusal :=
  .next (s.decideReset 1 target dump false 1)
/-- CORE_RESET (R430). -/
def execCoreReset (target : Nat) (dump : Bool) (s : State) : Host.Outcome State Fault Refusal :=
  .next (s.decideReset 2 target dump false 1)
/-- CLUSTER_RESET (R430). -/
def execClusterReset (target : Nat) (dump : Bool) (s : State) : Host.Outcome State Fault Refusal :=
  .next (s.decideReset 3 target dump false 1)
/-- PARTITION_RESET (R430, R434): a member's is a VD member reset. -/
def execPartitionReset (target : Nat) (dump : Bool) (s : State) : Host.Outcome State Fault Refusal :=
  .next (s.decideReset 4 target dump false 1)
/-- DIE_RESET (R430). -/
def execDieReset (target : Nat) (dump : Bool) (s : State) : Host.Outcome State Fault Refusal :=
  .next (s.decideReset 6 target dump false 1)
/-- DEVICE_WARM_RESET (R430). -/
def execDeviceWarmReset (dump : Bool) (s : State) : Host.Outcome State Fault Refusal :=
  .next (s.decideReset 7 0 dump false 1)
/-- DEVICE_COLD_RESET (R430). -/
def execDeviceColdReset (dump : Bool) (s : State) : Host.Outcome State Fault Refusal :=
  .next (s.decideReset 8 0 dump false 1)

/-- CORE_UNCORRECTED_ERROR (R59, R61): the core's reset is decided; a move of it in progress is abandoned. -/
def execCoreUncorrectedError (core : Nat) (s : State) : Host.Outcome State Fault Refusal :=
  .next (if s.fld 0 core Reg.IDC_CORE_MAP.STATE = 0 ∨ s.fld 0 core Reg.IDC_CORE_MAP.STATE = 2 ∨ s.failed.contains core then s
  else ({ s with failed := s.failed ++ [core] } : State).decideReset 2 core false false 0)

/-- UCE_P_ERROR (R422, R434): logged; the partition is reset, with an alarm of cause UCE_P for a member. -/
def execUcePError (part source : Nat) (s : State) : Host.Outcome State Fault Refusal :=
  let s := s.logErr { ErrRec.of 2 source with unit := unitPart part, part := some part }
  .next (s.decideReset 4 part false true 2)

/-- The dump of an error is due (R438): with the reset that it has decided, whose shuttering begins the capture, or at once
where no reset is to shutter. -/
def State.dueDump (s : State) (cause : Option (Nat × Nat)) : State :=
  let mine (r : Reset) : Bool := r.phase == 0 && r.dump && decide (7 ≤ r.domain)
  if s.resets.any mine then
    { s with resets := s.resets.map fun r => if mine r then { r with cause := cause } else r }
  else { s with dump := { s.dump with due := some cause } }

/-- A FATAL error (R439): logged, alarmed to each virtual device with a member here, and a device warm reset decided or the
device stopped at the next edge. Its dump is captured from that shuttering edge on (R438), or now where no reset shutters. -/
def State.fatal (s : State) (source unit : Nat) : State :=
  let s := s.logErr { ErrRec.of 3 source with unit := unit }
  let cause := s.log.recs.getLast?.map fun r => (r.cls, r.seq)
  let auto := s.fld 0 0 Reg.DCTL_RST_CFG.AUTO_WARM == 1
  let qs := (List.range 32).filter fun q => s.vdOf q != 0
  let s := qs.foldl (fun (s : State) q => s.raiseAlarm 1 3 (s.vdOf q) none (if auto then 7 else 0)) s
  if auto then (s.decideReset 7 0 true true 1).dueDump cause
  else { s.dueDump cause with deferred := s.deferred ++ [.halt] }

/-- FATAL_ERROR (R439). -/
def execFatalError (source unitKind unitIndex : Nat) (s : State) : Host.Outcome State Fault Refusal :=
  .next (s.fatal source (unitKind * 4096 + unitIndex))

/-- The device stops work at an edge (R439): no core issues and no command starts until a reset. -/
def State.halt (s : State) : State :=
  { s with
    halted := true
    cores := s.cores.mapVals fun _ (c : Core) => { c with running := false } }

/-! ## Aborts (R435, R436, R441) -/

/-- An abort starts at step 5 of the first edge after its alarm was recorded. -/
def State.startAbort (s : State) (a : Abort) : State :=
  let d : Destroy :=
    { id := s.nextReset, kind := 4, fn := vf a.part, num := a.part, q := 64, sq := 0, started := false, waiting := []
      beat := s.tick }
  let s : State := { s with
    nextReset := s.nextReset + 1
    destroys := s.destroys ++ [d]
    aborts := s.aborts.map fun x => if x.part = a.part then { x with started := true } else x }
  s.startDestroy d

/-- The aborts that are due at an edge. -/
def State.startAborts (s : State) : State :=
  (s.aborts.filter fun a => !a.started && decide (a.beat < s.tick)).foldl State.startAbort s

/-- ALARM_ABORT (R435). -/
def execAlarmAbort (part : Nat) (s : State) : Host.Outcome State Fault Refusal :=
  .next (match s.aborts.find? fun a => a.part == part && !a.started && decide (a.beat < s.tick) with
    | some a => s.startAbort a
    | none => s)

/-- A command held after a FENCED answer completes FENCED at the second edge after it, no abort having come (R436). -/
def State.expireHold (s : State) (h : FencedHold) : State :=
  if s.fenced.contains h ∧ h.beat + 2 ≤ s.tick ∧ (s.aborts.any fun a => a.part + 1 == h.fn) = false then
    let s : State := { s with fenced := s.fenced.erase h }
    match s.launches.find? fun l => l.fn == h.fn && l.q == h.q && l.sq == h.sq && l.g == h.g with
    | some l => s.finishLaunch l 0x16 0 false
    | none => s
  else s

/-- FENCED_HOLD_EXPIRY (R436). -/
def execFencedHoldExpiry (fn q sq : Nat) (s : State) : Host.Outcome State Fault Refusal :=
  .next ((s.fenced.filter fun h => h.fn == fn && h.q == q && h.sq == sq).foldl State.expireHold s)

/-! ## The log on eMMC (R426) -/

/-- Records as the blocks that hold them, 63 to a block, sealed and numbered from `n` on. -/
def logBlocks (key : List Byte) (boots : Nat) (rs : List ErrRec) (n : Nat) : List LogBlock :=
  (List.range (ceilDiv rs.length 63)).map fun j =>
    let part := (rs.drop (63 * j)).take 63
    LogBlock.made key boots (n + j) part.length (part.flatMap ErrRec.bytes)

/-- Every record that eMMC does not hold is written, sealed under the dump key, slot 4; the ring keeps its last 4,096 blocks.
-/
def State.flushLog (s : State) : State :=
  let new := logBlocks (s.keyOf 4) (s.fld 0 0 Reg.DCTL_LIFE.BOOTS) (s.log.recs.drop (s.log.recs.length - s.log.unstored)) s.log.block
  let all := s.log.stored ++ new
  { s with log := { s.log with
      stored := all.drop (all.length - 4096), unstored := 0, block := s.log.block + new.length } }

/-- LOG_FLUSH (R426). -/
def execLogFlush (s : State) : Host.Outcome State Fault Refusal := .next s.flushLog

/-! ## The commands of crash dumps (R438, R440) -/

/-- DUMP_CAPTURE (R438). -/
def execDumpCapture (s : State) : Host.Outcome State Fault Refusal := .next s.captureDump

/-- The slot that a new dump takes (R440): an empty one, the oldest that has been retrieved, or the oldest. -/
def State.dumpSlot (s : State) : Nat :=
  let new := s.fld 0 0 Reg.DCTL_DUMP_STAT.NEW
  match (List.range 4).find? fun i => !s.dump.ages.contains i with
  | some i => i
  | none => (s.dump.ages.find? fun i => !bitOf new i).getD (s.dump.ages.headD 0)

/-- A staged dump is sealed and written (R440). -/
def State.writeDump (s : State) : State :=
  match s.dump.staged with
  | none => s
  | some d =>
    let i := s.dumpSlot
    let new := s.fld 0 0 Reg.DCTL_DUMP_STAT.NEW
    let s := if bitOf new i then s.raise 0 0 Reg.DCTL_DUMP_STAT.DUMP_LOST else s
    let s := (s.setFld 0 0 ⟨0x1007018, 0, 28 + i, 1⟩ 1).setFld 0 0 ⟨0x1007018, 0, 24 + i, 1⟩ 1
    let s := (s.setFld 0 0 Reg.DCTL_DUMP_STAT.LAST_SEQ d.recSeq).raise 0 0 Reg.DCTL_DUMP_STAT.DUMP_TAKEN
    { s with dump := { s.dump with
        staged := none, slots := s.dump.slots.put i (d.sealed (s.keyOf 4)), ages := (s.dump.ages.filter (· != i)) ++ [i] } }

/-- DUMP_WRITTEN (R440). -/
def execDumpWritten (s : State) : Host.Outcome State Fault Refusal := .next s.writeDump

end Sys2Proof.Machine
end

