-- ==== Sys2Proof/Machine/Flood.lean ====
section
/-! DEFINITION. Flooded cells: bells and alarms that arrive (R275 to R277, R434). -/

namespace Sys2Proof.Machine

open Sys2Proof

/-- Whether a flooded cell's header and payload are in range (R260, R262, R276, R277): VC 5 for a bell, 4 or 6 for an
alarm by its scope. -/
def floodFields (c : Cell) : Bool :=
  let b := c.payload
  c.nhop == 0 && cellWidths c && decide (1 ≤ c.hop ∧ c.hop ≤ 6) &&
    (if c.typ = 0xB then b.length == 14 && c.len == 13 && c.vc == 5 && (leField b 4 1 == 1 || leField b 4 1 == 3)
      else b.length == 32 && c.len == 31 && decide (1 ≤ leField b 5 1 ∧ leField b 5 1 ≤ 9)
        && (leField b 4 1 == 1 && c.vc == 4 || leField b 4 1 == 2 && c.vc == 6))

/-- A flooded cell is received once (R275): forwarded with HOP raised on every other port in scope, then acted on. Bytes 12
and 13 of its payload name the virtual device. -/
def State.floodCell (s : State) (p : Nat) (c : Cell) (act : Cell → State → State) : State :=
  match s.receive p c with
  | (none, s) => s
  | (some c, s) =>
    if !s.inService then s
    else if typeReserved c.typ || !floodFields c then s.routeErr p c false
    else
      let origin := leField c.payload 0 2
      let id := leField c.payload 2 2
      if s.flooded c.typ origin id then s
      else
        let s := s.recordFlood c.typ origin id
        let s := if c.hop < 6 then
          s.sendAll (s.floodPorts (leField c.payload 4 1) (leField c.payload 12 2) (some p)) { c with hop := c.hop + 1 } else s
        act c s

/-- A bell that a cell brings (R277, R470): one whose target beat has already opened sets BELL_LATE and rings at the next
edge. -/
def State.bellArrives (s : State) (scope target : Nat) : State :=
  let s := if target ≤ s.now then s.snapFlag Reg.SNAP_STAT.BELL_LATE else s
  s.addBell (if scope = 1 then 1 else 2) target

/-- BELL (R275, R277). -/
def execBell (port : Nat) (c : Cell) (s : State) : Host.Outcome State Fault Refusal :=
  .next (s.floodCell port (cellUnder c 0xB) fun c s =>
    s.bellArrives (leField c.payload 4 1) (leField c.payload 6 6))

/-- A parish that an alarm has ended (R398). -/
def State.parishEnded (s : State) : State :=
  if s.parishEnd then (if s.fld 0 0 Reg.DCTL_PARISH2.STATE = 2 then s.endParish else { s with parishEnd := false }) else s

/-- An alarm that a cell brings (R434): logged as received, and acted on. -/
def State.alarmArrives (s : State) (b : List Byte) : State :=
  let cause := leField b 5 1
  let s := s.logErr { ErrRec.of 4 0x13 with
    cause := cause, node := leField b 0 2, received := true, detail := (b.drop 4).take 26 }
  (s.alarmAct (leField b 4 1) cause (leField b 12 2) none).parishEnded

/-- ALARM (R275, R276, R434). -/
def execAlarm (port : Nat) (c : Cell) (s : State) : Host.Outcome State Fault Refusal :=
  .next (s.floodCell port (cellUnder c 0xC) fun c s => s.alarmArrives c.payload)

end Sys2Proof.Machine
end

