-- ==== Sys2Proof/Machine/Beat.lean ====
section
/-! DEFINITION. The beat: markers, lock and holdover (R17 to R27, R274), and lateness (R29 to R31). -/

namespace Sys2Proof.Machine

open Sys2Proof

/-! ## Registers of the beat -/

/-- A flag of DCTL_BEAT_STAT is set, with BEAT_EVT of PF0. -/
def State.beatFlag (s : State) (f : Fld) : State := (s.raise 0 0 f).intc 0 11

/-- The role of the package: 0 follower, 1 master, 2 STANDALONE. -/
def State.role (s : State) : Nat := s.fld 0 0 Reg.DCTL_BEAT_CFG.ROLE

/-- DCTL_BEAT_STAT.LOCK: 0 UNLOCKED, 1 LOCKED, 2 HOLDOVER. -/
def State.lock (s : State) : Nat := s.fld 0 0 Reg.DCTL_BEAT_STAT.LOCK

/-- The nominal beat for a length code, in N-cycles (R17). -/
def nominal (code : Nat) : Nat := code * 10000

/-- The beat number that the next edge opens: the one that a step adopts (R25), 0 where a newly designated master starts the
fabric's count (R18), and the following one otherwise. -/
def State.nextBeat (s : State) : Nat := s.beat.step.getD (if s.beat.restart then 0 else s.now + 1)

/-- LAST_CORR as a difference in ns, within 16 bits. -/
def State.lastCorr (s : State) (d : Int) : State :=
  s.setFld 0 0 Reg.DCTL_BEAT_STAT.LAST_CORR (wrap (max (-32768) (min 32767 d)) 16)

/-! ## Markers (R19, R20, R274) -/

/-- The payload of a marker (R274). -/
def markerBytes (beat lead hops code change next master : Nat) : List Byte :=
  leBytes 6 beat ++ leBytes 3 lead ++ leBytes 1 hops ++ leBytes 1 code ++ leBytes 6 change ++ leBytes 1 next ++ leBytes 2 master

/-- A BEAT cell of this package. -/
def State.markerCell (s : State) (payload : List Byte) : Cell :=
  { cellOf 0xA 5 with src := s.fld 0 0 Reg.DCTL_NODE.NODE, len := 19, payload := payload }

/-- Ports that carry markers: the trained ones. -/
def State.trained (s : State) : List Nat := (List.range 32).filter s.portActive

/-- The master's marker for the coming beat, once on every trained port, LEAD before its edge (R18, R19, R26, R27). It carries
a pending change of length in every beat from the write of DCTL_BEAT_NEXT on (log 104). -/
def State.emitMarker (s : State) : State :=
  if s.role = 1 ∧ s.beat.marked ≠ some s.nextBeat then
    let pay := markerBytes s.nextBeat (s.fld 0 0 Reg.DCTL_BEAT_CFG.LEAD * 1000) 0 (s.fld 0 0 Reg.DCTL_BEAT_CFG.BEAT_LEN)
      (s.fld 0 0 Reg.DCTL_BEAT_NEXT.CHANGE_AT) (s.fld 0 0 Reg.DCTL_BEAT_NEXT.NEXT_LEN) (s.fld 0 0 Reg.DCTL_NODE.NODE)
    let s := s.sendAll s.trained (s.markerCell pay)
    { s with beat := { s.beat with marked := some s.nextBeat } }
  else s

/-- BEAT_MARKER_EMIT (R17, R19). -/
def execBeatMarkerEmit (s : State) : Host.Outcome State Fault Refusal := .next s.emitMarker

/-- The better of two heard ports, as (port, hops): fewer hops, then the lower number (R20). -/
def betterPort (a b : Nat × Nat) : Nat × Nat :=
  if b.2 < a.2 ∨ (b.2 = a.2 ∧ b.1 < a.1) then b else a

/-- The best port of those heard. -/
def bestHeard : List (Nat × Nat) → Option (Nat × Nat)
  | [] => none
  | x :: xs => match bestHeard xs with
    | none => some x
    | some y => some (betterPort x y)

/-- The port in use changes once it has delivered no valid marker for a beat and others have (R20). -/
def State.changePort (s : State) : State :=
  let used := s.fld 0 0 Reg.DCTL_BEAT_STAT.PORT
  if s.beat.chosen && (decide (s.beat.quietPort = 0) || s.beat.heard.any fun (x : Nat × Nat) => x.1 == used) then s
  else match bestHeard s.beat.heard with
    | none => s
    | some (p, h) =>
      let s := (s.setFld 0 0 Reg.DCTL_BEAT_STAT.PORT p).setFld 0 0 Reg.DCTL_BEAT_STAT.HOPS h
      { s with beat := { s.beat with chosen := true, quietPort := 0 } }

/-- MARKER_PORT_CHANGE (R20). -/
def execMarkerPortChange (s : State) : Host.Outcome State Fault Refusal :=
  .next (if s.role = 0 then s.changePort else s)

/-- A marker in use goes on to every other trained port, its lead shortened by the link's delay and the residence measured on
that port (R19, R20); a residence that was not given is free. A package at hop 6 does not forward. -/
def State.forwardMarker (s : State) (p : Nat) (residence : List (Nat × Nat)) (b : List Byte) : State :=
  let hops := bits (leField b 9 1) 0 3
  if 5 ≤ hops then s
  else
    let left := leField b 6 3 - s.fld 0 p Reg.DCTL_LYS_DLY.D_LINK
    (s.trained.filter (· != p)).foldl (fun (s : State) o =>
      let (r, s) : Nat × State := match residence.find? fun (x : Nat × Nat) => x.1 == o with
        | some x => (x.2, s)
        | none => s.draw
      s.sendCell o (s.markerCell (b.take 6 ++ leBytes 3 (left - r) ++ leBytes 1 (hops + 1) ++ (b.drop 10).take 10))) s

/-! ## Lock (R23, R25) -/

/-- Whether the differences of three markers in a row agree within 40 ns of one another (R23). -/
def agreeing : List Int → Bool
  | [a, b, c] => decide (max a (max b c) - min a (min b c) ≤ 40)
  | _ => false

/-- A step: the next edge falls at the marker's edge, and takes its beat number (R23, R25). -/
def State.stepTimer (s : State) (edge : Int) (beat : Nat) : State :=
  let s := s.lastCorr (edge - s.beat.nextEdge)
  { s with beat := { s.beat with nextEdge := edge, step := some beat, far := [], trial := none, agreed := 0 } }

/-- The marker in use on a package that is not locked (R23, R27): it opens a trial, or agrees with one; the third in agreement
locks the package, which then takes the markers' length. -/
def State.tryLock (s : State) (edge : Int) (beat code : Nat) : State :=
  let fresh : State := { s with beat := { s.beat with trial := some (edge, beat), agreed := 0 } }
  match s.beat.trial with
  | none => fresh
  | some (e, b) =>
    let want := e + ((beat : Int) - b) * (nominal code : Nat)
    if (edge - want).natAbs ≤ 40 then
      if s.beat.agreed = 1 then
        let t := s.stepTimer edge beat
        if code = s.fld 0 0 Reg.DCTL_BEAT_CFG.BEAT_LEN then t else { t with beat := { t.beat with adopt := some code } }
      else { s with beat := { s.beat with agreed := s.beat.agreed + 1 } }
    else fresh

/-- The marker in use on a locked package (R23): a correction of the beat in progress, or one of three that ask for a step. -/
def State.correct (s : State) (edge : Int) (beat : Nat) : State :=
  let here := s.beat.nextEdge + ((beat : Int) - s.nextBeat) * (nominal (s.fld 0 0 Reg.DCTL_BEAT_CFG.BEAT_LEN) : Nat)
  let d := edge - here
  if d.natAbs ≤ 200 then
    if beat = s.nextBeat then
      let s := s.lastCorr d
      { s with beat := { s.beat with nextEdge := edge, far := [] } }
    else { s with beat := { s.beat with far := [] } }
  else
    let all := (d :: s.beat.far).take 3
    if agreeing all then s.stepTimer edge beat else { s with beat := { s.beat with far := all.take 2 } }

/-- Whether a marker tells of a change of length that the package missed (R27): its code differs from the length in force,
and no change for that beat is held. -/
def State.missedChange (s : State) (beat code : Nat) : Bool :=
  let at_ := s.fld 0 0 Reg.DCTL_BEAT_NEXT.CHANGE_AT
  code != s.fld 0 0 Reg.DCTL_BEAT_CFG.BEAT_LEN && !(at_ != noChange && decide (at_ ≤ beat))

/-- What the marker on the port in use does (R20, R23, R27). -/
def State.useMarker (s : State) (p arrival : Nat) (residence : List (Nat × Nat)) (b : List Byte) : State :=
  let beat := leField b 0 6
  let code := bits (leField b 10 1) 0 6
  let s := s.setFld 0 0 Reg.DCTL_BEAT_STAT.HOPS (bits (leField b 9 1) 0 3)
  let s := s.forwardMarker p residence b
  let s := (s.setFld 0 0 Reg.DCTL_BEAT_NEXT.CHANGE_AT (leField b 11 6)).setFld 0 0 Reg.DCTL_BEAT_NEXT.NEXT_LEN
    (if leField b 11 6 = noChange then 0 else bits (leField b 17 1) 0 6)
  let edge : Int := (arrival : Int) + leField b 6 3 - s.fld 0 p Reg.DCTL_LYS_DLY.D_LINK
  if s.lock ≠ 0 && s.missedChange beat code then
    { s with beat := { s.beat with adopt := some code, trial := none, agreed := 0, far := [] } }
  else if s.lock = 1 then s.correct edge beat
  else s.tryLock edge beat code

/-- A marker reaches a follower on a port (R19, R20). -/
def State.takeMarker (s : State) (p arrival : Nat) (residence : List (Nat × Nat)) (b : List Byte) : State :=
  if s.role ≠ 0 then s
  else if leField b 6 3 < s.fld 0 p Reg.DCTL_LYS_DLY.D_LINK + 1000 then s.beatFlag Reg.DCTL_BEAT_STAT.BEAT_LEAD_SHORT
  else
    let heard := (p, bits (leField b 9 1) 0 3) :: s.beat.heard.filter fun (x : Nat × Nat) => x.1 != p
    let s := ({ s with beat := { s.beat with heard := heard } } : State).changePort
    if p = s.fld 0 0 Reg.DCTL_BEAT_STAT.PORT then s.useMarker p arrival residence b else s

/-- Whether a BEAT cell's fields are in range (R260, R274). -/
def markerFields (c : Cell) : Bool :=
  let b := c.payload
  let len (x : Nat) : Bool := decide (2 ≤ x ∧ x ≤ 40)
  c.nhop == 0 && cellWidths c && c.vc == 5 && c.len == 19 && b.length == 20 && len (bits (leField b 10 1) 0 6)
    && (leField b 11 6 == noChange || len (bits (leField b 17 1) 0 6))

/-- BEAT (R23, R274): `arrival` is the local N-cycle of its arrival, `residence` the time to each port's retransmission. -/
def execBeat (port arrival : Nat) (residence : List (Nat × Nat)) (c : Cell) (s : State) : Host.Outcome State Fault Refusal :=
  .next (match s.receive port (cellUnder c 0xA) with
  | (none, s) => s
  | (some c, s) =>
    if !typeReserved c.typ && markerFields c then s.takeMarker port arrival residence c.payload else s.routeErr port c false)

/-! ## HOLDOVER (R23, R24) -/

/-- A locked package enters HOLDOVER: its schedule tables leave service (R287). -/
def State.enterHoldover (s : State) : State :=
  let s := s.setFld 0 0 Reg.DCTL_BEAT_STAT.LOCK 2
  let s : State := { s with beat := { s.beat with held := 0, limitSent := false, trial := none, agreed := 0, far := [], quietAll := 0 } }
  let s := (s.beatFlag Reg.DCTL_BEAT_STAT.BEAT_HOLDOVER).logCE 0x0C 0 0 none
  ((List.range 32).filter fun p => s.fld 0 p Reg.DCTL_LYS_SCHED.STATE == 1).foldl State.takeOut s

/-- A locked follower that has heard no valid marker for two consecutive beats enters HOLDOVER (R23). -/
def State.checkHoldover (s : State) : State :=
  if s.role = 0 ∧ s.lock = 1 ∧ 2 ≤ s.beat.quietAll then s.enterHoldover else s

/-- HOLDOVER_ENTRY (R23). -/
def execHoldoverEntry (s : State) : Host.Outcome State Fault Refusal := .next s.checkHoldover

/-- The virtual devices with a member on this package. -/
def State.vdsHere (s : State) : List Nat :=
  ((List.range 32).filterMap fun q =>
    if s.fld 0 q Reg.DCTL_COMP_PART0.STATE = 1 ∧ s.vdOf q ≠ 0 then some (s.vdOf q) else none).eraseDups

/-- HOLDOVER that has lasted longer than HOLD_LIM × 100 beats is logged ALARM and told to each virtual device, once (R24). -/
def State.checkHoldLimit (s : State) : State :=
  if s.lock = 2 ∧ s.fld 0 0 Reg.DCTL_BEAT_CFG.HOLD_LIM * 100 < s.beat.held ∧ s.beat.limitSent = false then
    let s : State := { s with beat := { s.beat with limitSent := true } }
    let s := s.logErr { ErrRec.of 4 0x0C with cause := 5 }
    s.vdsHere.foldl (fun (s : State) v => s.raiseAlarm 1 5 v none 0) s
  else s

/-- HOLDOVER_LIMIT (R24). -/
def execHoldoverLimit (s : State) : Host.Outcome State Fault Refusal := .next s.checkHoldLimit

/-! ## Beat length (R27) -/

/-- A pending change of length applies once its beat has come; one whose CHANGE_AT is already past when it is written applies
at the next edge (DESIGN CHOICE, log 104). -/
def State.applyLength (s : State) : State :=
  let at_ := s.fld 0 0 Reg.DCTL_BEAT_NEXT.CHANGE_AT
  let len := s.fld 0 0 Reg.DCTL_BEAT_NEXT.NEXT_LEN
  if at_ = noChange ∨ s.now < at_ then s
  else
    let s := (s.setFld 0 0 Reg.DCTL_BEAT_NEXT.CHANGE_AT noChange).setFld 0 0 Reg.DCTL_BEAT_NEXT.NEXT_LEN 0
    if 2 ≤ len ∧ len ≤ 40 then s.setFld 0 0 Reg.DCTL_BEAT_CFG.BEAT_LEN len else s

/-- BEAT_LENGTH_CHANGE (R27). -/
def execBeatLengthChange (s : State) : Host.Outcome State Fault Refusal := .next s.applyLength

/-- A length written directly, on a STANDALONE package or at step 4 of power-up, applies (R27). -/
def State.applyDirect (s : State) : State :=
  let s := s.deferred.foldl (fun (s : State) d => match d with
    | .beatLen len => s.setFld 0 0 Reg.DCTL_BEAT_CFG.BEAT_LEN len
    | _ => s) s
  { s with deferred := s.deferred.filter fun d => match d with
      | .beatLen _ => false
      | _ => true }

/-! ## Step 1 of an edge (R28) -/

/-- The beat number of an edge (R25, R28): the next one, or the one that a step adopts. -/
def State.countBeat (s : State) : State :=
  let n := s.nextBeat
  let d := (n : Int) - (s.now + 1)
  let stepped := s.beat.step.isSome
  let s : State := { s with beat := { s.beat with last := some s.now, edges := s.beat.edges + 1 } }
  let s := s.setFld 0 0 Reg.DCTL_BEAT_NUM.BEAT_NUM n
  if d = 0 ∨ stepped = false then s
  else
    let s := s.beatFlag Reg.DCTL_BEAT_STAT.BEAT_NUM_JUMP
    if 1 < d.natAbs then s.logErr (ErrRec.of 4 0x0C) else s

/-- Lock of a package at an edge (R23, R26): a master and a STANDALONE package read LOCKED; a step of another locks it; a
change that was missed sends it into HOLDOVER. -/
def State.lockEdge (s : State) (stepped : Bool) : State :=
  let adopt := s.beat.adopt
  let s : State := { s with beat := { s.beat with adopt := none } }
  let s := match adopt with
    | some len => s.setFld 0 0 Reg.DCTL_BEAT_CFG.BEAT_LEN len
    | none => s
  if s.role ≠ 0 then
    ((s.setFld 0 0 Reg.DCTL_BEAT_STAT.LOCK 1).setFld 0 0 Reg.DCTL_BEAT_STAT.HOPS 0).setFld 0 0 Reg.DCTL_BEAT_STAT.PORT 0
  else if stepped then
    ({ s with beat := { s.beat with quietAll := 0 } } : State).setFld 0 0 Reg.DCTL_BEAT_STAT.LOCK 1
  else if adopt.isSome ∧ s.lock = 1 then s.enterHoldover
  else s

/-- Markers heard in the closing beat are counted, and so is a beat that was spent in HOLDOVER (R24); the port in use may
change (R20, R23). -/
def State.quietEdge (s : State) : State :=
  let used := s.fld 0 0 Reg.DCTL_BEAT_STAT.PORT
  let b := s.beat
  let mine := b.heard.any fun (x : Nat × Nat) => x.1 == used
  let s := ({ s with beat := { b with
    quietPort := if mine then 0 else b.quietPort + 1
    quietAll := if b.heard.isEmpty then b.quietAll + 1 else 0
    held := if s.lock = 2 then b.held + 1 else 0 } } : State)
  let s := if s.role = 0 ∧ s.beat.heard ≠ [] then s.changePort else s
  { s with beat := { s.beat with heard := [] } }

/-- The timer takes an edge: the beat that begins has its nominal length, and each port counts tag failures anew (R17, R278).
-/
def State.turnBeat (s : State) : State :=
  let len := nominal (s.fld 0 0 Reg.DCTL_BEAT_CFG.BEAT_LEN)
  let s : State := { s with
    beat := { s.beat with nextEdge := s.beat.nextEdge + len, step := none, restart := false } }
  (List.range 32).foldl (fun (s : State) p =>
    if (s.port p).tagFails = 0 then s else s.setPort p { s.port p with tagFails := 0 }) s

/-- The beat's own part of an edge (R23 to R27), which also runs before release. -/
def State.beatPart (s : State) : State :=
  let stepped := s.beat.step.isSome
  let s := (s.countBeat.quietEdge.applyLength).applyDirect
  let s := (s.lockEdge stepped).turnBeat
  s.checkHoldover.checkHoldLimit

/-! ## Lateness (R29 to R31) -/

/-- Whether a core has not executed the BEAT.END of its block. -/
def Core.unended (c : Core) : Bool := c.launch.isSome && c.running && !c.stopped && !c.atEnd

/-- A core at step 4 of an edge: late, with its count raised, or not. -/
def State.markLate (s : State) (n : Nat) : State :=
  let c := s.core n
  if c.unended then
    (s.setCore n { c with late := true, lateRun := c.lateRun + 1, lateDue := (c.lateRun + 1) % 3 == 0 }).satAdd 0 n
      Reg.QOSM_CORE_LATE.LATE 1
  else if c.late || c.lateDue || c.lateRun != 0 then s.setCore n { c with late := false, lateRun := 0, lateDue := false }
  else s

/-- A lateness event (R31): LATE in INTC_STATUS of the partition, and a CE that names the core and the beat. -/
def State.lateEvent (s : State) (n : Nat) : State :=
  let c := s.core n
  if c.lateDue then
    let s := s.setCore n { c with lateDue := false }
    let s := match s.owner n with
      | some q => s.intc (vf q) 3
      | none => s
    s.logCE 0x0C 0 (unitCore n) (s.owner n)
  else s

/-- LATENESS_EVENT (R31). -/
def execLatenessEvent (core : Nat) (s : State) : Host.Outcome State Fault Refusal := .next (s.lateEvent core)

end Sys2Proof.Machine
end

