-- ==== Sys2Proof/Machine/Kmc.lean ====
section
/-! DEFINITION. Requests and responses of the Kwalet management port (R487, R488). -/

namespace Sys2Proof.Machine

open Sys2Proof

/-- An open session. -/
def State.session? (s : State) (i : Nat) : Option Session := s.kmc.sessions.find? (·.id == i)

/-- An open session changed in place. -/
def State.updSession (s : State) (i : Nat) (f : Session → Session) : State :=
  { s with kmc := { s.kmc with sessions := s.kmc.sessions.map fun k => if k.id == i then f k else k } }

/-- Responses leave in the order of their requests (R487). -/
def State.flushSession (s : State) (i : Nat) : State :=
  match s.session? i with
  | none => s
  | some k =>
    let go := k.reqs.takeWhile (·.resp.isSome)
    let s := s.updSession i fun k => { k with reqs := k.reqs.dropWhile (·.resp.isSome) }
    go.foldl (fun (s : State) r => match r.resp with
      | some (st, b) => s.send (.kmc i r.typ r.req st false b)
      | none => s) s

/-- A request takes its place among a session's outstanding ones; `resp` is its response where it has one already. -/
def State.enterReq (s : State) (i typ req : Nat) (resp : Option (Nat × List Byte)) : State :=
  (s.updSession i fun k => { k with reqs := k.reqs ++ [{ req := req, typ := typ, resp := resp }] }).flushSession i

/-- The response of a request that had none yet. -/
def answerFirst (typ req : Nat) (resp : Nat × List Byte) : List KReq → List KReq
  | [] => []
  | r :: rs => if r.typ = typ ∧ r.req = req ∧ r.resp.isNone then { r with resp := some resp } :: rs
    else r :: answerFirst typ req resp rs

/-- A request that waited is answered. -/
def State.answerReq (s : State) (i typ req st : Nat) (body : List Byte) : State :=
  (s.updSession i fun k => { k with reqs := answerFirst typ req (st, body) k.reqs }).flushSession i

/-- Whether the controller runs (R483): from step 4 of power-up on. -/
def State.kmcUp (s : State) : Bool := s.mod.rails && s.boot.done.contains 4

/-- What the controller serves (R475, R476): in RAW lifecycle requests alone; where an image failed, firmware update and dump
retrieval alone. -/
def State.serves (s : State) (typ : Nat) : Bool :=
  if s.boot.stop = 2 then
    (if s.fld 0 0 Reg.DCTL_LIFE.STATE = 0 then typ / 16 == 2 else typ / 16 == 4 || (typ / 16 == 5 && typ != 0x53))
  else true

/-- A request of an open session (R487, R488): `op` gives its status, its result and what it does; a session with 64
outstanding requests is BUSY. -/
def State.kmcRequest (s : State) (i typ req : Nat) (op : State → Nat × List Byte × State) : State :=
  match s.session? i with
  | none => s
  | some k =>
    if 64 ≤ k.reqs.length then s.enterReq i typ req (some (0x22, []))
    else if s.serves typ = false then s.enterReq i typ req (some (0x11, []))
    else
      let (st, body, t) := op s
      t.enterReq i typ req (some (st, body))

end Sys2Proof.Machine
end

