-- ==== Sys2Proof/Machine/Cold.lean ====
section
/-! DEFINITION. Numbering of cores at release and device resets (R56, R513), the start of power-up (R430, R474, R483), and
the end of resets (R431). -/

namespace Sys2Proof.Machine

open Sys2Proof

/-! ## Numbering (R56, R513) -/

/-- Logical cores per cluster of the YX-1640. -/
def perCluster : Nat := 16

/-- The physical cores of a cluster that are fitted and not BAD, ascending. -/
def State.goodCores (s : State) (d c : Nat) : List Nat :=
  ((List.range 17).map (pcoreOf d c)).filter fun i =>
    let st := s.fld 0 i Reg.IDC_PCORE_STAT.STATE
    st != 0 && st != 4

/-- Owners that a cluster's numbers carry over a warm reset (R513): those of its ACTIVE and MOVING numbers, ascending. -/
def State.carried (s : State) (d c : Nat) : List (Option Nat) :=
  ((List.range 512).filter fun n =>
    let st := s.fld 0 n Reg.IDC_CORE_MAP.STATE
    (st == 1 || st == 3) && s.fld 0 n Reg.IDC_CORE_MAP.DIE == d && s.fld 0 n Reg.IDC_CORE_MAP.CLUSTER == c).map s.owner

/-- The IDC_CORE_MAP entry of a number (R57): a physical core in use and its owner. -/
def mapEntry (i : Nat) (o : Option Nat) : Nat :=
  2 ^ 32 + (match o with | some q => 2 ^ 23 + q * 2 ^ 18 | none => 0) + i / 272 * 2 ^ 12 + i % 272 / 17 * 2 ^ 8 + i % 17

/-- Logical numbers are assigned anew on every die (R56), with owners carried over where `keep` says so (R513). -/
def State.renumber (s : State) (keep : Bool) : State :=
  let cells : List (Nat × Nat) := (List.range 2).flatMap fun d => (List.range 16).map fun c => (d, c)
  let using' : List (Nat × Nat × Option Nat) := cells.flatMap fun x =>
    let is := (s.goodCores x.1 x.2).take perCluster
    let os := if keep then s.carried x.1 x.2 else []
    is.zipIdx.map fun (y : Nat × Nat) => (x.1, y.1, os.getD y.2 none)
  let spares := cells.flatMap fun x => (s.goodCores x.1 x.2).drop perCluster
  let s := (List.range 512).foldl (fun (s : State) n => s.wr 0 (0x9000 + 8 * n) 0) s
  let s := spares.foldl (fun (s : State) i =>
    (s.setFld 0 i Reg.IDC_PCORE_STAT.STATE 2).setFld 0 i Reg.IDC_PCORE_STAT.LOGICAL 0) s
  (List.range 2).foldl (fun (s : State) d =>
    (using'.filter (·.1 == d)).zipIdx.foldl (fun (s : State) (z : (Nat × Nat × Option Nat) × Nat) =>
      let n := 256 * d + z.2
      let s := s.wr 0 (0x9000 + 8 * n) (BitVec.ofNat 64 (mapEntry z.1.2.1 z.1.2.2))
      (s.setFld 0 z.1.2.1 Reg.IDC_PCORE_STAT.STATE 1).setFld 0 z.1.2.1 Reg.IDC_PCORE_STAT.LOGICAL n) s) s

/-! ## The start of power-up (R430, R474) -/

/-- The device starts power-up with every step before `from_` done: what flash, eMMC, fuses and the module hold is kept, and
all else is as at reset, with no key and no memory content (R430, R483, log 54). -/
def State.coldStart (s : State) (from_ : Nat) : State :=
  let kmc : Kmc := { Kmc.fresh with
    bankA := s.kmc.bankA, bankB := s.kmc.bankB, root := s.kmc.root, config := s.kmc.config, reports := s.kmc.reports
    cores := s.kmc.cores, granules := s.kmc.granules }
  let log' : ErrLog := { next := s.log.next, recs := [], unstored := 0, stored := s.log.stored, block := 0 }
  let dump : DumpSt := { due := none, erred := false, staged := none, count := 0, slots := s.dump.slots, ages := s.dump.ages }
  let sec : Sec := { State.reset.sec with owner := s.sec.owner }
  let boot : Boot := { done := (List.range (from_ - 1)).map (· + 1), stop := 0, marks := [], perst := s.boot.perst
                       linked := false, ready := false }
  let t : State := { State.reset with
    pending := s.pending, free := s.free, out := s.out, kmc := kmc, log := log', dump := dump, sec := sec, mod := s.mod
    boot := boot }
  let t := (t.wr 0 0x1030000 (s.rd 0 0x1030000)).wr 0 0x1007018 (s.rd 0 0x1007018)
  let t := (List.range 8).foldl (fun (t : State) n =>
    t.setFld 0 n Reg.DCTL_LYS_INLET.PRESENT (s.fld 0 n Reg.DCTL_LYS_INLET.PRESENT)) t
  let t := (List.range 6).foldl (fun (t : State) k => t.wr 0 (0x1030100 + 8 * k) 0) t
  t.setFld 0 0 Reg.PWR_STAT.STATE 1

/-- The fault contact is set with a code; the first fault holds (R500). Pin 1 is FAULT_N with its code. -/
def State.setFault (s : State) (code : Nat) : State :=
  if s.mod.fault then s
  else ({ s with mod := { s.mod with fault := true, code := code } } : State).send (.pin 1 code)

/-- The rails are removed, every laser interlock opened first (R444, R497): the device is OFF. Pin 0 is the rails. -/
def State.railsDown (s : State) : State :=
  let s := ((List.range 8).foldl State.openLoop s).send (.pin 0 0)
  let t := s.coldStart 1
  ({ t with mod := { t.mod with rails := false } } : State).setFld 0 0 Reg.PWR_STAT.STATE 0

/-! ## Lifecycle codes (R379) -/

/-- DCTL_LIFE as a lifecycle code sets it (R379, R381). -/
def State.setLife (s : State) (code : Nat) : State :=
  let root := if code ≤ 1 then 1 else if code ≤ 3 then 2 else if code = 4 then 3 else 0
  let s := ((s.setFld 0 0 Reg.DCTL_LIFE.STATE code).setFld 0 0 Reg.DCTL_LIFE.ROOT root).setFld 0 0
    Reg.DCTL_LIFE.TEST_ENGINE (code == 1 || code == 4).toNat
  s.setFld 0 0 Reg.DCTL_LIFE.TEST_KEYS (code == 0 || code == 1 || code == 4).toNat

/-- Steps 1 to 3 of a transition's end (R381 to R383): what eMMC holds is sealed anew on the way to RETURNED
and erased on any other, the fuses take
the target state, and the request is answered. -/
def State.finishLife (s : State) : State :=
  match s.sec.life with
  | none => s
  | some (i, req, a) =>
    let s : State := if a.target = 4 then s.resealStore 3
      else ({ s with
        log := { s.log with stored := [] }
        dump := { s.dump with slots := [], ages := [] } } : State).wr 0 0x1007018 0
    let s := s.setLife a.target
    let s : State := if a.target = 3 then
        ({ s with sec := { s.sec with owner := a.owner } } : State).setFld 0 0 Reg.DCTL_LIFE.OWNER 1 else s
    let s := (List.range 64).foldl State.destroySlot s
    let s : State := { s with sec := { s.sec with life := none, busy := false } }
    s.answerReq i 0x0021 req 0 []

/-! ## Slices that are abandoned (R465, R473) -/

/-- A die whose rotation has done nothing yet: the lowest cluster's turn, one default interval away (R464). -/
def Rot.fresh : Rot := { turn := 0, left := 20000, off := false }

/-- Rotation test on one die. -/
def State.rot (s : State) (d : Nat) : Rot := s.rots.get Rot.fresh d

/-- Rotation test on one die, set. -/
def State.setRot (s : State) (d : Nat) (t : Rot) : State := { s with rots := s.rots.set Rot.fresh d t }

/-- The physical core that the current step of a die tests. -/
def State.rotCore (s : State) (d : Nat) : Nat :=
  pcoreOf d (s.fld 0 d Reg.DCTL_ROT_STAT.CLUSTER) (s.fld 0 d Reg.DCTL_ROT_STAT.K)

/-- A running slice is abandoned (R465): the core is SPARE with LAST_TEST unchanged. -/
def State.abandonSlice (s : State) (d : Nat) : State :=
  if s.fld 0 d Reg.DCTL_ROT_STAT.STATE = 2 then
    ((s.setFld 0 (s.rotCore d) Reg.IDC_PCORE_STAT.STATE 2).setFld 0 d Reg.DCTL_ROT_STAT.STATE 0).raise 0 d
      Reg.DCTL_ROT_STAT.WINDOW_OUT
  else s

/-! ## The end of a reset (R430, R431) -/

/-- Whether a wipe that a reset waits for is still to be written: one in a stopped unit is not waited for (R201, R432). -/
def State.wipeOwed (s : State) (q : Nat) : Bool :=
  s.wipes.any fun w => w.keep == some (0x40 + q) && !w.done && !s.memStopped (granuleUnit w.granule)

/-- A reset's wipe is complete; a cold reset waits for a dump that is still to be written (R438, R506). -/
def State.wiped (s : State) (id : Nat) : State :=
  match s.resets.find? fun r => r.id == id && r.phase == 3 with
  | none => s
  | some r =>
    if (r.domain != 8 && (s.resetParts r).any s.wipeOwed)
        || (r.domain == 8 && (s.dump.due.isSome || s.dump.staged.isSome)) then s
    else s.updReset id fun r => { r with phase := 4 }

/-- RESET_WIPE_DONE (R431). -/
def execResetWipeDone (id : Nat) (s : State) : Host.Outcome State Fault Refusal := .next (s.wiped id)

/-- UNIT of a reset's record (R511). -/
def resetUnit (r : Reset) : Nat :=
  if r.domain = 1 then 0x3000 + r.target
  else if r.domain = 2 then unitCore r.target
  else if r.domain = 3 then 0x4000 + r.target
  else if r.domain ≤ 5 then unitPart r.target
  else if r.domain = 6 then 0x5000 + r.target
  else 0

/-- The device reports to its management controller (R431, R513). -/
def State.reportKmc (s : State) (r : KReport) : State := { s with kmc := { s.kmc with reports := s.kmc.reports ++ [r] } }

/-- The end of a reset is logged and reported (R431). -/
def State.reportReset (s : State) (r : Reset) : State :=
  let s : State := { s with resets := s.resets.filter (·.id != r.id) }
  let s := s.reportKmc (.reset r.domain r.target s.now)
  let s := s.rstState r 0
  let s := (s.setFld 0 0 Reg.DCTL_RST_STAT.DONE_BEAT s.now).raise 0 0 Reg.DCTL_RST_STAT.DONE_EVT
  let part := if r.domain = 4 ∨ r.domain = 5 then some r.target else none
  s.logErr { ErrRec.of 0 0x12 with cause := r.domain, unit := resetUnit r, part := part }

/-- Registers of an array, each written zero. -/
def State.zeroRegs (s : State) (off stride n : Nat) : State :=
  (List.range n).foldl (fun (s : State) i => s.wr 0 (off + stride * i) 0) s

/-- Every dirty node of the counter trees is written back, leaves first (R410). -/
def State.writeBackAll (s : State) : State :=
  (List.range 10).foldl (fun (s : State) l =>
    ((s.t2cache.filter fun (e : Nat × List Nat) => !e.2.isEmpty && nodeLevel e.1 == l).map (·.1)).foldl State.writeBack s) s

/-- The ERRL registers of a function return to their reset values (R426). -/
def State.resetErrl (s : State) (fn : Nat) : State :=
  let mine (k : Nat) : Bool := k / 0x2000000 == fn && decide (0xE0000 ≤ k % 0x2000000) && decide (k % 0x2000000 < 0x100000)
  { s with
    regs := s.regs.filter fun (e : Nat × U64) => !mine e.1
    cnts := s.cnts.filter fun (e : Nat × Byte) => !mine (e.1 / 64) }

/-- The map of logical cores as IDC_CORE_MAP shows it. -/
def State.coreMap (s : State) : List (Nat × U64) := (List.range 512).map fun n => (n, s.rd 0 (0x9000 + 8 * n))

/-- Every MOVE_CORE that is queued or in progress is abandoned FENCED (R513). -/
def State.fenceMoveCores (s : State) : State :=
  (s.changes.filter fun x => x.c.op == 3 && decide (x.phase < 2)).foldl (fun (s : State) x => s.compDone x 0x16) s

/-- What a device warm reset does beside its partitions (R55, R56, R387, R410, R426, R439, R513): counters since the last one
clear, moves of cores are abandoned, the cores are numbered again and their map reported, and the device is READY. Whether
failed bridge lanes are remembered over a warm reset is not said: the model counts them afresh (DESIGN CHOICE, log 108). -/
def State.warmEnd (s : State) : State :=
  let s := s.writeBackAll.flushLog.fenceMoveCores
  let s := (List.range 30).foldl (fun (s : State) i =>
    (s.setFld 0 i Reg.DCTL_MEMSTAT.CE_COUNT 0).setFld 0 i Reg.DCTL_MEMSTAT.UCE_COUNT 0) s
  let s := (((s.zeroRegs 0x1006018 64 32).zeroRegs 0x1006020 64 32).zeroRegs 0x1006038 64 32).zeroRegs 0x10308A0 8 2
  let s := s.zeroRegs 0x100080 8 2
  let s := (List.range 46).foldl (fun (s : State) i =>
    s.setFld 0 i Reg.PWR_TEMP.MAX (s.fld 0 i Reg.PWR_TEMP.TEMP)) s
  let s := (List.range 32).foldl (fun (s : State) q => s.resetErrl (vf q)) s
  let old := (List.range 32).map s.ownedCores
  let s := (List.range 2).foldl (fun (s : State) d =>
    (s.abandonSlice d).setFld 0 d Reg.DCTL_ROT_STAT.STATE 0) s
  let s := s.renumber true
  let s := s.reportKmc (.coreMap s.coreMap)
  let s := (List.range 32).foldl (fun (s : State) q =>
    if s.ownedCores q = old.getD q [] then s else s.intc (vf q) 2) (s.intc 0 2)
  let s : State := { s with
    halted := false, bridge := 0, failed := [], awaitSpare := [], cores := [] }
  ((s.setFld 0 0 Reg.IDC_TOPO.BRIDGE_HALF 0).setFld 0 0 Reg.PWR_STAT.STATE 2)

/-- A reset whose wipe is complete ends at the next edge (R431): its domain returns to service. -/
def State.endReset (s : State) (r : Reset) : State :=
  if r.domain = 8 then
    let s := if s.sec.busy then s.flushLog.finishLife else s.flushLog
    if s.pow.off then s.railsDown else s.coldStart 2
  else
    let s := if r.domain = 7 then s.warmEnd
      else if r.domain = 6 then
        ((List.range 32).filter fun p => p / 16 == r.target).foldl State.dropPort s
      else s
    s.reportReset r

/-- Every reset that is complete at an edge. -/
def State.endResets (s : State) : State :=
  (s.resets.filter (·.phase == 4)).foldl State.endReset s

end Sys2Proof.Machine
end

