-- ==== Sys2Proof/Machine/Compose.lean ====
section
/-! DEFINITION. Live composition (R297 to R317, R377, R490). -/

namespace Sys2Proof.Machine

open Sys2Proof

/-! ## The request (R302, R490) -/

/-- `n` bytes of a COMPOSE body from a byte offset. -/
def compField (b : BitVec 896) (off n : Nat) : Nat := bits b.toNat (8 * off) (8 * n)

/-- The operands that a COMPOSE body names. -/
def composeOf (b : BitVec 896) : Compose :=
  let f := compField b 2 1
  { op := compField b 0 1, part := compField b 1 1, shared := bitOf f 0, join := bitOf f 1, leave := bitOf f 2
    dissolve := bitOf f 3, force := bitOf f 4, target := compField b 3 1, at_ := compField b 4 6, vd := compField b 10 2
    member := compField b 12 1, members := compField b 14 2, commons := compField b 16 1, core := compField b 18 2
    cel := compField b 20 2, t1 := compField b 22 6, t2 := compField b 28 2, mode := compField b 30 2
    ports := compField b 32 4, seqs := compField b 36 4, qosVa := compField b 40 8, cores := compField b 48 64 }

/-- The stacks of which a change names a quarter. -/
def Compose.stacks (c : Compose) : List Nat := (List.range 12).filter fun k => bits c.t1 (4 * k) 4 != 0

/-- Whether every byte and bit that the operation does not use is zero (R490). -/
def unusedZero (b : BitVec 896) : Bool :=
  let c := composeOf b
  let z (off n : Nat) : Bool := compField b off n == 0
  let flags := compField b 2 1
  let reserved := z 13 1 && z 17 1
  if c.op = 1 then
    reserved && decide (flags < 4) && z 3 1 && z 18 2 && z 40 8 && (c.join || z 10 3 && z 14 2)
      && (List.range 16).all fun k => !bitOf c.mode k || c.stacks.contains k
  else if c.op = 2 then
    reserved && flags % 4 == 0 && decide (flags < 32) && z 3 1 && z 10 3 && z 14 2 && z 18 2 && z 30 2 && z 40 8
  else if c.op = 3 then z 1 2 && z 10 8 && z 20 92
  else z 2 2 && z 10 30 && z 48 64

/-- Whether a COMPOSE body is well formed as the operation asked for (R490). -/
def composeOk (op : Nat) (b : BitVec 896) : Bool :=
  let c := composeOf b
  c.op == op && decide (c.part < 32) && unusedZero b
    && (!c.join || decide (1 ≤ c.members ∧ c.members ≤ 256))
    && (decide (2 < op) || c.commons == 0 || decide (4 ≤ c.commons ∧ c.commons ≤ 16))
    && (op != 3 || decide (c.target ≤ 16) || c.target == 0x1F)

/-! ## What a change names -/

/-- What the operands name, as `State.touched` numbers it. -/
def Compose.names (c : Compose) : List Nat :=
  setBits c.cores 512 ++ c.granules.map (1000 + ·) ++ (setBits c.ports 32).map (2000 + ·) ++ (setBits c.seqs 32).map (3000 + ·)

/-- The partition that owns a sequence-slot group. -/
def State.seqOwner (s : State) (j : Nat) : Option Nat :=
  (List.range 32).find? fun q => bitOf (s.fld (vf q) 0 Reg.PCTL_COMP_SEQ.SEQ) j

/-- The partition that holds a core, granule, port or sequence-slot group. -/
def State.holder (s : State) (t : Nat) : Option Nat :=
  if t < 1000 then s.owner t
  else if t < 2000 then (if s.granState (t - 1000) = 1 then some (bits (s.ownerByte (t - 1000)) 0 5) else none)
  else if t < 3000 then (if s.fld 0 (t - 2000) Reg.DCTL_LYS_PCFG.BOUND = 1 then some (s.fld 0 (t - 2000) Reg.DCTL_LYS_PCFG.PART) else none)
  else s.seqOwner (t - 3000)

/-- Whether it is UNOWNED. -/
def State.unowned (s : State) (t : Nat) : Bool :=
  (s.holder t).isNone && (decide (t < 1000) || decide (2000 ≤ t) || s.granState (t - 1000) == 0)

/-- Whether the module lacks it (R2, R462). -/
def State.lacks (s : State) (t : Nat) : Bool :=
  if t < 1000 then s.fld 0 t Reg.IDC_CORE_MAP.STATE == 0
  else if t < 1016 then s.fld 0 (28 + (t - 1000) / 8) Reg.DCTL_MEMSTAT.PRESENT == 0 || s.dead.contains (t - 1000)
  else if t < 1064 then s.fld 0 ((t - 1016) / 4) Reg.DCTL_CARVE_T1.PRESENT == 0
  else if t < 2000 then s.fld 0 (12 + (t - 1064)) Reg.DCTL_MEMSTAT.PRESENT == 0
  else if t < 3000 then !bitOf (s.fld 0 0 Reg.IDC_CAP0.PORT_MASK) (t - 2000)
  else false

/-- The power domain that holds it, if one does (R445). -/
def State.domainOf (s : State) (t : Nat) : Option Nat :=
  if t < 1000 then some (24 * s.fld 0 t Reg.IDC_CORE_MAP.DIE + s.fld 0 t Reg.IDC_CORE_MAP.CLUSTER)
  else if t < 1016 then none
  else if t < 1064 then
    let k := (t - 1016) / 4
    some (24 * (k / 6) + 20 + k % 6 / 3)
  else if t < 2000 then some (24 * ((t - 1064) / 8) + 22)
  else if t < 3000 then some (24 * ((t - 2000) / 16) + 16 + (t - 2000) % 16 / 4)
  else none

/-- Whether it lies in a gated domain (R447). -/
def State.gated (s : State) (t : Nat) : Bool := (s.domainOf t).any fun i => bitOf (s.fld 0 0 Reg.PWR_DOM_STAT.OFF) i

/-- Whether it lies in a domain that still wakes (R447). -/
def State.waking (s : State) (t : Nat) : Bool := (s.domainOf t).any s.pow.waking.contains

/-- Whether an UNBIND that is queued or in progress gives it up. -/
def State.leaving (s : State) (t : Nat) : Bool := s.changes.any fun x => x.c.op == 2 && (s.touched x).contains t

/-- Whether a memory granule holds part of a valid twin entry (R192). -/
def State.holdsTwin (s : State) (g : Nat) : Bool :=
  (List.range 64).any fun i => s.fld 0 i Reg.DCTL_TWIN0.VALID == 1 &&
    (granuleRanges g).any fun r => [s.twinPri i, s.twinSec i].any fun a =>
      decide (a < r.1 + r.2) && decide (r.1 < a + s.twinLen i * 65536)

/-! ## The checks of R304 -/

/-- The causes of WRONG_STATE for a BIND; `ready` where it is checked as it becomes ready. -/
def State.bindRefused (s : State) (c : Compose) (ready : Bool) : Bool :=
  (setBits c.cores 512).any (fun n => s.fld 0 n Reg.IDC_CORE_MAP.STATE == 2)
    || c.names.any (fun t => (s.holder t).any (· != c.part) && !s.leaving t)
    || c.names.any s.gated
    || (c.join && (c.vd == 0
        || (s.vdOf c.part != 0 && (s.vdOf c.part != c.vd || s.fld 0 c.part Reg.DCTL_COMP_PART0.MEMBER != c.member))
        || (List.range 32).any fun q => q != c.part && s.vdOf q == c.vd))
    || c.stacks.any fun k => (bitOf c.mode k).toNat != s.fld 0 k Reg.DCTL_CARVE_T1.MODE
        && (List.range 4).any fun j =>
          let g := 16 + 4 * k + j
          s.granState g != 0 && (ready || !(s.granState g == 3 || s.leaving (1000 + g)))

/-- The causes of WRONG_STATE for an UNBIND. -/
def State.unbindRefused (s : State) (c : Compose) : Bool :=
  !c.dissolve && ((c.commons != 0 && s.fld (vf c.part) 0 Reg.PCTL_MEM_CARVE2.COMMONS_TIB == 0)
    || c.names.any fun t =>
      if 1000 ≤ t ∧ t < 2000 ∧ s.granState (t - 1000) = 2 then s.holdsTwin (t - 1000) else s.holder t != some c.part)

/-- The physical core that a MOVE_CORE would take: a SPARE one of the core's cluster that no failure has claimed (R59). -/
def State.moveTarget (s : State) (x : Change) : Option Nat :=
  match s.spareOf x.c.core !(x.fresh && x.sess.isNone) with
  | some k => if x.c.target = 0x1F ∨ x.c.target = k then some k else none
  | none => none

/-- The status that refuses a change (R304, R447), if one does. -/
def State.compRefused (s : State) (x : Change) (ready : Bool) : Option Nat :=
  let c := x.c
  if c.op = 3 then
    if 512 ≤ c.core ∨ s.lacks c.core then some 0x1F
    else if (s.moveTarget x).isNone then some 0x11 else none
  else if c.op = 4 then none
  else if c.names.any s.lacks then some 0x1F
  else if (if c.op = 1 then s.bindRefused c ready else s.unbindRefused c) then some 0x11
  else none

/-! ## Readiness (R305, R378, R443) -/

/-- Whether a context switch is in progress on a core. -/
def State.switching (s : State) (n : Nat) : Bool :=
  s.launches.any fun l => (l.phase == 2 || l.phase == 3 || l.phase == 5) && l.cores.contains n

/-- Whether a move of a core is stalled on a replayable fault (R244). -/
def State.faultStalled (s : State) (n : Nat) : Bool := (s.core n).cur.moves.any (·.fid.isSome)

/-- Whether a core holds the unfinished share of a launch, a saved one among them. -/
def State.holdsShare (s : State) (n : Nat) : Bool :=
  (s.core n).launch.isSome || s.launches.any fun l => l.saved.any fun (x : Nat × Core) => x.1 == n

/-- The launches that hold save slots in a memory granule (R378). -/
def State.slotUsers (s : State) (g : Nat) : List Launch :=
  s.launches.filter fun l => l.slots.any fun i =>
    match s.mapped (s.slotAt l.fn i) with
    | some p => p.granule (s.slotAt l.fn i) == g
    | none => false

/-- What a change that is not refused still waits for. A DISSOLVE waits for no share of a launch: R305 has an UNBIND wait for
one unless FORCE is given, and R306 has DISSOLVE shutter its partition in the same place as FORCE (DEDUCED, log 109). -/
def State.compWaits (s : State) (x : Change) : Bool :=
  let c := x.c
  let cores := if c.op = 3 then [c.core] else setBits c.cores 512
  let running := s.fld 0 0 Reg.PWR_STAT.STATE == 3
  (c.op != 4 && ((s.touched x).filter (· < 1000)).any s.switching)
    || (if c.op = 1 then
        c.names.any (fun t => !s.unowned t || s.waking t) || cores.any s.faultStalled || (!cores.isEmpty && !running)
      else if c.op = 2 then
        !c.force && !c.dissolve && (cores.any s.holdsShare || c.granules.any fun g => !(s.slotUsers g).isEmpty)
      else if c.op = 3 then
        s.faultStalled c.core || !running || ((s.core c.core).launch.isSome && !(s.core c.core).atEnd)
      else false)

/-- Whether a queued change's turn has come (R305): its beat, no earlier change that touches the same, no drain. -/
def State.compTurn (s : State) (x : Change) : Bool :=
  let mine := s.touched x
  decide (x.c.at_ ≤ s.now)
    && !(s.queuedChanges.takeWhile fun y => y.handle != x.handle).any (fun y => (s.touched y).any mine.contains)
    && (s.changePart x).all fun q => (s.drainEpoch q).isNone

/-! ## Acceptance (R303, R304) -/

/-- A change is accepted: it takes a handle, and is queued or refused. A waiting MOVE_CORE shows its core MOVING (R314). R304
orders none of its causes: a change that meets a full queue answers WRONG_STATE also where it names a unit that the module
lacks (DESIGN CHOICE, log 106). -/
def State.acceptChange (s : State) (sess : Option Nat) (c : Compose) (rotate : Option Nat) : Nat × State :=
  let (h, s) := s.takeHandle
  let lost := c.op == 3 && s.fld 0 (s.pcore c.core) Reg.IDC_PCORE_STAT.STATE == 4
  let x := s.newChange h sess c lost rotate
  let st := if 64 ≤ s.queuedChanges.length then some 0x11 else s.compRefused x false
  match st with
  | some st => (h, s.compDone x st)
  | none =>
    let s : State := { s with changes := s.changes ++ [x] }
    (h, if c.op = 3 then s.setFld 0 c.core Reg.IDC_CORE_MAP.STATE 3 else s)

/-- COMPOSE of one operation (R382, R489, R490): BUSY in a lifecycle transition, MALFORMED, or the change's handle. -/
def State.compose (s : State) (op sess req : Nat) (body : BitVec 896) : State :=
  s.kmcRequest sess 0x0010 req fun s =>
    if s.sec.busy then (0x22, [], s)
    else if composeOk op body then
      let (h, s) := s.acceptChange (some sess) (composeOf body) none
      (0, leBytes 4 h, s)
    else (0x20, [], s)

/-- BIND (R302). -/
def execBind (sess req : Nat) (body : BitVec 896) (s : State) : Host.Outcome State Fault Refusal := .next (s.compose 1 sess req body)
/-- UNBIND (R302). -/
def execUnbind (sess req : Nat) (body : BitVec 896) (s : State) : Host.Outcome State Fault Refusal := .next (s.compose 2 sess req body)
/-- MOVE_CORE (R302). -/
def execMoveCore (sess req : Nat) (body : BitVec 896) (s : State) : Host.Outcome State Fault Refusal := .next (s.compose 3 sess req body)
/-- RETUNE_QOS (R302). -/
def execRetuneQos (sess req : Nat) (body : BitVec 896) (s : State) : Host.Outcome State Fault Refusal := .next (s.compose 4 sess req body)

/-! ## The QoS image (R316, R372, R377) -/

/-- Whether an image breaks no rule. -/
def qosOk (d : List Byte) : Bool :=
  let f := leField d
  let within (off n lo hi : Nat) : Bool := decide (lo ≤ f off n ∧ f off n ≤ hi)
  d.length == 128 && f 0 2 == 1 && decide (f 2 1 ≤ 1) && within 3 1 1 15 && within 4 2 1 256 && within 6 2 1 512
    && decide (f 4 2 ≤ f 6 2) && within 8 4 1 262143 && within 12 2 1 65535 && within 14 2 1 65535 && within 16 2 1 65535
    && within 18 2 1 65535 && f 30 2 == 0 && f 96 4 == crc32c (d.take 96) && (d.drop 100).all (· == 0)

/-- The settings of an image take force: steps return to 0 (R378). -/
def State.setQos (s : State) (fn : Nat) (d : List Byte) : State :=
  let f := leField d
  let s := ((((((s.setFld fn 0 Reg.QOSM_CFG0.POLICY (f 2 1)).setFld fn 0 Reg.QOSM_CFG0.WEIGHT (f 3 1)).setFld fn 0
    Reg.QOSM_CFG0.XE_LIM (f 4 2)).setFld fn 0 Reg.QOSM_CFG0.CORE_LIM (f 6 2)).setFld fn 0 Reg.QOSM_CFG0.PART_LIM (f 8 4)).setFld
    fn 0 Reg.QOSM_CFG0.QUANTUM (f 20 2))
  let s := (((s.setFld fn 0 Reg.QOSM_CFG1.CEL_LIM (f 12 2)).setFld fn 0 Reg.QOSM_CFG1.T1_LIM (f 14 2)).setFld fn 0
    Reg.QOSM_CFG1.T2_LIM (f 16 2)).setFld fn 0 Reg.QOSM_CFG1.PORT_LIM (f 18 2)
  let s := (((s.setFld fn 0 Reg.QOSM_CFG2.PREEMPT_WAIT (f 22 2)).setFld fn 0 Reg.QOSM_CFG2.TGT_CEL (f 24 2)).setFld fn 0
    Reg.QOSM_CFG2.TGT_T1 (f 26 2)).setFld fn 0 Reg.QOSM_CFG2.TGT_T2 (f 28 2)
  let s := (List.range 8).foldl (fun (s : State) j => s.wr fn (0xC0100 + 8 * j) (BitVec.ofNat 64 (f (32 + 8 * j) 8))) s
  (s.wr fn 0xC0200 0).wr fn 0xC0208 0

/-! ## Opening an epoch (R302, R307, R309, R314, R315) -/

/-- A change opens for a partition: its epoch rises, and the one before drains. -/
def State.openEpoch (s : State) (q : Nat) : State :=
  let e := s.fld 0 q Reg.DCTL_COMP_PART0.CUR_EPOCH
  let s := ((s.setFld 0 q Reg.DCTL_COMP_PART0.DRAIN_EPOCH e).setFld 0 q Reg.DCTL_COMP_PART0.CUR_EPOCH (e + 1)).setFld 0 q
    Reg.DCTL_COMP_PART0.DRAINING 1
  ((s.setFld 0 q Reg.DCTL_COMP_PART1.DRAIN_BEAT s.now).raise (vf q) 0 Reg.PCTL_COMP_STAT.CHANGED).intc (vf q) 1

/-- A change that has opened, in its new phase. -/
def State.opened (s : State) (x : Change) (phase : Nat) : Change :=
  { x with phase := phase, opened := s.now
           epoch := ((s.changePart x).map fun q => s.fld 0 q Reg.DCTL_COMP_PART0.CUR_EPOCH).getD 0 }

/-- A change set in the queue by its handle. -/
def State.setChange (s : State) (x : Change) : State :=
  { s with changes := s.changes.map fun y => if y.handle = x.handle then x else y }

/-- Membership of a virtual device. -/
def State.setMember (s : State) (q vd member members : Nat) : State :=
  ((s.setFld 0 q Reg.DCTL_COMP_PART0.VD vd).setFld 0 q Reg.DCTL_COMP_PART0.MEMBER member).setFld 0 q
    Reg.DCTL_COMP_PART0.MEMBERS members

/-- A core is given to a partition, wiped and with its lateness cleared (R299, R302). -/
def State.giveCore (s : State) (q n : Nat) : State :=
  let s := (s.wipeCore n).wr 0 (0xC4000 + 8 * n) 0
  (s.setFld 0 n Reg.IDC_CORE_MAP.OWNED 1).setFld 0 n Reg.IDC_CORE_MAP.PART q

/-- What BIND gives its partition (R302). -/
def State.bindAll (s : State) (c : Compose) : State :=
  let q := c.part
  let fn := vf q
  let s := if c.join then s.setMember q c.vd c.member c.members else s
  let s := c.stacks.foldl (fun (s : State) k => s.setFld 0 k Reg.DCTL_CARVE_T1.MODE (bitOf c.mode k).toNat) s
  let s := c.granules.foldl (fun (s : State) g =>
    (s.setReleased q g false).setOwner g (if c.shared then 0x80 else 0x40 + q)) s
  let s := (setBits c.cores 512).foldl (fun (s : State) n => s.giveCore q n) s
  let s := s.setFld fn 0 Reg.PCTL_COMP_SEQ.SEQ (s.fld fn 0 Reg.PCTL_COMP_SEQ.SEQ ||| c.seqs)
  let s := if c.commons = 0 then s else s.setFld fn 0 Reg.PCTL_MEM_CARVE2.COMMONS_TIB c.commons
  let again := if c.join then s.boundPorts q else []
  let s := (setBits c.ports 32 ++ again).foldl (fun (s : State) p => s.bindPort p (some q) (s.vdOf q)) s
  if s.holdsAny q then s.setFld 0 q Reg.DCTL_COMP_PART0.STATE 1 else s

/-- A mask of the numbers of a list. -/
def maskOf (l : List Nat) : Nat := l.foldl (fun m i => m ||| 2 ^ i) 0

/-- What an UNBIND releases: DISSOLVE names everything that the partition holds. -/
def State.releases (s : State) (c : Compose) : Compose :=
  if c.dissolve then
    let gs := s.ownedGranules c.part
    { c with
      cores := maskOf (s.ownedCores c.part), cel := maskOf (gs.filter (· < 16))
      t1 := maskOf ((gs.filter fun g => 16 ≤ g && g < 64).map (· - 16)), t2 := maskOf ((gs.filter (64 ≤ ·)).map (· - 64))
      ports := maskOf (s.boundPorts c.part), seqs := s.fld (vf c.part) 0 Reg.PCTL_COMP_SEQ.SEQ
      commons := s.fld (vf c.part) 0 Reg.PCTL_MEM_CARVE2.COMMONS_TIB }
  else c

/-- One reset of step 5 that a composition change asks for: it is decided and shuttered at once (R306). -/
def State.shutterNow (s : State) (domain target : Nat) : State :=
  let id := s.nextReset
  let s := s.decideReset domain target false false 0
  match s.resets.find? fun r => r.id == id && r.phase == 0 with
  | some r => (s.shutterReset r).resetDrain r.id
  | none => s

/-- FORCE and DISSOLVE shutter what they release (R306): each core as a core reset domain, or the whole partition. Launches
whose saved state lies in what is released complete FENCED (R378). -/
def State.shutterUnbind (s : State) (x : Change) : State :=
  let s := s.setChange { x with shut := true }
  let c := x.c
  if c.dissolve then s.shutterNow 4 c.part
  else
    let ls := s.launches.filter fun l => l.saved.any (fun (y : Nat × Core) => bitOf c.cores y.1)
      || c.granules.any fun g => (s.slotUsers g).any (·.id == l.id)
    let s := ls.foldl (fun (s : State) l => s.finishLaunch l 0x16 0 true) s
    (setBits c.cores 512).foldl (fun (s : State) n => s.shutterNow 2 n) s

/-- Whether an UNBIND shutters what it releases and has not done so. -/
def Change.toShut (x : Change) : Bool := x.c.op == 2 && (x.c.force || x.c.dissolve) && !x.shut

/-- Step 5 of the edge at which an UNBIND with FORCE or DISSOLVE opens (R28, R306). -/
def State.shutterDue (s : State) : State :=
  (s.queuedChanges.map (·.handle)).foldl (fun (s : State) h =>
    match s.queuedChanges.find? (·.handle == h) with
    | some x => if x.toShut && s.compTurn x && (s.compRefused x true).isNone && !s.compWaits x then s.shutterUnbind x else s
    | none => s) s

/-- An UNBIND opens (R302, R309): released granules read WIPING, the schedule tables of released ports go (R286), and
membership ends with LEAVE or DISSOLVE. -/
def State.openUnbind (s : State) (x : Change) : State :=
  let q := x.c.part
  let c := s.releases x.c
  let s := s.setChange (s.opened { x with c := c } 2)
  let s := c.granules.foldl (fun (s : State) g => s.setOwner g 0xC0) s
  let s := (setBits c.ports 32).foldl (fun (s : State) p => s.clearTables p true) s
  if c.leave || c.dissolve then s.setMember q 0 0 0 else s

/-- A MOVE_CORE opens (R314, R315): the number goes to its new physical core; with nothing to copy the move is complete. -/
def State.openMove (s : State) (x : Change) (k : Nat) : State :=
  let n := x.c.core
  let old := s.pcore n
  let new := old / 17 * 17 + k
  let bad := s.fld 0 old Reg.IDC_PCORE_STAT.STATE == 4
  let s := (s.setFld 0 new Reg.IDC_PCORE_STAT.STATE 1).setFld 0 new Reg.IDC_PCORE_STAT.LOGICAL n
  let s := if bad then s else s.setFld 0 old Reg.IDC_PCORE_STAT.STATE 3
  let s := s.setFld 0 old Reg.IDC_PCORE_STAT.LOGICAL 0
  let s := ((s.setFld 0 n Reg.IDC_CORE_MAP.K k).setFld 0 n Reg.IDC_CORE_MAP.STATE (if s.moveWaits n x.handle then 3 else 1)).dropEngTlbs n
  let y := s.opened { x with old := old, new := new } 1
  let s := s.setChange y
  if bad then s.compDone y 0 else s

/-- A QoS image that cannot be read (R237, R422): UCE-C is logged for its partition. -/
def State.qosUnread (s : State) (x : Change) (kind : Nat) : State :=
  s.logErr { ErrRec.of 1 (if kind = 6 ∨ kind = 7 then 0x09 else 0x02) with
    status := kindStatus kind, unit := unitPart x.c.part, addr := x.c.qosVa, isVa := true, part := some x.c.part }

/-- A change opens at step 7 of an edge; bytes of host memory come from `ext`. An UNBIND that shutters, and whose turn came
after step 5, does so first (R306). -/
def State.openChange (s : State) (x : Change) (ext : List Byte) : List Byte × State :=
  match s.compRefused x true with
  | some st => (ext, s.compDone x st)
  | none =>
    if s.compWaits x then (ext, s)
    else
      let s := if x.toShut then s.shutterUnbind x else s
      let x : Change := { x with shut := x.shut || x.toShut }
      let started (s : State) : State := match s.changePart x with
        | some q => s.openEpoch q
        | none => s
      let ended (s : State) : State := match s.changePart x with
        | some q => s.drainIfDone q
        | none => s
      if x.c.op = 4 then
        match s.readVa [2, x.handle] (vf x.c.part) x.c.qosVa 128 .rd ext with
        | .wait s => (ext, s)
        | .fail kind s => (ext, (s.qosUnread x kind).compDone x 0x11)
        | .ok d rest t =>
          if qosOk d then
            let t := started t
            (rest, ended ((t.setQos (vf x.c.part) d).compDone (t.opened x 1) 0))
          else (rest, t.compDone x 0x11)
      else
        let s := started s
        let s := if x.c.op = 1 then (s.bindAll x.c).compDone (s.opened x 1) 0
          else if x.c.op = 2 then s.openUnbind x
          else match s.moveTarget x with
            | some k => s.openMove x k
            | none => s
        (ext, ended s)

/-- A queued change is considered: it opens, is refused, waits, or has not become ready in time (R304, R305). -/
def State.considerChange (s : State) (handle : Nat) (ext : List Byte) : List Byte × State :=
  match s.queuedChanges.find? (·.handle == handle) with
  | some x => if s.compTurn x then s.openChange x ext else (ext, s)
  | none => (ext, s)

/-- EPOCH_OPEN (R16, R305, R307): step 7 of an edge for one change, which an earlier beat accepted. -/
def execEpochOpen (handle : Nat) (ext : List Byte) (s : State) : Host.Outcome State Fault Refusal :=
  .next (if s.changes.any fun x => x.handle == handle && x.accepted == s.tick then s else (s.considerChange handle ext).2)

/-- A change that is not ready in time completes STALLED (R304). -/
def State.stallChange (s : State) (handle : Nat) : State :=
  match s.queuedChanges.find? (·.handle == handle) with
  | some x =>
    let lim := s.fld 0 0 Reg.DCTL_COMP_CFG.DRAIN_LIM
    let due := x.c.at_ + lim ≤ s.now ∧ x.accepted + lim ≤ s.tick
    if due ∧ (s.compTurn x = false ∨ s.compRefused x true = none ∧ s.compWaits x = true) then s.compDone x 0x15 else s
  | none => s

/-- CHANGE_STALL (R304). -/
def execChangeStall (handle : Nat) (s : State) : Host.Outcome State Fault Refusal := .next (s.stallChange handle)

/-- Every queued change is considered in handle order at step 7 of an edge. -/
def State.considerAll (s : State) (ext : List Byte) : List Byte × State :=
  (s.queuedChanges.map (·.handle)).foldl (fun (a : List Byte × State) h =>
    let (e, s) := a.2.considerChange h a.1
    (e, s.stallChange h)) (ext, s)

/-! ## Drain limits (R313) and the ends of changes (R303, R314, R315) -/

/-- A core whose moves are squashed: its launch completes FENCED under FAULT_POLICY (R313). -/
def State.fenceMoves (s : State) (n : Nat) : State :=
  let l := (s.core n).launch.bind s.launch?
  let s := s.stopCore n (s.coreFn n).1
  match l with
  | some l => if l.phase = 7 then s else s.finishLaunch l 0x16 0 true
  | none => s

/-- A drain that has outlasted DRAIN_LIM is ended. -/
def State.limitDrain (s : State) (q : Nat) : State :=
  match s.drainEpoch q with
  | none => s
  | some e =>
    let age := (s.now + 2 ^ 40 - s.fld 0 q Reg.DCTL_COMP_PART1.DRAIN_BEAT) % 2 ^ 40
    if age ≤ s.fld 0 0 Reg.DCTL_COMP_CFG.DRAIN_LIM then s
    else
      let ns := (s.cores.filter fun n => (s.coreFn n.1).1 == vf q && n.2.cur.moves.any fun m => m.started && m.epoch == e).map (·.1)
      let s := ns.foldl State.fenceMoves s
      let s := (s.inbound.filter fun i => i.part == q && i.epoch == e).foldl (fun (s : State) i => s.dropInbound i 6) s
      let s := (s.logCE 0x0E 0 (unitPart q) (some q)).raise 0 0 Reg.DCTL_COMP_STAT.DRAIN_FORCED
      s.endDrain q

/-- DRAIN_LIMIT (R313). -/
def execDrainLimit (part : Nat) (s : State) : Host.Outcome State Fault Refusal := .next (s.limitDrain part)

/-- CORE_STATE_COPY_DONE (R314): the moves of a core that has opened its epoch are complete, and its state is copied. -/
def execCoreStateCopyDone (core : Nat) (s : State) : Host.Outcome State Fault Refusal :=
  .next (if (s.core core).cur.moves.isEmpty then
    { s with changes := s.changes.map fun x => if x.c.op = 3 ∧ x.phase = 1 ∧ x.c.core = core then { x with copied := true } else x }
  else s)

/-- A core whose state has been copied resumes at the next edge (R314, R315). -/
def State.endMove (s : State) (x : Change) : State :=
  (if x.rotate.isNone then s.setFld 0 x.old Reg.IDC_PCORE_STAT.STATE 2 else s).compDone x 0

/-- What completes at step 7 before ready changes are considered: moves whose state is copied, and UNBINDs whose last
granule is UNOWNED (R303, R306). -/
def State.endChanges (s : State) : State :=
  let s := (s.changes.filter fun x => x.c.op == 3 && x.phase == 1 && x.copied).foldl State.endMove s
  let ended := s.changes.filter fun x => x.phase == 3 && !(x.c.granules.any fun g => s.wipes.any fun w => w.granule == g)
  let s := ended.foldl (fun (s : State) x => s.compDone x 0) s
  (List.range 32).foldl State.emptyIfBare s

end Sys2Proof.Machine
end

