-- ==== Sys2Proof/Machine/Secure.lean ====
section
/-! DEFINITION. Lifecycle transitions (R379 to R383), the parish (R396 to R398), and attestation reports (R394, R395). -/

namespace Sys2Proof.Machine

open Sys2Proof

/-! ## Keys (R386, R387) -/

/-- A key is loaded into a slot: `attr` gives its attributes beside VALID and GEN, as R386 assigns them. -/
def State.loadKey (s : State) (k attr : Nat) (m : List Byte) : State :=
  let gen := s.fld 0 k Reg.DCTL_KEY_ATTR.GEN
  ({ s with keys := s.keys.put k m } : State).wr 0 (0x1030100 + 8 * k) (BitVec.ofNat 64 (2 ^ 63 + attr + gen))

/-- Attributes of a slot of R386: USE bits, whether it is EXP, one use where LIMITED, and TYPE. -/
def keyAttr (use : Nat) (exp limited : Bool) (typ : Nat) : Nat :=
  use * 2 ^ 58 + exp.toNat * 2 ^ 51 + limited.toNat * 2 ^ 50 + typ * 2 ^ 46 + (if limited then 2 ^ 8 else 0)

/-- Attributes of the host root of partition q. -/
def hostAttr (q : Nat) : Nat := keyAttr 2 true false 2 + 2 ^ 57 + q * 2 ^ 52

/-! ## Reports (R388, R394) -/

/-- The signature block of R388 over a message, by slots `k` and `k` + 1. -/
def State.signBlock (s : State) (k : Nat) (m : List Byte) : List Byte :=
  fixed 384 (Config.sign (s.keyOf k) m) ++ fixed 16224 (Config.sign (s.keyOf (k + 1)) m)

/-- The parish ID, 16 bytes, zero when there is none. -/
def State.parishId (s : State) : List Byte := leBytes 8 (s.rd 0 0x1030400).toNat ++ leBytes 8 (s.rd 0 0x1030408).toNat

/-- The section of a partition in a report (R394), as the state stands. -/
def State.partSection (s : State) (q : Nat) : List Byte :=
  let fn := vf q
  let gs := s.ownedGranules q
  let prog := s.progs.get ProgLog.fresh fn
  let objs := s.shared.filter fun x => x.fn == fn
  let flags := s.fld fn 0 Reg.DSTP_ATTEST.WI + 2 * s.fld fn 0 Reg.DSTP_ATTEST.PROG_OVF
    + 4 * (bitOf (s.fld 0 0 Reg.DCTL_PARISH2.PARTS) q).toNat
  leBytes 1 q ++ leBytes 1 flags ++ leBytes 1 (s.fld 0 q Reg.DCTL_COMP_PART0.CUR_EPOCH)
    ++ leBytes 1 (s.fld fn 0 Reg.PCTL_MEM_CARVE2.COMMONS_TIB) ++ leBytes 2 (s.vdOf q)
    ++ leBytes 1 (s.fld 0 q Reg.DCTL_COMP_PART0.MEMBER) ++ [0] ++ leBytes 64 (maskOf (s.ownedCores q))
    ++ leBytes 2 (maskOf (gs.filter (· < 16))) ++ leBytes 6 (maskOf ((gs.filter fun g => 16 ≤ g && g < 64).map (· - 16)))
    ++ leBytes 2 (maskOf ((gs.filter (64 ≤ ·)).map (· - 64))) ++ leBytes 4 (maskOf (s.boundPorts q))
    ++ leBytes 4 (s.fld fn 0 Reg.PCTL_COMP_SEQ.SEQ) ++ leBytes 1 prog.digests.length ++ leBytes 1 objs.length
    ++ List.replicate 4 0 ++ fixed 48 prog.acc
    ++ prog.digests.flatMap (fun (d : List Byte × Nat) => fixed 48 d.1 ++ leBytes 4 d.2)
    ++ objs.flatMap fun x => leBytes 2 (s.fld 0 x.tw Reg.DCTL_TWIN0.OBJECT) ++ leBytes 1 (s.fld 0 x.tw Reg.DCTL_TWIN0.DAMAGED)
        ++ [0] ++ fixed 48 ((s.ledgers.find? x.tw).elim (Config.document 4 x.tw) (·.root))

/-- The sections that reports of the coming beat give (R394, R403): those of the ACTIVE partitions as the beat closes. -/
def State.latchSections (s : State) : State :=
  let qs := (List.range 32).filter fun q => s.fld 0 q Reg.DCTL_COMP_PART0.STATE == 1
  { s with sec := { s.sec with closed := qs.map fun q => (q, s.partSection q) } }

/-- A report (R394): scope 1 the device, 2 one partition. BEAT is the beat that closed last. -/
def State.report (s : State) (scope : Nat) (only : Option Nat) (nonce : List Byte) : List Byte × State :=
  let secs := s.sec.closed.filter fun (e : Nat × List Byte) => match only with
    | some q => e.1 == q
    | none => true
  let body := secs.flatMap fun (e : Nat × List Byte) => e.2
  let (beat, s) := s.closedBeat
  let head := ascii "YXAR" ++ leBytes 2 1 ++ leBytes 2 scope ++ leBytes 4 (128 + 432 + body.length + 16608)
    ++ leBytes 2 (s.fld 0 0 Reg.IDC_ID.VARIANT) ++ leBytes 1 (s.fld 0 0 Reg.DCTL_LIFE.STATE) ++ leBytes 1 secs.length
    ++ serial ++ fixed 48 nonce ++ leBytes 6 beat ++ leBytes 2 (s.fld 0 0 Reg.DCTL_NODE.NODE)
    ++ leBytes 4 (s.fld 0 0 Reg.DCTL_LIFE.BOOTS) ++ s.parishId ++ List.replicate 20 0
  let msg := head ++ shaBytes (Config.document 3 0) ++ (List.range 8).flatMap s.imageDigest ++ body
  (msg ++ s.signBlock 2 msg, s)

/-- A write of DSTP_ATTEST (R395): it names the buffer, and a VF asks for a report unless one is asked for already. -/
def State.writeAttest (s : State) (fn v : Nat) : State :=
  let s := s.setFld fn 0 Reg.DSTP_ATTEST.BUF (bits v 15 37)
  let s := if bitOf v 1 then s.setFld fn 0 Reg.DSTP_ATTEST.DONE 0 else s
  if bitOf v 0 ∧ fn ≠ 0 ∧ s.fld fn 0 Reg.DSTP_ATTEST.GO = 0 then
    let s := s.setFld fn 0 Reg.DSTP_ATTEST.GO 1
    { s with sec := { s.sec with asked := s.sec.asked ++ [fn] } }
  else s

/-- ATTEST_GO (R395). -/
def execAttestGo (fn : Nat) (v : U64) (s : State) : Host.Outcome State Fault Refusal := .next (s.writeAttest fn v.toNat)

/-- ATTEST_REPORT_DONE (R395): the report asked for first is written over its buffer, whose first 48 bytes gave the nonce. -/
def execAttestReportDone (fn : Nat) (nonce : BitVec 384) (s : State) : Host.Outcome State Fault Refusal :=
  .next (if s.sec.asked.head? = some fn then
    let (bytes, s) := s.report 2 (some (fn - 1)) (leBytes 48 nonce.toNat)
    let s := s.send (.host (s.fld fn 0 Reg.DSTP_ATTEST.BUF * 32768) bytes)
    let s : State := { s with sec := { s.sec with asked := s.sec.asked.tail } }
    (s.setFld fn 0 Reg.DSTP_ATTEST.GO 0).raise fn 0 Reg.DSTP_ATTEST.DONE
  else s)

/-! ## Lifecycle requests (R381, R382) -/

/-- LIFE_CHALLENGE (R381): a fresh challenge replaces the one before. -/
def execLifeChallenge (sess req : Nat) (s : State) : Host.Outcome State Fault Refusal :=
  .next (s.kmcRequest sess 0x0020 req fun s =>
    let c := Config.entropy s.free
    (0, leBytes 32 c.toNat, { s with free := s.free + 1, sec := { s.sec with challenge := some c } }))

/-- Whether a transition is permitted to its signer (R381): 1 Epunide, 2 the recorded owner. -/
def lifePermitted (present target signer : Nat) (owner : Bool) : Bool :=
  let epunide := signer == 1
  let either := epunide || (signer == 2 && owner)
  (present == 0 && target == 1 && epunide) || (present == 1 && target == 2 && epunide)
    || (present == 2 && target == 3 && epunide) || (present == 3 && target == 4 && either)
    || (present != 5 && target == 5 && either)

/-- Whether the checks common to every authorisation pass: serial, state, this request's challenge, both signatures. -/
def State.authOk (s : State) (a : LifeAuth) : Bool :=
  a.serialOk && a.sigsOk && a.fresh && s.sec.challenge == some a.challenge && a.present == s.fld 0 0 Reg.DCTL_LIFE.STATE

/-- A transition that was accepted begins once no firmware update is open (R382, R403, R494): its device resets itself, at
once where it has not been released. -/
def State.startLife (s : State) : State :=
  if s.sec.life.isNone ∨ s.sec.busy ∨ s.kmc.fw.isSome then s
  else
    let t : State := { s with sec := { s.sec with busy := true } }
    if s.inService then t.decideReset 8 0 false false 1
    else if s.boot.stop = 2 then t.flushLog.finishLife.coldStart 2
    else s

/-- LIFE_AUTH (R381, R382): AUTH_DENIED, BUSY beside another, or accepted, to be answered when the fuses are blown. -/
def execLifeAuth (sess req : Nat) (a : LifeAuth) (s : State) : Host.Outcome State Fault Refusal :=
  .next (match s.session? sess with
  | none => s
  | some k =>
    if 64 ≤ k.reqs.length ∨ s.sec.life.isSome then s.enterReq sess 0x0021 req (some (0x22, []))
    else
      let ok := s.authOk a && lifePermitted a.present a.target a.signer (s.fld 0 0 Reg.DCTL_LIFE.OWNER == 1)
      let s : State := if s.sec.challenge = some a.challenge then { s with sec := { s.sec with challenge := none } } else s
      if ok then
        let s := s.enterReq sess 0x0021 req none
        ({ s with sec := { s.sec with life := some (sess, req, a) } } : State).startLife
      else s.enterReq sess 0x0021 req (some (0x21, [])))

/-! ## Enrolment (R396, R397) -/

/-- An enrolment that installs no keys ends: slots 40 to 43 are destroyed (R396). -/
def State.dropEnrol (s : State) : State :=
  let s := [40, 41, 42, 43].foldl State.destroySlot s
  ({ s with sec := { s.sec with enrol := none } } : State).setFld 0 0 Reg.DCTL_PARISH2.STATE 0

/-- PARISH_ENROL (R396 steps 1 and 2): fresh keys in slots 40 and 41, and a report over them. A port that the module lacks is
UNSUPPORTED before any other state counts, in the order of R346 (R2, R488). -/
def execParishEnrol (sess req : Nat) (m : EnrolMsg) (s : State) : Host.Outcome State Fault Refusal :=
  .next (s.kmcRequest sess 0x0030 req fun s =>
    if s.sec.busy then (0x22, [], s)
    else if (setBits m.ports.toNat 32).any fun p => !bitOf (s.fld 0 0 Reg.IDC_CAP0.PORT_MASK) p then (0x1F, [], s)
    else if s.fld 0 0 Reg.DCTL_LIFE.STATE ≠ 3 ∨ s.fld 0 0 Reg.DCTL_PARISH2.STATE ≠ 0 then (0x11, [], s)
    else
      let id := leBytes 16 m.parish.toNat
      let k := s.free
      let s : State := { s with free := k + 2 + 97 + 1184 }
      let s := s.loadKey 40 (keyAttr 2 true true 5) (leBytes 32 (Config.entropy k).toNat)
      let s := s.loadKey 41 (keyAttr 2 true true 6) (leBytes 32 (Config.entropy (k + 1)).toNat)
      let pub := freeBytes (k + 2) 97
      let kem := freeBytes (k + 99) 1184
      let (r, s) := s.report 1 none (shaBytes (id ++ leBytes 48 m.nonce.toNat ++ pub ++ kem))
      let e : Enrol := { parish := id, parts := m.parts.toNat, ports := m.ports.toNat, start := m.start, report := r, keyed := false }
      let s : State := { s with sec := { s.sec with enrol := some e } }
      (0, r ++ pub ++ kem, s.setFld 0 0 Reg.DCTL_PARISH2.STATE 1))

/-- The keys of an enrolment from its PMS (R385, R386): link key and host roots. -/
def State.installKeys (s : State) (e : Enrol) (pms : List Byte) : State :=
  let s := s.loadKey 42 (keyAttr 2 true false 2) pms
  let s := [40, 41, 43].foldl State.destroySlot s
  let s := s.loadKey 7 (keyAttr 24 true false 1) (kdf pms "YX-LINK" e.parish 32)
  let node := beBytes 2 (s.fld 0 0 Reg.DCTL_NODE.NODE)
  let s := (setBits e.parts 32).foldl (fun (s : State) q =>
    s.loadKey (8 + q) (hostAttr q) (kdf pms "YX-HOST" (e.parish ++ node ++ beBytes 1 q) 48)) s
  let s := (List.range 32).foldl (fun (s : State) p => s.setPort p { s.port p with base := 0, used := 0, linkTx := 0, linkRx := 0 }) s
  { s with sec := { s.sec with enrol := some { e with keyed := true } } }

/-- PARISH_KEYS (R396 step 4): the PMS is opened under KEK, and the parish's keys are derived. -/
def execParishKeys (sess req : Nat) (m : KeysMsg) (s : State) : Host.Outcome State Fault Refusal :=
  .next (s.kmcRequest sess 0x0031 req fun s =>
    if m.ecdh.length ≠ 97 ∨ m.ct.length ≠ 1088 ∨ m.iv.length ≠ 12 ∨ m.wrapped.length ≠ 64 then (0x20, [], s)
    else match s.sec.enrol with
      | none => (0x11, [], s)
      | some e =>
        if e.keyed then (0x11, [], s)
        else if e.start ≤ s.now then (0x11, [], s.dropEnrol)
        else
          let secret := Config.agree (s.keyOf 40) m.ecdh ++ Config.agree (s.keyOf 41) m.ct
          let kek := kdf secret "YX-KEK" (shaBytes (e.report ++ m.ecdh ++ m.ct)) 32
          let s := s.loadKey 43 (keyAttr 8 true true 1) kek
          match Config.gcmOpen kek m.iv (e.parish ++ leBytes 2 (s.fld 0 0 Reg.DCTL_NODE.NODE)) m.wrapped with
          | some pms => (0, [], s.installKeys e pms)
          | none => (0x11, [], s.dropEnrol))

/-- A partition enters the parish (R399, R400): its sessions and queue generations start afresh. -/
def State.enterParish (s : State) (q : Nat) : State :=
  let fn := vf q
  let s := s.setFld 0 0 Reg.DCTL_PARISH2.PARTS (s.fld 0 0 Reg.DCTL_PARISH2.PARTS ||| 2 ^ q)
  let s := s.setFld fn 0 Reg.DSTP_ATTEST.PARISH 1
  let s := (List.range 256).foldl (fun (s : State) c =>
    (s.setFld fn c Reg.DSTP_SESSION.SGEN 0).setFld fn c Reg.DSTP_SESSION.PARISH 1) s
  (List.range 64).foldl (fun (s : State) i => s.setFld fn i Reg.DSTP_QGEN.QGEN 0) s

/-- A port is sealed (R265, R420): an ACTIVE one retrains from step 4 once its replay buffer is empty. -/
def State.sealPort (s : State) (p : Nat) : State :=
  let s := s.setFld 0 p Reg.DCTL_LYS_PCFG.SEALED 1
  if s.portUp p then (s.setPort p { s.port p with reseal := true }).resealDue p else s

/-- The start edge of an enrolment (R396 step 5), after ready changes have opened (R403), and joins that are due (R397). -/
def State.parishStart (s : State) : State :=
  let s := match s.sec.enrol with
    | none => s
    | some e =>
      if s.now < e.start then s
      else if !e.keyed then s.dropEnrol
      else
        let s : State := { s with sec := { s.sec with enrol := none } }
        let s := (s.wr 0 0x1030400 (BitVec.ofNat 64 (leField e.parish 0 8))).wr 0 0x1030408 (BitVec.ofNat 64 (leField e.parish 8 8))
        let s := s.setFld 0 0 Reg.DCTL_PARISH2.STATE 2
        let s := (setBits e.parts 32).foldl State.enterParish s
        (setBits e.ports 32).foldl State.sealPort s
  let due := s.sec.adds.filter fun (x : Nat × Nat) => x.2 ≤ s.now
  let s : State := { s with sec := { s.sec with adds := s.sec.adds.filter fun (x : Nat × Nat) => !decide (x.2 ≤ s.now) } }
  due.foldl (fun (s : State) (x : Nat × Nat) => s.enterParish x.1) s

/-- PARISH_START (R396). -/
def execParishStart (s : State) : Host.Outcome State Fault Refusal := .next s.parishStart

/-- PARISH_ADD (R397): an ACTIVE partition joins a running parish at a named edge. -/
def execParishAdd (sess req part edge : Nat) (s : State) : Host.Outcome State Fault Refusal :=
  .next (s.kmcRequest sess 0x0032 req fun s =>
    if 32 ≤ part then (0x20, [], s)
    else if s.sec.busy then (0x22, [], s)
    else if s.fld 0 0 Reg.DCTL_PARISH2.STATE ≠ 2 ∨ s.fld 0 part Reg.DCTL_COMP_PART0.STATE ≠ 1
        ∨ bitOf (s.fld 0 0 Reg.DCTL_PARISH2.PARTS) part ∨ s.fld 0 (8 + part) Reg.DCTL_KEY_ATTR.VALID = 1 then (0x11, [], s)
    else
      let root := kdf (s.keyOf 42) "YX-HOST" (s.parishId ++ beBytes 2 (s.fld 0 0 Reg.DCTL_NODE.NODE) ++ beBytes 1 part) 48
      let s := s.loadKey (8 + part) (hostAttr part) root
      (0, [], { s with sec := { s.sec with adds := s.sec.adds ++ [(part, edge)] } }))

/-- PARISH_LEAVE (R398). -/
def execParishLeave (sess req : Nat) (s : State) : Host.Outcome State Fault Refusal :=
  .next (s.kmcRequest sess 0x0033 req fun s =>
    if s.fld 0 0 Reg.DCTL_PARISH2.STATE = 2 then (0, [], s.endParish) else (0x11, [], s))

end Sys2Proof.Machine
end

