-- ==== Sys2Proof/Machine/KeyRoll.lean ====
section
/-! DEFINITION. The tier-2 key roll (R413 to R417, R421). -/

namespace Sys2Proof.Machine

open Sys2Proof

/-- Groups of a controller. -/
def rollGroups : Nat := 2 ^ 25

/-- ROLL_REQ (R414): PF0 asks for a roll. -/
def execRollReq (s : State) : Host.Outcome State Fault Refusal :=
  .next (s.requestRoll.setFld 0 0 Reg.DCTL_T2SEC_CTL.ROLL_REQ 1)

/-- ROLL_TIMER (R414): ROLL_H hours have passed since the last roll, or since release. -/
def execRollTimer (s : State) : Host.Outcome State Fault Refusal := .next s.requestRoll

/-- A requested roll starts at an edge (R414): a fresh key in slot 6, and an empty tree in the other half. -/
def State.startRoll (s : State) : State :=
  if s.rollWant = false ∨ s.rolling then s
  else
    let ms := (List.range 16).filter fun m =>
      s.fld 0 (12 + m) Reg.DCTL_MEMSTAT.PRESENT == 1 && s.fld 0 m Reg.DCTL_T2ROLL.STATE != 2
    let k := Config.entropy s.free
    let s : State := { s with rollWant := false, free := s.free + 1 }
    let s := s.loadKey 6 (keyAttr 25 false false 1) (leBytes 32 k.toNat)
    let s := (s.setFld 0 0 Reg.DCTL_T2SEC_CTL.ROLL_REQ 0).setFld 0 0 Reg.DCTL_T2SEC_STAT.STATE 1
    ms.foldl (fun (s : State) m =>
      let new := 2 * m + (1 - s.fld 0 m Reg.DCTL_T2ROLL.HALF)
      let s := (s.setFld 0 m Reg.DCTL_T2ROLL.STATE 1).setFld 0 m Reg.DCTL_T2ROLL.THR 0
      { s with
        t2node := s.t2node.filter fun (e : Nat × Nat) => e.1 / 2 ^ 30 != new
        t2cache := s.t2cache.filter fun (e : Nat × List Nat) => e.1 / 2 ^ 30 != new }) s

/-- KEY_ROLL_START (R414). -/
def execKeyRollStart (s : State) : Host.Outcome State Fault Refusal := .next s.startRoll

/-- One group under the new key (R414 step 3): its granules count 1, and its leaf hangs in the other half. -/
def State.rollGroup (s : State) (m : Nat) : State :=
  let j := s.fld 0 m Reg.DCTL_T2ROLL.THR
  let h := s.fld 0 m Reg.DCTL_T2ROLL.HALF
  let first := (0x20000000000 + m * 0x2000000000 + 4096 * j) / 512
  let s : State := { s with
    t2ctr := s.t2ctr.filter fun (e : Nat × Nat) => !(decide (first ≤ e.1) && decide (e.1 < first + 8))
    t2cache := s.t2cache.del (nodeKey m h 1 j) }
  let s := (s.nodeLookup 9 (nodeKey m (1 - h) 1 j)).writeBack (nodeKey m (1 - h) 1 j)
  s.setFld 0 m Reg.DCTL_T2ROLL.THR (j + 1)

/-- Whether a controller rolls now: it waits while its unit is stopped, and during a device reset (R421). -/
def State.rollGoes (s : State) (m : Nat) : Bool :=
  s.rolling && s.fld 0 m Reg.DCTL_T2ROLL.STATE == 1 && decide (s.fld 0 m Reg.DCTL_T2ROLL.THR < rollGroups)
    && !s.memStopped (12 + m) && !s.resets.any fun r => decide (7 ≤ r.domain) && decide (1 ≤ r.phase)

/-- ROLL_GROUP (R414, R421): the engine reads a group under the old key, `auth` its outcome. A granule that fails twice is
poisoned and the roll goes on; a node that fails twice ends the controller's part. -/
def execRollGroup (ctl : Nat) (auth : Auth) (s : State) : Host.Outcome State Fault Refusal :=
  .next (if s.rollGoes ctl then
    let (k, s) := s.draw
    let pa := 0x20000000000 + ctl * 0x2000000000 + 4096 * s.fld 0 ctl Reg.DCTL_T2ROLL.THR + 512 * (k % 8)
    let twin := s.twinAt pa
    let s := (s.leafLookup pa).authRead pa auth twin false (twin.any fun t => s.copyGood t.2.2) 0
    if s.fld 0 ctl Reg.DCTL_T2ROLL.STATE = 1 then s.rollGroup ctl else s
  else s)

/-- A roll ends when every rolling controller has passed its last group (R414 step 5). -/
def State.endRoll (s : State) : State :=
  let ms := (List.range 16).filter fun m => s.fld 0 m Reg.DCTL_T2ROLL.STATE == 1
  if s.rolling = false ∨ ms.any fun m => s.fld 0 m Reg.DCTL_T2ROLL.THR != rollGroups then s
  else
    let new (n : Nat) : Bool := ms.any fun m => n / 2 ^ 30 == 2 * m + (1 - s.fld 0 m Reg.DCTL_T2ROLL.HALF)
    let s := (List.range 10).foldl (fun (s : State) l =>
      ((s.t2cache.filter fun (e : Nat × List Nat) => !e.2.isEmpty && nodeLevel e.1 == l && new e.1).map (·.1)).foldl State.writeBack s) s
    let key := s.keyOf 6
    let s := (s.destroySlot 5).loadKey 5 (keyAttr 25 false false 1) key
    let s := s.destroySlot 6
    let s := ms.foldl (fun (s : State) m =>
      let s := s.setFld 0 m Reg.DCTL_T2ROLL.HALF (1 - s.fld 0 m Reg.DCTL_T2ROLL.HALF)
      { s.setFld 0 m Reg.DCTL_T2ROLL.STATE 0 with t2base := s.t2base.del m }) s
    let s := (List.range 16).foldl (fun (s : State) m => s.setFld 0 m Reg.DCTL_T2ROLL.THR 0) s
    let s := (s.setFld 0 0 Reg.DCTL_T2SEC_STAT.LAST_ROLL s.now).modAdd 0 0 Reg.DCTL_T2SEC_STAT.ROLLS 1
    (s.setFld 0 0 Reg.DCTL_T2SEC_STAT.STATE (if s.rollWant then 2 else 0)).raise 0 0 Reg.DCTL_T2SEC_STAT.ROLL_DONE

/-- ROLL_COMPLETE (R414). -/
def execRollComplete (s : State) : Host.Outcome State Fault Refusal := .next s.endRoll

end Sys2Proof.Machine
end

