-- ==== Sys2Proof/Machine/Power.lean ====
section
/-! DEFINITION. Power and thermal control (R442 to R460), energy and the samplers of an edge (R336, R459), and degradation
(R151, R449). -/

namespace Sys2Proof.Machine

open Sys2Proof

/-! ## Power states (R442 to R444) -/

/-- A power state is asked for, in place of one asked for before. -/
def State.askPower (s : State) (st : Nat) : State :=
  if s.inService then
    { s with deferred := (s.deferred.filter fun d => match d with
        | .power _ => false
        | _ => true) ++ [.power st] }
  else s

/-- RUN (R442). -/
def execRun (s : State) : Host.Outcome State Fault Refusal := .next (s.askPower 3)

/-- PARKED (R442). -/
def execParked (s : State) : Host.Outcome State Fault Refusal := .next (s.askPower 4)

/-- The device goes to OFF (R444): it shutters itself as a device cold reset, after which its rails are removed. -/
def State.goOff (s : State) (error : Bool) : State :=
  ({ s with pow := { s.pow with off := true } } : State).decideReset 8 0 false error 1

/-- OFF (R444). -/
def execOff (s : State) : Host.Outcome State Fault Refusal := .next (if s.inService then s.goOff false else s)

/-- A request for a state applies at step 6 (R442, R443): RUN from READY or PARKED; PARKED from RUN, once no launch runs. -/
def State.applyPower (s : State) : State :=
  let now := s.fld 0 0 Reg.PWR_STAT.STATE
  let others := s.deferred.filter fun d => match d with
    | .power _ => false
    | _ => true
  match s.deferred.findSome? fun d => match d with
    | .power st => some st
    | _ => none with
  | none => s
  | some 3 =>
    let s : State := { s with deferred := others }
    if now = 2 ∨ now = 4 then s.setFld 0 0 Reg.PWR_STAT.STATE 3 else s
  | some _ =>
    if now ≠ 3 then { s with deferred := others }
    else if s.launches.any fun l => decide (1 ≤ l.phase) then s
    else ({ s with deferred := others } : State).setFld 0 0 Reg.PWR_STAT.STATE 4

/-! ## Switchable domains (R445 to R447) -/

/-- Whether a request to gate a domain is refused (R446). -/
def State.gateRefused (s : State) (i : Nat) : Bool :=
  let d := i / 24
  let j := i % 24
  let held (g : Nat) : Bool := s.granState g != 0
  if j < 16 then (List.range 512).any fun n =>
      s.fld 0 n Reg.IDC_CORE_MAP.STATE != 0 && s.fld 0 n Reg.IDC_CORE_MAP.DIE == d && s.fld 0 n Reg.IDC_CORE_MAP.CLUSTER == j
        && (s.fld 0 n Reg.IDC_CORE_MAP.OWNED == 1 || s.kmc.cores.getLsbD n || (s.core n).launch.isSome)
  else if j < 20 then (List.range 4).any fun k => s.fld 0 (16 * d + 4 * (j - 16) + k) Reg.DCTL_LYS_PCFG.BOUND == 1
  else if j < 22 then (List.range 12).any fun k => held (16 + 4 * (6 * d + 3 * (j - 20)) + k)
  else if j = 22 then (List.range 8).any fun k => held (64 + 8 * d + k)
  else false

/-- A domain is gated: an optical engine's ports leave ACTIVE and its interlock opens. -/
def State.gateDomain (s : State) (i : Nat) : State :=
  let s := s.setFld 0 0 ⟨0x100018, 0, i, 1⟩ 1
  let s : State := { s with pow := { s.pow with waking := s.pow.waking.filter (· != i) } }
  if 16 ≤ i % 24 ∧ i % 24 < 20 then s.openLoop (4 * (i / 24) + (i % 24 - 16)) else s

/-- A domain is ungated: it wakes, or an optical engine's loop may close and its ports train. -/
def State.ungateDomain (s : State) (i : Nat) : State :=
  let s := s.setFld 0 0 ⟨0x100018, 0, i, 1⟩ 0
  if 16 ≤ i % 24 ∧ i % 24 < 20 then s.closeLoop (4 * (i / 24) + (i % 24 - 16))
  else { s with pow := { s.pow with waking := s.pow.waking ++ [i] } }

/-- A write of PWR_DOM_CTL takes effect at step 6 (R446, R447). -/
def State.applyGates (s : State) (v : U64) : State :=
  (List.range 48).foldl (fun (s : State) i =>
    let want := bitOf v.toNat i
    let off := s.fld 0 0 ⟨0x100018, 0, i, 1⟩ == 1
    if want && !off then
      (if s.gateRefused i then s.raise 0 0 Reg.PWR_DOM_STAT.REFUSED else s.gateDomain i)
    else if !want && off then s.ungateDomain i
    else s) (s.wr 0 0x100010 (BitVec.ofNat 64 (bits v.toNat 0 48)))

/-- DOMAIN_WAKE_COMPLETE (R447). -/
def execDomainWakeComplete (domain : Nat) (s : State) : Host.Outcome State Fault Refusal :=
  .next { s with pow := { s.pow with waking := s.pow.waking.filter (· != domain) } }

/-! ## The clock, and what acts at once (R450, R452, R457) -/

/-- Core-rail voltage of a die's table for a clock step, mV (R457). -/
def State.railMv (s : State) (d step : Nat) : Nat := bits (s.rd 0 (0x100200 + 8 * d)).toNat (12 * (4 - step)) 12

/-- The regulators of both core rails are commanded to a step's voltage (R457). Pins 16 and 17 are the core rails, in mV. -/
def State.orderVolts (s : State) (step : Nat) : State := (s.send (.pin 16 (s.railMv 0 step))).send (.pin 17 (s.railMv 1 step))

/-- The A-clock takes a step: downward with CLK_EVT and its voltage after it. Below 500 MHz a slice is abandoned (R465). -/
def State.setClock (s : State) (step : Nat) : State :=
  let old := s.fld 0 0 Reg.PWR_STAT.CLK
  let s := s.setFld 0 0 Reg.PWR_STAT.CLK step
  let s := if 2 < step then (List.range 2).foldl State.abandonSlice s else s
  if old < step then (s.raise 0 0 Reg.PWR_STAT.CLK_EVT).orderVolts step else s

/-- T_HOT (R452): both dies drop to 350 MHz and D = 4 at once. -/
def execTHot (die temp : Nat) (s : State) : Host.Outcome State Fault Refusal :=
  .next (if s.inService ∧ s.fld 0 0 Reg.PWR_TCFG.T_HOT ≤ temp then
    let s := s.raise 0 0 Reg.PWR_STAT.HOT_EVT
    let s : State := { s with pow := { s.pow with up := none } }
    let s := (s.setClock 4).setFld 0 0 Reg.PWR_STAT.DUTY 4
    s.logErr { ErrRec.of 4 0x10 with unit := 0x5000 + die }
  else s)

/-- T_TRIP (R452, R500): FATAL is logged and alarmed, and the device goes to OFF. -/
def execTTrip (die temp : Nat) (s : State) : Host.Outcome State Fault Refusal :=
  .next (if s.inService ∧ s.fld 0 0 Reg.PWR_TCFG.T_TRIP ≤ temp then
    let s := s.logErr { ErrRec.of 3 0x10 with unit := 0x5000 + die }
    let cause := s.log.recs.getLast?.map fun r => (r.cls, r.seq)
    let s := ((List.range 32).filter fun q => s.vdOf q != 0).foldl (fun (s : State) q =>
      s.raiseAlarm 1 3 (s.vdOf q) none 8) (s.setFault 0xA)
    (s.goOff true).dueDump cause
  else s)

/-! ## Droop (R456) -/

/-- DROOP_DETECT (R456): a cluster's A-cycles stretch, and a slice on it is abandoned (R465). -/
def execDroopDetect (cluster : Nat) (s : State) : Host.Outcome State Fault Refusal :=
  .next (if s.pow.droop.contains cluster then s
  else
    let d := cluster / 16
    let s := if s.pow.drooped.isEmpty then s.raise 0 0 Reg.PWR_STAT.DROOP_EVT else s
    let s := (s.satAdd 0 d Reg.PWR_DROOP.COUNT 1).logCE 0x10 0 (0x5000 + d) none
    let s : State := { s with
      pow := { s.pow with droop := s.pow.droop ++ [cluster], drooped := if s.pow.drooped.contains d then s.pow.drooped else s.pow.drooped ++ [d] } }
    if s.fld 0 d Reg.DCTL_ROT_STAT.CLUSTER = cluster % 16 then s.abandonSlice d else s)

/-- DROOP_RECOVER (R456). -/
def execDroopRecover (cluster : Nat) (s : State) : Host.Outcome State Fault Refusal :=
  .next { s with pow := { s.pow with droop := s.pow.droop.filter (· != cluster) } }

/-- The droop of a beat that begins (R456): clusters that are stretched as it opens make it a beat with a stretch, with its
event and one CE for each die. -/
def State.droopEdge (s : State) : State :=
  let dies := (List.range 2).filter fun d => s.pow.droop.any fun c => c / 16 == d
  let s : State := { s with pow := { s.pow with drooped := dies } }
  if dies.isEmpty then s
  else dies.foldl (fun (s : State) d => s.logCE 0x10 0 (0x5000 + d) none) (s.raise 0 0 Reg.PWR_STAT.DROOP_EVT)

/-! ## Phase hints (R455) -/

/-- HEAVY (R455). -/
def execHeavy (lead level : Nat) (s : State) : Host.Outcome State Fault Refusal :=
  .next (if lead = 0 then s else s.hint false lead level)

/-- LIGHT (R455). -/
def execLight (lead : Nat) (s : State) : Host.Outcome State Fault Refusal :=
  .next (if lead = 0 then s else s.hint true lead 0)

/-- The cap in force (R448). The package sustains no more than 2,400 W whatever the registers hold (R14, log 71). -/
def State.capEff (s : State) : Nat := min 2400 (min (s.fld 0 0 Reg.PWR_CAP.CAP) (s.fld 0 0 Reg.PWR_CAP.CAP_MAX))

/-- The target of a hint's level, W. -/
def State.hintTarget (s : State) (level : Nat) : Nat :=
  s.capEff * (if level = 0 then 4 else if level = 1 then 6 else if level = 2 then 8 else 9) / 10

/-- The hints at an edge (R455): the ballast of the highest pending target, the regulators' mode, and hints that have passed.
Pin 18 is the high-current mode. -/
def State.hintEdge (s : State) (p : Nat) : State :=
  let slew := s.fld 0 0 Reg.PWR_CAP.SLEW
  let heavy := s.hints.filter fun h => !h.light && decide (s.tick < h.edge)
  let best := heavy.foldl (fun (b : Option Hint) h => match b with
    | some x => if s.hintTarget x.level < s.hintTarget h.level then some h else some x
    | none => some h) none
  let ballast := match best with
    | some h =>
      let target := s.hintTarget h.level
      if 0 < slew ∧ s.fld 0 0 Reg.PWR_CAP.BALLAST_EN = 1 ∧ p < target ∧ h.edge ≤ s.tick + ceilDiv (target - p) slew then
        s.pow.ballast + min slew (target - p)
      else s.pow.ballast
    | none => 0
  let high := s.hints.any fun h => !h.light && decide (h.edge ≤ s.tick + 1)
  let low := s.hints.any fun h => h.light && decide (h.edge ≤ s.tick)
  let mode := if high then true else if low then false else s.pow.heavy
  let t : State := { s with
    hints := s.hints.filter fun h => decide (s.tick < h.edge)
    pow := { s.pow with ballast := ballast, heavy := mode } }
  if mode = s.pow.heavy then t else t.send (.pin 18 mode.toNat)

/-! ## Degradation (R151 to R153) -/

/-- The launches that may run degraded: their floor is MXFP8, and they run. -/
def State.degradable (s : State) : List Nat := (s.launches.filter fun l => l.floor == 1 && l.phase == 1).map (·.id)

/-- The launches that run degraded in the coming beat are decided, and shown (R151, R153). -/
def State.decideDeg (s : State) (taken : Bool) : State :=
  let old := s.pow.deg.getD []
  let new := if taken then s.degradable else []
  let fns := (s.launches.filter fun l => new.contains l.id).map (·.fn)
  let s : State := { s with pow := { s.pow with deg := if taken then some new else none } }
  let s := (s.launches.filter fun l => new.contains l.id && !old.contains l.id).foldl (fun (s : State) l =>
    (s.raise l.fn 0 Reg.PCTL_NUM_STAT.DEGRADED).intc l.fn 4) s
  let s := (List.range 33).foldl (fun (s : State) fn => s.setFld fn 0 Reg.PCTL_NUM_STAT.DEG_NOW (fns.contains fn).toNat) s
  s.setFld 0 0 Reg.PWR_STAT.DEG (!new.isEmpty).toNat

/-! ## The controller (R448 to R453) -/

/-- The lowest step that brings the power within its bound, counted from the one below the step in force (R449). -/
def stepDown (p allow now floor : Nat) : Nat → Nat → Nat
  | 0, k => k
  | n + 1, k => if k < floor ∧ allow * clockMHz now < p * clockMHz k then stepDown p allow now floor n (k + 1) else k

/-- One stage of R449 is taken: the clock, then precision, then issue duty. -/
def State.reducePower (s : State) (p allow : Nat) : State :=
  let s : State := { s with pow := { s.pow with up := none } }
  let clk := s.fld 0 0 Reg.PWR_STAT.CLK
  let floor := min 4 (s.fld 0 0 Reg.PWR_CAP.CLK_FLOOR)
  let duty := s.fld 0 0 Reg.PWR_STAT.DUTY
  if clk < floor then
    ((s.setClock (stepDown p allow clk floor 4 (clk + 1))).decideDeg s.pow.deg.isSome).raise 0 0 Reg.PWR_STAT.CAP_EVT
  else if s.pow.deg.isNone && !s.degradable.isEmpty then (s.decideDeg true).raise 0 0 Reg.PWR_STAT.CAP_EVT
  else
    let s := s.decideDeg s.pow.deg.isSome
    if 4 < duty then (s.setFld 0 0 Reg.PWR_STAT.DUTY (duty - 1)).raise 0 0 Reg.PWR_STAT.CAP_EVT else s

/-- One stage is released (R450): duty, then precision, then the clock, which rises one edge later. -/
def State.releasePower (s : State) (p allow : Nat) (cool : Bool) : State :=
  let s : State := match s.pow.up with
    | some k => ({ s with pow := { s.pow with up := none } } : State).setClock k
    | none => s
  let clk := s.fld 0 0 Reg.PWR_STAT.CLK
  let duty := s.fld 0 0 Reg.PWR_STAT.DUTY
  let room := allow - s.fld 0 0 Reg.PWR_CAP.HYST
  let s := s.decideDeg s.pow.deg.isSome
  if !cool || decide (allow < p + s.fld 0 0 Reg.PWR_CAP.HYST) then s
  else if duty < 8 then s.setFld 0 0 Reg.PWR_STAT.DUTY (duty + 1)
  else if s.pow.deg.isSome then s.decideDeg false
  else if 0 < clk ∧ p * clockMHz (clk - 1) ≤ room * clockMHz clk then
    ({ s with pow := { s.pow with up := some (clk - 1) } } : State).orderVolts (clk - 1)
  else s

/-- The logic sensors: clusters, die bridges, front ends and security complexes. -/
def logicSensors : List Nat := List.range 32 ++ [40, 41, 42, 43, 44, 45]

/-- Power control at step 6 of an edge, from the power and the hottest logic reading of the closing beat. -/
def State.powerEdge (s : State) (p hottest : Nat) : State :=
  let s := s.applyPower
  let cap := s.capEff
  let slew := s.fld 0 0 Reg.PWR_CAP.SLEW
  let allow := if slew = 0 then cap else min cap (p + slew)
  let lim := s.fld 0 0 Reg.PWR_TCFG.T_LIM
  let running := s.fld 0 0 Reg.PWR_STAT.STATE == 3
  let hot := decide (lim ≤ hottest) && running
  let s := ((s.setFld 0 0 Reg.PWR_STAT.P_BEAT (min p 0xFFFF)).setFld 0 0 Reg.PWR_STAT.P_ALLOW (min allow 0xFFFF)).setFld 0 0
    Reg.PWR_STAT.THERM hot.toNat
  let s := if !running then s.decideDeg false
    else if allow < p ∨ hot then s.reducePower p allow
    else s.releasePower p allow (decide (hottest + 3 ≤ lim))
  (s.hintEdge p).droopEdge

/-! ## Temperatures -/

/-- The readings of the closing beat (R189, R451): each sensor's value and its highest, and engines above their limit, whose
ports leave ACTIVE. -/
def State.takeTemps (s : State) (temps : List Nat) : State :=
  let s := (temps.take 46).zipIdx.foldl (fun (s : State) (x : Nat × Nat) =>
    (s.setFld 0 x.2 Reg.PWR_TEMP.TEMP x.1).setFld 0 x.2 Reg.PWR_TEMP.MAX (max (x.1 % 256) (s.fld 0 x.2 Reg.PWR_TEMP.MAX))) s
  (List.range 8).foldl (fun (s : State) n =>
    if s.fld 0 0 Reg.PWR_TCFG.T_OPT ≤ temps.getD (32 + n) 0 then
      (enginePorts n).foldl (fun (s : State) p => if s.portUp p then s.leaveActive p 1 1 true else s) s
    else s) s

/-! ## Energy and counts (R336, R458, R459) -/

/-- REGULATOR_REPORT (R458): the estimators are scaled so that their sum over the report's interval matches the energy
measured, in mJ. -/
def execRegulatorReport (measured : Nat) (s : State) : Host.Outcome State Fault Refusal :=
  .next (if s.pow.est = 0 then s
  else { s with pow := { s.pow with scaleN := measured, scaleD := s.pow.est, est := 0 } })

/-- An estimate in mJ, scaled, in µJ. -/
def State.scaled (s : State) (mj : Nat) : Nat := mj * 1000 * s.pow.scaleN / s.pow.scaleD

/-- Energy in µJ added to a counter of whole mJ, with its fraction carried forward. -/
def State.addEnergy (s : State) (k off uj : Nat) : State :=
  let all := s.pow.frac.get 0 k + uj
  let s : State := { s with pow := { s.pow with frac := s.pow.frac.set 0 k (all % 1000) } }
  s.wr 0 off (s.rd 0 off + BitVec.ofNat 64 (all / 1000))

/-- Energy charged to a context, its partition and the package (R459). -/
def State.charge (s : State) (fn c uj : Nat) : State :=
  let s := s.updCtx fn c fun x => { x.count 10 ((x.uj + uj) / 1000) with uj := (x.uj + uj) % 1000 }
  if fn = 0 then s else s.addEnergy (2 + (fn - 1)) (0x100100 + 8 * (fn - 1)) uj

/-- The context that a core's beat is charged to (R336, R368, R459): the one it holds, the one that is being switched in, or
the one that it gave up in the beat. -/
def State.chargedTo (s : State) (n : Nat) : Option (Nat × Nat) :=
  match s.shareOn n with
  | some x => some x
  | none => match s.launches.find? fun l => l.phase == 5 && l.saved.any fun (x : Nat × Core) => x.1 == n with
    | some l => some (l.fn, l.ctx)
    | none => (s.core n).left

/-- The samplers close a beat (R28 step 2, R336, R459): busy cycles, bytes and energy by context, the package's energy, pages
in use, and the counts as of the closed beat. -/
def State.sample (s : State) (e : EdgeIn) : State :=
  let s := (List.range 512).foldl (fun (s : State) n => match s.chargedTo n with
    | some (fn, c) => s.updCtx fn c fun x => x.count 0 1
    | none => s) s
  let s := e.busy.foldl (fun (s : State) b => match s.chargedTo b.core with
    | some (fn, c) => (s.updCtx fn c fun x => ((x.count 1 b.me).count 2 b.ve).count 3 b.xe).charge fn c (s.scaled b.mj)
    | none => s) s
  let s := e.moved.foldl (fun (s : State) m =>
    (s.updCtx m.fn m.ctx fun x => x.count (4 + m.place) m.bytes).charge m.fn m.ctx (s.scaled m.mj)) s
  let est := (e.busy.map (·.mj)).sum + (e.moved.map (·.mj)).sum + e.other + e.ballast
  let s := (s.addEnergy 0 0x100030 (s.scaled est)).addEnergy 1 0x100038 (s.scaled e.ballast)
  let s := (List.range 512).foldl (fun (s : State) n =>
    let s := match (s.core n).degBeat, s.chargedTo n with
      | true, some (fn, _) => s.satAdd fn 0 Reg.PCTL_NUM_STAT.DEG_CORE_BEATS 1
      | _, _ => s
    if (s.core n).degBeat || (s.core n).left.isSome then s.setCore n { s.core n with degBeat := false, left := none } else s) s
  let pages (fn c k : Nat) : Nat := ((s.mobjs.filter fun (o : Nat × MemObj) => o.1 / 1048576 == fn && o.2.ctx == c &&
    (if o.2.tier = 2 then k == 3 else o.2.tier == 0 && ((place o.2.addr).bind placeTier) == some k)).map fun o => o.2.pages).sum
  { s with
    pow := { s.pow with est := s.pow.est + est }
    ctxs := s.ctxs.mapVals fun key (x : Ctx) =>
      let fn := key / 1048576
      let c := key % 1048576
      let q := (List.range 4).foldl (fun (q : Tab Nat) k => q.set 0 (11 + k) (pages fn c k)) x.q
      { x with q := q, closed := q } }

end Sys2Proof.Machine
end

