-- ==== Sys2Proof/Machine/Rotation.lean ====
section
/-! DEFINITION. Rotation test (R463 to R466, R473). -/

namespace Sys2Proof.Machine

open Sys2Proof

/-- The logical cores of a cluster. -/
def State.clusterLogical (s : State) (d c : Nat) : List Nat :=
  (List.range 512).filter fun n => s.fld 0 n Reg.IDC_CORE_MAP.STATE != 0
    && s.fld 0 n Reg.IDC_CORE_MAP.DIE == d && s.fld 0 n Reg.IDC_CORE_MAP.CLUSTER == c

/-- The SPARE core of a cluster. -/
def State.spareIn (s : State) (d c : Nat) : Option Nat :=
  (List.range 17).find? fun k => s.fld 0 (pcoreOf d c k) Reg.IDC_PCORE_STAT.STATE == 2

/-- The cluster that a turn comes to (R464): the first from `c` on, in ascending order and round, that has a SPARE core; `c`
itself where none has. -/
def State.turnTo (s : State) (d c : Nat) : Nat :=
  (((List.range 16).map fun i => (c + i) % 16).find? fun c => (s.spareIn d c).isSome).getD (c % 16)

/-- Whether a step of a cluster defers (R466): a change that touches its cores is queued, an owner's epoch drains, a domain
that it needs is gated or still waking (R447), or it has no SPARE core. -/
def State.stepDefers (s : State) (d c : Nat) : Bool :=
  let ns := s.clusterLogical d c
  (s.queuedChanges.any fun x => (s.touched x).any ns.contains)
    || (ns.any fun n => (s.owner n).any fun q => (s.drainEpoch q).isSome)
    || [24 * d + 23, 24 * d + c].any (fun i => bitOf (s.fld 0 0 Reg.PWR_DOM_STAT.OFF) i || s.pow.waking.contains i)
    || (s.spareIn d c).isNone

/-- The core that a step tests (R463): the in-use one of the cluster tested longest ago, the lower k among equals. -/
def State.oldestTested (s : State) (d c : Nat) : Option Nat :=
  ((List.range 17).filter fun k => s.fld 0 (pcoreOf d c k) Reg.IDC_PCORE_STAT.STATE == 1).foldl
    (fun (b : Option Nat) k => match b with
      | some j =>
        if s.fld 0 (pcoreOf d c k) Reg.IDC_PCORE_STAT.LAST_TEST < s.fld 0 (pcoreOf d c j) Reg.IDC_PCORE_STAT.LAST_TEST then some k
        else some j
      | none => some k) none

/-- Whether rotation runs on a die now: it is enabled, its test engine works, and the A-clock is at 500 MHz or above. -/
def State.rotRuns (s : State) (d : Nat) : Bool :=
  s.fld 0 0 Reg.DCTL_ROT_CFG.EN == 1 && !(s.rot d).off && decide (s.fld 0 0 Reg.PWR_STAT.CLK ≤ 2)

/-- A step that is due starts or defers (R463, R464, R466): the oldest-tested core's number is to move onto the SPARE core. -/
def State.tryStep (s : State) (d : Nat) : State :=
  let t := s.rot d
  let waiting := s.fld 0 d Reg.DCTL_ROT_STAT.STATE == 3
  let c := if waiting then t.turn else s.turnTo d t.turn
  let s := s.setRot d { t with turn := c }
  match s.stepDefers d c, s.oldestTested d c, s.spareIn d c with
  | false, some p, some k =>
    let s := ((s.setFld 0 d Reg.DCTL_ROT_STAT.CLUSTER c).setFld 0 d Reg.DCTL_ROT_STAT.K p).setFld 0 d Reg.DCTL_ROT_STAT.STATE 1
    let n := s.fld 0 (pcoreOf d c p) Reg.IDC_PCORE_STAT.LOGICAL
    let s := s.setRot d { t with turn := (c + 1) % 16, left := s.fld 0 0 Reg.DCTL_ROT_CFG.GAP * 1000 }
    (s.acceptChange none { Compose.none 3 0 with core := n, target := k } (some d)).2
  | _, _, _ =>
    let s := if waiting then s else (s.satAdd 0 d Reg.DCTL_ROT_STAT.DEFERS 1).setFld 0 d Reg.DCTL_ROT_STAT.CLUSTER c
    s.setFld 0 d Reg.DCTL_ROT_STAT.STATE 3

/-- A step whose MOVE_CORE is over (R463 step 3): the slice runs where the core is UNDER_TEST, and otherwise the step ends. -/
def State.moveOver (s : State) (d : Nat) : State :=
  if s.changes.any fun x => x.rotate == some d then s
  else if s.fld 0 (s.rotCore d) Reg.IDC_PCORE_STAT.STATE = 3 then
    (s.setFld 0 d Reg.DCTL_ROT_STAT.STATE 2)
  else s.setFld 0 d Reg.DCTL_ROT_STAT.STATE 0

/-- Rotation on a die at an edge: what its state waits for. -/
def State.rotStep (s : State) (d : Nat) : State :=
  let st := s.fld 0 d Reg.DCTL_ROT_STAT.STATE
  if st = 1 then
    let s := s.moveOver d
    if 2 < s.fld 0 0 Reg.PWR_STAT.CLK ∨ s.pow.droop.contains (16 * d + s.fld 0 d Reg.DCTL_ROT_STAT.CLUSTER) = true then s.abandonSlice d
    else s
  else if (st = 0 ∧ (s.rot d).left = 0 ∨ st = 3) ∧ s.rotRuns d = true then s.tryStep d
  else s

/-- ROTATION_STEP (R464). -/
def execRotationStep (die : Nat) (s : State) : Host.Outcome State Fault Refusal :=
  .next (if die < 2 then s.rotStep die else s)

/-- Rotation at an edge: one more beat has passed on each die where it runs. -/
def State.rotEdge (s : State) : State :=
  (List.range 2).foldl (fun (s : State) d =>
    let t := s.rot d
    (s.setRot d { t with left := t.left - 1 }).rotStep d) s

/-- A core that failed its slice is BAD (R463 step 4). -/
def State.sliceFailed (s : State) (d : Nat) : State :=
  let i := s.rotCore d
  let s := (s.setFld 0 i Reg.IDC_PCORE_STAT.STATE 4).setFld 0 i Reg.IDC_PCORE_STAT.CAUSE 3
  let s := (s.satAdd 0 d Reg.DCTL_ROT_STAT.FAILS 1).raise 0 d Reg.DCTL_ROT_STAT.ROT_FAIL
  s.logCE 0x01 0 (0x2000 + i) none

/-- ROTATION_SLICE_END (R463, R465): a slice outside the window is abandoned. -/
def execRotationSliceEnd (die : Nat) (pass : Bool) (s : State) : Host.Outcome State Fault Refusal :=
  .next (if s.fld 0 die Reg.DCTL_ROT_STAT.STATE ≠ 2 ∨ 2 ≤ die then s
  else if 2 < s.fld 0 0 Reg.PWR_STAT.CLK then s.abandonSlice die
  else
    let i := s.rotCore die
    let s := if pass then
        ((s.setFld 0 i Reg.IDC_PCORE_STAT.STATE 2).setFld 0 i Reg.IDC_PCORE_STAT.LAST_TEST s.now).satAdd 0 die
          Reg.DCTL_ROT_STAT.PASSES 1
      else s.sliceFailed die
    s.setFld 0 die Reg.DCTL_ROT_STAT.STATE 0)

/-- SLICE_ABANDON (R465): the window is left. -/
def execSliceAbandon (die : Nat) (s : State) : Host.Outcome State Fault Refusal :=
  .next (if die < 2 then s.abandonSlice die else s)

end Sys2Proof.Machine
end

