-- ==== Sys2Proof/Machine/Windows.lean ====
section
/-! DEFINITION. What a read of BAR0 returns (R6, R58, R320 to R322): the registers that are computed as they are read, what
each function sees, the partition view, the captured snapshot (R468, R471) and the companion counters (R8). -/

namespace Sys2Proof.Machine

open Sys2Proof

/-! ## Registers computed as they are read -/

/-- Whether a logical number is in use. -/
def State.numbered (s : State) (n : Nat) : Bool := s.fld 0 n Reg.IDC_CORE_MAP.STATE != 0

/-- IDC_ID of a function (R493). -/
def State.idcId (s : State) (fn : Nat) : Nat :=
  s.fld 0 0 Reg.IDC_ID.VARIANT * 2 ^ 48 + s.fld 0 0 Reg.IDC_ID.STEPPING * 2 ^ 40 + s.fld 0 0 Reg.DCTL_NODE.NODE * 2 ^ 24
    + fn * 2 ^ 16

/-- IDC_CAP1: CORES counts the logical cores present. -/
def State.idcCap1 (s : State) : Nat :=
  putBits (s.rd 0 0x18).toNat 32 10 ((List.range 512).filter s.numbered).length

/-- IDC_TOPO: counts of cores and free spares. -/
def State.idcTopo (s : State) : Nat :=
  let die (d : Nat) : Nat := ((List.range 512).filter fun n => s.numbered n && n / 256 == d).length
  let cells : List (Nat × Nat) := (List.range 2).flatMap fun d => (List.range 16).map fun c => (d, c)
  let spares := (cells.filter fun x => (s.spareIn x.1 x.2).isSome).length
  let uniform := cells.all fun x => (s.clusterLogical x.1 x.2).length == perCluster
  s.fld 0 0 Reg.IDC_TOPO.BRIDGE_HALF * 2 ^ 49 + uniform.toNat * 2 ^ 48 + perCluster * 2 ^ 38 + spares * 2 ^ 32
    + die 1 * 2 ^ 16 + die 0

/-- PCTL_SIEVE_TBL of one table (R163, R164). -/
def State.sieveReg (s : State) (fn t : Nat) : Nat :=
  match s.sieve.find? (key2 fn t) with
  | none => 0
  | some x =>
    let old := (!(s.oldVersions fn t).isEmpty).toNat * 2 + x.num % 256 * 256
    match x.cur with
    | some v => v.tag % 2 ^ 32 * 2 ^ 32 + v.width * 16 + 1 + old
    | none => old

/-- PCTL_MEM_CARVE: the cellar groups and quarter-stacks that a partition OWNS. -/
def State.carveReg (s : State) (q : Nat) : Nat :=
  let gs := s.ownedGranules q
  maskOf (gs.filter (· < 16)) * 2 ^ 48 + maskOf ((gs.filter fun g => 16 ≤ g && g < 64).map (· - 16))

/-- PCTL_MEM_CARVE2: its tier-2 controllers beside what the register holds. -/
def State.carve2Reg (s : State) (q : Nat) : Nat :=
  putBits (s.rd (vf q) 0x10408).toNat 0 16 (maskOf (((s.ownedGranules q).filter (64 ≤ ·)).map (· - 64)))

/-- PCTL_SCHED_STAT: a bound port's schedule state beside the function's own flags (R295). -/
def State.schedReg (s : State) (fn p : Nat) : Nat :=
  let own := bits (s.rd fn (0x10600 + 8 * p)).toNat 0 4
  if s.fld 0 p Reg.DCTL_LYS_PCFG.BOUND = 1 ∧ s.fld 0 p Reg.DCTL_LYS_PCFG.PART + 1 = fn then
    putBits (s.rd 0 (0x1006030 + 64 * p)).toNat 0 4 own
  else own

/-- PCTL_COMP_STAT: membership and epoch beside the function's own fields. -/
def State.compReg (s : State) (q : Nat) : Nat :=
  let own := (s.rd (vf q) 0x10700).toNat
  s.vdOf q * 2 ^ 48 + s.fld 0 q Reg.DCTL_COMP_PART0.MEMBER * 2 ^ 40 + s.fld 0 q Reg.DCTL_COMP_PART0.MEMBERS * 2 ^ 31
    + s.fld 0 q Reg.DCTL_COMP_PART0.CUR_EPOCH * 2 ^ 27 + s.fld 0 q Reg.DCTL_COMP_PART0.DRAINING * 2 ^ 26
    + bits own 4 16 * 16 + bits own 0 2

/-- Slots that hold saved shares (QOSM_SWSTAT.USED). -/
def State.slotsUsed (s : State) (fn : Nat) : Nat :=
  ((s.launches.filter (·.fn == fn)).map fun l => min l.slots.length l.saved.length).sum

/-- Queued changes that touch a partition. -/
def State.pendingOf (s : State) (q : Nat) : Nat :=
  (s.queuedChanges.filter fun x => (s.touched x).contains (4000 + q)).length

/-- The draining epoch's count of a partition, saturating. -/
def State.outstandingOf (s : State) (q : Nat) : Nat :=
  match s.drainEpoch q with
  | some e => min (s.drainCount q e) (2 ^ 24 - 1)
  | none => 0

/-- Offsets from `lo`, below `lo + size`. -/
def inSpan (off lo size : Nat) : Bool := decide (lo ≤ off) && decide (off < lo + size)

/-- The value of a register of a function, before what the function may see; core arrays are kept under function 0. -/
def State.value (s : State) (fn off : Nat) : Nat :=
  let raw := (s.rd fn off).toNat
  if off = 0x0 then s.idcId fn
  else if off = 0x18 then s.idcCap1
  else if off = 0x8000 then s.idcTopo
  else if inSpan off 0x10380 128 then s.sieveReg fn ((off - 0x10380) / 8)
  else if inSpan off 0x10600 256 then s.schedReg fn ((off - 0x10600) / 8)
  else if inSpan off 0x40000 0x8000 then ((s.latch? fn ((off - 0x40000) / 8)).elim 0 fun l => l.val.toNat)
  else if inSpan off 0x48000 0x8000 then ((s.latch? fn ((off - 0x48000) / 8)).elim 0 fun l => l.held.toNat)
  else if off = 0xC0408 then putBits raw 54 10 (s.slotsUsed fn)
  else if fn = 0 then
    (if off = 0x1005008 then putBits raw 16 8 s.queuedChanges.length
     else if inSpan off 0x1005100 512 then
      let q := (off - 0x1005100) / 16
      if (off - 0x1005100) % 16 = 0 then putBits raw 24 7 (s.pendingOf q) else putBits raw 40 24 (s.outstandingOf q)
     else raw)
  else if off = 0x10400 then s.carveReg (fn - 1)
  else if off = 0x10408 then s.carve2Reg (fn - 1)
  else if off = 0x10700 then s.compReg (fn - 1)
  else raw

/-- The registers of a function that are computed. -/
def computedOffs (fn : Nat) : List Nat :=
  let run (lo n : Nat) : List Nat := (List.range n).map fun i => lo + 8 * i
  run 0x10380 16 ++ run 0x10600 32 ++ [0x0, 0xC0408]
    ++ if fn = 0 then [0x18, 0x8000, 0x1005008] ++ run 0x1005100 64 else [0x10400, 0x10408, 0x10700]

/-! ## What a function sees (R58, R320) -/

/-- Windows that only PF0 sees: PWR and DCTL. -/
def pf0Only (off : Nat) : Bool := inSpan off 0x100000 0x20000 || decide (0x1000000 ≤ off)

/-- The logical core of an entry of a core array. -/
def coreEntry (off : Nat) : Option Nat :=
  if inSpan off 0x9000 0x1000 then some ((off - 0x9000) / 8)
  else if inSpan off 0x18000 0x2000 then some ((off - 0x18000) / 16)
  else if inSpan off 0xC4000 0x1000 then some ((off - 0xC4000) / 8)
  else if inSpan off 0xE4000 0x1000 then some ((off - 0xE4000) / 8)
  else none

/-- A register as a function sees it, where `get` gives the values of a moment (R58, R320). -/
def seenBy (get : Nat → Nat → Nat) (fn off : Nat) : Nat :=
  let owns (n : Nat) : Bool :=
    let m := get 0 (0x9000 + 8 * n)
    bits m 23 1 == 1 && bits m 18 5 + 1 == fn
  match coreEntry off with
  | some n => if fn = 0 ∨ owns n = true then get 0 off else 0
  | none =>
    if inSpan off 0xA000 0x1100 then (if fn = 0 then get 0 off else 0)
    else if fn ≠ 0 ∧ pf0Only off = true then 0
    else if off ≠ 0 ∧ off < 0x10000 then get 0 off
    else get fn off

/-! ## The snapshot (R468, R471) -/

/-- Whether a snapshot holds a register. -/
def captured (off : Nat) : Bool :=
  (decide (off < 0x120000) && !inSpan off 0x81000 0x1000) || inSpan off 0x1000000 0x30000

/-- A register's captured value, before what the function may see. -/
def State.snapGet (s : State) (fn off : Nat) : Nat := (s.snap.regs.get (regReset fn off) (regKey fn off)).toNat

/-- What SNAP_DATA returns for an offset. -/
def State.snapData (s : State) (fn off : Nat) : Nat :=
  if s.snap.taken && captured off then seenBy s.snapGet fn off else 0

/-- What a read of SNAP_CORE0 or SNAP_CORE1 returns: a VF sees the cores that its partition owned at the capture. -/
def State.snapCore (s : State) (fn off : Nat) : Nat :=
  let n := (off - 0x124000) / 16
  let m := s.snapGet 0 (0x9000 + 8 * n)
  if fn = 0 ∨ (s.snap.taken && bits m 23 1 == 1 && bits m 18 5 + 1 == fn) = true then
    match s.snap.cores.find? n with
    | some (a, b) => if (off - 0x124000) % 16 = 0 then a.toNat else b.toNat
    | none => 0
  else 0

/-- A register as a function reads it, whole. -/
def State.readOwn (s : State) (fn off : Nat) : Nat :=
  if inSpan off 0x124000 0x2000 then s.snapCore fn off
  else if off = 0x120018 then s.snapData fn (s.rd fn 0x120010).toNat
  else seenBy s.value fn off

/-- A register as a read of BAR0 returns it, with the partition view of DCTL (R322). -/
def State.readReg (s : State) (fn off : Nat) : Nat :=
  if fn = 0 ∧ inSpan off 0x1110000 0x140000 = true then
    if s.fld 0 0 Reg.DCTL_PVIEW_SEL.VALID = 0 then 0
    else if inSpan off 0x11C8000 0x90 && s.pview == some (s.fld 0 0 Reg.DCTL_PVIEW_SEL.PART) then (s.rd 0 off).toNat
    else s.readOwn (vf (s.fld 0 0 Reg.DCTL_PVIEW_SEL.PART)) (off - 0x1100000)
  else s.readOwn fn off

/-! ## Companion counters (R8) -/

/-- The W1C flags of a register, lowest first. -/
def regFlags (off : Nat) : List Nat :=
  match regFind off regTable with
  | some (r, _) => setBits r.w1c 64
  | none => []

/-- The register and flags that a counter register serves: eight of a register, or those beyond eight of the one before. -/
def served (off : Nat) : Nat × List Nat :=
  let x := off - 0x800000
  if (regFlags x).isEmpty then (x - 8, (regFlags (x - 8)).drop 8) else (x, (regFlags x).take 8)

/-- Whether an offset lies in a window of companion counters. -/
def isCounter (off : Nat) : Bool := inSpan off 0x800000 0x800000 || inSpan off 0x1800000 0x800000

/-- Whether a function sees a counter register: it sees the register served (R8). -/
def counterSeen (fn off : Nat) : Bool := fn == 0 || !pf0Only (off - 0x800000)

/-- The counters of a counter register as little-endian bytes. -/
def State.counters (s : State) (fn off : Nat) : List Byte :=
  let (x, fs) := served off
  fixed 8 (fs.map fun b => s.cnts.get 0 (cntKey fn x b))

/-- The counters of some flags of a function's register are cleared. -/
def State.clearFlags (s : State) (fn x : Nat) (fs : List Nat) : State :=
  { s with cnts := fs.foldl (fun (t : Tab Byte) b => t.set 0 (cntKey fn x b) 0) s.cnts }

/-- Counters `k` to `k + n - 1` of a counter register cleared. -/
def State.clearCounters (s : State) (fn off k n : Nat) : State :=
  s.clearFlags fn (served off).1 (((served off).2.drop k).take n)

/-- Whether an access to BAR0 is one that it accepts (R320). -/
def aligned (off size : Nat) : Bool := decide (off < 0x2000000) && (size == 4 || size == 8) && off % size == 0

/-- An access that is refused with Unsupported Request; code 5 of `Out.pcie`. -/
def State.unsupported (s : State) (fn off : Nat) : State := s.send (.pcie fn 5 off)

/-- COUNTER_READ (R8, R508): a read of BAR0. A counter register's counters are returned and cleared; any other register is
read with no side effect. -/
def execCounterRead (fn off size : Nat) (s : State) : Host.Outcome State Fault Refusal :=
  .next (if !s.inService || decide (33 ≤ fn) then s
  else if !aligned off size then s.unsupported fn off
  else
    let base := off / 8 * 8
    let v := if isCounter base then (if counterSeen fn base then leNat (s.counters fn base) else 0) else s.readReg fn base
    let half := if size = 8 then v else v / 2 ^ (8 * (off - base)) % 2 ^ 32
    let s := s.send (.reg fn off (BitVec.ofNat 64 half))
    if isCounter base && counterSeen fn base then
      s.clearCounters fn base (off - base) size
    else s)

/-! ## Captures (R468 to R473) -/

/-- The core record of one logical core (SNAP_CORE0, SNAP_CORE1). -/
def State.coreRecord (s : State) (n : Nat) : U64 × U64 :=
  let c := s.core n
  let m := c.cur
  let late := c.launch.isSome && c.running && !c.stopped && !c.atEnd
  let busy := (List.range 6).map (fun e => if m.engDepth e = 0 then 0 else 2 ^ e)
  let xe := (List.range 2).map fun e => if m.moves.any (·.eng == e) then 2 ^ (6 + e) else 0
  let me := (List.range 4).map fun e => min (m.engDepth e) 15 * 2 ^ (4 * e + 14)
  let ve := (List.range 2).map fun e => min (m.engDepth (4 + e)) 15 * 2 ^ (4 * e + 6)
  let w := m.pc % 2048 * 2 ^ 53 + c.atEnd.toNat * 2 ^ 52 + late.toNat * 2 ^ 51 + (s.faultStalled n).toNat * 2 ^ 50
    + (busy.sum + xe.sum) * 2 ^ 42 + min (m.moveDepth 0) 63 * 2 ^ 36 + min (m.moveDepth 1) 63 * 2 ^ 30 + me.sum + ve.sum
  (BitVec.ofNat 64 w, BitVec.ofNat 64 (maskOf ((List.range 64).filter m.tagBusy)))

/-- The registers of every function as they stand: the stored ones, the computed ones, and the latches that exist. -/
def State.freeze (s : State) : Tab U64 :=
  let put (t : Tab U64) (x : Nat × Nat) : Tab U64 := t.put (regKey x.1 x.2) (BitVec.ofNat 64 (s.value x.1 x.2))
  let t := s.regs.filter fun (e : Nat × U64) => captured (e.1 % 0x2000000)
  let t := ((List.range 33).flatMap fun fn => (computedOffs fn).map fun o => (fn, o)).foldl put t
  s.latches.foldl (fun (t : Tab U64) (e : Nat × Latch) =>
    let fn := e.1 / 1048576
    let l := e.1 % 1048576
    put (put t (fn, 0x40000 + 8 * l)) (fn, 0x48000 + 8 * l)) t

/-- A capture of the state as a beat closed (R468): SNAP_STAT takes the beat at which it rang, and every function's flag is
set. -/
def State.capture (s closed : State) (origin : Nat) : State :=
  let snap : Snap := { taken := true, regs := closed.freeze, cores := (List.range 512).map fun n => (n, closed.coreRecord n) }
  let seq := s.fld 0 0 Reg.SNAP_STAT.SEQ + 1
  let hold := (s.fld 0 0 Reg.DCTL_BEAT_STAT.LOCK == 2).toNat
  let s : State := { s with snap := snap }
  let s := (List.range 33).foldl (fun (s : State) fn =>
    (((s.setFld fn 0 Reg.SNAP_STAT.BEAT s.now).setFld fn 0 Reg.SNAP_STAT.SEQ seq).setFld fn 0 Reg.SNAP_STAT.ORIGIN
      origin).setFld fn 0 Reg.SNAP_STAT.HOLDOVER hold) s
  s.snapFlag Reg.SNAP_STAT.CAPTURED

/-- Bells that are due at an edge (R470, R471): one capture of the state as the beat before closed, or none while PF0 holds
the snapshot. -/
def State.ringBells (s closed : State) : State :=
  match s.bells.filter fun b => decide (b.target ≤ s.now) with
  | [] => s
  | b :: _ =>
    let s : State := { s with bells := s.bells.filter fun b => !decide (b.target ≤ s.now) }
    if s.fld 0 0 Reg.SNAP_CTL.HOLD = 1 then s.snapFlag Reg.SNAP_STAT.MISSED else s.capture closed b.origin

/-- A write of SNAP_CTL (R469, R471): PF0 holds the snapshot or rings the package, and a VF rings the package or its virtual
device. A scope that it may not name makes the write ignored. -/
def State.writeSnapCtl (s : State) (fn v : Nat) : State :=
  let scope := bits v 2 2
  if 1 < scope ∨ (scope = 1 ∧ fn = 0) then s
  else
    let s := if fn = 0 then s.setFld 0 0 Reg.SNAP_CTL.HOLD (bits v 1 1) else s
    if bitOf v 0 then s.partBell fn (scope == 1) (bits v 16 48) else s

/-- SNAP_RING (R469). -/
def execSnapRing (fn : Nat) (v : U64) (s : State) : Host.Outcome State Fault Refusal := .next (s.writeSnapCtl fn v.toNat)

end Sys2Proof.Machine
end

