-- ==== Sys2Proof/Machine/RegWrite.lean ====
section
/-! DEFINITION. Writes of BAR0 (R6, R7, R320, R322, R508) and of the fields that the management controller holds (R489). -/

namespace Sys2Proof.Machine

open Sys2Proof

/-! ## Values that wait for an edge -/

/-- The value that a register will hold once what waits for the edge has applied. -/
def State.pendingReg (s : State) (fn off : Nat) : U64 :=
  s.deferred.foldl (fun (v : U64) d => match d with
    | .reg f o w => if f = fn ∧ o = off then w else v
    | _ => v) (s.rd fn off)

/-- A register's bits under a mask taken from a value. -/
def merge (old new mask : U64) : U64 := (old &&& ~~~mask) ||| (new &&& mask)

/-- A write that takes effect at the next edge. -/
def State.deferReg (s : State) (fn off : Nat) (v mask : U64) : State :=
  { s with deferred := s.deferred ++ [.reg fn off (merge (s.pendingReg fn off) v mask)] }

/-- Registers whose RW fields take effect at the next edge (R224, R238, R242, R357, R370, R401, R426, R446, R448). -/
def takesEdge (off : Nat) : Bool :=
  [0x10900, 0xA0000, 0xA0010, 0xC0400, 0xE0000, 0xE0010, 0x100008, 0x100010].contains off
    || inSpan off 0x1004100 0x200 || (inSpan off 0x144000 0x2000 && (off - 0x144000) % 32 != 24)

/-- Bits [lo + w - 1 : lo] set. -/
def fieldMask (lo w : Nat) : Nat := (2 ^ w - 1) * 2 ^ lo

/-- The bits of a register that the management controller writes (R489). -/
def kmcMask (off : Nat) : Nat :=
  if off = 0x1000080 then fieldMask 0 16
  else if off = 0x1000100 then fieldMask 14 34 + fieldMask 0 6
  else if off = 0x1000108 then fieldMask 0 54
  else if off = 0x1002200 then fieldMask 56 8 + fieldMask 40 8 + fieldMask 16 16
  else if off = 0x1003800 ∨ off = 0x1005000 then fieldMask 0 16
  else if inSpan off 0x1006000 0x800 && off % 64 == 0 then fieldMask 26 15
  else if inSpan off 0x1006800 0x40 && off % 8 == 0 then fieldMask 61 1
  else if off = 0x1007000 then fieldMask 0 9
  else if off = 0x1007800 then fieldMask 63 1 + fieldMask 48 8
  else if off = 0x1007820 then fieldMask 32 32
  else if off = 0x1030800 then fieldMask 40 24
  else if off = 0x100008 then fieldMask 32 16
  else if off = 0x100028 then fieldMask 32 32
  else 0

/-- The RW bits of a register of BAR0. -/
def rwMask (off : Nat) : Nat :=
  match regFind off regTable with
  | some (r, _) => r.rw
  | none => 0

/-- A register write that waited takes effect at an edge: what its own register adds is done with it. -/
def State.applyReg (s : State) (fn off : Nat) (v : U64) : State :=
  if inSpan off 0x20000 0x20000 && fn != 0 && s.partShut (fn - 1) then s
  else if inSpan off 0x21000 0x800 && off % 32 == 0 then s.applyQ0 fn ((off - 0x21000) / 32) v.toNat
  else if inSpan off 0x21000 0x800 && off % 32 == 8 then s.applyQ1 fn ((off - 0x21000) / 32) v.toNat
  else if off = 0x100010 then s.applyGates v
  else if inSpan off 0x1008000 0x20000 then s.wr fn off v
  else
    let t := s.wr fn off (merge (s.rd fn off) v (BitVec.ofNat 64 (rwMask off ||| kmcMask off)))
    if off = 0x10900 then
      (if s.graphs.any fun (e : Nat × Graph) => e.1 / 1048576 == fn then s else t)
    else if off = 0xA0000 then t.dropXlat fn none
    else if off = 0xA0010 then t.drainFaults fn
    else if off = 0x1000080 then
      (List.range 32).foldl (fun (t : State) p =>
        if t.portState p = 2 then (t.leaveActive p 1 4 true).enterStep p 4 else t) t
    else t

/-! ## Registers that act on an 8-byte write alone (R508) -/

/-- A write of DCTL_RST_CTL (R430, R432). -/
def State.writeRstCtl (s : State) (v : Nat) : State :=
  let d := bits v 60 4
  if [1, 2, 3, 4, 6, 7].contains d then
    if bitOf v 59 then s.forceReset d (bits v 0 16) else s.decideReset d (bits v 0 16) (bitOf v 58) false 1
  else s

/-- A write of PWR_CTL (R442). -/
def State.writePwrCtl (s : State) (v : Nat) : State :=
  let r := bits v 61 3
  if r = 0 then (if s.inService then s.goOff false else s) else if r = 3 ∨ r = 4 then s.askPower r else s

/-- A write of PWR_HINT (R455). -/
def State.writeHint (s : State) (v : Nat) : State :=
  let lead := bits v 8 4
  if lead = 0 then s
  else if bits v 62 2 = 1 then s.hint false lead (bits v 0 2)
  else if bits v 62 2 = 2 then s.hint true lead 0
  else s

/-- A write of XLAT_RESUME (R239). -/
def State.writeResume (s : State) (fn v : Nat) : State :=
  if bits v 62 2 = 1 then s.retryFault fn (bits v 0 16)
  else if bits v 62 2 = 2 then s.abortFault fn (bits v 0 16)
  else s

/-- A write through the view of QOSM_CTX_SEL (R322): the partition's context is latched into PF0's copy. -/
def State.writeView (s : State) (v : Nat) : State :=
  if s.fld 0 0 Reg.DCTL_PVIEW_SEL.VALID = 1 then
    let q := s.fld 0 0 Reg.DCTL_PVIEW_SEL.PART
    { s.latchCounts 0 0x11C8000 0x11C8010 (vf q) (v % 256) with pview := some q }
  else s

/-- What an 8-byte write does to a register that acts on no other (R508). -/
def State.writeWhole (s : State) (fn off v : Nat) : State :=
  if inSpan off 0x21000 0x800 then (if bits v 62 2 = 1 then s.askResume fn ((off - 0x21000) / 32) else s)
  else if off = 0xA0020 then s.writeResume fn v
  else if off = 0xA0030 then s.fquery fn (v % 65536)
  else if off = 0xC8000 then s.ctxSel fn (v % 256)
  else if off = 0x120000 then s.writeSnapCtl fn v
  else if off = 0x140000 then s.writeAttest fn v
  else if off = 0x100000 then s.writePwrCtl v
  else if off = 0x100040 then s.writeHint v
  else if off = 0x1004000 then s.xlatInv v
  else if off = 0x1007008 then s.writeRstCtl v
  else if off = 0x1030808 then
    (if bitOf v 0 then s.requestRoll.setFld 0 0 Reg.DCTL_T2SEC_CTL.ROLL_REQ 1 else s)
  else s

/-! ## Other registers -/

/-- A write that is ignored: one whose size field is out of range (R331), and one of 0 to STALL_DEF (R426). -/
def sizeRefused (off v : Nat) : Bool :=
  (off == 0xA0010 || off == 0xE0000) && decide (10 < bits v 0 4) || off == 0xE0010 && bits v 0 16 == 0

/-- A write under a byte mask of a register whose fields are RO, RW or W1C: flags clear, RW bits take their value now or at
the edge, and what hangs on the register follows. -/
def State.writePlain (s : State) (fn off : Nat) (v mask : U64) (r : RegDef) : State :=
  let flags := v &&& mask &&& BitVec.ofNat 64 r.w1c
  let rw := mask &&& BitVec.ofNat 64 r.rw
  let s := s.wr fn off (s.rd fn off &&& ~~~flags)
  let full := merge (s.pendingReg fn off) v rw
  if r.rw = 0 then s
  else if sizeRefused off full.toNat then s
  else if inSpan off 0x21000 0x800 && off % 32 == 0 then s.writeQ0 fn ((off - 0x21000) / 32) full.toNat
  else if inSpan off 0x21000 0x800 && off % 32 == 8 then s.writeQ1 fn ((off - 0x21000) / 32) full.toNat
  else if takesEdge off then { s with deferred := s.deferred ++ [.reg fn off full] }
  else
    let s := s.wr fn off (merge (s.rd fn off) v rw)
    if inSpan off 0x81000 0x400 then s.msiFlush fn
    else if off = 0xA0018 then s.drainFaults fn
    else s

/-- A write of BAR0 of an accepted size (R320, R508). -/
def State.writeReg (s : State) (fn off : Nat) (wide : Bool) (v : U64) : State :=
  let base := off / 8 * 8
  if fn = 0 ∧ base = 0x11C8000 then (if wide then s.writeView v.toNat else s)
  else if fn ≠ 0 ∧ pf0Only base = true then s
  else match regFind base regTable with
    | none => s
    | some (r, _) =>
      if r.wide then (if wide then s.writeWhole fn base v.toNat else s)
      else if 0x11C8000 ≤ base ∧ base < 0x1200000 then s
      else
        let sh := 8 * (off - base)
        let mask : U64 := if wide then BitVec.allOnes 64 else BitVec.ofNat 64 (fieldMask sh 32)
        s.writePlain fn base (if wide then v else v <<< sh) mask r

/-- REGISTER_WRITE (R6, R320, R508). -/
def execRegisterWrite (fn off size : Nat) (v : U64) (s : State) : Host.Outcome State Fault Refusal :=
  .next (if !s.inService || decide (33 ≤ fn) then s
  else if aligned off size then s.writeReg fn off (size == 8) v else s.unsupported fn off)

/-! ## The management controller's fields (R489, R493) -/

/-- A write of DCTL_BEAT_CFG (R18, R23, R26, R27): BEAT_LEN changes only where the package is STANDALONE, at the next edge,
and in power-up; a new role starts its own rules. A master that was designated while it followed no master starts the fabric's
count with beat 0 at the next edge, and one that holds a fabric's count (LOCKED or HOLDOVER as a follower) goes on from it
(R18, log 105). A package that becomes a follower keeps LOCKED where it was master, until two beats without a marker, and
reads UNLOCKED at once where it was STANDALONE (DESIGN CHOICE, log 105). -/
def State.writeBeatCfg (s : State) (v : Nat) : State :=
  let was := s.fld 0 0 Reg.DCTL_BEAT_CFG.ROLE
  let role := if bits v 14 2 = 3 then was else bits v 14 2
  let len := bits v 0 6
  let s := (((s.setFld 0 0 Reg.DCTL_BEAT_CFG.MASTER_NODE (bits v 32 16)).setFld 0 0 Reg.DCTL_BEAT_CFG.LEAD (bits v 24 8)).setFld
    0 0 Reg.DCTL_BEAT_CFG.HOLD_LIM (bits v 16 8)).setFld 0 0 Reg.DCTL_BEAT_CFG.ROLE role
  let s : State := if role = 2 ∧ 2 ≤ len ∧ len ≤ 40 then { s with deferred := s.deferred ++ [.beatLen len] } else s
  if role = was then s
  else
    let s : State := { s with beat := { s.beat with
      trial := none, agreed := 0, far := [], heard := [], quietPort := 0, quietAll := 0, chosen := false, held := 0
      limitSent := false, step := none, adopt := none, marked := none
      restart := role == 1 && (was == 2 || s.fld 0 0 Reg.DCTL_BEAT_STAT.LOCK == 0) } }
    if role = 0 then s.setFld 0 0 Reg.DCTL_BEAT_STAT.LOCK (if was = 2 then 0 else s.fld 0 0 Reg.DCTL_BEAT_STAT.LOCK) else s

/-- A write of DCTL_LYS_PCFG (R255): clearing EN takes the port down, and setting it lets it train again. -/
def State.writePcfg (s : State) (p v : Nat) : State :=
  let was := s.fld 0 p Reg.DCTL_LYS_PCFG.EN
  let s := s.setFld 0 p ⟨0x1006000, 64, 26, 15⟩ (bits v 26 15)
  if was = 1 ∧ bits v 26 1 = 0 then
    if s.portUp p then s.dropPort p
    else (s.setFld 0 p Reg.DCTL_LYS_PSTAT.STATE 0).setPort p { s.port p with step := 0, fails := 0, retryDue := false, ident := false }
  else if was = 0 ∧ bits v 26 1 = 1 then s.tryTrain p
  else s

/-- A write of DCTL_LYS_INLET.LASER_ON (R248). -/
def State.writeInlet (s : State) (n v : Nat) : State :=
  let s := s.setFld 0 n Reg.DCTL_LYS_INLET.LASER_ON (bits v 61 1)
  if bitOf v 61 then s.closeLoop n else s.openLoop n

/-- A field of the management controller is written (R489). -/
def State.writeConfig (s : State) (off : Nat) (v : U64) : State :=
  let mask := BitVec.ofNat 64 (kmcMask off)
  if off = 0x1000100 then s.writeBeatCfg v.toNat
  else if off = 0x1000108 then
    (if bits v.toNat 0 48 = 2 ^ 48 - 1 then s.wr 0 off (BitVec.ofNat 64 (2 ^ 48 - 1))
     else if 2 ≤ bits v.toNat 48 6 ∧ bits v.toNat 48 6 ≤ 40 then s.wr 0 off (v &&& mask) else s)
  else if inSpan off 0x1006000 0x800 then s.writePcfg ((off - 0x1006000) / 64) v.toNat
  else if inSpan off 0x1006800 0x40 then s.writeInlet ((off - 0x1006800) / 8) v.toNat
  else if off = 0x1000080 ∨ off = 0x100008 then s.deferReg 0 off v mask
  else s.wr 0 off (merge (s.rd 0 off) v mask)

end Sys2Proof.Machine
end

