-- ==== Sys2Proof/Machine/Boot.lean ====
section
/-! DEFINITION. Power-up to release (R461, R462, R474 to R482), the host link (R478), and the module (R495 to R506). -/

namespace Sys2Proof.Machine

open Sys2Proof

/-! ## Marks (R462, R481) -/

/-- One bit of a register cleared. -/
def State.clearBit (s : State) (off b : Nat) : State := s.setFld 0 0 ⟨off, 0, b, 1⟩ 0

/-- A unit is marked unusable, as its UNIT code names it (R462, R511). -/
def State.markUnit (s : State) (u : Nat) : State :=
  let i := u % 4096
  let bad (s : State) (j : Nat) : State := (s.setFld 0 j Reg.IDC_PCORE_STAT.STATE 4).setFld 0 j Reg.IDC_PCORE_STAT.CAUSE 1
  if u / 4096 = 2 then bad s i
  else if u / 4096 = 4 then (List.range 17).foldl (fun (s : State) k => bad s (17 * i + k)) s
  else if u / 4096 = 7 then (if s.dead.contains i then s else { s with dead := s.dead ++ [i] })
  else if u / 4096 = 8 then
    ((s.setFld 0 i Reg.DCTL_CARVE_T1.PRESENT 0).setFld 0 i Reg.DCTL_MEMSTAT.PRESENT 0).clearBit 0x10 (36 + i)
  else if u / 4096 = 9 then (s.setFld 0 (12 + i) Reg.DCTL_MEMSTAT.PRESENT 0).clearBit 0x10 (48 + i)
  else if u / 4096 = 0xB then
    (List.range 4).foldl (fun (s : State) k => s.clearBit 0x10 (4 * i + k)) (s.clearBit 0x18 (24 + i))
  else s

/-- A failure found at a step: a unit is marked and recorded once, with the earliest step (R511). -/
def State.recordFail (s : State) (step u : Nat) : State :=
  if u ≠ 0 ∧ s.boot.marks.any (·.2 == u) then s
  else
    let s := if s.boot.marks.isEmpty then s.setFld 0 0 Reg.DCTL_BOOT_STAT.FAIL_STEP step else s
    { s with boot := { s.boot with marks := s.boot.marks ++ [(step, u)] } }

/-- Every failure of power-up is written to the error log, in order (R481). -/
def State.logMarks (s : State) : State :=
  let ms := s.boot.marks
  ms.foldl (fun (s : State) (m : Nat × Nat) => s.logErr { ErrRec.of 0 0x12 with cause := m.1, unit := m.2, boot := true })
    { s with boot := { s.boot with marks := [] } }

/-! ## Steps (R474 to R477) -/

/-- The latest steps that a step comes after (R474). -/
def stepAfter (step : Nat) : List Nat :=
  match step with
  | 1 => []
  | 2 => [1]
  | 3 => [2]
  | 4 => [3]
  | 5 => [3]
  | 6 => [3]
  | 7 => [6]
  | 8 => [4, 6]
  | 9 => [7]
  | 10 => [7]
  | 11 => [5, 7]
  | 12 => [8]
  | 13 => [9, 10, 11, 12]
  | _ => [0]

/-- Whether power-up is in progress. -/
def State.booting (s : State) : Bool := s.fld 0 0 Reg.PWR_STAT.STATE == 1

/-- Whether a step is over: it has ended, or it is step 11 on a module without tier 2, which omits it (R474). -/
def State.stepOver (s : State) (step : Nat) : Bool :=
  s.boot.done.contains step
    || step == 11 && (List.range 16).all fun i => s.fld 0 (12 + i) Reg.DCTL_MEMSTAT.PRESENT == 0

/-- Whether a step may end now: power-up goes on as far as it (R475, R480), RST_N is high (R498), and what it comes after is
over. -/
def State.stepRuns (s : State) (step : Nat) : Bool :=
  s.booting && (s.boot.stop == 0 || (s.boot.stop == 3 && decide (step ≤ 7))) && (!s.mod.rstLow || step == 1)
    && !s.boot.done.contains step && (stepAfter step).all s.stepOver

/-- A step is done. -/
def State.bootDone (s : State) (step : Nat) : State :=
  ({ s with boot := { s.boot with done := s.boot.done ++ [step] } } : State).setFld 0 0 Reg.DCTL_BOOT_STAT.LAST_STEP step

/-- Power-up stops: 1 wholly, 2 with the management controller alone, 3 without release. What prevents release is kept in
eMMC (R481). -/
def State.bootStop (s : State) (stop : Nat) : State :=
  ({ s with boot := { s.boot with stop := stop } } : State).logMarks.flushLog

/-- One stored value of the management controller's configuration, written at step 4 (R474). A beat length applies at the next
edge (R27). A master that is designated here starts the fabric's count with beat 0 (R18). -/
def State.bootConfig (s : State) (off : Nat) (v : U64) : State :=
  let mask := BitVec.ofNat 64 (kmcMask off)
  if off = 0x1000100 then
    let len := bits v.toNat 0 6
    let role := if bits v.toNat 14 2 = 3 then fieldMask 14 2 else 0
    let s := s.wr 0 off (merge (s.rd 0 off) v (mask &&& ~~~BitVec.ofNat 64 (fieldMask 0 6 + role)))
    let s : State := { s with beat := { s.beat with restart := bits v.toNat 14 2 == 1 } }
    if 2 ≤ len ∧ len ≤ 40 then { s with deferred := s.deferred ++ [.beatLen len] } else s
  else s.wr 0 off (merge (s.rd 0 off) v mask)

/-- Lasers are enabled as step 4 requested, once steps 4 and 6 have ended (R474 step 8). -/
def State.enableOptics (s : State) : State :=
  if s.boot.done.contains 4 ∧ s.boot.done.contains 6 then (List.range 8).foldl State.closeLoop s else s

/-- Step 2: the lifecycle state is read (R475). -/
def State.bootRom (s : State) : State :=
  let st := s.fld 0 0 Reg.DCTL_LIFE.STATE
  let s := if st = 0 then s else s.satAdd 0 0 Reg.DCTL_LIFE.BOOTS 1
  if st = 5 then (s.setFault 0xF).bootStop 1 else s

/-- Step 3: the images taken, with their digests (R476). -/
def State.bootImages (s : State) (r : BootResult) : State :=
  let ds := r.digests.zipIdx.map fun (d : BitVec 384 × Nat) => if bitOf r.absent.toNat d.2 then 0 else d.1
  let s : State := { s with sec := { s.sec with digests := ds } }
  let s := (s.setFld 0 0 Reg.DCTL_BOOT_STAT.BANK r.bankB.toNat).setFld 0 0 Reg.DCTL_BOOT_STAT.ABSENT r.absent.toNat
  s.setFld 0 0 Reg.DCTL_BOOT_STAT.TEST_KEYS_USED (r.testKeys && s.fld 0 0 Reg.DCTL_LIFE.TEST_KEYS == 1).toNat

/-! ## Memory training (R183) -/

/-- The rates from a RATE field down, in the steps of a tier; the lowest where the field holds less than any. -/
def ratesFrom (ladder : List Nat) (top : Nat) : List Nat :=
  match ladder.filter (· ≤ top) with
  | [] => ladder.drop (ladder.length - 1)
  | rs => rs

/-- Training of the units that are present, each with the highest rate at which it trains: the rate at which all do, or the
lowest, and the retrains made on the way down. -/
def trainAt (best : List Nat) : List Nat → Nat × Nat
  | [] => (0, 0)
  | [r] => (r, 0)
  | r :: rs => if best.all (r ≤ ·) then (r, 0) else ((trainAt best rs).1, (trainAt best rs).2 + 1)

/-- Units of a tier that are present: stacks, or tier-2 controllers. -/
def State.trainees (s : State) (tier2 : Bool) : List Nat :=
  if tier2 then (List.range 16).filter fun i => s.fld 0 (12 + i) Reg.DCTL_MEMSTAT.PRESENT == 1
  else (List.range 12).filter fun i => s.fld 0 i Reg.DCTL_MEMSTAT.PRESENT == 1

/-- The rates a tier steps through (R183). -/
def State.rates (s : State) (tier2 : Bool) : List Nat :=
  if tier2 then ratesFrom [0x90, 0x80, 0x6B] (s.fld 0 0 Reg.DCTL_MEM_CFG.T2_RATE)
  else ratesFrom [0x70, 0x68, 0x60, 0x58, 0x50] (s.fld 0 0 Reg.DCTL_MEM_CFG.T1_RATE)

/-- The rate and retrains that training of a tier's present units ends with. -/
def State.training (s : State) (tier2 : Bool) (best : List Nat) : Nat × Nat :=
  trainAt ((s.trainees tier2).map fun i => best.getD i 0) (s.rates tier2)

/-- UNIT codes of the units that fail at the rate that training ends with (R183, R511): only the lowest has any. -/
def State.untrained (s : State) (tier2 : Bool) (best : List Nat) : List Nat :=
  ((s.trainees tier2).filter fun i => decide (best.getD i 0 < (s.training tier2 best).1)).map
    fun i => (if tier2 then 0x9000 else 0x8000) + i

/-- A tier is trained (R183): the rate and the retrains show, units that fail at the lowest rate are marked, and the TRAINED
field reads 0 where no unit is left. -/
def State.train (s : State) (tier2 : Bool) (best : List Nat) : State :=
  let (rate, n) := s.training tier2 best
  let t := (s.untrained tier2 best).foldl (fun (s : State) u => (s.recordFail (if tier2 then 11 else 10) u).markUnit u) s
  let rate := if t.trainees tier2 = [] then 0 else rate
  let n := if s.trainees tier2 = [] then 0 else n
  if tier2 then (t.setFld 0 0 Reg.DCTL_MEM_CFG.T2_TRAINED rate).setFld 0 0 Reg.DCTL_BOOT_STAT.T2_RETRAIN n
  else (t.setFld 0 0 Reg.DCTL_MEM_CFG.T1_TRAINED rate).setFld 0 0 Reg.DCTL_BOOT_STAT.T1_RETRAIN n

/-- What a step does beside its marks (R474). -/
def State.bootEffect (s : State) (step : Nat) (r : BootResult) : State :=
  if step = 1 then ({ s with mod := { s.mod with rails := true } } : State).send (.pin 0 1)
  else if step = 2 then s.bootRom
  else if step = 3 then s.bootImages r
  else if step = 4 then
    let s := (s.kmc.config.foldl (fun (s : State) (e : Nat × U64) => s.bootConfig e.1 e.2) s).enableOptics
    if s.fld 0 0 Reg.DCTL_LIFE.STATE = 0 then { s with boot := { s.boot with stop := 2 } } else s
  else if step = 5 then
    (List.range 5).foldl (fun (s : State) k => s.wr 0 (0x1030100 + 8 * k) (regReset 0 (0x1030100 + 8 * k))) s
  else if step = 6 then
    let s := if r.half then s.setFld 0 0 Reg.IDC_TOPO.BRIDGE_HALF 1 else s
    ((List.range 2).foldl (fun (s : State) d =>
      s.setRot d { s.rot d with off := bitOf r.noTest.toNat d }) s).enableOptics
  else if step = 10 then
    s.train false r.t1Best
  else if step = 11 then
    let s := s.train true r.t2Best
    let k := Config.entropy s.free
    ({ s with free := s.free + 1 } : State).loadKey 5 (keyAttr 25 false false 1) (leBytes 32 k.toNat)
  else s

/-- The failures that a step's tests found: units, the bridge and test engines, whose records name their die (R511). -/
def stepMarks (step : Nat) (r : BootResult) : List Nat :=
  r.marks ++ (if step = 6 ∧ r.half then [0x5000] else [])
    ++ (if step = 6 then (setBits r.noTest.toNat 2).map (0x5000 + ·) else [])

/-- Release (R474, R477, R478): READY is entered, cores are numbered, marks are logged, and configuration requests complete:
code 8 of `Out.pcie` is the Device Readiness Status message. -/
def State.release (s : State) : State :=
  let s := (s.renumber false).setFld 0 0 Reg.PWR_STAT.STATE 2
  let s := (List.range 2).foldl (fun (s : State) d =>
    s.setRot d { s.rot d with left := s.fld 0 0 Reg.DCTL_ROT_CFG.GAP * 1000 }) s
  (s.logMarks.send (.pcie 0 8 0)).startLife

/-- Release is reached (R482): it takes effect when the host link has trained. -/
def State.reachRelease (s : State) (ms : Nat) : State :=
  let s := s.setFld 0 0 Reg.DCTL_BOOT_STAT.T_RELEASE (min ms 0xFFFF)
  let s : State := { s with boot := { s.boot with ready := true } }
  if s.boot.linked then s.release else s

/-- Whether step 12 may end (R477): the beat is locked, or the package is STANDALONE. -/
def State.lockReached (s : State) : Bool :=
  s.fld 0 0 Reg.DCTL_BEAT_STAT.LOCK == 1 || s.fld 0 0 Reg.DCTL_BEAT_CFG.ROLE == 2

/-- Images that may be absent (R476): 5 where no stack or controller is present, 6 where no optical engine is. -/
def State.absentOk (s : State) : Nat :=
  (if s.trainees false = [] ∧ s.trainees true = [] then 32 else 0)
    + (if (s.rd 0 0x18).toNat / 2 ^ 24 % 256 = 0 then 64 else 0)

/-- Images failed in both banks (R476): boot stops for image 0, 1 or 2; else the management controller serves alone. -/
def State.imagesFailed (s : State) (bad : BitVec 8) : State :=
  if bad.toNat % 8 ≠ 0 then ((s.recordFail 3 0).setFault 3).bootStop 1
  else
    let s := ((s.recordFail 3 0).bootDone 3).bootDone 4
    let s := s.kmc.config.foldl (fun (s : State) (e : Nat × U64) => s.bootConfig e.1 e.2) s
    s.bootStop 2

/-- BOOT_STEP_COMPLETE (R474): a step ends with what its tests found. An image that is absent and may not be has failed
(R476). -/
def execBootStepComplete (step ms : Nat) (r : BootResult) (s : State) : Host.Outcome State Fault Refusal :=
  .next (if s.stepRuns step = false ∨ (step = 12 ∧ s.lockReached = false) then s
  else if step = 3 ∧ r.absent &&& ~~~BitVec.ofNat 8 s.absentOk ≠ 0 then
    s.imagesFailed (r.absent &&& ~~~BitVec.ofNat 8 s.absentOk)
  else
    let s := (stepMarks step r).foldl (fun (s : State) u => (s.recordFail step u).markUnit u) s
    let s := (s.bootDone step).bootEffect step r
    if step = 13 then s.reachRelease ms else s)

/-- BOOT_LOCK_TIMEOUT (R477): the package enters HOLDOVER with beat number 0. -/
def execBootLockTimeout (s : State) : Host.Outcome State Fault Refusal :=
  .next (if s.stepRuns 12 && [9, 10, 11].all s.stepOver && !s.lockReached then
    let s := ((s.recordFail 12 0).bootDone 12).setFld 0 0 Reg.DCTL_BOOT_STAT.BOOT_LOCK_TO 1
    let s := (s.setFld 0 0 Reg.DCTL_BEAT_STAT.LOCK 2).setFld 0 0 Reg.DCTL_BEAT_NUM.BEAT_NUM 0
    let s : State := { s with beat := { s.beat with held := 0, limitSent := false } }
    (s.raise 0 0 Reg.DCTL_BEAT_STAT.BEAT_HOLDOVER).intc 0 11
  else s)

/-- BOOT_STEP_FAIL (R476, R480). -/
def execBootStepFail (step : Nat) (f : BootFail) (s : State) : Host.Outcome State Fault Refusal :=
  .next (if s.stepRuns step = false then s
  else match f with
    | .rail => if step = 1 then (s.setFault 1).railsDown else s
    | .rom => if step = 2 then ((s.recordFail 2 0).setFault 2).bootStop 1 else s
    | .images bad =>
      if step ≠ 3 ∨ bad = 0 then s else s.imagesFailed bad
    | .kmcLink =>
      if step = 4 then
        let r : BootResult := { bankB := 0, absent := 0, testKeys := false, digests := [], marks := [], half := false, noTest := 0
                                t1Best := [], t2Best := [] }
        ((s.recordFail 4 0).bootDone 4).bootEffect 4 r
      else s
    | .keys => if step = 5 then ((s.recordFail 5 0).setFault 5).bootStop 3 else s
    | .unit code => if step = 6 ∨ step = 7 then ((s.recordFail step code).setFault 6).bootStop 3 else s)

/-! ## The host link (R478, R482, R506) -/

/-- PERST_DEASSERT (R478). -/
def execPerstDeassert (s : State) : Host.Outcome State Fault Refusal := .next { s with boot := { s.boot with perst := true } }

/-- PCIE_LINK_TRAINED (R478, R482): after PERST# and step 3; a release that waits for it takes effect. -/
def execPcieLinkTrained (s : State) : Host.Outcome State Fault Refusal :=
  .next (if s.boot.perst && s.mod.rails && s.boot.done.contains 3 && !s.boot.linked then
    let s : State := { s with boot := { s.boot with linked := true } }
    if s.booting && s.boot.ready then s.release else s
  else s)

/-- PCIE_LINK_DOWN (R430, R506): after release a device warm reset; before it only the host link is delayed. -/
def execPcieLinkDown (s : State) : Host.Outcome State Fault Refusal :=
  .next (if s.boot.linked then
    let t : State := { s with boot := { s.boot with linked := false } }
    if s.inService then t.decideReset 7 0 false false 1 else t
  else s)

/-- A Function Level Reset (R430, R426, R331): the partition is reset, and the function's configuration and ERRL registers
return to their reset values. -/
def State.flr (s : State) (fn : Nat) : State :=
  let s : State := { s with cfgs := s.cfgs.del fn }
  let s := s.setAts fn Ats.fresh
  if fn = 0 then s else (s.resetErrl fn).decideReset 4 (fn - 1) false false 1

/-- A configuration request that completes; code 7 of `Out.pcie` is its completion. -/
def State.configure (s : State) (fn : Nat) (r : CfgReq) : State :=
  let s := s.send (.pcie fn 7 0)
  match r with
  | .other _ => s
  | .bar2Size n =>
    if 30 ≤ n ∧ n ≤ 40 then s.setCfg fn { s.cfg fn with bar2 := n } else s
  | .ats on =>
    let a := s.atsOf fn
    s.setAts fn (if on then { a with on := true } else { a with on := false, cached := [] })
  | .pri on quota => s.setAts fn { s.atsOf fn with pri := on, quota := quota }
  | .msix on mask => (s.setCfg fn { s.cfg fn with msix := on, masked := mask }).msiFlush fn
  | .tags10 on => s.setCfg fn { s.cfg fn with tags10 := on }
  | .vfs on => if fn = 0 then s.setCfg 0 { s.cfg 0 with vfs := on } else s
  | .flr => s.flr fn

/-- PCIE_CONFIG_REQUEST (R478): Request Retry Status before release (code 6 of `Out.pcie`). -/
def execPcieConfigRequest (fn : Nat) (r : CfgReq) (s : State) : Host.Outcome State Fault Refusal :=
  .next (if !s.boot.linked || decide (33 ≤ fn) then s
  else if s.inService then s.configure fn r else s.send (.pcie fn 6 0))

/-! ## Power, reset and fault contacts (R496 to R500, R505, R506) -/

/-- PWR_EN_RISE (R497, R505): power-up starts where the input is above 46.0 V, and waits for the host's
PERST# anew. Readings are in 0.1 V. -/
def execPwrEnRise (vin : Nat) (s : State) : Host.Outcome State Fault Refusal :=
  .next (if s.mod.pwrEn then s
  else
    let t : State := { s with mod := { s.mod with pwrEn := true, vin := vin } }
    if 460 < vin ∧ s.fld 0 0 Reg.PWR_STAT.STATE = 0 then
      let u := t.coldStart 1
      { u with mod := { u.mod with rails := false }, boot := { u.boot with perst := false } }
    else t)

/-- The fault contact and its code are released (R500). -/
def State.releaseFault (s : State) : State :=
  if s.mod.fault then ({ s with mod := { s.mod with fault := false, code := 0 } } : State).send (.pin 1 0) else s

/-- PWR_EN_FALL (R497, R500, R506): in any state every rail is removed. -/
def execPwrEnFall (s : State) : Host.Outcome State Fault Refusal :=
  .next (if s.mod.pwrEn then
    let s := if s.fld 0 0 Reg.PWR_STAT.STATE = 0 then s else s.railsDown
    let s : State := { s with mod := { s.mod with pwrEn := false, status := 0 } }
    s.releaseFault
  else s)

/-- RST_N_ASSERT (R482, R498): taken from 10 µs on, ignored below 1 µs, and either between; it has no effect while PWR_EN is
deasserted or the rails are down. In service it causes a device cold reset; before release power-up restarts at step 2. -/
def execRstNAssert (us : Nat) (s : State) : Host.Outcome State Fault Refusal :=
  .next (if !s.mod.pwrEn || !s.mod.rails || decide (us < 1) then s
  else
    let (b, s) := if us < 10 then s.drawBool else (true, s)
    if b then
      let t : State := { s with mod := { s.mod with rstLow := true } }
      if t.inService then t.decideReset 8 0 false false 1 else t.coldStart 2
    else s)

/-- RST_N_DEASSERT (R498). -/
def execRstNDeassert (s : State) : Host.Outcome State Fault Refusal := .next { s with mod := { s.mod with rstLow := false } }

/-- The status word gains bits, and PM_ALERT_N (pin 2) is asserted (R501). -/
def State.pmStatus (s : State) (b : Nat) : State :=
  let t : State := { s with mod := { s.mod with status := s.mod.status ||| b } }
  if s.mod.status = 0 then t.send (.pin 2 1) else t

/-- INPUT_UNDERVOLTAGE (R505, R506): below 44.0 V the rails are removed. -/
def execInputUndervoltage (vin : Nat) (s : State) : Host.Outcome State Fault Refusal :=
  .next (if vin < 440 ∧ s.mod.pwrEn = true then
    let t := ({ s with mod := { s.mod with vin := vin } } : State).pmStatus 0x2008
    if s.fld 0 0 Reg.PWR_STAT.STATE = 0 then t else t.railsDown
  else s)

/-- INPUT_OVERVOLTAGE (R500, R505): above 57.0 V the rails are removed, with code 0xB. -/
def execInputOvervoltage (vin : Nat) (s : State) : Host.Outcome State Fault Refusal :=
  .next (if 570 < vin ∧ s.mod.pwrEn = true then
    let t := (({ s with mod := { s.mod with vin := vin } } : State).pmStatus 0x2000).setFault 0xB
    if s.fld 0 0 Reg.PWR_STAT.STATE = 0 then t else t.railsDown
  else s)

/-- INPUT_OVERCURRENT (R500, R501): above 58.5 A, OC_EVT with an ALARM, and code 0xB. Readings are in 0.1 A. -/
def execInputOvercurrent (iin : Nat) (s : State) : Host.Outcome State Fault Refusal :=
  .next (if 585 < iin ∧ s.mod.rails = true then
    let t := (({ s with mod := { s.mod with iin := iin } } : State).pmStatus 0x2000).setFault 0xB
    (t.raise 0 0 Reg.DCTL_MOD_STAT.OC_EVT).logErr (ErrRec.of 4 0x10)
  else s)

/-- VIN_SAG_EVENT (R501): UV_EVT with a CE. -/
def execVinSagEvent (s : State) : Host.Outcome State Fault Refusal :=
  .next (if s.mod.rails then ((s.pmStatus 0x2008).raise 0 0 Reg.DCTL_MOD_STAT.UV_EVT).logCE 0x10 0 0 none else s)

/-- The input stage answers while it runs (R497, R501): from 44.0 V on with PWR_EN asserted. The answer carries the command's
code. -/
def State.pmAnswer (s : State) (code v : Nat) : State :=
  if s.mod.pwrEn ∧ (440 ≤ s.mod.vin ∨ s.mod.rails = true) then s.send (.pin code v) else s

/-- READ_VIN (R501). -/
def execReadVin (s : State) : Host.Outcome State Fault Refusal := .next (s.pmAnswer 0x88 s.mod.vin)
/-- READ_IIN (R501). -/
def execReadIin (s : State) : Host.Outcome State Fault Refusal := .next (s.pmAnswer 0x89 s.mod.iin)
/-- READ_PIN (R501). -/
def execReadPin (s : State) : Host.Outcome State Fault Refusal := .next (s.pmAnswer 0x97 s.mod.pin)
/-- READ_TEMPERATURE_1 (R501): coolant inlet. -/
def execReadTemperature1 (s : State) : Host.Outcome State Fault Refusal := .next (s.pmAnswer 0x8D s.mod.tin)
/-- READ_TEMPERATURE_2 (R501): coolant outlet. -/
def execReadTemperature2 (s : State) : Host.Outcome State Fault Refusal := .next (s.pmAnswer 0x8E s.mod.tout)
/-- STATUS_WORD (R501). -/
def execStatusWord (s : State) : Host.Outcome State Fault Refusal := .next (s.pmAnswer 0x79 s.mod.status)

/-- DCTL_MOD_STAT at an edge (R501): readings, code, and COOL_EVT with a CE as the coolant leaves its limits. -/
def State.modEdge (s : State) (e : EdgeIn) : State :=
  let cool := decide (16 + e.tin < e.tout) || decide (45 < e.tin)
  let was := s.mod.cool
  let s : State := { s with
    mod := { s.mod with vin := e.vin, iin := e.iin, pin := e.pin, tin := e.tin, tout := e.tout, cool := cool } }
  let s := ((s.setFld 0 0 Reg.DCTL_MOD_STAT.VIN (min e.vin 1023)).setFld 0 0 Reg.DCTL_MOD_STAT.IIN (min e.iin 1023)).setFld 0 0
    Reg.DCTL_MOD_STAT.T_CIN (min e.tin 255)
  let s := ((s.setFld 0 0 Reg.DCTL_MOD_STAT.T_COUT (min e.tout 255)).setFld 0 0 Reg.DCTL_MOD_STAT.PIN (min e.pin 0xFFFF)).setFld
    0 0 Reg.DCTL_MOD_STAT.FCODE s.mod.code
  if cool && !was then ((s.raise 0 0 Reg.DCTL_MOD_STAT.COOL_EVT).logCE 0x10 0 0 none).pmStatus 4 else s

end Sys2Proof.Machine
end

