-- ==== Sys2Proof/Machine/Manage.lean ====
section
/-! DEFINITION. The Kwalet management port (R483 to R494): sessions, SPDM, configuration, alarms and bells, firmware update,
dumps, the log and telemetry. -/

namespace Sys2Proof.Machine

open Sys2Proof

/-! ## Sessions (R484, R491, R494) -/

/-- KMC_SESSION_OPEN (R484): a fifth session, or one whose chain does not end at the management root, is refused. A new one is
sent the COMP_DONE notifications that were kept (R494). -/
def execKmcSessionOpen (sess : Nat) (chainOk : Bool) (s : State) : Host.Outcome State Fault Refusal :=
  .next (if s.kmcUp && chainOk && decide (s.kmc.sessions.length < 4) && (s.session? sess).isNone then
    let k : Session := { id := sess, reqs := [], period := 0, mask := 0, upTo := s.now }
    let t : State := { s with kmc := { s.kmc with sessions := s.kmc.sessions ++ [k], kept := [] } }
    s.kmc.kept.foldl (fun (t : State) b => t.send (.kmc sess 0x0011 0 0 true b)) t
  else s)

/-- KMC_SESSION_CLOSE (R491, R494): an open image of the session is abandoned. -/
def execKmcSessionClose (sess : Nat) (s : State) : Host.Outcome State Fault Refusal :=
  .next (match s.session? sess with
  | none => s
  | some _ =>
    let fw := if (s.kmc.fw.map (·.sess)) == some sess then none else s.kmc.fw
    ({ s with kmc := { s.kmc with sessions := s.kmc.sessions.filter (·.id != sess), fw := fw } } : State).startLife)

/-! ## SPDM (R486) -/

/-- The connections of SPDM are no session of R484: their answers leave under this number. -/
def spdmConn : Nat := 0x10000

/-- An SPDM request is answered wherever the controller serves more than R475 and R476 leave it: with a response of the
code that SPDM gives it, or with ERROR (0x7F). -/
def State.spdm (s : State) (code : Nat) (body : Option (List Byte)) : State :=
  if s.kmcUp && decide (s.boot.stop ≠ 2) then
    match body with
    | some b => s.send (.kmc spdmConn code 0 0 false b)
    | none => s.send (.kmc spdmConn 0x7F 0 0 false [])
  else s

/-- The certificate chain of slot 0: the Epunide root, the identity key and the attestation key. -/
def certChain : List Byte := Config.document 20 0

/-- GET_VERSION (R486): SPDM 1.3 alone. -/
def execGetVersion (s : State) : Host.Outcome State Fault Refusal := .next (s.spdm 0x04 (some (leBytes 2 0x1300)))

/-- GET_CAPABILITIES (R486). -/
def execGetCapabilities (s : State) : Host.Outcome State Fault Refusal := .next (s.spdm 0x61 (some (Config.document 21 0)))

/-- NEGOTIATE_ALGORITHMS (R486): what is chosen of TPM_ALG_RSAPSS_3072 and SHA-384, where each was offered. -/
def execNegotiateAlgorithms (rsapss3072 sha384 : Bool) (s : State) : Host.Outcome State Fault Refusal :=
  .next (s.spdm 0x63 (some (leBytes 1 rsapss3072.toNat ++ leBytes 1 sha384.toNat)))

/-- GET_DIGESTS (R486): slot 0 alone holds certificates. -/
def execGetDigests (s : State) : Host.Outcome State Fault Refusal :=
  .next (s.spdm 0x01 (some (leBytes 1 1 ++ shaBytes certChain)))

/-- GET_CERTIFICATE (R486). -/
def execGetCertificate (slot off len : Nat) (s : State) : Host.Outcome State Fault Refusal :=
  .next (s.spdm 0x02 (if slot = 0 then some ((certChain.drop off).take len) else none))

/-- CHALLENGE (R486): signed with the identity RSA key, key slot 0. -/
def execChallenge (slot : Nat) (nonce : BitVec 256) (s : State) : Host.Outcome State Fault Refusal :=
  .next (s.spdm 0x03 (if slot = 0 then
    let m := shaBytes certChain ++ leBytes 32 nonce.toNat
    some (m ++ fixed 384 (Config.sign (s.keyOf 0) m))
  else none))

/-- One measurement (R486): indices 1 to 8 the digests of images 0 to 7, 9 H_FW. -/
def State.measurement (s : State) (i : Nat) : Option (List Byte) :=
  if 1 ≤ i ∧ i ≤ 8 then some (s.imageDigest (i - 1)) else if i = 9 then some s.hFw else none

/-- GET_MEASUREMENTS (R486): index 0 gives their number and 0xFF all of them, as SPDM has it. -/
def execGetMeasurements (index : Nat) (s : State) : Host.Outcome State Fault Refusal :=
  .next (s.spdm 0x60 (if index = 0 then some [9]
    else if index = 0xFF then some (((List.range 8).flatMap s.imageDigest) ++ s.hFw)
    else s.measurement index))

/-! ## Identity and reports -/

/-- Registers as a body. -/
def State.regBytes (s : State) (offs : List Nat) : List Byte := offs.flatMap fun o => leBytes 8 (s.value 0 o)

/-- GET_INFO (R489). -/
def execGetInfo (sess req : Nat) (s : State) : Host.Outcome State Fault Refusal :=
  .next (s.kmcRequest sess 0x0001 req fun s => (0, s.regBytes [0x0, 0x10, 0x18, 0x1030000, Reg.DCTL_BOOT_STAT.BANK.off], s))

/-- REPORT (R394). -/
def execReport (sess req : Nat) (nonce : BitVec 384) (s : State) : Host.Outcome State Fault Refusal :=
  .next (s.kmcRequest sess 0x0002 req fun s =>
    let (r, s) := s.report 1 none (leBytes 48 nonce.toNat)
    (0, r, s))

/-- MGMT_ROOT (R485): an authorisation of R381's form by the recorded owner changes the digest, for new sessions. -/
def execMgmtRoot (sess req : Nat) (digest : BitVec 384) (a : LifeAuth) (s : State) : Host.Outcome State Fault Refusal :=
  .next (s.kmcRequest sess 0x0003 req fun s =>
    let ok := s.authOk a && a.signer == 2 && s.fld 0 0 Reg.DCTL_LIFE.OWNER == 1
    let s : State := if s.sec.challenge = some a.challenge then { s with sec := { s.sec with challenge := none } } else s
    if ok then (0, [], { s with kmc := { s.kmc with root := beBytes 48 digest.toNat } }) else (0x21, [], s))

/-! ## Configuration (R489, R493) -/

/-- Whether the node ID may be written (R493). -/
def State.nodeFree (s : State) : Bool :=
  s.fld 0 0 Reg.DCTL_PARISH2.STATE == 0 && !((List.range 32).any fun q => s.fld 0 q Reg.DCTL_COMP_PART0.STATE == 1)

/-- CONFIG_WRITE (R489, R493): its fields take their values and flash keeps them. -/
def execConfigWrite (sess req : Nat) (pairs : List (Nat × U64)) (s : State) : Host.Outcome State Fault Refusal :=
  .next (s.kmcRequest sess 0x0012 req fun s =>
    if 64 < pairs.length ∨ pairs.any (fun (x : Nat × U64) => kmcMask x.1 == 0) then (0x20, [], s)
    else if pairs.any (fun (x : Nat × U64) => x.1 == 0x1000080) && !s.nodeFree then (0x11, [], s)
    else
      let s := pairs.foldl (fun (s : State) (x : Nat × U64) =>
        let s := s.writeConfig x.1 x.2
        { s with kmc := { s.kmc with config := s.kmc.config.put x.1 x.2 } }) s
      (0, [], s))

/-- ROUTE_WRITE (R269, R489): entries of a partition, which take effect at the next edge. -/
def execRouteWrite (sess req part first : Nat) (entries : List U64) (s : State) : Host.Outcome State Fault Refusal :=
  .next (s.kmcRequest sess 0x0013 req fun s =>
    if 32 ≤ part ∨ 512 < first + entries.length ∨ entries.any (fun (e : U64) => bits e.toNat 0 5 != 0) then (0x20, [], s)
    else
      let ds := entries.zipIdx.map fun (x : U64 × Nat) => Deferred.reg 0 (0x1008000 + 8 * (512 * part + first + x.2)) x.1
      (0, [], { s with deferred := s.deferred ++ ds }))

/-! ## Alarms and bells (R434, R469) -/

/-- ALARM_RAISE (R434): the manager's alarm, flooded in its scope. This package acts on it as a receiver; it has no originating
partition (log 50). -/
def execAlarmRaise (sess req scope cause vd : Nat) (detail : BitVec 128) (s : State) : Host.Outcome State Fault Refusal :=
  .next (s.kmcRequest sess 0x0034 req fun s =>
    if ¬(scope = 1 ∨ scope = 2) ∨ ¬(cause = 8 ∨ cause = 9) ∨ (cause = 8 ∧ scope = 1) ∨ (scope = 2 ∧ vd ≠ 0)
        ∨ (scope = 1 ∧ vd = 0) then (0x20, [], s)
    else
      let (o, s) := s.draw
      let node := s.fld 0 0 Reg.DCTL_NODE.NODE
      let pay := alarmPayload node s.alarmId scope cause s.now vd (o % 256) (leBytes 16 detail.toNat)
      let c : Cell := { cellOf 0xC (if scope = 2 then 6 else 4) with hop := 1, src := node, vd := vd, len := 31, payload := pay }
      let s := s.recordFlood 0xC node s.alarmId
      let s : State := { s with alarmId := (s.alarmId + 1) % 65536 }
      (0, [], (s.sendAll (s.floodPorts scope vd none) c).alarmArrives pay))

/-- BELL_RAISE (R277, R469). -/
def execBellRaise (sess req scope vd target : Nat) (s : State) : Host.Outcome State Fault Refusal :=
  .next (s.kmcRequest sess 0x0035 req fun s =>
    if ¬(scope = 1 ∨ scope = 3) ∨ (scope = 3 ∧ vd ≠ 0) ∨ (scope = 1 ∧ vd = 0) then (0x20, [], s)
    else (0, [], (s.addBell 0 target).sendBell scope vd target))

/-! ## Firmware update (R491) -/

/-- FW_BEGIN (R491, R494). -/
def execFwBegin (sess req image len : Nat) (s : State) : Host.Outcome State Fault Refusal :=
  .next (s.kmcRequest sess 0x0040 req fun s =>
    if 7 < image then (0x20, [], s)
    else if s.kmc.fw.isSome ∨ s.sec.busy then (0x22, [], s)
    else (0, [], { s with kmc := { s.kmc with fw := some { sess := sess, image := image, len := len, data := [] } } }))

/-- FW_CHUNK (R489, R491): data for the session's open image. -/
def execFwChunk (sess req off : Nat) (data : List Byte) (s : State) : Host.Outcome State Fault Refusal :=
  .next (s.kmcRequest sess 0x0041 req fun s =>
    match s.kmc.fw with
    | none => (0x11, [], s)
    | some w =>
      if w.sess ≠ sess then (0x11, [], s)
      else if 65536 < data.length ∨ w.len < off + data.length then (0x20, [], s)
      else
        let d := data.zipIdx.foldl (fun (d : Tab Byte) (x : Byte × Nat) => d.put (off + x.2) x.1) w.data
        (0, [], { s with kmc := { s.kmc with fw := some { w with data := d } } }))

/-- The bytes of an image as buffered. -/
def FwImage.bytes (w : FwImage) : List Byte := (List.range w.len).map (w.data.get 0)

/-- FW_COMMIT (R475, R491): the signatures are of the production key pair (1), or of the test pair (2) where the lifecycle
state accepts it; bank B is written before bank A. -/
def execFwCommit (sess req signer : Nat) (s : State) : Host.Outcome State Fault Refusal :=
  .next (s.kmcRequest sess 0x0042 req fun s =>
    match s.kmc.fw with
    | none => (0x11, [], s)
    | some w =>
      if w.sess ≠ sess then (0x11, [], s)
      else if signer = 1 ∨ (signer = 2 ∧ s.fld 0 0 Reg.DCTL_LIFE.TEST_KEYS = 1) then
        let kmc' : Kmc := { s.kmc with
          fw := none, bankB := s.kmc.bankB.put w.image w.bytes, bankA := s.kmc.bankA.put w.image w.bytes }
        (0, [], ({ s with kmc := kmc' } : State).startLife)
      else (0x21, [], s))

/-! ## Dumps and the log (R426, R440) -/

/-- DUMP_LIST (R489). -/
def execDumpList (sess req : Nat) (s : State) : Host.Outcome State Fault Refusal :=
  .next (s.kmcRequest sess 0x0050 req fun s => (0, s.regBytes [0x1007018], s))

/-- DUMP_READ (R440, R489, R494): the opened plaintext. A slot that does not open holds no dump to read: WRONG_STATE (DESIGN
CHOICE, log 52). -/
def execDumpRead (sess req slot off len : Nat) (s : State) : Host.Outcome State Fault Refusal :=
  .next (s.kmcRequest sess 0x0051 req fun s =>
    if 3 < slot ∨ 65536 < len then (0x20, [], s)
    else if s.sec.busy then (0x22, [], s)
    else match s.dump.slots.find? slot with
      | none => (0x11, [], s)
      | some d => match d.opened (s.keyOf 4) with
        | some b => (0, (b.drop off).take len, s)
        | none => (0x11, [], s))

/-- DUMP_ACK (R489). -/
def execDumpAck (sess req slot : Nat) (s : State) : Host.Outcome State Fault Refusal :=
  .next (s.kmcRequest sess 0x0052 req fun s =>
    if 3 < slot then (0x20, [], s) else (0, [], s.setFld 0 0 ⟨0x1007018, 0, 28 + slot, 1⟩ 0))

/-- LOG_READ (R426, R489): records from eMMC, from a SEQ on. -/
def execLogRead (sess req first count : Nat) (s : State) : Host.Outcome State Fault Refusal :=
  .next (s.kmcRequest sess 0x0053 req fun s =>
    if 1024 < count then (0x20, [], s)
    else
      let rs := (s.log.stored.flatMap (LogBlock.records (s.keyOf 4))).filter fun r =>
        decide ((leNat (r.take 4) + 2 ^ 32 - first % 2 ^ 32) % 2 ^ 32 < 2 ^ 31)
      (0, (rs.take count).flatMap id, s))

/-! ## Telemetry and test requests (R467, R492) -/

/-- Offsets of a register's array. -/
def arrayOffs (f : Fld) (n : Nat) : List Nat := (List.range n).map fun i => f.off + f.stride * i

/-- The registers of a telemetry group (R492). -/
def teleGroup (g : Nat) : List Nat :=
  if g = 0 then [Reg.PWR_STAT.STATE.off, 0x100030]
  else if g = 1 then arrayOffs Reg.PWR_TEMP.TEMP 46
  else if g = 2 then arrayOffs Reg.DCTL_MEMSTAT.PRESENT 30
  else if g = 3 then arrayOffs Reg.DCTL_LYS_PSTAT.STATE 32 ++ arrayOffs Reg.DCTL_LYS_OPT.RX_MIN 32
  else if g = 4 then arrayOffs Reg.DCTL_COMP_PART0.STATE 32
  else [Reg.DCTL_BEAT_STAT.LOCK.off]

/-- TELE_SUB (R492): a period of zero cancels the subscription. -/
def execTeleSub (sess req period mask : Nat) (s : State) : Host.Outcome State Fault Refusal :=
  .next (s.kmcRequest sess 0x0060 req fun s =>
    if 64 ≤ mask ∨ 65536 ≤ period then (0x20, [], s)
    else (0, [], s.updSession sess fun k => { k with period := period, mask := mask, upTo := s.now }))

/-- The telemetry message of one session (R492), where a multiple of its period lies after the beats that were decided for and
up to this one: after a forward jump one message stands for all multiples that it skipped, and after a backward jump none is
sent again (R25, log 126). -/
def State.telemetry (s : State) (i : Nat) : State :=
  match s.session? i with
  | none => s
  | some k =>
    let t := s.updSession i fun k => { k with upTo := max k.upTo s.now }
    if k.period = 0 ∨ s.now / k.period ≤ k.upTo / k.period then t
    else
      let body := leBytes 6 s.now ++ leBytes 2 k.mask ++ (setBits k.mask 6).flatMap fun g => s.regBytes (teleGroup g)
      t.send (.kmc i 0x0061 0 0 true body)

/-- TELEMETRY (R492). -/
def execTelemetry (sess : Nat) (s : State) : Host.Outcome State Fault Refusal := .next (s.telemetry sess)

/-- Telemetry of every session at an edge. -/
def State.telemetryAll (s : State) : State := (s.kmc.sessions.map (·.id)).foldl State.telemetry s

/-- TEST_REQ (R467): in TEST and RETURNED alone, with no partition ACTIVE; the manual gives the result's content nowhere. -/
def execTestReq (sess req op : Nat) (s : State) : Host.Outcome State Fault Refusal :=
  .next (s.kmcRequest sess 0x0071 req fun s =>
    if s.fld 0 0 Reg.DCTL_LIFE.TEST_ENGINE = 1
        ∧ ((List.range 32).all fun q => s.fld 0 q Reg.DCTL_COMP_PART0.STATE != 1) = true then
      (0, Config.document (1000 + op) s.free, { s with free := s.free + 1 })
    else (0x11, [], s))

end Sys2Proof.Machine
end

