-- ==== Sys2Proof/Machine/Edge.lean ====
section
/-! DEFINITION. The actions of an edge, in the order of R28 (R16, R28 to R32). -/

namespace Sys2Proof.Machine

open Sys2Proof

/-- Every element of a range taken in turn. -/
def State.each (s : State) (n : Nat) (f : State → Nat → State) : State := (List.range n).foldl f s

/-! ## What waited for the edge (R16) -/

/-- What applies at step 6 of an edge: the power cap, gates and power states (R28, R448). -/
def Deferred.late : Deferred → Bool
  | .power _ => true
  | .reg _ off _ => off == 0x100008 || off == 0x100010
  | _ => false

/-- A graph's next version becomes its newest; the one before goes where no launch holds it (R359). -/
def State.newVersion (s : State) (fn g : Nat) : State :=
  match s.graphs.find? (key2 fn g) with
  | none => s
  | some x => match x.next with
    | none => s
    | some v =>
      let y : Graph := { x with vers := (x.vers.filter fun o => decide (0 < o.holders)) ++ [v], next := none }
      { s with graphs := s.graphs.put (key2 fn g) y }

/-- One thing that waited takes effect. -/
def State.applyOne (s : State) : Deferred → State
  | .reg fn off v => s.applyReg fn off v
  | .seq slot fn ctx tokens first pages q sq g => match s.seqApply slot fn ctx tokens first pages with
    | .ok s => s.finish fn q sq g 0 0 false
    | .error e => s.failedRead ⟨fn, q, sq, g, ctx, 0⟩ e.kind e.va
  | .graph fn g q sq => (s.newVersion fn g).finish fn q sq none 0 0 false
  | .queueOff fn q => s.queueOff fn q
  | .sieve fn t v => s.setSieve fn t v
  | .done fn q sq g st => s.finish fn q sq g st 0 false
  | .power _ => s
  | .beatLen len => s.setFld 0 0 Reg.DCTL_BEAT_CFG.BEAT_LEN len
  | .halt => s.halt

/-- Everything that waited, but for what step 6 takes, in the order in which it came. -/
def State.applyDeferred (s : State) : State :=
  (s.deferred.filter fun d => !d.late).foldl State.applyOne { s with deferred := s.deferred.filter Deferred.late }

/-- Registers of power control that waited (step 6); a state asked for is taken by `State.applyPower`. -/
def State.applyLate (s : State) : State :=
  let isReg (d : Deferred) : Bool := match d with
    | .reg _ _ _ => true
    | _ => false
  (s.deferred.filter fun d => d.late && isReg d).foldl State.applyOne
    { s with deferred := s.deferred.filter fun d => !(d.late && isReg d) }

/-- EDGE_DEFERRED_APPLY (R16). -/
def execEdgeDeferredApply (s : State) : Host.Outcome State Fault Refusal :=
  .next (if s.inService then s.applyDeferred.applyLate.applyPower else s.applyDirect)

/-! ## Step 2: readings and samples -/

/-- Readings of the optics at an edge (R248, R278): DCTL_LYS_OPT whole, and the readings of DCTL_LYS_INLET. -/
def State.takeOptics (s : State) (l : List (Nat × U64)) : State :=
  l.foldl (fun (s : State) (x : Nat × U64) =>
    if inSpan x.1 0x1006000 0x800 && x.1 % 64 == 40 then s.wr 0 x.1 x.2
    else if inSpan x.1 0x1006800 0x40 && x.1 % 8 == 0 then s.wr 0 x.1 (merge (s.rd 0 x.1) x.2 (BitVec.ofNat 64 (fieldMask 24 32)))
    else s) s

/-- The mean latency that the sampler reports for a partition at a place, saturated; zero where it reports none (R373). -/
def meanOf (l : List LatIn) (q place : Nat) : Nat :=
  match l.find? fun x => x.part == q && x.place == place with
  | some x => min x.mean 65535
  | none => 0

/-- Step 2 of R28: the samplers close the beat, and what they and the sensors found is shown. -/
def State.edgeSample (s : State) (e : EdgeIn) : State :=
  let s := (s.sample e).takeTemps e.temps
  let s := s.each 30 fun s i => s.noteTemp i ((e.memTemps[i]?).getD (s.fld 0 i Reg.DCTL_MEMSTAT.TEMP))
  let s := s.each 32 fun s q => s.qosStep q (meanOf e.lat q)
  ((s.takeOptics e.optics).modEdge e).telemetryAll

/-! ## Step 3: progress -/

/-- ERRL_PROG of one core, and its marks of progress cleared for the coming beat (R427). -/
def State.progEdge (s : State) (closed n : Nat) : State :=
  let c := s.core n
  let s := if c.engBeat = 0 ∧ c.issuedBeat = false then s else s.setFld 0 n Reg.ERRL_PROG.LAST closed
  let s := (s.setFld 0 n Reg.ERRL_PROG.ENGINES c.engBeat).setFld 0 n Reg.ERRL_PROG.SEQ c.issuedBeat.toNat
  if c.engBeat = 0 ∧ c.issuedBeat = false then s else s.setCore n { c with engBeat := 0, issuedBeat := false }

/-- Step 3 of R28: the watchdogs evaluate the beat that has closed. -/
def State.edgeWatch (s closed : State) : State :=
  ((s.watch closed.tick).expireAll).each 512 fun s n => s.progEdge closed.now n

/-! ## Step 5: resets, and what waited -/

/-- Resets whose drains may end at this edge. -/
def State.drainResets (s : State) : State := (s.resets.map (·.id)).foldl State.resetDrain s

/-- Step 5 of R28: what waited applies, resets end and start, aborts, holds and destructions take place, and an UNBIND that
opens at this edge shutters what it releases (R306). -/
def State.edgeResets (s : State) : State :=
  let s := (s.applyDeferred.applyResumes).parishEnded
  let s := (s.endResets.shutterAll).drainResets
  if !s.inService then s
  else
    let s := s.startAborts
    let s := s.fenced.foldl State.expireHold s
    let s := (s.startDestroys.overdueDestroys).dropFailed
    (((s.each 32 State.limitDrain).retryReplace).each 32 State.drainIfDone).shutterDue

/-! ## Steps 6 and 7: power and composition -/

/-- Memory units at step 6 (R190, R191, R201): their throttle steps, and those that restart, from the beat that closed; a new
beat of readings and repairs begins. -/
def State.edgeUnits (s : State) : State :=
  let s : State := { s.each 30 State.throttle with hot := [], mended := [] }
  s.each 30 State.restartUnit

/-- Step 6 of R28: throttle steps apply before the power cap (R201). -/
def State.edgePower (s : State) (e : EdgeIn) : State :=
  let s := s.edgeUnits
  let hottest := (logicSensors.map fun i => e.temps.getD i 0).foldl max 0
  (s.applyLate).powerEdge e.watts hottest

/-- Step 7 of R28: wipes and drains that are over, changes that end, and those that open (R305); rotation's turn, and a
parish's start (R403). -/
def State.edgeCompose (s : State) (e : EdgeIn) : State :=
  let s := (s.freeWiped.each 32 State.drainIfDone).endChanges
  let s := (s.considerAll e.ext).2
  (s.rotEdge.parishStart).startRoll

/-! ## Steps 9 to 11: schedulers, blocks and commands -/

/-- A core's next block starts (R28 step 10, R29): one at BEAT.END that runs, is not moving to another physical core, and whose
domain is in service. -/
def State.startBlock (s : State) (n : Nat) : State :=
  let c := s.core n
  if c.running && !c.stopped && c.cur.hold == .beatEnd && c.atEnd && !s.movingCore n && !s.coreShut n then
    s.setCore n { c with cur := { c.cur with hold := .free }, blockBeat := s.tick, oldSlots := [] }
  else s

/-- Step 10 of R28: blocks, launches that are loaded, and preloads. -/
def State.edgeBlocks (s : State) : State :=
  ((s.each 512 State.startBlock).each 512 State.launchCore).each 512 State.startPreload

/-- What cores gave up before an edge has been charged (R336). -/
def State.forgetLeft (s : State) : State :=
  let clear (c : Core) : Core := if c.left.isSome then { c with left := none } else c
  { s with cores := s.cores.mapVals fun _ c => clear c }

/-- Steps 8 to 11 of R28. -/
def State.edgeStarts (s : State) : State :=
  let s := (s.each 32 State.schedBeatEnd).each 32 State.schedEdge
  let s := s.switchEdge.each 33 State.checkSave
  s.edgeBlocks.sweep.completeEnded.startAll

/-! ## The edge -/

/-- Whether a requester of reads at other nodes is still there: a preload, a command, or a queued change. -/
def State.readerLives (s : State) (who : List Nat) : Bool :=
  match who with
  | [0, n, l] => (s.core n).preload.any fun p => p.launch == l
  | 1 :: fn :: q :: sq :: _ => (s.qrec fn q sq).any fun r => r.st == 1
  | [2, h] => s.queuedChanges.any fun x => x.handle == h
  | _ => false

/-- Reads whose requester is gone are given up, once their answers have come. -/
def State.reapReads (s : State) : State :=
  { s with reads := s.reads.filter fun r => r.answer.isNone || s.readerLives r.who }

/-- An edge of a package in service, by the order of R28; `closed` is the state as the beat before it closed. -/
def State.edge (s : State) (e : EdgeIn) : State :=
  let s := (s.flushUnits fun _ => true).noteRoutes
  let closed := s
  let s := (s.latchSections.beatPart).ringBells closed
  let s := (s.edgeSample e).edgeWatch closed
  let s := s.each 512 fun s n => (s.markLate n).lateEvent n
  let s := s.edgeResets
  if !s.inService then s
  else (((s.edgePower e).edgeCompose e).edgeStarts).reapReads.forgetLeft

/-- BEAT_EDGE (R28). Before release the beat alone runs (R477), and without rails nothing does. -/
def execBeatEdge (e : EdgeIn) (s : State) : Host.Outcome State Fault Refusal :=
  .next (if !s.mod.rails then s else if s.inService then s.edge e else s.beatPart)

end Sys2Proof.Machine
end

