-- ==== Sys2Proof/Machine/Matrix.lean ====
section
/-! DEFINITION. The matrix instructions (R111 to R116): what issue checks, and what the engine does when the instruction
completes (log 9). -/

namespace Sys2Proof.Machine

open Sys2Proof

/-- An instruction enters an engine's queue (R64, R65). -/
def CoreState.enqueue (c : CoreState) (bundle eng op : Nat) (f : BitVec 54) (tds : List (Nat × BitVec 128))
    (vals : List U64) (rd wr : List Nat) (dst : Option Nat) : CoreState :=
  { c with
    seq := c.seq + 1
    engq := c.engq ++ [{ seq := c.seq, bundle := bundle, eng := eng, op := op, f := f, tds := tds, vals := vals
                         rd := rd, wr := wr, dst := dst, started := false, degraded := false }] }

/-- An engine's queue has room: it is 8 deep (R64). -/
def engRoom (e : Nat) (c : CoreState) : Bool := decide (c.engDepth e < 8)

/-- The request of an M slot. -/
def mReq (ok : Bool) (regs : List Nat) (dests : List Nat) : SlotReq :=
  { cls := 1, ok := ok, regs := regs, dests := dests, always := false }

/-- Formats that a matrix engine accepts: all but FP32 and INT32 (R35, R36). -/
def mmaFmt (d : BitVec 128) : Bool := decide (1 ≤ tdFmt d) && decide (tdFmt d ≤ 0xC)

/-- An accumulator bank as a destination. -/
def dAcc (me b : Nat) : Nat := 2000 + 4 * me + b

/-- The first offset in a register: N of an MMA (R112). -/
def mmaN (v : U64) : Nat := bits v.toNat 32 8 + 1

/-- MMA (R112, R114): the checks of issue. -/
def execMma (x : Slot) (s : State) : Host.Outcome State Fault Refusal :=
  let f := x.f
  let e := sEng f
  let acc := opf f 27 26
  .next (s.issue x (mReq (opf f 45 44 == 0 && opf f 25 0 == 0) [opf f 33 28]
      ((List.range 4).filterMap fun b => if acc ≤ b then some (dAcc e b) else none)) (engRoom e) fun base cur =>
    let r := base.tdv (opf f 43 39)
    let t := base.tdv (opf f 38 34)
    let v := base.rs (opf f 33 28)
    if !(tdOk r && mmaFmt r && tdOk t && mmaFmt t) || bits v.toNat 56 8 != 0 || decide (4 < acc + ceilDiv (mmaN v) 32)
        || (fmtMx (tdFmt r) && !bitOf f.toNat 46) then .error { excOf 1 with td := opf f 43 39 }
    else .ok (cur.enqueue base.pc e 1 f [(opf f 43 39, r), (opf f 38 34, t)] [v] [opf f 43 39, opf f 38 34] [] none,
      none))

/-- ACC.DRAIN's destination formats (R115). -/
def drainFmt (d : BitVec 128) : Bool := decide (tdFmt d ≤ 4)

/-- The banks named by ACC and NBM1 (R115). -/
def bankList (f : BitVec 54) : List Nat := (List.range (opf f 25 24 + 1)).map fun m => opf f 27 26 + m

/-- ACC.DRAIN (R115): the checks of issue. -/
def execAccDrain (x : Slot) (s : State) : Host.Outcome State Fault Refusal :=
  let f := x.f
  let td := opf f 43 39
  .next (s.issue x (mReq (bitOf f.toNat 47 == false && bitOf f.toNat 44 == false && opf f 46 45 != 3
      && opf f 31 28 == 0 && opf f 23 0 == 0) [opf f 37 32] []) (engRoom (sEng f)) fun base cur =>
    let d := base.tdv td
    if !(tdOk d && drainFmt d) || decide (3 < opf f 27 26 + opf f 25 24) then .error { excOf 1 with td := td }
    else .ok (cur.enqueue base.pc (sEng f) 2 f [(td, d)] [base.rs (opf f 37 32)] [] [td] none, none))

/-- ACC.LOAD (R116): the checks of issue. -/
def execAccLoad (x : Slot) (s : State) : Host.Outcome State Fault Refusal :=
  let f := x.f
  let td := opf f 43 39
  .next (s.issue x (mReq (opf f 47 44 == 0 && opf f 31 28 == 0 && opf f 23 0 == 0) [opf f 37 32]
      ((bankList f).map (dAcc (sEng f)))) (engRoom (sEng f)) fun base cur =>
    let d := base.tdv td
    if !(tdOk d && tdFmt d == 0) || decide (3 < opf f 27 26 + opf f 25 24) then .error { excOf 1 with td := td }
    else .ok (cur.enqueue base.pc (sEng f) 3 f [(td, d)] [base.rs (opf f 37 32)] [td] [] none, none))

/-- ACC.ZERO (R116): the checks of issue. -/
def execAccZero (x : Slot) (s : State) : Host.Outcome State Fault Refusal :=
  let f := x.f
  .next (s.issue x (mReq (opf f 47 4 == 0) [] ((setBits (opf f 3 0) 4).map (dAcc (sEng f)))) (engRoom (sEng f))
    fun base cur => .ok (cur.enqueue base.pc (sEng f) 4 f [] [] [] [] none, none))

/-- ACC.SCALE (R116): the checks of issue. -/
def execAccScale (x : Slot) (s : State) : Host.Outcome State Fault Refusal :=
  let f := x.f
  let td := opf f 43 39
  .next (s.issue x (mReq (opf f 46 44 == 0 && bitOf f.toNat 38 == false && opf f 31 28 == 0 && opf f 23 0 == 0)
      [opf f 37 32] ((bankList f).map (dAcc (sEng f)))) (engRoom (sEng f)) fun base cur =>
    let d := base.tdv td
    if !(tdOk d && tdFmt d == 0) || decide (3 < opf f 27 26 + opf f 25 24) then .error { excOf 1 with td := td }
    else .ok (cur.enqueue base.pc (sEng f) 5 f [(td, d)] [base.rs (opf f 37 32)] [td] [] none, none))

/-! ## Completion -/

/-- The key of element (r, c) of an accumulator bank. -/
def accKey (me b r c : Nat) : Nat := me * 4096 + b * 1024 + r * 32 + c

/-- An accumulator element. -/
def CoreState.accEl (c : CoreState) (k : Nat) : Nat := (c.acc.get 0 k).toNat

/-- Accumulator elements written. -/
def CoreState.setAcc (c : CoreState) (l : List (Nat × Nat)) : CoreState :=
  { c with acc := l.foldl (fun t x => t.set 0 x.1 (BitVec.ofNat 32 x.2)) c.acc }

/-- A block of 32 values as MXFP8 E4M3 gives them back under RNE (R140, R152). -/
def degradeBlock (l : List FV) : List FV :=
  let (b, x) := mxScale 5 l
  if b = 0xFF then l.map fun _ => .nan
  else l.map fun v => (decodeEl 5 (mxElement 5 0 0 x v)).mul (decodeScale b)

/-- The k values of one operand along k, degraded where the MMA runs so (R152). -/
def operandK (deg : Bool) (d : BitVec 128) (l : List FV) : List FV :=
  if deg && (tdFmt d == 1 || tdFmt d == 2) then degradeBlock l else l

/-- Integer formats, whose products are summed exactly (R143). -/
def intFmt (d : BitVec 128) : Bool := tdFmt d == 0xA || tdFmt d == 0xB || tdFmt d == 0xC

/-- The terms that one accumulator element adds (R142, R143): k exact products, or for integer formats their exact
sum, and the prior value. -/
def mmaTerms (ints : Bool) (a b : List FV) (prior : FV) : List FV :=
  let ps := (a.zip b).map fun x => x.1.mul x.2
  if ints then [ps.foldl FV.add (.fin false 0 0), prior] else prior :: ps

/-- MMA completes (R112, R142): each named accumulator element is given a sum of its terms in FP32, in a free order. -/
def mmaDone (o : EngOp) (free : Nat) (c : CoreState) : CoreState :=
  let r := (o.tds.getD 0 (0, 0)).2
  let t := (o.tds.getD 1 (0, 0)).2
  let v := (o.vals.getD 0 0).toNat
  let n := mmaN (o.vals.getD 0 0)
  let k := if tdFmt r = 9 ∧ tdFmt t = 9 then 64 else 32
  let rrow := bits v 0 16
  let srow := bits v 16 16
  let skb := bits v 40 8
  let rkb := bits v 48 8
  let tr := bitOf o.f.toNat 46
  let zero := bitOf o.f.toNat 47
  let acc := opf o.f 27 26
  let res := (List.range 32).map fun col => operandK o.degraded r ((List.range k).map fun i =>
    if tr then tileVal c.store r (rrow + col) (32 * rkb + i) else tileVal c.store r (rrow + i) (32 * rkb + col))
  let out := (List.range n).flatMap fun j =>
    let sv := operandK o.degraded t ((List.range k).map fun i => tileVal c.store t (srow + j) (32 * skb + i))
    res.zipIdx.map fun x =>
      let key := accKey o.eng (acc + j / 32) (j % 32) x.2
      let prior := if zero then .fin false 0 0 else decodeEl 0 (c.accEl key)
      let terms := mmaTerms (intFmt r && intFmt t) sv x.1 prior
      (key, narrowEl 0 0 0 (sumF32 (freeOrder (free + (j * 32 + x.2) * 65) terms)))
  c.setAcc out

/-- Draws given to the elements that take one, in the order of the list (R147, R148). -/
def assignDraws (f mode : Nat) : List FV → List Nat → List Nat
  | [], _ => []
  | x :: xs, us =>
    if needsDraw f mode x then narrowEl f mode (us.headD 0) x :: assignDraws f mode xs us.tail
    else narrowEl f mode 0 x :: assignDraws f mode xs us

/-- Values converted to a format, with the draws of a generator in a free order (R148): codes and the generator. -/
def convertAll (f mode : Nat) (l : List FV) (g : Gen) (free : Nat) : List Nat × Gen :=
  let (us, g') := g.draws (l.countP (needsDraw f mode))
  (assignDraws f mode l (freeOrder free us), g')

/-- The bytes of a code of a byte-wide format. -/
def codeBytes (f n : Nat) : List Byte := leBytes (fmtBits f / 8) n

/-- ACC.DRAIN completes (R115): each bank's 32 by 32 values are converted and stored; elements beyond the tile's ROWS
or COLS are not written. -/
def drainDone (o : EngOp) (free : Nat) (c : CoreState) : CoreState :=
  let d := (o.tds.getD 0 (0, 0)).2
  let v := (o.vals.getD 0 0).toNat
  let cells := (bankList o.f).zipIdx.flatMap fun b => (List.range 1024).map fun i =>
    (accKey o.eng b.1 (i / 32) (i % 32), bits v 0 16 + 32 * b.2 + i / 32, bits v 16 16 + i % 32)
  let cells := cells.filter fun x => decide (x.2.1 < tdRows d) && decide (x.2.2 < tdCols d)
  let (codes, g) := convertAll (tdFmt d) (opf o.f 46 45) (cells.map fun x => decodeEl 0 (c.accEl x.1))
    (c.gen.get ⟨0, 0⟩ o.eng) free
  let st := (cells.zip codes).foldl (fun (st : Tab Byte) x =>
    st.setRun (tdBase d + x.1.2.1 * (32 * tdStride d) + x.1.2.2 * (fmtBits (tdFmt d) / 8))
      (codeBytes (tdFmt d) x.2)) c.store
  { c with store := st, gen := c.gen.set ⟨0, 0⟩ o.eng g }

/-- ACC.LOAD completes (R116). -/
def loadDone (o : EngOp) (c : CoreState) : CoreState :=
  let d := (o.tds.getD 0 (0, 0)).2
  let v := (o.vals.getD 0 0).toNat
  c.setAcc ((bankList o.f).zipIdx.flatMap fun b => (List.range 1024).map fun i =>
    (accKey o.eng b.1 (i / 32) (i % 32), tileEl c.store d (bits v 0 16 + 32 * b.2 + i / 32) (bits v 16 16 + i % 32)))

/-- ACC.ZERO completes (R116). -/
def zeroDone (o : EngOp) (c : CoreState) : CoreState :=
  c.setAcc ((setBits (opf o.f 3 0) 4).flatMap fun b =>
    (List.range 1024).map fun i => (accKey o.eng b (i / 32) (i % 32), 0))

/-- ACC.SCALE completes (R116): AXIS 0 multiplies columns by one row's values, AXIS 1 rows of bank m by row m's. -/
def scaleDone (o : EngOp) (c : CoreState) : CoreState :=
  let d := (o.tds.getD 0 (0, 0)).2
  let r0 := bits (o.vals.getD 0 0).toNat 0 16
  let axis := bitOf o.f.toNat 47
  c.setAcc ((bankList o.f).zipIdx.flatMap fun b => (List.range 1024).map fun i =>
    let key := accKey o.eng b.1 (i / 32) (i % 32)
    let factor := if axis then tileVal c.store d (r0 + b.2) (i / 32) else tileVal c.store d r0 (i % 32)
    (key, narrowEl 0 0 0 ((decodeEl 0 (c.accEl key)).mul factor)))

/-- Free numbers that a matrix instruction consumes. -/
def matrixFree (o : EngOp) : Nat := if o.op = 1 then 128 * 32 * 65 else 4096

/-- A matrix instruction completes. -/
def matrixDone (o : EngOp) (free : Nat) (c : CoreState) : CoreState :=
  match o.op with
  | 1 => mmaDone o free c
  | 2 => drainDone o free c
  | 3 => loadDone o c
  | 4 => zeroDone o c
  | _ => scaleDone o c

end Sys2Proof.Machine
end

