-- ==== Sys2Proof/Machine/Network.lean ====
section
/-! DEFINITION. Errors of the on-die network and the die bridge (R53, R55). -/

namespace Sys2Proof.Machine

open Sys2Proof

/-- BRIDGE_LANE_FAIL (R55): four spares take the first failures; a fifth puts the bridge into half rate, with a CE. -/
def execBridgeLaneFail (s : State) : Host.Outcome State Fault Refusal :=
  .next (
    let s : State := { s with bridge := s.bridge + 1 }
    if 4 < s.bridge ∧ s.fld 0 0 Reg.IDC_TOPO.BRIDGE_HALF = 0 then
      (s.setFld 0 0 Reg.IDC_TOPO.BRIDGE_HALF 1).logCE 0x04 0 0 none
    else s)

/-- NETWORK_PACKET_ERROR (R53): a corrected error is a CE; a payload part that cannot be corrected is delivered poisoned, and
fails the move, walk, preload or command that consumes it, or poisons the memory that it is written to (R187); a header that
cannot be corrected is FATAL. -/
def execNetworkPacketError (die : Nat) (e : PacketError) (s : State) : Host.Outcome State Fault Refusal :=
  .next (match e with
    | .corrected => s.logCE 0x04 0 (0x5000 + die) none
    | .payload n tag pos =>
      match (s.core n).cur.moves.find? fun m => m.tag == tag && m.started with
      | some m => s.setMove n { m with badAt := m.badAt ++ [(pos / 64 * 64, 64)] }
      | none => s
    | .walk n tag va =>
      match (s.core n).cur.moves.find? fun m => m.tag == tag && m.started && m.fid.isNone with
      | some m => s.moveFault n m 8 va true
      | none => s
    | .preload n =>
      match (s.core n).preload.bind fun p => if p.started && !p.done then s.launch? p.launch else none with
      | some l => s.preloadFailed n l 8
      | none => s
    | .record fn q sq => s.updRec fn q sq fun r => if r.st == 2 then r else { r with badRead := true }
    | .header => s.fatal 0x04 (0x5000 + die))

end Sys2Proof.Machine
end

