-- ==== Sys2Proof/Machine/Tier2.lean ====
section
/-! DEFINITION. What tier 2 stores outside the package (R405 to R409), and the 32 metadata bytes of a unit (R184, R185,
R407): functions of the state, since the model keeps the plaintext and the counters. -/

namespace Sys2Proof.Machine

open Sys2Proof

/-! ## Granules (R405, R406, R413) -/

/-- The key slot of a group (R413): 6 below the threshold of a roll, else 5. -/
def State.groupSlot (s : State) (m j : Nat) : Nat := if j < s.fld 0 m Reg.DCTL_T2ROLL.THR then 6 else 5

/-- The IV of a granule (R406). -/
def granuleIv (pa ctr : Nat) : List Byte := [0xD1] ++ leBytes 5 (pa / 512 % 2 ^ 35) ++ leBytes 5 ctr ++ [0]

/-- A granule as its controller stores it (R405): 512 bytes of ciphertext with their tag. -/
def State.granuleSealed (s : State) (m pa : Nat) : List Byte :=
  Config.gcmSeal (s.keyOf (s.groupSlot m (groupOf pa))) (granuleIv pa (s.granuleCtr m pa)) []
    (s.mem.getRun (pa / 512 * 512) 512)

/-- The MAC of a granule: the first 64 bits of its tag (R405). -/
def State.granuleMac (s : State) (m pa : Nat) : List Byte := ((s.granuleSealed m pa).drop 512).take 8

/-! ## The counter tree (R406, R408, R409) -/

/-- The IV of a tree node (R406): the controller, the level, the node's index and its parent's counter for it. -/
def nodeIv (m level k ctr : Nat) : List Byte :=
  [0xD2, BitVec.ofNat 8 m, BitVec.ofNat 8 level] ++ leBytes 4 k ++ leBytes 5 ctr

/-- The counters of a node as it is stored: those of its last write-back while it is dirty (R410). -/
def State.storedCtrs (s : State) (n : Nat) : List Nat :=
  match s.t2cache.get [] n with
  | [] => s.nodeCtrs n
  | cs => cs

/-- The key slot of a node: that of its half, the half not in force being built under slot 6 (R413, R414). -/
def State.nodeSlot (s : State) (n : Nat) : Nat :=
  if n / 2 ^ 30 % 2 = s.fld 0 (n / 2 ^ 31) Reg.DCTL_T2ROLL.HALF then 5 else 6

/-- A node as it is stored (R406, R408): its counters, and its MAC under its parent's counter for it. -/
def State.nodeBytes (s : State) (n : Nat) : List Byte :=
  let body := (s.storedCtrs n).flatMap (leBytes 5)
  body ++ (Config.gcmSeal (s.keyOf (s.nodeSlot n)) (nodeIv (n / 2 ^ 31) (nodeLevel n) (n % 2 ^ 26) (s.t2node.get 0 n)) body []).take 8

/-- The node of a half whose place in the upper area is `n`, from level `l` up: its level and index (R409). -/
def upperNode : Nat → Nat → Nat → Option (Nat × Nat)
  | 0, _, _ => none
  | f + 1, l, n => if n < 2 ^ (28 - 3 * l) then some (l, n) else upperNode f (l + 1) (n - 2 ^ (28 - 3 * l))

/-- The node that a granule's tree slice belongs to and which of its halves of 24 bytes the slice holds (R409); none for
a slice that no node occupies. -/
def State.sliceNode (s : State) (m pa : Nat) : Option (Nat × Nat) :=
  let g := pa % 0x2000000000 / 512
  let j := g / 8
  if g % 8 < 2 then some (nodeKey m (s.groupHalf m j) 1 j, g % 8)
  else
    let u := 6 * j + (g % 8 - 2)
    if 2 ≤ u / 2 ^ 24 then none
    else (upperNode 8 2 (u / 2 % 2 ^ 23)).map fun x => (nodeKey m (u / 2 ^ 24) x.1 x.2, u % 2)

/-- Whether a node is one that the device has written: a leaf, a node of the half in force, or one written back in the half
that a roll builds. -/
def State.nodeWritten (s : State) (n : Nat) : Bool :=
  nodeLevel n == 1 || s.nodeSlot n == 5 || (s.rolling && decide (0 < s.t2node.get 0 n))

/-- The 24-byte tree slice of a granule (R407). What a slice holds that no node occupies, or whose node was never written
under the keys in use, is not said: a free value (log 122). -/
def State.treeSlice (s : State) (m pa : Nat) : List Byte :=
  let open_ := leBytes 24 (Config.treeSlice (pa / 512)).toNat
  match s.sliceNode m pa with
  | none => open_
  | some (n, part) => if s.nodeWritten n then ((s.nodeBytes n).drop (24 * part)).take 24 else open_

/-! ## Metadata (R184, R185, R407) -/

/-- Metadata bytes 16 to 31 of a unit (R185, R407): zero but in tier 2, where unit 0 of a granule holds its MAC and the first
8 bytes of its tree slice, and unit 1 the rest. -/
def State.metaTail (s : State) (pa : Nat) : List Byte :=
  match place pa with
  | some (.lpc m) =>
    if pa / 256 % 2 = 0 then s.granuleMac m pa ++ (s.treeSlice m pa).take 8 else (s.treeSlice m pa).drop 8
  | _ => List.replicate 16 0

/-- The 256 bytes of a unit as its memory stores them: ciphertext in tier 2 (R405). -/
def State.storedUnit (s : State) (pa : Nat) : List Byte :=
  match place pa with
  | some (.lpc m) => ((s.granuleSealed m pa).drop (256 * (pa / 256 % 2))).take 256
  | _ => s.mem.getRun (pa / 256 * 256) 256

/-- Metadata bytes 12 to 15: FLAGS with POISON in bit 0, and zeros (R185). -/
def State.metaFlags (s : State) (pa : Nat) : List Byte := [if s.poisoned pa then 1 else 0, 0, 0, 0]

/-- The 32 metadata bytes of a unit of the cellar, tier 1 or tier 2 (R185): check symbols over the stored bytes and bytes 12
to 15 (R184), flags, zeros, and what tier 2 assigns. Slice SRAM has none. -/
def State.metaBytes (s : State) (pa : Nat) : Option (List Byte) :=
  match place pa with
  | none => none
  | some (.slice _ _) => none
  | some _ => some (leBytes 12 (Config.rsCheck (s.storedUnit pa ++ s.metaFlags pa)).toNat ++ s.metaFlags pa ++ s.metaTail pa)

end Sys2Proof.Machine
end

