-- ==== Sys2Proof/Machine/Vector.lean ====
section
/-! DEFINITION. The vector instructions (R117 to R122): what issue checks, and what the engine does when the instruction
completes (log 9). -/

namespace Sys2Proof.Machine

open Sys2Proof

/-! ## Fields (R117) -/

/-- SB: operand VB is RS broadcast. -/
def vSB (f : BitVec 54) : Bool := bitOf f.toNat 47
/-- RND. -/
def vRnd (f : BitVec 54) : Nat := opf f 46 45
/-- SAT. -/
def vSat (f : BitVec 54) : Bool := bitOf f.toNat 44
/-- VD. -/
def vVD (f : BitVec 54) : Nat := opf f 43 39
/-- VA. -/
def vVA (f : BitVec 54) : Nat := opf f 38 34
/-- VB. -/
def vVB (f : BitVec 54) : Nat := opf f 33 29
/-- VC. -/
def vVC (f : BitVec 54) : Nat := opf f 28 24
/-- ET. -/
def vET (f : BitVec 54) : Nat := opf f 23 20
/-- RS. -/
def vRS (f : BitVec 54) : Nat := opf f 19 14
/-- X, [13:0]. -/
def vX (f : BitVec 54) (hi lo : Nat) : Nat := opf f hi lo

/-- The element types (R118). -/
def vTypes : List Nat := [0x0, 0x1, 0x2, 0xB, 0xD]

/-- A vector register of an engine as a destination. -/
def dV (ve r : Nat) : Nat := 3000 + 32 * ve + r

/-- The engine number of a V slot in the queue: 4 for VE0, 5 for VE1. -/
def vEng (f : BitVec 54) : Nat := 4 + sEng f % 2

/-- The request of a V slot (R62: bit [53] is zero). -/
def vReq (f : BitVec 54) (ok : Bool) (regs dests : List Nat) : SlotReq :=
  { cls := 2, ok := decide (sEng f < 2) && ok, regs := regs, dests := dests, always := false }

/-- Whether RND is used: the reserved value is refused where it is (R94, R117). -/
def vRndOk (f : BitVec 54) (uses : Bool) : Bool := !uses || vRnd f != 3

/-- A vector instruction enters its queue with RS, and one address register, as at issue. -/
def vIssue (x : Slot) (op : Nat) (ok : Bool) (s : State) : State :=
  let f := x.f
  let regs := if vSB f || op == 0x029 || op == 0x02A || op == 0x048 then [vRS f] else []
  s.issue x (vReq f ok regs [dV (sEng f % 2) (vVD f)]) (engRoom (vEng f)) fun base cur =>
    .ok (cur.enqueue base.pc (vEng f) op f [] [base.rs (vRS f), base.ra (vX f 12 9)] [] [] none, none)

/-- The checks of VLD and VST at issue (R118): a valid descriptor, RS a multiple of 64, and the 1 KiB range in the data
region, or in the staging region before the first BEAT.END. -/
def vMemCheck (firstEnd : Bool) (td : Nat) (d : BitVec 128) (rs : U64) : Option ExcSrc :=
  let a := tdBase d + rs.toNat
  if !tdOk d then some { excOf 1 with td := td }
  else if rs.toNat % 64 ≠ 0 then some { excOf 2 with td := td, va := a }
  else if (if firstEnd then stagingAt else storeEnd) < a + 1024 then some { excOf 3 with td := td, va := a }
  else none

/-- VLD and VST enter the queue. -/
def vMemIssue (x : Slot) (op : Nat) (store : Bool) (s : State) : State :=
  let f := x.f
  let td := vX f 13 9
  let fe := (s.core x.core).firstEnd
  s.issue x (vReq f true [vRS f] (if store then [] else [dV (sEng f % 2) (vVD f)])) (engRoom (vEng f)) fun base cur =>
    match vMemCheck fe td (base.tdv td) (base.rs (vRS f)) with
    | some e => .error e
    | none => .ok (cur.enqueue base.pc (vEng f) op f [(td, base.tdv td)] [base.rs (vRS f)]
        (if store then [] else [td]) (if store then [td] else []) none, none)

/-- VLD (R118). -/
def execVld (x : Slot) (s : State) : Host.Outcome State Fault Refusal := .next (vMemIssue x 0x001 false s)

/-- VST (R118). -/
def execVst (x : Slot) (s : State) : Host.Outcome State Fault Refusal := .next (vMemIssue x 0x002 true s)

/-- VADD (R118). -/
def execVadd (x : Slot) (s : State) : Host.Outcome State Fault Refusal :=
  .next (vIssue x 0x010 (vTypes.contains (vET x.f) && vRnd x.f != 3) s)

/-- VSUB (R118). -/
def execVsub (x : Slot) (s : State) : Host.Outcome State Fault Refusal :=
  .next (vIssue x 0x011 (vTypes.contains (vET x.f) && vRnd x.f != 3) s)

/-- VMUL (R118). -/
def execVmul (x : Slot) (s : State) : Host.Outcome State Fault Refusal :=
  .next (vIssue x 0x012 (vTypes.contains (vET x.f) && vET x.f != 0xB && vRnd x.f != 3) s)

/-- VFMA (R118). -/
def execVfma (x : Slot) (s : State) : Host.Outcome State Fault Refusal :=
  .next (vIssue x 0x013 ((vET x.f == 0 || vET x.f == 1 || vET x.f == 2) && vRnd x.f != 3) s)

/-- VMAX (R118). -/
def execVmax (x : Slot) (s : State) : Host.Outcome State Fault Refusal :=
  .next (vIssue x 0x014 (vTypes.contains (vET x.f) && vRndOk x.f (vSB x.f)) s)

/-- VMIN (R118). -/
def execVmin (x : Slot) (s : State) : Host.Outcome State Fault Refusal :=
  .next (vIssue x 0x015 (vTypes.contains (vET x.f) && vRndOk x.f (vSB x.f)) s)

/-- VAND (R118). -/
def execVand (x : Slot) (s : State) : Host.Outcome State Fault Refusal :=
  .next (vIssue x 0x016 ((vET x.f == 0xB || vET x.f == 0xD)) s)

/-- VOR (R118). -/
def execVor (x : Slot) (s : State) : Host.Outcome State Fault Refusal :=
  .next (vIssue x 0x017 ((vET x.f == 0xB || vET x.f == 0xD)) s)

/-- VXOR (R118). -/
def execVxor (x : Slot) (s : State) : Host.Outcome State Fault Refusal :=
  .next (vIssue x 0x018 ((vET x.f == 0xB || vET x.f == 0xD)) s)

/-- VSHL (R118). -/
def execVshl (x : Slot) (s : State) : Host.Outcome State Fault Refusal :=
  .next (vIssue x 0x019 ((vET x.f == 0xB || vET x.f == 0xD)) s)

/-- VSHR (R118). -/
def execVshr (x : Slot) (s : State) : Host.Outcome State Fault Refusal :=
  .next (vIssue x 0x01A ((vET x.f == 0xB || vET x.f == 0xD)) s)

/-- VSRA (R118). -/
def execVsra (x : Slot) (s : State) : Host.Outcome State Fault Refusal :=
  .next (vIssue x 0x01B ((vET x.f == 0xB || vET x.f == 0xD)) s)

/-- VABS (R118). -/
def execVabs (x : Slot) (s : State) : Host.Outcome State Fault Refusal :=
  .next (vIssue x 0x01C (vTypes.contains (vET x.f)) s)

/-- VNEG (R118). -/
def execVneg (x : Slot) (s : State) : Host.Outcome State Fault Refusal :=
  .next (vIssue x 0x01D (vTypes.contains (vET x.f)) s)

/-- VCMP (R118). -/
def execVcmp (x : Slot) (s : State) : Host.Outcome State Fault Refusal :=
  .next (vIssue x 0x020 (vTypes.contains (vET x.f) && vRndOk x.f (vSB x.f) && (condLane (vET x.f) (vX x.f 13 10) 0 0).isSome) s)

/-- VSEL (R118). -/
def execVsel (x : Slot) (s : State) : Host.Outcome State Fault Refusal :=
  .next (vIssue x 0x021 (vTypes.contains (vET x.f) && vRndOk x.f (vSB x.f)) s)

/-- VMOV (R118). -/
def execVmov (x : Slot) (s : State) : Host.Outcome State Fault Refusal :=
  .next (vIssue x 0x028 (true) s)

/-- VBCAST (R118). -/
def execVbcast (x : Slot) (s : State) : Host.Outcome State Fault Refusal :=
  .next (vIssue x 0x029 (vTypes.contains (vET x.f) && vRndOk x.f true) s)

/-- VIOTA (R118). -/
def execViota (x : Slot) (s : State) : Host.Outcome State Fault Refusal :=
  .next (vIssue x 0x02A (vET x.f == 0xD) s)

/-- VRED (R118). -/
def execVred (x : Slot) (s : State) : Host.Outcome State Fault Refusal :=
  .next (vIssue x 0x030 (vTypes.contains (vET x.f)) s)

/-- VEXP2 (R118). -/
def execVexp2 (x : Slot) (s : State) : Host.Outcome State Fault Refusal :=
  .next (vIssue x 0x038 ((vET x.f == 0 || vET x.f == 1) && vRnd x.f != 3) s)

/-- VLOG2 (R118). -/
def execVlog2 (x : Slot) (s : State) : Host.Outcome State Fault Refusal :=
  .next (vIssue x 0x039 ((vET x.f == 0 || vET x.f == 1) && vRnd x.f != 3) s)

/-- VRCP (R118). -/
def execVrcp (x : Slot) (s : State) : Host.Outcome State Fault Refusal :=
  .next (vIssue x 0x03A ((vET x.f == 0 || vET x.f == 1) && vRnd x.f != 3) s)

/-- VRSQ (R118). -/
def execVrsq (x : Slot) (s : State) : Host.Outcome State Fault Refusal :=
  .next (vIssue x 0x03B ((vET x.f == 0 || vET x.f == 1) && vRnd x.f != 3) s)

/-- VTANH (R118). -/
def execVtanh (x : Slot) (s : State) : Host.Outcome State Fault Refusal :=
  .next (vIssue x 0x03C ((vET x.f == 0 || vET x.f == 1) && vRnd x.f != 3) s)

/-- VEXT (R118, R119): a lane at or beyond the number of elements raises KIND 0x1. -/
def execVext (x : Slot) (s : State) : Host.Outcome State Fault Refusal :=
  let f := x.f
  .next (s.issue x (vReq f (vTypes.contains (vET f) && decide (vX f 13 4 < 8192 / fmtBits (vET f))) [vRS f] [dS (vRS f)])
    (engRoom (vEng f)) fun base cur =>
      .ok (cur.enqueue base.pc (vEng f) 0x02B f [] [] [] [] (some (vRS f)), none))

/-- Formats that VCVT converts to (R121). -/
def cvtTypes : List Nat := [0x0, 0x1, 0x2, 0x3, 0x4, 0xB, 0xD]

/-- Formats that VCVT converts from: INT4 too (R139); those that need a scale, which it has none of, are not (log 84). -/
def cvtFrom : List Nat := 0xC :: cvtTypes

/-- Elements of one VCVT, counted on the wider side (R37, R121). -/
def cvtCount (et dt : Nat) : Nat := 8192 / max (fmtBits et) (fmtBits dt)

/-- Whether P keeps the narrower side within the register (R121). -/
def cvtPOk (et dt p : Nat) : Bool :=
  fmtBits et == fmtBits dt || decide (128 * p + cvtCount et dt * min (fmtBits et) (fmtBits dt) / 8 ≤ 1024)

/-- VCVT (R121). -/
def execVcvt (x : Slot) (s : State) : Host.Outcome State Fault Refusal :=
  let dt := vX x.f 13 10
  .next (vIssue x 0x040 (cvtFrom.contains (vET x.f) && cvtTypes.contains dt && vRnd x.f != 3
    && cvtPOk (vET x.f) dt (vX x.f 9 7)) s)

/-- VMX (R121): FP32 source, an MX destination, and P within the register. -/
def execVmx (x : Slot) (s : State) : Host.Outcome State Fault Refusal :=
  let f := x.f
  let dt := vX f 13 10
  .next (s.issue x (vReq f (vET f == 0 && fmtMx dt && vRnd f != 3
      && decide (128 * vX f 9 7 + 32 * fmtBits dt ≤ 1024)) [] [dV (sEng f % 2) (vVD f), dV (sEng f % 2) (vVC f)])
    (engRoom (vEng f)) fun base cur =>
      .ok (cur.enqueue base.pc (vEng f) 0x041 f [] [base.rs (vRS f)] [] [] none, none))

/-- VIDX (R122). -/
def execVidx (x : Slot) (s : State) : Host.Outcome State Fault Refusal :=
  .next (vIssue x 0x048 (vET x.f == 0xD) s)

/-! ## Completion -/

/-- The key of a byte of a vector register. -/
def vKey (ve r b : Nat) : Nat := ve * 32768 + r * 1024 + b

/-- The lanes of a vector register as codes of a type. -/
def CoreState.lanes (c : CoreState) (ve r et : Nat) : List Nat :=
  let w := fmtBits et / 8
  (List.range (1024 / w)).map fun i => leNat (c.v.getRun (vKey ve r (w * i)) w)

/-- Bytes of a vector register written from an offset. -/
def CoreState.setV (c : CoreState) (ve r off : Nat) (bs : List Byte) : CoreState :=
  { c with v := c.v.setRun (vKey ve r off) bs }

/-- A whole vector register written with lanes. -/
def CoreState.setLanes (c : CoreState) (ve r et : Nat) (l : List Nat) : CoreState :=
  c.setV ve r 0 (l.flatMap (codeBytes et))

/-- A scalar register converted to an element type (R117, R118): a signed integer, rounded under RND for a floating type, with
draw `u` where that is stochastic, and for an integer type saturated with SAT or wrapped. -/
def scalarTo (et rnd u : Nat) (sat : Bool) (v : U64) : Nat :=
  if fmtFloat et then narrowEl et rnd u (FV.ofInt v.toInt 0)
  else if sat then wrap (clampInt et v.toInt) (fmtBits et)
  else wrap v.toInt (fmtBits et)

/-- An exact integer result as an element: saturated with SAT, wrapped without (R139). -/
def intResult (et : Nat) (sat : Bool) (i : Int) : Nat := wrap (if sat then clampInt et i else i) (fmtBits et)

/-- An integer lane's value. -/
def laneInt (et n : Nat) : Int := signed n (fmtBits et)

/-- An element-wise integer instruction (R118, R139). -/
def intOp (op et : Nat) (sat : Bool) (a b : Nat) : Nat :=
  let w := fmtBits et
  let x := laneInt et a
  let y := laneInt et b
  match op with
  | 0x010 => intResult et sat (x + y)
  | 0x011 => intResult et sat (x - y)
  | 0x012 => intResult et sat (x * y)
  | 0x014 => if x < y then b else a
  | 0x015 => if y < x then b else a
  | 0x016 => a &&& b
  | 0x017 => a ||| b
  | 0x018 => a ^^^ b
  | 0x019 => a * 2 ^ (b % w) % 2 ^ w
  | 0x01A => a / 2 ^ (b % w)
  | 0x01B => wrap (x / (2 ^ (b % w) : Nat)) w
  | 0x01C => intResult et sat x.natAbs
  | _ => intResult et sat (-x)

/-- The exact value of an element-wise floating instruction (R144). -/
def floatOp (op : Nat) (a b c : FV) : FV :=
  match op with
  | 0x010 => a.add b
  | 0x011 => a.add b.neg
  | 0x012 => a.mul b
  | 0x013 => (a.mul b).add c
  | 0x014 => FV.max a b
  | 0x015 => FV.min a b
  | 0x01C => a.abs
  | _ => a.neg

/-- The special cases of VEXP2, VLOG2, VRCP, VRSQ and VTANH (R144); none where the result is only bounded. -/
def specialFn (op : Nat) (x : FV) : Option FV :=
  match op, x with
  | _, .nan => some .nan
  | 0x038, .inf n => some (if n then .fin false 0 0 else .inf false)
  | 0x038, .fin _ m _ => if m = 0 then some (.fin false 1 0) else none
  | 0x039, .inf n => some (if n then .nan else .inf false)
  | 0x039, .fin n m e => if m = 0 then some (.inf true) else if n then some .nan
    else if 2 ^ Nat.log2 m = m ∧ (Nat.log2 m : Int) + e = 0 then some (.fin false 0 0) else none
  | 0x03A, .inf n => some (.fin n 0 0)
  | 0x03A, .fin n m _ => if m = 0 then some (.inf n) else none
  | 0x03B, .inf n => some (if n then .nan else .fin false 0 0)
  | 0x03B, .fin n m _ => if m = 0 then some (.inf n) else if n then some .nan else none
  | 0x03C, .inf n => some (.fin n 1 0)
  | 0x03C, .fin n m e => if m = 0 then some (.fin n m e) else none
  | _, _ => none

/-- The nearest element to 1 / (m * 2^e), to which a free result that breaks its bound is put back: the quotient of
2^(2p) by m, rounded (R144). -/
def recipNear (et : Nat) (neg : Bool) (m : Nat) (e : Int) : Nat :=
  let p := 64 + Nat.log2 m
  narrowEl et 0 0 (.fin neg (2 ^ p / m) (-(p : Int) - e))

/-- The nearest element to 1 / sqrt(m * 2^e), by an integer square root. -/
def rsqrtNear (et m : Nat) (e : Int) : Nat :=
  let m := if e % 2 = 0 then m else 2 * m
  let e := if e % 2 = 0 then e else e - 1
  let p := 64 + Nat.log2 m
  narrowEl et 0 0 (.fin false (Nat.sqrt (2 ^ (2 * p) / m)) (-(p : Int) - e / 2))

/-- VEXP2, VLOG2, VRCP, VRSQ and VTANH of one element (R144): the special cases, and a free result within the stated units in
the last place (log 11). -/
def approxOp (op et rnd free a : Nat) : Nat :=
  let k := if et = 0 then 2 else 1
  let mode := if rnd = 1 then 1 else 0
  let x := decodeEl et a
  match specialFn op x with
  | some v => narrowEl et 0 0 v
  | none =>
    match op, x with
    | 0x038, .fin n m e => nearCode et k mode (Config.freeNat free) (exp2Fix (toFix n m e))
    | 0x039, .fin _ m e => nearCode et k mode (Config.freeNat free) (log2Fix m e)
    | 0x03A, .fin n m e =>
      let c := Config.freeNat free % 2 ^ fmtBits et
      let v := decodeEl et c
      if v.isNeg == n && within et k false m e v.abs then c else recipNear et n m e
    | 0x03B, .fin _ m e =>
      let c := Config.freeNat free % 2 ^ fmtBits et
      if within et k true m e (decodeEl et c) then c else rsqrtNear et m e
    | _, .fin n m e => nearCode et k mode (Config.freeNat free) (tanhFix n m e)
    | _, _ => fmtNaN et

/-- A reduction's order of two codes of a type: MAX, MIN or AMAX (R120, R144). -/
def redPick (k et a b : Nat) : Nat :=
  if fmtFloat et then
    let x := decodeEl et a
    let y := decodeEl et b
    narrowEl et 0 0 (if k = 1 then FV.max x y else if k = 2 then FV.min x y else FV.max x.abs y.abs)
  else
    let x := laneInt et a
    let y := laneInt et b
    if k = 1 then (if x < y then b else a) else if k = 2 then (if y < x then b else a)
    else if x.natAbs < y.natAbs then b else a

/-- One reduction (R120): SUM in a free order, floats in FP32 rounded once to ET; AMAX gives the magnitude. -/
def reduce (k et : Nat) (sat : Bool) (free : Nat) (l : List Nat) : Nat :=
  if k = 0 then
    if fmtFloat et then narrowEl et 0 0 (sumF32 (freeOrder free (l.map (decodeEl et))))
    else intResult et sat (l.map (laneInt et)).sum
  else
    let m := match l with
      | [] => 0
      | a :: rest => rest.foldl (redPick k et) a
    if k = 3 then
      if fmtFloat et then narrowEl et 0 0 (decodeEl et m).abs else intResult et sat (laneInt et m).natAbs
    else m

/-- Groups of 32. -/
def blocksOf32 (n : Nat) (l : List Nat) : List (List Nat) := (List.range n).map fun i => (l.drop (32 * i)).take 32

/-- Elements packed into bytes (R135). -/
def packEls (f : Nat) (l : List Nat) : List Byte :=
  let n := l.foldr (fun c acc => c + acc * 2 ^ fmtBits f) 0
  leBytes (l.length * fmtBits f / 8) n

/-- VMX completes (R121, R140): eight blocks of 32 quantised, scales into VC and elements into VD. -/
def vmxDone (o : EngOp) (free : Nat) (c : CoreState) : CoreState :=
  let f := o.f
  let ve := o.eng - 4
  let dt := vX f 13 10
  let vals := (c.lanes ve (vVA f) 0).map (decodeEl 0)
  let blocks := (List.range 8).map fun i => (vals.drop (32 * i)).take 32
  let scales := blocks.map (mxScale dt)
  let scaled := (blocks.zip scales).flatMap fun b => b.1.map fun v =>
    match b.2.2 with
    | none => FV.fin false 0 0
    | some x => v.scaleDown x
  let g := c.gen.get ⟨0, 0⟩ o.eng
  let (us, g') := g.draws (scaled.countP (needsDraw dt (vRnd f)))
  let rec go (l : List FV) (us : List Nat) : List Nat :=
    match l with
    | [] => []
    | v :: vs =>
      if needsDraw dt (vRnd f) v then mxElement dt (vRnd f) (us.headD 0) (some 0) v :: go vs us.tail
      else mxElement dt (vRnd f) 0 (some 0) v :: go vs us
  let codes := go scaled (freeOrder free us)
  let c := c.setV ve (vVD f) (128 * vX f 9 7) (packEls dt codes)
  let c := c.setV ve (vVC f) (8 * vX f 6 0) (scales.map fun x => BitVec.ofNat 8 x.1)
  { c with gen := c.gen.set ⟨0, 0⟩ o.eng g' }

/-- VIDX completes (R122): 128 list entries of base + index * RS modulo 2^56; a negative index gives SKIP. -/
def vidxDone (o : EngOp) (c : CoreState) : CoreState :=
  let f := o.f
  let ve := o.eng - 4
  let idx := ((c.lanes ve (vVA f) 0xD).drop (if bitOf f.toNat 13 then 128 else 0)).take 128
  let rs := (o.vals.getD 0 0).toNat
  let base := (o.vals.getD 1 0).toNat
  c.setV ve (vVD f) 0 (idx.flatMap fun i =>
    leBytes 8 (if laneInt 0xD i < 0 then 2 ^ 63 else (base + i * rs) % 2 ^ 56))

/-- VCVT completes (R121, R138, R139). -/
def vcvtDone (o : EngOp) (free : Nat) (c : CoreState) : CoreState :=
  let f := o.f
  let ve := o.eng - 4
  let et := vET f
  let dt := vX f 13 10
  let n := cvtCount et dt
  let w := fmtBits et
  let at0 := if fmtBits et < fmtBits dt then 128 * vX f 9 7 else 0
  let src := (List.range n).map fun i =>
    bits (leNat (c.v.getRun (vKey ve (vVA f) (at0 + w * i / 8)) (ceilDiv w 8))) (w * i % 8) w
  let (codes, g) := convertAll dt (vRnd f) (src.map (decodeEl et)) (c.gen.get ⟨0, 0⟩ o.eng) free
  let base := if fmtBits dt < fmtBits et then 128 * vX f 9 7 else 0
  { c.setV ve (vVD f) base (codes.flatMap (codeBytes dt)) with gen := c.gen.set ⟨0, 0⟩ o.eng g }

/-- RS of an instruction, converted to ET once, with the generator after it (R117, R146, R147). -/
def rsLane (o : EngOp) (c : CoreState) : Nat × Gen :=
  let et := vET o.f
  let v := o.vals.getD 0 0
  let g := c.gen.get ⟨0, 0⟩ o.eng
  let (u, g) := if fmtFloat et && needsDraw et (vRnd o.f) (FV.ofInt v.toInt 0) then g.draw else (0, g)
  (scalarTo et (vRnd o.f) u (vSat o.f) v, g)

/-- VB's lanes, or RS broadcast, with the generator after it (R117). -/
def vbLanes (o : EngOp) (c : CoreState) : List Nat × Gen :=
  if vSB o.f then
    let (x, g) := rsLane o c
    (List.replicate (8192 / fmtBits (vET o.f)) x, g)
  else (c.lanes (o.eng - 4) (vVB o.f) (vET o.f), c.gen.get ⟨0, 0⟩ o.eng)

/-- An engine's generator after an instruction. -/
def CoreState.setGen (c : CoreState) (e : Nat) (g : Gen) : CoreState := { c with gen := c.gen.set ⟨0, 0⟩ e g }

/-- An element-wise instruction completes (R118, R144). -/
def elementDone (o : EngOp) (free : Nat) (c : CoreState) : CoreState :=
  let f := o.f
  let ve := o.eng - 4
  let et := vET f
  let a := c.lanes ve (vVA f) et
  let (b, g) := vbLanes o c
  if fmtFloat et then
    let cs := c.lanes ve (vVC f) et
    let vals := (a.zip (b.zip cs)).map fun x =>
      floatOp o.op (decodeEl et x.1) (decodeEl et x.2.1) (decodeEl et x.2.2)
    let (codes, g) := convertAll et (vRnd f) vals g free
    (c.setLanes ve (vVD f) et codes).setGen o.eng g
  else c.setLanes ve (vVD f) et ((a.zip b).map fun x => intOp o.op et (vSat f) x.1 x.2)

/-- VEXP2, VLOG2, VRCP, VRSQ or VTANH completes (R144): under stochastic rounding the lanes that no rule makes exact take
draws, as many as is free (log 11). -/
def approxDone (o : EngOp) (free : Nat) (c : CoreState) : CoreState :=
  let f := o.f
  let et := vET f
  let l := c.lanes (o.eng - 4) (vVA f) et
  let g := c.gen.get ⟨0, 0⟩ o.eng
  let n := l.countP fun a => (specialFn o.op (decodeEl et a)).isNone
  let g := if vRnd f = 2 then (g.draws (Config.freeNat (free + 1024) % (n + 1))).2 else g
  (c.setLanes (o.eng - 4) (vVD f) et (l.zipIdx.map fun x => approxOp o.op et (vRnd f) (free + x.2) x.1)).setGen o.eng g

/-- VRED completes (R120). -/
def vredDone (o : EngOp) (free : Nat) (c : CoreState) : CoreState :=
  let f := o.f
  let ve := o.eng - 4
  let et := vET f
  let l := c.lanes ve (vVA f) et
  let k := vX f 13 12
  let res := if bitOf f.toNat 11 then
      (blocksOf32 (l.length / 32) l).zipIdx.map fun b => reduce k et (vSat f) (free + 32 * b.2) b.1
    else [reduce k et (vSat f) free l]
  c.setLanes ve (vVD f) et (res ++ List.replicate (l.length - res.length) 0)

/-- A vector instruction completes. -/
def vectorDone (o : EngOp) (free : Nat) (c : CoreState) : CoreState :=
  let f := o.f
  let ve := o.eng - 4
  let et := vET f
  let d := (o.tds.getD 0 (0, 0)).2
  let at0 := tdBase d + (o.vals.getD 0 0).toNat
  match o.op with
  | 0x001 => c.setV ve (vVD f) 0 (c.store.getRun at0 1024)
  | 0x002 => { c with store := c.store.setRun at0 (c.v.getRun (vKey ve (vVA f) 0) 1024) }
  | 0x020 =>
    let (b, g) := vbLanes o c
    (c.setLanes ve (vVD f) et (((c.lanes ve (vVA f) et).zip b).map fun x =>
      if (condLane et (vX f 13 10) x.1 x.2).getD false then 2 ^ fmtBits et - 1 else 0)).setGen o.eng g
  | 0x021 =>
    let (b, g) := vbLanes o c
    (c.setLanes ve (vVD f) et (((c.lanes ve (vVA f) et).zip (b.zip (c.lanes ve (vVC f) et))).map
      fun x => if x.2.2 != 0 then x.1 else x.2.1)).setGen o.eng g
  | 0x028 => c.setV ve (vVD f) 0 (c.v.getRun (vKey ve (vVA f) 0) 1024)
  | 0x029 =>
    let (x, g) := rsLane o c
    (c.setLanes ve (vVD f) et (List.replicate (8192 / fmtBits et) x)).setGen o.eng g
  | 0x02A => c.setLanes ve (vVD f) 0xD ((List.range 256).map fun i => ((o.vals.getD 0 0).toNat + i) % 2 ^ 32)
  | 0x02B =>
    let n := (c.lanes ve (vVA f) et).getD (vX f 13 4) 0
    c.ws (vRS f) (if fmtFloat et then BitVec.ofNat 64 n else BitVec.ofInt 64 (laneInt et n))
  | 0x030 => vredDone o free c
  | 0x040 => vcvtDone o free c
  | 0x041 => vmxDone o free c
  | 0x048 => vidxDone o c
  | 0x038 => approxDone o free c
  | 0x039 => approxDone o free c
  | 0x03A => approxDone o free c
  | 0x03B => approxDone o free c
  | 0x03C => approxDone o free c
  | _ => elementDone o free c

/-! ## The engine completes an instruction -/

/-- ENGINE_INSTRUCTION_COMPLETE (R95, R73, R75): the instruction that heads an engine's queue, once it has started, takes
its effect and leaves the queue; whatever waited for it goes on. -/
def execEngineInstructionComplete (core eng : Nat) (s : State) : Host.Outcome State Fault Refusal :=
  let c := s.core core
  match c.cur.engq.find? (·.eng == eng) with
  | none => .next s
  | some o =>
    if o.started then
      let cur := { c.cur with engq := c.cur.engq.filter fun p => !(p.eng == o.eng && p.seq == o.seq) }
      let cur := if eng < 4 then matrixDone o s.free cur else vectorDone o s.free cur
      let s := { s with free := s.free + matrixFree o }
      .next ((s.setCore core { c with cur := cur, engBeat := c.engBeat ||| 2 ^ eng }).pump core)
    else .next s

end Sys2Proof.Machine
end

