-- ==== Sys2Proof/Machine/Dispatch.lean ====
section
/-! DEFINITION. The dispatch of commands to their meanings: one arm per command. -/

namespace Sys2Proof.Machine

open Sys2Proof

/-- The effect of a command on everything but the queue. -/
def exec (i : Instr) (s : State) : Host.Outcome State Fault Refusal :=
  match i with
  | .beatEdge e => Sys2Proof.Machine.execBeatEdge e s
  | .edgeDeferredApply => Sys2Proof.Machine.execEdgeDeferredApply s
  | .latenessEvent core => Sys2Proof.Machine.execLatenessEvent core s
  | .tailBlockArrival fn tails err => Sys2Proof.Machine.execTailBlockArrival fn tails err s
  | .commandRecordArrival fn q rec err => Sys2Proof.Machine.execCommandRecordArrival fn q rec err s
  | .commandComplete fn q sq => Sys2Proof.Machine.execCommandComplete fn q sq s
  | .beatMarkerEmit => Sys2Proof.Machine.execBeatMarkerEmit s
  | .beat port arrival residence c => Sys2Proof.Machine.execBeat port arrival residence c s
  | .markerPortChange => Sys2Proof.Machine.execMarkerPortChange s
  | .holdoverEntry => Sys2Proof.Machine.execHoldoverEntry s
  | .holdoverLimit => Sys2Proof.Machine.execHoldoverLimit s
  | .beatLengthChange => Sys2Proof.Machine.execBeatLengthChange s
  | .coreUncorrectedError core => Sys2Proof.Machine.execCoreUncorrectedError core s
  | .bridgeLaneFail => Sys2Proof.Machine.execBridgeLaneFail s
  | .networkPacketError die e => Sys2Proof.Machine.execNetworkPacketError die e s
  | .add x => Sys2Proof.Machine.execAdd x s
  | .sub x => Sys2Proof.Machine.execSub x s
  | .mul x => Sys2Proof.Machine.execMul x s
  | .mulhu x => Sys2Proof.Machine.execMulhu x s
  | .div x => Sys2Proof.Machine.execDiv x s
  | .divu x => Sys2Proof.Machine.execDivu x s
  | .rem x => Sys2Proof.Machine.execRem x s
  | .remu x => Sys2Proof.Machine.execRemu x s
  | .and x => Sys2Proof.Machine.execAnd x s
  | .or x => Sys2Proof.Machine.execOr x s
  | .xor x => Sys2Proof.Machine.execXor x s
  | .shl x => Sys2Proof.Machine.execShl x s
  | .shr x => Sys2Proof.Machine.execShr x s
  | .sra x => Sys2Proof.Machine.execSra x s
  | .min x => Sys2Proof.Machine.execMin x s
  | .max x => Sys2Proof.Machine.execMax x s
  | .addi x => Sys2Proof.Machine.execAddi x s
  | .andi x => Sys2Proof.Machine.execAndi x s
  | .ori x => Sys2Proof.Machine.execOri x s
  | .xori x => Sys2Proof.Machine.execXori x s
  | .shli x => Sys2Proof.Machine.execShli x s
  | .shri x => Sys2Proof.Machine.execShri x s
  | .srai x => Sys2Proof.Machine.execSrai x s
  | .li x => Sys2Proof.Machine.execLi x s
  | .lih x => Sys2Proof.Machine.execLih x s
  | .cmp x => Sys2Proof.Machine.execCmp x s
  | .cmpi x => Sys2Proof.Machine.execCmpi x s
  | .pset x => Sys2Proof.Machine.execPset x s
  | .pmov x => Sys2Proof.Machine.execPmov x s
  | .ld x => Sys2Proof.Machine.execLd x s
  | .st x => Sys2Proof.Machine.execSt x s
  | .br x => Sys2Proof.Machine.execBr x s
  | .bri x => Sys2Proof.Machine.execBri x s
  | .call x => Sys2Proof.Machine.execCall x s
  | .loop x => Sys2Proof.Machine.execLoop x s
  | .loopI x => Sys2Proof.Machine.execLoopI x s
  | .endProg x => Sys2Proof.Machine.execEndProg x s
  | .beatEnd x => Sys2Proof.Machine.execBeatEnd x s
  | .rdsr x acycles => Sys2Proof.Machine.execRdsr x acycles s
  | .tdSet x => Sys2Proof.Machine.execTdSet x s
  | .tdGet x => Sys2Proof.Machine.execTdGet x s
  | .tdFld x => Sys2Proof.Machine.execTdFld x s
  | .waitTag x => Sys2Proof.Machine.execWaitTag x s
  | .engWait x => Sys2Proof.Machine.execEngWait x s
  | .latchSig x => Sys2Proof.Machine.execLatchSig x s
  | .acsinLatchWait x => Sys2Proof.Machine.execAcsinLatchWait x s
  | .latchTest x => Sys2Proof.Machine.execLatchTest x s
  | .seqGet x => Sys2Proof.Machine.execSeqGet x s
  | .seqPage x => Sys2Proof.Machine.execSeqPage x s
  | .phaseHeavy x => Sys2Proof.Machine.execPhaseHeavy x s
  | .phaseLight x => Sys2Proof.Machine.execPhaseLight x s
  | .snapBell x => Sys2Proof.Machine.execSnapBell x s
  | .mma x => Sys2Proof.Machine.execMma x s
  | .accDrain x => Sys2Proof.Machine.execAccDrain x s
  | .accLoad x => Sys2Proof.Machine.execAccLoad x s
  | .accZero x => Sys2Proof.Machine.execAccZero x s
  | .accScale x => Sys2Proof.Machine.execAccScale x s
  | .vld x => Sys2Proof.Machine.execVld x s
  | .vst x => Sys2Proof.Machine.execVst x s
  | .vadd x => Sys2Proof.Machine.execVadd x s
  | .vsub x => Sys2Proof.Machine.execVsub x s
  | .vmul x => Sys2Proof.Machine.execVmul x s
  | .vfma x => Sys2Proof.Machine.execVfma x s
  | .vmax x => Sys2Proof.Machine.execVmax x s
  | .vmin x => Sys2Proof.Machine.execVmin x s
  | .vand x => Sys2Proof.Machine.execVand x s
  | .vor x => Sys2Proof.Machine.execVor x s
  | .vxor x => Sys2Proof.Machine.execVxor x s
  | .vshl x => Sys2Proof.Machine.execVshl x s
  | .vshr x => Sys2Proof.Machine.execVshr x s
  | .vsra x => Sys2Proof.Machine.execVsra x s
  | .vabs x => Sys2Proof.Machine.execVabs x s
  | .vneg x => Sys2Proof.Machine.execVneg x s
  | .vcmp x => Sys2Proof.Machine.execVcmp x s
  | .vsel x => Sys2Proof.Machine.execVsel x s
  | .vmov x => Sys2Proof.Machine.execVmov x s
  | .vbcast x => Sys2Proof.Machine.execVbcast x s
  | .viota x => Sys2Proof.Machine.execViota x s
  | .vext x => Sys2Proof.Machine.execVext x s
  | .vred x => Sys2Proof.Machine.execVred x s
  | .vexp2 x => Sys2Proof.Machine.execVexp2 x s
  | .vlog2 x => Sys2Proof.Machine.execVlog2 x s
  | .vrcp x => Sys2Proof.Machine.execVrcp x s
  | .vrsq x => Sys2Proof.Machine.execVrsq x s
  | .vtanh x => Sys2Proof.Machine.execVtanh x s
  | .vcvt x => Sys2Proof.Machine.execVcvt x s
  | .vmx x => Sys2Proof.Machine.execVmx x s
  | .vidx x => Sys2Proof.Machine.execVidx x s
  | .move x => Sys2Proof.Machine.execMove x s
  | .moveD x => Sys2Proof.Machine.execMoveD x s
  | .gather x => Sys2Proof.Machine.execGather x s
  | .scatter x => Sys2Proof.Machine.execScatter x s
  | .moveAdd x => Sys2Proof.Machine.execMoveAdd x s
  | .moveMax x => Sys2Proof.Machine.execMoveMax x s
  | .moveMin x => Sys2Proof.Machine.execMoveMin x s
  | .atomSwap x => Sys2Proof.Machine.execAtomSwap x s
  | .atomCas x => Sys2Proof.Machine.execAtomCas x s
  | .atomClaim x => Sys2Proof.Machine.execAtomClaim x s
  | .moveStart core eng => Sys2Proof.Machine.execMoveStart core eng s
  | .moveComplete core tag ext => Sys2Proof.Machine.execMoveComplete core tag ext s
  | .engineException core x => Sys2Proof.Machine.execEngineException core x s
  | .preloadStart core => Sys2Proof.Machine.execPreloadStart core s
  | .preloadComplete core ext => Sys2Proof.Machine.execPreloadComplete core ext s
  | .launchCoreStart core => Sys2Proof.Machine.execLaunchCoreStart core s
  | .translationWalk core tag va => Sys2Proof.Machine.execTranslationWalk core tag va s
  | .replayableFault core tag va => Sys2Proof.Machine.execReplayableFault core tag va s
  | .retry fn fid => Sys2Proof.Machine.execRetry fn fid s
  | .abort fn fid => Sys2Proof.Machine.execAbort fn fid s
  | .xlatFqueryWrite fn fid => Sys2Proof.Machine.execXlatFqueryWrite fn fid s
  | .dctlXlatInvWrite v => Sys2Proof.Machine.execDctlXlatInvWrite v s
  | .invalidateComplete id => Sys2Proof.Machine.execInvalidateComplete id s
  | .atsInvalidation fn va pages => Sys2Proof.Machine.execAtsInvalidation fn va pages s
  | .priResponse fn va success => Sys2Proof.Machine.execPriResponse fn va success s
  | .sieveBlockDecode core tag blk poisoned => Sys2Proof.Machine.execSieveBlockDecode core tag blk poisoned s
  | .sieveTableChecked fn q image => Sys2Proof.Machine.execSieveTableChecked fn q image s
  | .memoryRead pa e => Sys2Proof.Machine.execMemoryRead pa e s
  | .memoryWrite pa data poisoned log fn => Sys2Proof.Machine.execMemoryWrite pa data poisoned log fn s
  | .patrolScrub pa e => Sys2Proof.Machine.execPatrolScrub pa e s
  | .verifyScrub tw unit e => Sys2Proof.Machine.execVerifyScrub tw unit e s
  | .ledgerChunkCheck tw chunk => Sys2Proof.Machine.execLedgerChunkCheck tw chunk s
  | .criticalTemperature unit temp => Sys2Proof.Machine.execCriticalTemperature unit temp s
  | .memoryUnitRestart unit => Sys2Proof.Machine.execMemoryUnitRestart unit s
  | .wipeComplete granule => Sys2Proof.Machine.execWipeComplete granule s
  | .memorySideAdd pa efmt data poisoned log fn => Sys2Proof.Machine.execMemorySideAdd pa efmt data poisoned log fn s
  | .memorySideMax pa efmt data poisoned log fn => Sys2Proof.Machine.execMemorySideMax pa efmt data poisoned log fn s
  | .memorySideMin pa efmt data poisoned log fn => Sys2Proof.Machine.execMemorySideMin pa efmt data poisoned log fn s
  | .memorySideSwap pa new log fn => Sys2Proof.Machine.execMemorySideSwap pa new log fn s
  | .memorySideCas pa cmp new log fn => Sys2Proof.Machine.execMemorySideCas pa cmp new log fn s
  | .memorySideClaim pa requester cmp new log fn => Sys2Proof.Machine.execMemorySideClaim pa requester cmp new log fn s
  | .codewordReceive port lane w => Sys2Proof.Machine.execCodewordReceive port lane w s
  | .trainId port c => Sys2Proof.Machine.execTrainId port c s
  | .measure port arrival sent c => Sys2Proof.Machine.execMeasure port arrival sent c s
  | .measureReply port arrival c => Sys2Proof.Machine.execMeasureReply port arrival c s
  | .creditAck port c => Sys2Proof.Machine.execCreditAck port c s
  | .nak port c => Sys2Proof.Machine.execNak port c s
  | .rdReq port c => Sys2Proof.Machine.execRdReq port c s
  | .rdResp port c => Sys2Proof.Machine.execRdResp port c s
  | .wr port c => Sys2Proof.Machine.execWr port c s
  | .wrAck port c => Sys2Proof.Machine.execWrAck port c s
  | .mso port c => Sys2Proof.Machine.execMso port c s
  | .atom port c => Sys2Proof.Machine.execAtom port c s
  | .atomResp port c => Sys2Proof.Machine.execAtomResp port c s
  | .latch port c => Sys2Proof.Machine.execLatch port c s
  | .bell port c => Sys2Proof.Machine.execBell port c s
  | .alarm port c => Sys2Proof.Machine.execAlarm port c s
  | .ackGatherTimeout port => Sys2Proof.Machine.execAckGatherTimeout port s
  | .creditReturnTimer port => Sys2Proof.Machine.execCreditReturnTimer port s
  | .replayLimit port => Sys2Proof.Machine.execReplayLimit port s
  | .tagLimit port => Sys2Proof.Machine.execTagLimit port s
  | .trainingStepComplete port lanes => Sys2Proof.Machine.execTrainingStepComplete port lanes s
  | .trainingStepFail port => Sys2Proof.Machine.execTrainingStepFail port s
  | .trainingRetryTimer port => Sys2Proof.Machine.execTrainingRetryTimer port s
  | .laneLockLoss port => Sys2Proof.Machine.execLaneLockLoss port s
  | .quickRetrainSuccess port lanes => Sys2Proof.Machine.execQuickRetrainSuccess port lanes s
  | .quickRetrainTimeout port => Sys2Proof.Machine.execQuickRetrainTimeout port s
  | .portDown port => Sys2Proof.Machine.execPortDown port s
  | .inletFault inlet r => Sys2Proof.Machine.execInletFault inlet r s
  | .schedImageChecked fn q image => Sys2Proof.Machine.execSchedImageChecked fn q image s
  | .schedTableActivate port => Sys2Proof.Machine.execSchedTableActivate port s
  | .windowOpen port window => Sys2Proof.Machine.execWindowOpen port window s
  | .windowClose port window => Sys2Proof.Machine.execWindowClose port window s
  | .bind sess req body => Sys2Proof.Machine.execBind sess req body s
  | .unbind sess req body => Sys2Proof.Machine.execUnbind sess req body s
  | .moveCore sess req body => Sys2Proof.Machine.execMoveCore sess req body s
  | .retuneQos sess req body => Sys2Proof.Machine.execRetuneQos sess req body s
  | .epochOpen handle ext => Sys2Proof.Machine.execEpochOpen handle ext s
  | .changeStall handle => Sys2Proof.Machine.execChangeStall handle s
  | .drainEnd part => Sys2Proof.Machine.execDrainEnd part s
  | .drainLimit part => Sys2Proof.Machine.execDrainLimit part s
  | .coreStateCopyDone core => Sys2Proof.Machine.execCoreStateCopyDone core s
  | .bar2Read fn off len => Sys2Proof.Machine.execBar2Read fn off len s
  | .bar2Write fn off data => Sys2Proof.Machine.execBar2Write fn off data s
  | .registerWrite fn off size v => Sys2Proof.Machine.execRegisterWrite fn off size v s
  | .counterRead fn off size => Sys2Proof.Machine.execCounterRead fn off size s
  | .queueEnable fn q v => Sys2Proof.Machine.execQueueEnable fn q v s
  | .queueDestroy fn q => Sys2Proof.Machine.execQueueDestroy fn q s
  | .resume fn q => Sys2Proof.Machine.execResume fn q s
  | .ctxSelLatch fn ctx => Sys2Proof.Machine.execCtxSelLatch fn ctx s
  | .destroyAck id core eng => Sys2Proof.Machine.execDestroyAck id core eng s
  | .nop fn q => Sys2Proof.Machine.execNop fn q s
  | .launch fn q => Sys2Proof.Machine.execLaunch fn q s
  | .graphLaunch fn q => Sys2Proof.Machine.execGraphLaunch fn q s
  | .latchSignal fn q => Sys2Proof.Machine.execLatchSignal fn q s
  | .latchWait fn q => Sys2Proof.Machine.execLatchWait fn q s
  | .latchWaitTimeout fn q sq => Sys2Proof.Machine.execLatchWaitTimeout fn q sq s
  | .seqUpdate fn q ext => Sys2Proof.Machine.execSeqUpdate fn q ext s
  | .ctxCreate fn q => Sys2Proof.Machine.execCtxCreate fn q s
  | .ctxDestroy fn q => Sys2Proof.Machine.execCtxDestroy fn q s
  | .map fn q => Sys2Proof.Machine.execMap fn q s
  | .unmap fn q => Sys2Proof.Machine.execUnmap fn q s
  | .release fn q => Sys2Proof.Machine.execRelease fn q s
  | .invalidate fn q => Sys2Proof.Machine.execInvalidate fn q s
  | .graphStore fn q ext => Sys2Proof.Machine.execGraphStore fn q ext s
  | .graphPatch fn q ext => Sys2Proof.Machine.execGraphPatch fn q ext s
  | .graphDestroy fn q => Sys2Proof.Machine.execGraphDestroy fn q s
  | .latchAlloc fn q => Sys2Proof.Machine.execLatchAlloc fn q s
  | .latchFree fn q => Sys2Proof.Machine.execLatchFree fn q s
  | .seqBind fn q => Sys2Proof.Machine.execSeqBind fn q s
  | .seqUnbind fn q => Sys2Proof.Machine.execSeqUnbind fn q s
  | .sieveTable fn q => Sys2Proof.Machine.execSieveTable fn q s
  | .schedLoad fn q => Sys2Proof.Machine.execSchedLoad fn q s
  | .shareCreate fn q ext => Sys2Proof.Machine.execShareCreate fn q ext s
  | .shareVerify fn q => Sys2Proof.Machine.execShareVerify fn q s
  | .shareMap fn q => Sys2Proof.Machine.execShareMap fn q s
  | .shareUnmap fn q => Sys2Proof.Machine.execShareUnmap fn q s
  | .shareDestroy fn q => Sys2Proof.Machine.execShareDestroy fn q s
  | .contextSwitchStart id => Sys2Proof.Machine.execContextSwitchStart id s
  | .switchDrainEnd id => Sys2Proof.Machine.execSwitchDrainEnd id s
  | .switchSaveComplete id => Sys2Proof.Machine.execSwitchSaveComplete id s
  | .switchInComplete id => Sys2Proof.Machine.execSwitchInComplete id s
  | .stallBudgetExpiry fn q sq => Sys2Proof.Machine.execStallBudgetExpiry fn q sq s
  | .lifeChallenge sess req => Sys2Proof.Machine.execLifeChallenge sess req s
  | .lifeAuth sess req a => Sys2Proof.Machine.execLifeAuth sess req a s
  | .parishEnrol sess req m => Sys2Proof.Machine.execParishEnrol sess req m s
  | .parishKeys sess req m => Sys2Proof.Machine.execParishKeys sess req m s
  | .parishStart => Sys2Proof.Machine.execParishStart s
  | .parishAdd sess req part edge => Sys2Proof.Machine.execParishAdd sess req part edge s
  | .parishLeave sess req => Sys2Proof.Machine.execParishLeave sess req s
  | .attestGo fn v => Sys2Proof.Machine.execAttestGo fn v s
  | .attestReportDone fn nonce => Sys2Proof.Machine.execAttestReportDone fn nonce s
  | .rollReq => Sys2Proof.Machine.execRollReq s
  | .rollTimer => Sys2Proof.Machine.execRollTimer s
  | .keyRollStart => Sys2Proof.Machine.execKeyRollStart s
  | .rollGroup ctl auth => Sys2Proof.Machine.execRollGroup ctl auth s
  | .rollComplete => Sys2Proof.Machine.execRollComplete s
  | .logFlush => Sys2Proof.Machine.execLogFlush s
  | .engineReset target dump => Sys2Proof.Machine.execEngineReset target dump s
  | .coreReset target dump => Sys2Proof.Machine.execCoreReset target dump s
  | .clusterReset target dump => Sys2Proof.Machine.execClusterReset target dump s
  | .partitionReset target dump => Sys2Proof.Machine.execPartitionReset target dump s
  | .dieReset target dump => Sys2Proof.Machine.execDieReset target dump s
  | .deviceWarmReset dump => Sys2Proof.Machine.execDeviceWarmReset dump s
  | .deviceColdReset dump => Sys2Proof.Machine.execDeviceColdReset dump s
  | .resetForce domain target => Sys2Proof.Machine.execResetForce domain target s
  | .resetShutter id => Sys2Proof.Machine.execResetShutter id s
  | .resetDrainEnd id => Sys2Proof.Machine.execResetDrainEnd id s
  | .resetWipeDone id => Sys2Proof.Machine.execResetWipeDone id s
  | .ucePError part source => Sys2Proof.Machine.execUcePError part source s
  | .fatalError source unitKind unitIndex => Sys2Proof.Machine.execFatalError source unitKind unitIndex s
  | .alarmAbort part => Sys2Proof.Machine.execAlarmAbort part s
  | .fencedHoldExpiry fn q sq => Sys2Proof.Machine.execFencedHoldExpiry fn q sq s
  | .dumpCapture => Sys2Proof.Machine.execDumpCapture s
  | .dumpWritten => Sys2Proof.Machine.execDumpWritten s
  | .run => Sys2Proof.Machine.execRun s
  | .parked => Sys2Proof.Machine.execParked s
  | .off => Sys2Proof.Machine.execOff s
  | .domainWakeComplete domain => Sys2Proof.Machine.execDomainWakeComplete domain s
  | .tHot die temp => Sys2Proof.Machine.execTHot die temp s
  | .tTrip die temp => Sys2Proof.Machine.execTTrip die temp s
  | .droopDetect cluster => Sys2Proof.Machine.execDroopDetect cluster s
  | .droopRecover cluster => Sys2Proof.Machine.execDroopRecover cluster s
  | .heavy lead level => Sys2Proof.Machine.execHeavy lead level s
  | .light lead => Sys2Proof.Machine.execLight lead s
  | .regulatorReport measured => Sys2Proof.Machine.execRegulatorReport measured s
  | .rotationStep die => Sys2Proof.Machine.execRotationStep die s
  | .rotationSliceEnd die pass => Sys2Proof.Machine.execRotationSliceEnd die pass s
  | .sliceAbandon die => Sys2Proof.Machine.execSliceAbandon die s
  | .snapRing fn v => Sys2Proof.Machine.execSnapRing fn v s
  | .pwrEnRise vin => Sys2Proof.Machine.execPwrEnRise vin s
  | .pwrEnFall => Sys2Proof.Machine.execPwrEnFall s
  | .rstNAssert us => Sys2Proof.Machine.execRstNAssert us s
  | .rstNDeassert => Sys2Proof.Machine.execRstNDeassert s
  | .perstDeassert => Sys2Proof.Machine.execPerstDeassert s
  | .pcieLinkDown => Sys2Proof.Machine.execPcieLinkDown s
  | .pcieConfigRequest fn r => Sys2Proof.Machine.execPcieConfigRequest fn r s
  | .bootStepComplete step ms r => Sys2Proof.Machine.execBootStepComplete step ms r s
  | .bootStepFail step f => Sys2Proof.Machine.execBootStepFail step f s
  | .bootLockTimeout => Sys2Proof.Machine.execBootLockTimeout s
  | .inputUndervoltage vin => Sys2Proof.Machine.execInputUndervoltage vin s
  | .inputOvervoltage vin => Sys2Proof.Machine.execInputOvervoltage vin s
  | .inputOvercurrent iin => Sys2Proof.Machine.execInputOvercurrent iin s
  | .readVin => Sys2Proof.Machine.execReadVin s
  | .readIin => Sys2Proof.Machine.execReadIin s
  | .readPin => Sys2Proof.Machine.execReadPin s
  | .readTemperature1 => Sys2Proof.Machine.execReadTemperature1 s
  | .readTemperature2 => Sys2Proof.Machine.execReadTemperature2 s
  | .statusWord => Sys2Proof.Machine.execStatusWord s
  | .kmcSessionOpen sess chainOk => Sys2Proof.Machine.execKmcSessionOpen sess chainOk s
  | .kmcSessionClose sess => Sys2Proof.Machine.execKmcSessionClose sess s
  | .getVersion => Sys2Proof.Machine.execGetVersion s
  | .getCapabilities => Sys2Proof.Machine.execGetCapabilities s
  | .negotiateAlgorithms rsapss3072 sha384 => Sys2Proof.Machine.execNegotiateAlgorithms rsapss3072 sha384 s
  | .getDigests => Sys2Proof.Machine.execGetDigests s
  | .getCertificate slot off len => Sys2Proof.Machine.execGetCertificate slot off len s
  | .challenge slot nonce => Sys2Proof.Machine.execChallenge slot nonce s
  | .getMeasurements index => Sys2Proof.Machine.execGetMeasurements index s
  | .getInfo sess req => Sys2Proof.Machine.execGetInfo sess req s
  | .report sess req nonce => Sys2Proof.Machine.execReport sess req nonce s
  | .mgmtRoot sess req digest a => Sys2Proof.Machine.execMgmtRoot sess req digest a s
  | .configWrite sess req pairs => Sys2Proof.Machine.execConfigWrite sess req pairs s
  | .routeWrite sess req part first entries => Sys2Proof.Machine.execRouteWrite sess req part first entries s
  | .alarmRaise sess req scope cause vd detail => Sys2Proof.Machine.execAlarmRaise sess req scope cause vd detail s
  | .bellRaise sess req scope vd target => Sys2Proof.Machine.execBellRaise sess req scope vd target s
  | .fwBegin sess req image len => Sys2Proof.Machine.execFwBegin sess req image len s
  | .fwChunk sess req off data => Sys2Proof.Machine.execFwChunk sess req off data s
  | .fwCommit sess req signer => Sys2Proof.Machine.execFwCommit sess req signer s
  | .dumpList sess req => Sys2Proof.Machine.execDumpList sess req s
  | .dumpRead sess req slot off len => Sys2Proof.Machine.execDumpRead sess req slot off len s
  | .dumpAck sess req slot => Sys2Proof.Machine.execDumpAck sess req slot s
  | .logRead sess req first count => Sys2Proof.Machine.execLogRead sess req first count s
  | .teleSub sess req period mask => Sys2Proof.Machine.execTeleSub sess req period mask s
  | .telemetry sess => Sys2Proof.Machine.execTelemetry sess s
  | .testReq sess req op => Sys2Proof.Machine.execTestReq sess req op s
  | .engineInstructionComplete core eng => Sys2Proof.Machine.execEngineInstructionComplete core eng s
  | .atsTranslationCompletion fn va host granted => Sys2Proof.Machine.execAtsTranslationCompletion fn va host granted s
  | .pcieLinkTrained => Sys2Proof.Machine.execPcieLinkTrained s
  | .laserModuleSeated inlet => Sys2Proof.Machine.execLaserModuleSeated inlet s
  | .vinSagEvent => Sys2Proof.Machine.execVinSagEvent s

end Sys2Proof.Machine
end

