-- ==== Sys2Proof/Safety.lean ====
section
/-! DEFINITION. The words that the statements use: when a slot of a bundle issues, what its issue leaves, and the canonical
form of the state. -/

namespace Sys2Proof.Machine

open Sys2Proof

/-! ## Slots of a bundle (R62 to R65) -/

/-- The core state that a slot reads its operands from: as before the bundle (R65). -/
def slotBase (s : State) (x : Slot) : CoreState := (s.core x.core).open.base

/-- The core state that a slot writes to: what the earlier slots of the bundle have given, and no hold. -/
def slotCur (s : State) (x : Slot) : CoreState := (s.core x.core).open.work

/-- What a slot needs of the core to issue: it carries the OPCODE of its row (R63); the core runs a block, is not stopped nor
held, and has no slot of the class in the open bundle; no earlier slot of the bundle waits or has faulted, and the core has
not changed since the bundle began (R64); the bundle index lies in the program; the predicate condition holds (R63); no scalar
register that it names waits for a VEXT (R65); and no earlier slot of the bundle named one of its destinations (R65). -/
def slotGoes (s : State) (x : Slot) (cls : Nat) (regs dests : List Nat) : Prop :=
  x.op = .row ∧ (s.core x.core).takes cls = true
    ∧ ((s.core x.core).open.wait = false ∧ (s.core x.core).open.faults = [] ∧ (s.core x.core).cur = slotBase s x)
    ∧ (slotBase s x).pc < (s.core x.core).len ∧ predHolds (slotBase s x).p x.f = true
    ∧ (slotBase s x).pendingReg regs = false ∧ ∀ d ∈ dests, d ∉ (s.core x.core).open.dests

/-- The state after a slot that completes its bundle has issued with the work `cur` on the core and `after` beside it: the
branch that it or an earlier slot took, or the loop-end step (R64, R102). -/
def afterWith (s : State) (x : Slot) (cur : CoreState) (br : Option Nat) (after : State → State) : State :=
  ((after s).setCore x.core { s.core x.core with
    cur := cur.advance (if br.isSome then br else (s.core x.core).open.branch), bundle := none, issuedBeat := true }).pump x.core

/-- The state after an S slot has issued with its effect `cur` on the core, which closes the bundle. -/
def afterS (s : State) (x : Slot) (cur : CoreState) (br : Option Nat) : State := afterWith s x cur br id

/-- The state after an M, V or X slot has issued with its effect `cur` on the core: the bundle stays open where a further slot
follows, and closes otherwise. -/
def afterSlot (s : State) (x : Slot) (cls : Nat) (dests : List Nat) (cur : CoreState) : State :=
  let b := (s.core x.core).open
  if x.more then
    s.setCore x.core { s.core x.core with
      bundle := some { b with work := cur, slots := b.slots + 2 ^ cls, dests := b.dests ++ dests } }
  else afterS s x cur none

/-- The slot of a slot instruction; a command of another kind has none. -/
def slotOf : Instr → Option Slot
  | .add x | .sub x | .mul x | .mulhu x | .div x | .divu x | .rem x | .remu x | .and x | .or x | .xor x | .shl x
  | .shr x | .sra x | .min x | .max x | .addi x | .andi x | .ori x | .xori x | .shli x | .shri x | .srai x | .li x
  | .lih x | .cmp x | .cmpi x | .pset x | .pmov x | .ld x | .st x | .br x | .bri x | .call x | .loop x | .loopI x
  | .endProg x | .beatEnd x | .rdsr x _ | .tdSet x | .tdGet x | .tdFld x | .waitTag x | .engWait x | .latchSig x
  | .acsinLatchWait x | .latchTest x | .seqGet x | .seqPage x | .phaseHeavy x | .phaseLight x | .snapBell x | .mma x
  | .accDrain x | .accLoad x | .accZero x | .accScale x | .vld x | .vst x | .vadd x | .vsub x | .vmul x | .vfma x
  | .vmax x | .vmin x | .vand x | .vor x | .vxor x | .vshl x | .vshr x | .vsra x | .vabs x | .vneg x | .vcmp x
  | .vsel x | .vmov x | .vbcast x | .viota x | .vext x | .vred x | .vexp2 x | .vlog2 x | .vrcp x | .vrsq x | .vtanh x
  | .vcvt x | .vmx x | .vidx x | .move x | .moveD x | .gather x | .scatter x | .moveAdd x | .moveMax x | .moveMin x
  | .atomSwap x | .atomCas x | .atomClaim x => some x
  | _ => none

/-! ## Commands of a queue (R340 to R346) -/

/-- The state with a fetched record started: in plain form, at the current edge. -/
def startedRec (s : State) (fn q : Nat) (r : QRec) (w : BitVec 512) : State :=
  s.updRec fn q r.sq fun x => { x with w := w, st := 1, beat := s.tick, stallFrom := s.tick, sgen := s.sealGen fn w }

/-- A fetched record as the command that it asks for. -/
def cmdOf (fn q : Nat) (r : QRec) (w : BitVec 512) : Cmd := ⟨fn, q, r.sq, none, recCtx w, w⟩

/-- The commands of the queues with their opcodes (R343); `ext` are the bytes from elsewhere that some of them read. -/
def queueCommands (fn q : Nat) (ext : List Byte) : List (Nat × Instr) :=
  [(0x00, .nop fn q), (0x01, .launch fn q), (0x02, .graphLaunch fn q), (0x03, .latchSignal fn q), (0x04, .latchWait fn q),
    (0x05, .seqUpdate fn q ext), (0x10, .ctxCreate fn q), (0x11, .ctxDestroy fn q), (0x12, .map fn q), (0x13, .unmap fn q),
    (0x14, .release fn q), (0x15, .invalidate fn q), (0x18, .graphStore fn q ext), (0x19, .graphPatch fn q ext),
    (0x1A, .graphDestroy fn q), (0x1C, .latchAlloc fn q), (0x1D, .latchFree fn q), (0x1E, .seqBind fn q),
    (0x1F, .seqUnbind fn q), (0x20, .sieveTable fn q), (0x21, .schedLoad fn q), (0x30, .shareCreate fn q ext),
    (0x31, .shareVerify fn q), (0x32, .shareMap fn q), (0x33, .shareUnmap fn q), (0x34, .shareDestroy fn q)]

/-- The command `k` that a queue's next start of an opcode runs, and the state `t` that it runs on: a record of the queue that
may start (R345), came whole (R53), opens (R342) and is in form (R340); where none of the opcode may, a started one whose data
were elsewhere; and else the next record of a graph launch (R358). Its partition and context can be served (R346). `va` is the
ARG_VA of its graph launch. -/
def runs (s : State) (fn q op : Nat) (t : State) (k : Cmd) (va : Nat) : Prop :=
  t.cmdCheck k = 0 ∧ recOp k.w = op ∧
    ((∃ r w, s.startable fn q = some r ∧ recOp r.w = op ∧ r.sealBad = false ∧ r.badRead = false ∧ s.openRec fn q r.sq r.w = some w ∧
        recWf w = true ∧ t = startedRec s fn q r w ∧ k = cmdOf fn q r w ∧ va = 0) ∨
      ((s.startable fn q).filter (fun r => recOp r.w == op) = none ∧ s.unrunCmd fn q op = some (k, va) ∧
        (k.g.isNone && (s.qrec fn q k.sq).any (·.badRead)) = false ∧ t = s) ∨
      ((s.startable fn q).filter (fun r => recOp r.w == op) = none ∧ s.unrunCmd fn q op = none ∧
        ∃ g i, s.graphDue fn q op = some (g, i) ∧ va = g.argVa ∧ k = t.graphCmd g i ∧
          t = s.updGrun g fun x => { x with st := x.st.set i (1, 0), beats := x.beats.set i s.tick }))

/-! ## Requests of the management sessions (R484 to R489) -/

/-- A request of a type finds its session open, with fewer than 64 requests outstanding, and the controller serves it. -/
def asked (s : State) (sess typ : Nat) : Prop :=
  ∃ k, s.session? sess = some k ∧ k.reqs.length < 64 ∧ s.serves typ = true

/-! ## Latches (R354) -/

/-- Every value that a latch's bitmap holds is a 64-bit value: bit `k` stands for the value `k + 1` above the latch's. -/
def Latch.fits (t : Latch) : Prop := ∀ k, bitOf t.held.toNat k = true → t.val.toNat + 1 + k < 2 ^ 64

/-! ## What every step keeps -/

/-- The form that no command breaks: the memory, the poison marks, the registers and the companion counters are canonical
tables; at most 16 bells wait (R470), 4,096 records are held on chip (R426), four management sessions are open (R484) and
256 notifications are kept (R494); and the numbers that cells, handles and records carry fit their fields (R276, R277, R303,
R423). -/
def State.inv (s : State) : Prop :=
  Memory.wf s.mem = true ∧ s.poison.wf false = true ∧ s.regs.rising = true ∧ s.cnts.wf 0 = true ∧ s.bells.length ≤ 16 ∧
    s.log.recs.length ≤ 4096 ∧ s.log.unstored ≤ 4096 ∧ s.log.next < 2 ^ 32 ∧ s.kmc.sessions.length ≤ 4 ∧
    s.kmc.kept.length ≤ 256 ∧ s.alarmId < 65536 ∧ s.bellId < 65536 ∧ s.nextHandle < 2 ^ 32

end Sys2Proof.Machine
end

