-- ==== Sys2Proof/Certificates/Slice0/Obligations.lean ====
section
/-! DEFINITION. The statements about the model. -/

open Sys2Proof Sys2Proof.Machine

/-! ## Slots: scalar instructions (R96 to R100) -/

/-- R97, R98: each SR-format instruction and each SI-format instruction completes with its result in D. The model's own
choices in it: log 8 and log 87. -/
def Obligations.ScalarResults : Prop :=
  (∀ (s : State) (x : Slot) (A B : U64),
     slotGoes s x 0 (scalars [(srAD x.f, srD x.f), (srAA x.f, srA x.f), (srAB x.f, srB x.f)]) [dstNo (srAD x.f) (srD x.f)] →
     sEng x.f = 0 → opf x.f 25 0 = 0 →
     (srAD x.f = true → srD x.f < 16) → (srAA x.f = true → srA x.f < 16) → (srAB x.f = true → srB x.f < 16) →
     A = (slotBase s x).src (srAA x.f) (srA x.f) → B = (slotBase s x).src (srAB x.f) (srB x.f) →
     (srU x.f = false → ∀ p ∈ [
       (Instr.add x, A + B), (.sub x, A - B), (.mul x, A * B),
       (.mulhu x, (A.zeroExtend 128 * B.zeroExtend 128).extractLsb' 64 64),
       (.div x, if B = 0 then BitVec.allOnes 64 else A.sdiv B), (.divu x, if B = 0 then BitVec.allOnes 64 else A / B),
       (.rem x, A.srem B), (.remu x, A % B), (.and x, A &&& B), (.or x, A ||| B), (.xor x, A ^^^ B),
       (.shl x, A <<< B.extractLsb' 0 6), (.shr x, A >>> B.extractLsb' 0 6), (.sra x, A.sshiftRight' (B.extractLsb' 0 6)),
       (.min x, if A.slt B then A else B), (.max x, if A.slt B then B else A)],
       exec p.1 s = .next (afterS s x ((slotCur s x).dst (srAD x.f) (srD x.f) p.2) none)) ∧
     (srU x.f = true → ∀ p ∈ [(Instr.min x, if A < B then A else B), (.max x, if A < B then B else A)],
       exec p.1 s = .next (afterS s x ((slotCur s x).dst (srAD x.f) (srD x.f) p.2) none))) ∧
  (∀ (s : State) (x : Slot) (A D : U64) (imm : BitVec 32),
     slotGoes s x 0 (scalars [(srAD x.f, srD x.f), (srAA x.f, srA x.f)]) [dstNo (srAD x.f) (srD x.f)] →
     sEng x.f = 0 → srAB x.f = false → srU x.f = false →
     (srAD x.f = true → srD x.f < 16) → (srAA x.f = true → srA x.f < 16) →
     A = (slotBase s x).src (srAA x.f) (srA x.f) → D = (slotBase s x).src (srAD x.f) (srD x.f) →
     imm = x.f.extractLsb' 0 32 →
     (∀ p ∈ [(Instr.addi x, A + imm.signExtend 64), (.andi x, A &&& imm.zeroExtend 64), (.ori x, A ||| imm.zeroExtend 64),
       (.xori x, A ^^^ imm.zeroExtend 64)],
       exec p.1 s = .next (afterS s x ((slotCur s x).dst (srAD x.f) (srD x.f) p.2) none)) ∧
     (imm < 64#32 → ∀ p ∈ [(Instr.shli x, A <<< imm), (.shri x, A >>> imm), (.srai x, A.sshiftRight' imm)],
       exec p.1 s = .next (afterS s x ((slotCur s x).dst (srAD x.f) (srD x.f) p.2) none)) ∧
     (srA x.f = 0 → ∀ p ∈ [(Instr.li x, imm.signExtend 64), (.lih x, imm ++ D.extractLsb' 0 32)],
       exec p.1 s = .next (afterS s x ((slotCur s x).dst (srAD x.f) (srD x.f) p.2) none)))

/-- R99: each compare and predicate instruction completes with its result in PD, or in D for PMOV of DIR 0; writes to p0 are
discarded. The model's own choices in it: log 8 and log 87. -/
def Obligations.PredicateResults : Prop :=
  ∀ (s : State) (x : Slot) (A B I : U64) (pd : Nat) (p : BitVec 8), sEng x.f = 0 →
    A = (slotBase s x).rs (opf x.f 37 32) → B = (slotBase s x).rs (opf x.f 31 26) →
    I = (x.f.extractLsb' 0 32).signExtend 64 → pd = opf x.f 43 41 → p = (slotBase s x).p →
    (slotGoes s x 0 [opf x.f 37 32, opf x.f 31 26] [dP pd] → opf x.f 40 38 = 0 → opf x.f 25 0 = 0 →
      ∀ e ∈ [(0, A == B), (1, A != B), (2, A.slt B), (3, !A.slt B), (4, A.ult B), (5, !A.ult B), (6, A &&& B != 0)],
        sMod x.f = e.1 →
          exec (.cmp x) s = .next (afterS s x { slotCur s x with p := writeP (slotCur s x).p pd e.2 } none)) ∧
    (slotGoes s x 0 [opf x.f 37 32] [dP pd] → opf x.f 40 38 = 0 →
      ∀ e ∈ [(0, A == I), (1, A != I), (2, A.slt I), (3, !A.slt I), (4, A.ult I), (5, !A.ult I), (6, A &&& I != 0)],
        sMod x.f = e.1 →
          exec (.cmpi x) s = .next (afterS s x { slotCur s x with p := writeP (slotCur s x).p pd e.2 } none)) ∧
    (slotGoes s x 0 [] [dP pd] → opf x.f 34 0 = 0 →
      ∀ a b : Bool, a = readP p (opf x.f 40 38) → b = readP p (opf x.f 37 35) →
        ∀ e ∈ [(0, a && b), (1, a || b), (2, xor a b), (3, a && !b), (4, a), (5, !a)], sMod x.f = e.1 →
          exec (.pset x) s = .next (afterS s x { slotCur s x with p := writeP (slotCur s x).p pd e.2 } none)) ∧
    (opf x.f 47 45 = 0 → opf x.f 31 0 = 0 →
      (bitOf x.f.toNat 44 = false → slotGoes s x 0 [opf x.f 43 38] [dS (opf x.f 43 38)] →
        exec (.pmov x) s =
          .next (afterS s x ((slotCur s x).ws (opf x.f 43 38) ((p ||| 1).zeroExtend 64)) none)) ∧
      (bitOf x.f.toNat 44 = true → slotGoes s x 0 [opf x.f 37 32] ((List.range 7).map fun i => dP (i + 1)) →
        exec (.pmov x) s = .next (afterS s x { slotCur s x with p := A.extractLsb' 0 8 ||| 1 } none)))

/-- R100: LD completes with the bytes at BASE + OFF, extended, and ST writes the bytes of its source there, for an aligned
offset within the data and staging regions; an offset that is not aligned raises KIND 0x2, one outside the regions KIND 0x3,
and so does a store into the staging region after the launch's first BEAT.END. A load from there then gives a free value, and
so does one from bytes that an engine or a move is writing. The model's own choices in it: log 5, log 8, log 85 and log 119.
-/
def Obligations.CoreStoreAccess : Prop :=
  ∀ (s s1 : State) (x : Slot) (a : Int) (n v : Nat), sEng x.f = 0 → opf x.f 33 24 = 0 →
    a = ((slotBase s x).ra (opf x.f 37 34)).toNat + (x.f.extractLsb' 0 24).toInt → n = 2 ^ opf x.f 45 44 →
    s1 = { s with free := s.free + 1 } →
    (bitOf x.f.toNat 47 = false → slotGoes s x 0 [srD x.f] [dS (srD x.f)] →
      (a % n ≠ 0 → exec (.ld x) s = .next (s1.preciseExc x.core { excOf 2 with va := wrap a 56 } [])) ∧
      (a % n = 0 → (a < 0 ∨ 0x1F0000 < a + n) →
        exec (.ld x) s = .next (s1.preciseExc x.core { excOf 3 with va := wrap a 56 } [])) ∧
      (a % n = 0 → 0 ≤ a → a + n ≤ 0x1F0000 →
        v = (if ((s.core x.core).firstEnd = true ∧ 0x1B0000 < a + n) ∨ (slotBase s x).beingWritten a.toNat = true then Config.freeNat s.free % 2 ^ (8 * n)
          else leNat ((slotBase s x).store.getRun a.toNat n)) →
        exec (.ld x) s = .next (afterS s1 x ((slotCur s x).ws (srD x.f)
          (if bitOf x.f.toNat 46 then BitVec.ofInt 64 (BitVec.ofNat (8 * n) v).toInt else BitVec.ofNat 64 v)) none))) ∧
    (opf x.f 47 46 = 0 → slotGoes s x 0 [srD x.f] [] →
      (a % n ≠ 0 → exec (.st x) s = .next (s.preciseExc x.core { excOf 2 with va := wrap a 56 } [])) ∧
      (a % n = 0 → (a < 0 ∨ 0x1F0000 < a + n ∨ (s.core x.core).firstEnd = true ∧ 0x1B0000 < a + n) →
        exec (.st x) s = .next (s.preciseExc x.core { excOf 3 with va := wrap a 56 } [])) ∧
      (a % n = 0 → 0 ≤ a → a + n ≤ 0x1F0000 → ((s.core x.core).firstEnd = true → a + n ≤ 0x1B0000) →
        exec (.st x) s = .next (afterS s x { slotCur s x with
          store := (slotCur s x).store.setRun a.toNat (leBytes n ((slotBase s x).rs (srD x.f)).toNat) } none)))

/-- R101, R102: a branch to a bundle of the program is taken, and CALL also gives D the index of the next bundle; a loop of a
count that is not zero begins, and one of zero goes on after LEND. The model's own choices in it: log 8 and log 87. -/
def Obligations.BranchesAndLoops : Prop :=
  ∀ (s : State) (x : Slot) (t : Nat) (A : U64), sEng x.f = 0 → A = (slotBase s x).rs (opf x.f 37 32) →
    t = opf x.f 10 0 →
    (t < (s.core x.core).len → slotGoes s x 0 [] [] → opf x.f 47 11 = 0 →
      exec (.br x) s = .next (afterS s x (slotCur s x) (some t))) ∧
    (A.toNat % 2048 < (s.core x.core).len → slotGoes s x 0 [opf x.f 37 32] [] → opf x.f 47 38 = 0 → opf x.f 31 0 = 0 →
      exec (.bri x) s = .next (afterS s x (slotCur s x) (some (A.toNat % 2048)))) ∧
    (t < (s.core x.core).len → slotGoes s x 0 [opf x.f 43 38] [dS (opf x.f 43 38)] → opf x.f 47 44 = 0 →
      opf x.f 37 11 = 0 →
      exec (.call x) s = .next (afterS s x
        ((slotCur s x).ws (opf x.f 43 38) (BitVec.ofNat 64 ((slotBase s x).pc + 1))) (some t))) ∧
    (∀ (i : Instr) (lc count : Nat), lc = opf x.f 43 42 → opf x.f 47 44 = 0 → opf x.f 41 38 = 0 →
      (i = .loop x ∧ opf x.f 31 11 = 0 ∧ count = A.toNat % 2 ^ 32 ∧ slotGoes s x 0 [opf x.f 37 32] [dL lc] ∨
       i = .loopI x ∧ opf x.f 37 32 = 0 ∧ bitOf x.f.toNat 11 = false ∧ count = opf x.f 31 12 ∧
         slotGoes s x 0 [] [dL lc]) →
      (slotBase s x).pc < t → (slotBase s x).loops.length < 4 →
      (∀ l ∈ (slotBase s x).loops, t ≤ l.last ∧ l.lc ≠ lc) →
      exec i s = .next (if count = 0 then afterS s x (slotCur s x) (some (t + 1))
        else afterS s x { slotCur s x with
          loops := ⟨lc, (slotBase s x).pc + 1, t, count, 0⟩ :: (slotCur s x).loops } none))

/-- R75, R77, R103: END and BEAT.END, with no other slot of the bundle in force and no predicate named, hold issue from then
on; a predicate named, or another slot in force, raises KIND 0x1. R109, R110: PHASE.HEAVY and PHASE.LIGHT hint the phase that
begins LEAD edges on, and SNAP.BELL rings the bell of its scope for its target beat; neither changes a register. R64, R87, R91:
a slot that ends its bundle while an earlier slot of it has faulted takes the bundle's faults and leaves none of its effects,
the fault recorded first being that of the first slot in the order S, M, V, X, and the rest following in that order; a slot
that ends its bundle while one of its slots waits leaves nothing either, and the bundle is to be given again. The model's own
choices in it: log 8 and log 87. -/
def Obligations.EndsHintsBellAndBundles : Prop :=
  (∀ (s : State) (x : Slot),
    (slotGoes s x 0 [] [] → x.f = 0 → (s.core x.core).open.slots = 0 →
      exec (.endProg x) s = .next (afterS s x { slotCur s x with hold := .ended } none) ∧
      exec (.beatEnd x) s = .next (afterS s x { slotCur s x with hold := .beatEnd } none)) ∧
    (x.op = .row → (s.core x.core).takes 0 = true → (slotBase s x).pc < (s.core x.core).len →
      (s.core x.core).open.wait = false → (s.core x.core).cur = slotBase s x → (s.core x.core).open.faults = [] →
      (x.f ≠ 0 ∨ (s.core x.core).open.slots ≠ 0) →
      ∀ i ∈ [Instr.endProg x, .beatEnd x], exec i s = .next (s.preciseExc x.core { excOf 1 with eng := sEng x.f } []))) ∧
  (∀ (s : State) (x : Slot), sEng x.f = 0 →
    (opf x.f 47 12 = 0 → opf x.f 7 2 = 0 → opf x.f 11 8 ≠ 0 → slotGoes s x 0 [] [] →
      exec (.phaseHeavy x) s = .next (afterWith s x (slotCur s x) none fun t => t.hint false (opf x.f 11 8) (opf x.f 1 0)) ∧
      exec (.phaseLight x) s = .next (afterWith s x (slotCur s x) none fun t => t.hint true (opf x.f 11 8) (opf x.f 1 0))) ∧
    (opf x.f 46 38 = 0 → opf x.f 31 0 = 0 → slotGoes s x 0 [opf x.f 37 32] [] →
      exec (.snapBell x) s = .next (afterWith s x (slotCur s x) none fun t =>
        t.partBell (s.coreFn x.core).1 (bitOf x.f.toNat 47) ((slotBase s x).rs (opf x.f 37 32)).toNat))) ∧
  (∀ (s : State) (n : Nat) (b : OpenBundle) (after : State → State),
     (b.wait = true → s.closeBundle n b after = s.setCore n { s.core n with bundle := none }) ∧
     (b.wait = false → (s.core n).cur = b.base → (∀ e ∈ b.faults, e.slot < 4) → b.faults ≠ [] →
       ∃ e es, s.closeBundle n b after = s.preciseExc n e es ∧ (e :: es).Perm b.faults ∧
         (e :: es).Pairwise fun x y => x.slot ≤ y.slot) ∧
     (b.wait = false → (s.core n).cur = b.base → b.faults = [] →
       s.closeBundle n b after = ((after s).setCore n { s.core n with
         cur := b.work.advance b.branch, bundle := none, issuedBeat := true }).pump n))

/-! ## Slots: special registers, descriptors, waits, latches, sequence slots, hints and the bell (R104 to R110) -/

/-- R104: RDSR completes with the selected value in D. The model's own choices in it: log 4 and log 8. -/
def Obligations.SpecialRegisterRead : Prop :=
  ∀ (s : State) (x : Slot) (acycles fn q : Nat), slotGoes s x 0 [srD x.f] [dS (srD x.f)] → sEng x.f = 0 →
    opf x.f 47 44 = 0 → opf x.f 37 8 = 0 → fn = (s.coreFn x.core).1 → q = fn - 1 →
    (∀ e ∈ [(0x00, s.fld 0 0 Reg.DCTL_BEAT_NUM.BEAT_NUM), (0x01, acycles), (0x02, s.fld 0 x.core Reg.QOSM_CORE_LATE.LATE),
        (0x03, x.core), (0x06, clockMHz (s.fld 0 0 Reg.PWR_STAT.CLK)),
        (0x07, s.fld 0 0 Reg.DCTL_BEAT_CFG.BEAT_LEN * 10000), (0x08, q),
        (0x09, s.fld 0 q Reg.DCTL_COMP_PART0.CUR_EPOCH)],
      opf x.f 7 0 = e.1 →
        exec (.rdsr x acycles) s = .next (afterS s x ((slotCur s x).ws (srD x.f) (BitVec.ofNat 64 e.2)) none)) ∧
    (∀ e ∈ [(0x04, s.fld 0 q Reg.DCTL_COMP_PART0.MEMBER), (0x05, s.fld 0 q Reg.DCTL_COMP_PART0.MEMBERS)],
      opf x.f 7 0 = e.1 → exec (.rdsr x acycles) s = .next (afterS s x
        ((slotCur s x).ws (srD x.f) (if fn ≠ 0 ∧ s.vdOf q ≠ 0 then BitVec.ofNat 64 e.2 else 0)) none)) ∧
    (∀ k < 4, opf x.f 7 0 = 0x10 + k → exec (.rdsr x acycles) s = .next (afterS s x ((slotCur s x).ws (srD x.f)
      (match (slotBase s x).loops.find? (fun l => l.lc == k) with
        | some l => BitVec.ofNat 64 l.iter
        | none => 0)) none))

/-- R105: TD.SET and TD.GET move a whole descriptor, and TD.FLD sets or raises one field, truncated to its width. The model's
own choices in it: log 8 and log 87. -/
def Obligations.DescriptorInstructions : Prop :=
  ∀ (s : State) (x : Slot) (d i : Nat), sEng x.f = 0 →
    (opf x.f 47 44 = 0 → bitOf x.f.toNat 38 = false → opf x.f 25 0 = 0 → i = opf x.f 43 39 →
      slotGoes s x 0 [opf x.f 37 32, opf x.f 31 26] [dT i] →
      exec (.tdSet x) s = .next (afterS s x { slotCur s x with
        td := (slotCur s x).td.set 0 i ((slotBase s x).rs (opf x.f 31 26) ++ (slotBase s x).rs (opf x.f 37 32)) } none)) ∧
    (opf x.f 47 44 = 0 → opf x.f 26 0 = 0 →
      slotGoes s x 0 [opf x.f 43 38, opf x.f 37 32] [dS (opf x.f 43 38), dS (opf x.f 37 32)] →
      exec (.tdGet x) s = .next (afterS s x
        (((slotCur s x).ws (opf x.f 43 38) (((slotBase s x).tdv (opf x.f 31 27)).extractLsb' 0 64)).ws (opf x.f 37 32)
          (((slotBase s x).tdv (opf x.f 31 27)).extractLsb' 64 64)) none)) ∧
    (∀ e ∈ [(0, 0, 21), (1, 57, 14), (2, 71, 13), (3, 84, 16), (4, 100, 4), (5, 107, 21)],
      opf x.f 46 44 = e.1 → bitOf x.f.toNat 38 = false → opf x.f 31 0 = 0 → i = opf x.f 43 39 →
      slotGoes s x 0 [opf x.f 37 32] [dT i] → d = ((slotBase s x).tdv i).toNat →
      exec (.tdFld x) s = .next (afterS s x { slotCur s x with
        td := (slotCur s x).td.set 0 i (BitVec.ofNat 128 (putBits d e.2.1 e.2.2
          (((slotBase s x).rs (opf x.f 37 32)).toNat + if bitOf x.f.toNat 47 then bits d e.2.1 e.2.2 else 0))) } none))

/-- R82, R83, R106, R107: WAIT.TAG, ENG.WAIT and LATCH.WAIT hold issue until their condition is met, LATCH.SIG posts its
signal in order of issue, and LATCH.TEST gives PD whether the latch has reached the value, on a latch of the core's own
context, or for LATCH.SIG of a member of its virtual device. The model's own choices in it: log 8 and log 96. -/
def Obligations.WaitsAndLatches : Prop :=
  ∀ (s : State) (x : Slot) (v : U64) (l : Nat) (t : Latch), sEng x.f = 0 →
    (opf x.f 47 38 = 0 → opf x.f 31 0 = 0 → slotGoes s x 0 [opf x.f 37 32] [] →
      exec (.waitTag x) s = .next (afterS s x
        { slotCur s x with hold := .tags ((slotBase s x).rs (opf x.f 37 32)) } none)) ∧
    (opf x.f 47 8 = 0 → slotGoes s x 0 [] [] →
      exec (.engWait x) s = .next (afterS s x { slotCur s x with hold := .engines (opf x.f 7 0) } none)) ∧
    (opf x.f 47 44 = 0 → opf x.f 14 0 = 0 → bitOf x.f.toNat 25 = true → s.memberOk x.core (opf x.f 24 17) = true →
      slotGoes s x 0 [opf x.f 31 26] [] →
      exec (.latchSig x) s = .next (afterS s x { slotCur s x with
        seq := (slotCur s x).seq + 1
        sigs := (slotCur s x).sigs ++ [⟨(slotBase s x).seq, opf x.f 43 32, (slotBase s x).rs (opf x.f 31 26), true,
          opf x.f 24 17, opf x.f 16 15, s.coreEpoch x.core⟩] } none)) ∧
    (opf x.f 47 44 = 0 → l = opf x.f 43 32 → v = (slotBase s x).rs (opf x.f 31 26) →
      s.latch? (s.coreFn x.core).1 l = some t → t.ctx = (s.coreFn x.core).2.1 →
      (opf x.f 14 0 = 0 → bitOf x.f.toNat 25 = false → opf x.f 24 17 = 0 → slotGoes s x 0 [opf x.f 31 26] [] →
        exec (.latchSig x) s = .next (afterS s x { slotCur s x with
          seq := (slotCur s x).seq + 1
          sigs := (slotCur s x).sigs ++
            [⟨(slotBase s x).seq, l, v, false, 0, opf x.f 16 15, s.coreEpoch x.core⟩] } none)) ∧
      (opf x.f 25 0 = 0 → slotGoes s x 0 [opf x.f 31 26] [] →
        exec (.acsinLatchWait x) s = .next (afterS s x
          (if v ≤ t.val then slotCur s x else { slotCur s x with hold := .latch l v (slotBase s x).pc }) none)) ∧
      (opf x.f 22 0 = 0 → slotGoes s x 0 [opf x.f 31 26] [dP (opf x.f 25 23)] →
        exec (.latchTest x) s = .next (afterS s x
          { slotCur s x with p := writeP (slotCur s x).p (opf x.f 25 23) (decide (v ≤ t.val)) } none)))

/-- R85, R108: SEQ.GET gives the tokens and the tokens per page of a slot bound to the core's context, and SEQ.PAGE places the
entries that it asks for in the tile's bytes; SR takes the slot's number from A. The model's own choices in it: log 8, log 40
and log 81. -/
def Obligations.SequenceInstructions : Prop :=
  ∀ (s : State) (x : Slot) (q : SeqSlot) (a no : Nat) (rs : List Nat), sEng x.f = 0 → opf x.f 46 44 = 0 →
    (bitOf x.f.toNat 47 = false ∧ a = 0 ∧ no = opf x.f 7 0 ∧ rs = [] ∨
      bitOf x.f.toNat 47 = true ∧ opf x.f 7 0 = 0 ∧ no = ((slotBase s x).rs a).toNat % 256 ∧ rs = [a]) →
    s.slotSeen x.core no = some q → q.fn = (s.coreFn x.core).1 → q.ctx = (s.coreFn x.core).2.1 →
    (a = opf x.f 31 26 → opf x.f 25 8 = 0 →
      slotGoes s x 0 ([opf x.f 43 38, opf x.f 37 32] ++ rs) [dS (opf x.f 43 38), dS (opf x.f 37 32)] →
      exec (.seqGet x) s = .next (afterS s x (((slotCur s x).ws (opf x.f 43 38) (BitVec.ofNat 64 q.tokens)).ws
        (opf x.f 37 32) (BitVec.ofNat 64 q.pageTokens)) none)) ∧
    (∀ (d : BitVec 128) (is es : List Nat), a = opf x.f 25 20 → opf x.f 19 8 = 0 → bitOf x.f.toNat 38 = false →
      slotGoes s x 0 ([opf x.f 37 32, opf x.f 31 26] ++ rs) [] → d = (slotBase s x).tdv (opf x.f 43 39) →
      is = (List.range (min ((slotBase s x).rs (opf x.f 31 26)).toNat 16)).map
        (((slotBase s x).rs (opf x.f 37 32)).toNat + ·) →
      (∀ o ∈ (slotBase s x).engq, hazard [] [opf x.f 43 39] o.rd o.wr = false) →
      (∀ o ∈ (slotBase s x).moves, hazard [] [opf x.f 43 39] o.rd o.wr = false) →
      (∀ i ∈ is, s.seqReady q i = true ∧ i < q.pageCount) → s.seqEntries q is = .ok es →
      tdOk d = true → (tdFmt d = 0xD ∨ tdFmt d = 0xB) → 8 * is.length ≤ tdRows d * rowBytes d →
      exec (.seqPage x) s = .next (afterS s x { slotCur s x with
        store := storeAt (slotCur s x).store (tileBytes d) (es.flatMap (leBytes 8)) } none))

/-! ## Slots: engines (R64, R65, R111 to R122) -/

/-- R64, R65, R112 to R116: each matrix instruction that passes its checks of issue joins its engine's queue, which has room,
with the descriptors and the register that it read at issue. The model's own choices in it: log 8, log 9 and log 83. -/
def Obligations.MatrixIssue : Prop :=
  ∀ (s : State) (x : Slot) (e td : Nat) (b : CoreState), e = sEng x.f → td = opf x.f 43 39 → b = slotBase s x →
    b.engDepth e < 8 →
    (∀ (v : U64) (n : Nat) (dests : List Nat), v = b.rs (opf x.f 33 28) → n = bits v.toNat 32 8 + 1 →
      opf x.f 45 44 = 0 → opf x.f 25 0 = 0 →
      dests = (List.range 4).filterMap (fun k => if opf x.f 27 26 ≤ k then some (2000 + 4 * e + k) else none) →
      slotGoes s x 1 [opf x.f 33 28] dests →
      (∀ d ∈ [b.tdv td, b.tdv (opf x.f 38 34)], tdOk d = true ∧ 1 ≤ tdFmt d ∧ tdFmt d ≤ 0xC) →
      bits v.toNat 56 8 = 0 → 32 * opf x.f 27 26 + n ≤ 128 → (fmtMx (tdFmt (b.tdv td)) = true → bitOf x.f.toNat 46 = true) →
      exec (.mma x) s = .next (afterSlot s x 1 dests ((slotCur s x).enqueue b.pc e 1 x.f
        [(td, b.tdv td), (opf x.f 38 34, b.tdv (opf x.f 38 34))] [v] [td, opf x.f 38 34] [] none))) ∧
    (∀ (v : U64) (banks : List Nat), v = b.rs (opf x.f 37 32) → opf x.f 31 28 = 0 → opf x.f 23 0 = 0 →
      tdOk (b.tdv td) = true → opf x.f 27 26 + opf x.f 25 24 ≤ 3 →
      banks = (List.range (opf x.f 25 24 + 1)).map (fun m => 2000 + 4 * e + (opf x.f 27 26 + m)) →
      (bitOf x.f.toNat 47 = false → bitOf x.f.toNat 44 = false → opf x.f 46 45 ≠ 3 → tdFmt (b.tdv td) ≤ 4 →
        slotGoes s x 1 [opf x.f 37 32] [] →
        exec (.accDrain x) s = .next (afterSlot s x 1 []
          ((slotCur s x).enqueue b.pc e 2 x.f [(td, b.tdv td)] [v] [] [td] none))) ∧
      (opf x.f 47 44 = 0 → tdFmt (b.tdv td) = 0 → slotGoes s x 1 [opf x.f 37 32] banks →
        exec (.accLoad x) s = .next (afterSlot s x 1 banks
          ((slotCur s x).enqueue b.pc e 3 x.f [(td, b.tdv td)] [v] [td] [] none))) ∧
      (opf x.f 46 44 = 0 → bitOf x.f.toNat 38 = false → tdFmt (b.tdv td) = 0 → slotGoes s x 1 [opf x.f 37 32] banks →
        exec (.accScale x) s = .next (afterSlot s x 1 banks
          ((slotCur s x).enqueue b.pc e 5 x.f [(td, b.tdv td)] [v] [td] [] none)))) ∧
    (∀ banks : List Nat, opf x.f 47 4 = 0 →
      banks = ((List.range 4).filter fun k => bitOf (opf x.f 3 0) k).map (fun k => 2000 + 4 * e + k) →
      slotGoes s x 1 [] banks →
      exec (.accZero x) s = .next (afterSlot s x 1 banks ((slotCur s x).enqueue b.pc e 4 x.f [] [] [] [] none)))

/-- R64, R65, R117 to R122: each vector instruction that passes its checks of issue joins its engine's queue, which has room,
with the registers that it read at issue. The model's own choices in it: log 8, log 9, log 83 and log 88. -/
def Obligations.VectorIssue : Prop :=
  ∀ (s : State) (x : Slot) (e et rnd dt td : Nat) (b : CoreState), sEng x.f < 2 → e = 4 + sEng x.f → et = opf x.f 23 20 →
    rnd = opf x.f 46 45 → dt = opf x.f 13 10 → td = opf x.f 13 9 → b = slotBase s x →
    b.engDepth e < 8 →
    (∀ regs, (bitOf x.f.toNat 47 = true → regs = [opf x.f 19 14]) → (bitOf x.f.toNat 47 = false → regs = []) →
      slotGoes s x 2 regs [3000 + 32 * sEng x.f + opf x.f 43 39] →
      ∀ p ∈ [(Instr.vadd x, 0x10, [0x0, 0x1, 0x2, 0xB, 0xD], rnd ≠ 3), (.vsub x, 0x11, [0x0, 0x1, 0x2, 0xB, 0xD], rnd ≠ 3),
          (.vmul x, 0x12, [0x0, 0x1, 0x2, 0xD], rnd ≠ 3), (.vfma x, 0x13, [0x0, 0x1, 0x2], rnd ≠ 3),
          (.vmax x, 0x14, [0x0, 0x1, 0x2, 0xB, 0xD], (bitOf x.f.toNat 47 = true → rnd ≠ 3)), (.vmin x, 0x15, [0x0, 0x1, 0x2, 0xB, 0xD], (bitOf x.f.toNat 47 = true → rnd ≠ 3)),
          (.vand x, 0x16, [0xB, 0xD], True), (.vor x, 0x17, [0xB, 0xD], True), (.vxor x, 0x18, [0xB, 0xD], True),
          (.vshl x, 0x19, [0xB, 0xD], True), (.vshr x, 0x1A, [0xB, 0xD], True), (.vsra x, 0x1B, [0xB, 0xD], True),
          (.vabs x, 0x1C, [0x0, 0x1, 0x2, 0xB, 0xD], True), (.vneg x, 0x1D, [0x0, 0x1, 0x2, 0xB, 0xD], True),
          (.vsel x, 0x21, [0x0, 0x1, 0x2, 0xB, 0xD], (bitOf x.f.toNat 47 = true → rnd ≠ 3)), (.vmov x, 0x28, List.range 16, True),
          (.vred x, 0x30, [0x0, 0x1, 0x2, 0xB, 0xD], True), (.vexp2 x, 0x38, [0x0, 0x1], rnd ≠ 3),
          (.vlog2 x, 0x39, [0x0, 0x1], rnd ≠ 3), (.vrcp x, 0x3A, [0x0, 0x1], rnd ≠ 3), (.vrsq x, 0x3B, [0x0, 0x1], rnd ≠ 3),
          (.vtanh x, 0x3C, [0x0, 0x1], rnd ≠ 3)],
        et ∈ p.2.2.1 → p.2.2.2 →
        exec p.1 s = .next (afterSlot s x 2 [3000 + 32 * sEng x.f + opf x.f 43 39]
          ((slotCur s x).enqueue b.pc e p.2.1 x.f [] [b.rs (opf x.f 19 14), b.ra (opf x.f 12 9)] [] [] none))) ∧
    (∀ regs, (bitOf x.f.toNat 47 = true → regs = [opf x.f 19 14]) → (bitOf x.f.toNat 47 = false → regs = []) →
      slotGoes s x 2 regs [3000 + 32 * sEng x.f + opf x.f 43 39] →
      ∀ p ∈ [(Instr.vcmp x, 0x20, (et ∈ [0x0, 0x1, 0x2] ∧ dt ∈ [0, 1, 2, 3, 7, 8] ∨ et ∈ [0xB, 0xD] ∧ dt < 9) ∧
            (bitOf x.f.toNat 47 = true → rnd ≠ 3)),
          (.vcvt x, 0x40, et ∈ [0x0, 0x1, 0x2, 0x3, 0x4, 0xB, 0xC, 0xD] ∧ dt ∈ [0x0, 0x1, 0x2, 0x3, 0x4, 0xB, 0xD] ∧ rnd ≠ 3 ∧
            cvtPOk et dt (opf x.f 9 7) = true)],
        p.2.2 → exec p.1 s = .next (afterSlot s x 2 [3000 + 32 * sEng x.f + opf x.f 43 39]
          ((slotCur s x).enqueue b.pc e p.2.1 x.f [] [b.rs (opf x.f 19 14), b.ra (opf x.f 12 9)] [] [] none))) ∧
    (slotGoes s x 2 [opf x.f 19 14] [3000 + 32 * sEng x.f + opf x.f 43 39] →
      ∀ p ∈ [(Instr.vbcast x, 0x29, et ∈ [0x0, 0x1, 0x2, 0xB, 0xD] ∧ rnd ≠ 3), (.viota x, 0x2A, et = 0xD), (.vidx x, 0x48, et = 0xD)],
        p.2.2 → exec p.1 s = .next (afterSlot s x 2 [3000 + 32 * sEng x.f + opf x.f 43 39]
          ((slotCur s x).enqueue b.pc e p.2.1 x.f [] [b.rs (opf x.f 19 14), b.ra (opf x.f 12 9)] [] [] none))) ∧
    (et ∈ [0x0, 0x1, 0x2, 0xB, 0xD] → opf x.f 13 4 < 8192 / fmtBits et →
      slotGoes s x 2 [opf x.f 19 14] [opf x.f 19 14] →
      exec (.vext x) s = .next (afterSlot s x 2 [opf x.f 19 14]
        ((slotCur s x).enqueue b.pc e 0x2B x.f [] [] [] [] (some (opf x.f 19 14))))) ∧
    (et = 0 → fmtMx dt = true → rnd ≠ 3 → 128 * opf x.f 9 7 + 32 * fmtBits dt ≤ 1024 →
      slotGoes s x 2 [] [3000 + 32 * sEng x.f + opf x.f 43 39, 3000 + 32 * sEng x.f + opf x.f 28 24] →
      exec (.vmx x) s = .next (afterSlot s x 2
        [3000 + 32 * sEng x.f + opf x.f 43 39, 3000 + 32 * sEng x.f + opf x.f 28 24]
        ((slotCur s x).enqueue b.pc e 0x41 x.f [] [b.rs (opf x.f 19 14)] [] [] none))) ∧
    (∀ r : U64, r = b.rs (opf x.f 19 14) → tdOk (b.tdv td) = true → r.toNat % 64 = 0 →
      tdBase (b.tdv td) + r.toNat + 1024 ≤ (if (s.core x.core).firstEnd then 0x1B0000 else 0x1F0000) →
      (slotGoes s x 2 [opf x.f 19 14] [3000 + 32 * sEng x.f + opf x.f 43 39] →
        exec (.vld x) s = .next (afterSlot s x 2 [3000 + 32 * sEng x.f + opf x.f 43 39]
          ((slotCur s x).enqueue b.pc e 0x01 x.f [(td, b.tdv td)] [r] [td] [] none))) ∧
      (slotGoes s x 2 [opf x.f 19 14] [] →
        exec (.vst x) s = .next (afterSlot s x 2 []
          ((slotCur s x).enqueue b.pc e 0x02 x.f [(td, b.tdv td)] [r] [] [td] none))))

/-- R64, R71, R124 to R131: each move instruction that passes its checks of issue joins its move engine's queue, which has
room, under a free tag of that engine, with the tile and the registers that it read at issue; GATHER and SCATTER of no entries
move nothing. The model's own choices in it: log 8, log 88 and log 92. -/
def Obligations.MoveIssue : Prop :=
  ∀ (s : State) (x : Slot) (b : CoreState) (m : MoveOp) (lim : Nat) (d : BitVec 128), b = slotBase s x →
    sEng x.f ≤ 1 → opf x.f 43 38 / 32 = sEng x.f → b.moveDepth (sEng x.f) < 32 →
    b.tagBusy (opf x.f 43 38) = false → lim = (if (s.core x.core).firstEnd then 0x1B0000 else 0x1F0000) →
    d = b.tdv (opf x.f 37 33) →
    (bitOf x.f.toNat 44 = false → opf x.f 21 0 = 0 →
      (bitOf x.f.toNat 45 = true → bitOf x.f.toNat 22 = false ∧ opf x.f 28 23 = 0 ∧ s.hasSieve = true) →
      slotGoes s x 3 [opf x.f 28 23] [] → tdOk d = true → tileEnd d ≤ lim →
      (fmtMx (tdFmt d) = true → bitOf x.f.toNat 45 = false → scalesEnd d ≤ lim) →
      m = { moveOf b (slotCur s x) 1 x.f s.tick with
        tds := [(opf x.f 37 33, d)], vals := [b.ra (opf x.f 32 29), b.rs (opf x.f 28 23)]
        rd := if bitOf x.f.toNat 22 then [opf x.f 37 33] else [], wr := if bitOf x.f.toNat 22 then [] else [opf x.f 37 33] } →
      exec (.move x) s = .next (afterSlot s x 3 [] ((slotCur s x).enqueueMove m))) ∧
    (∀ p ∈ [(Instr.moveAdd x, 0), (.moveMax x, 1), (.moveMin x, 2)],
      opf x.f 45 44 = p.2 → opf x.f 22 16 = 0 → opf x.f 12 0 = 0 →
      (opf x.f 15 13 ≤ 1 ∨ opf x.f 15 13 ≤ 5 ∧ s.fld 0 0 Reg.IDC_CAP1.FP_ADD = 1) →
      slotGoes s x 3 [opf x.f 28 23] [] → tdOk d = true → tdRows d * rowBytes d % efmtSize (opf x.f 15 13) = 0 →
      tileEnd d ≤ lim →
      m = { moveOf b (slotCur s x) 5 x.f s.tick with
        tds := [(opf x.f 37 33, d)], vals := [b.ra (opf x.f 32 29), b.rs (opf x.f 28 23)], rd := [opf x.f 37 33] } →
      exec p.1 s = .next (afterSlot s x 3 [] ((slotCur s x).enqueueMove m))) ∧
    (∀ (o : Nat) (r : List Byte), o = (b.ra (opf x.f 37 34)).toNat → r = b.store.getRun o 64 →
      opf x.f 45 44 = 0 → opf x.f 33 0 = 0 → slotGoes s x 3 [] [] → o % 64 = 0 → o + 64 ≤ lim →
      mdrOk r s.hasSieve (s.fld 0 0 Reg.IDC_CAP1.FP_ADD == 1) = true →
      mdrSide (mdrSrcCore r) (bits (mdrWord r 0) 0 56) (mdrD0 r) ((mdrDims r).map fun d => (d.1, d.2.1)) lim = none →
      mdrSide (mdrDstCore r) (bits (mdrWord r 1) 0 56) (mdrD0 r) ((mdrDims r).map fun d => (d.1, d.2.2)) lim = none →
      m = { moveOf b (slotCur s x) 2 x.f s.tick with mdr := r } →
      exec (.moveD x) s = .next (afterSlot s x 3 [] ((slotCur s x).enqueueMove m))) ∧
    (∀ (l : BitVec 128) (cnt len : Nat), l = b.tdv (opf x.f 32 28) → cnt = (b.rs (opf x.f 27 22)).toNat →
      len = (b.rs (opf x.f 21 16)).toNat → opf x.f 12 0 = 0 → slotGoes s x 3 [opf x.f 27 22, opf x.f 21 16] [] →
      tdOk d = true → tdOk l = true → cnt ≤ 4096 → 0 < len → len ≤ 2 ^ 20 →
      tdBase d + (if cnt = 0 then 0 else (cnt - 1) * roundUp len 32 + len) ≤ lim → tdBase l + 8 * cnt ≤ lim →
      tileEnd d ≤ lim → tileEnd l ≤ lim →
      (opf x.f 45 44 = 0 → opf x.f 15 13 = 0 →
        m = { moveOf b (slotCur s x) 3 x.f s.tick with
          tds := [(opf x.f 37 33, d), (opf x.f 32 28, l)], vals := [BitVec.ofNat 64 cnt, BitVec.ofNat 64 len]
          rd := [opf x.f 32 28], wr := [opf x.f 37 33] } →
        exec (.gather x) s = .next (afterSlot s x 3 [] (if cnt = 0 then slotCur s x else (slotCur s x).enqueueMove m))) ∧
      ((opf x.f 45 44 = 0 ∧ opf x.f 15 13 = 0 ∨ opf x.f 45 44 ≠ 0 ∧
          (opf x.f 15 13 ≤ 1 ∨ opf x.f 15 13 ≤ 5 ∧ s.fld 0 0 Reg.IDC_CAP1.FP_ADD = 1) ∧
          len % efmtSize (opf x.f 15 13) = 0) →
        m = { moveOf b (slotCur s x) 4 x.f s.tick with
          tds := [(opf x.f 37 33, d), (opf x.f 32 28, l)], vals := [BitVec.ofNat 64 cnt, BitVec.ofNat 64 len]
          rd := [opf x.f 37 33, opf x.f 32 28] } →
        exec (.scatter x) s = .next (afterSlot s x 3 []
          (if cnt = 0 then slotCur s x else (slotCur s x).enqueueMove m)))) ∧
    (∀ p ∈ [(Instr.atomSwap x, 0), (.atomCas x, 1), (.atomClaim x, 2)], ∀ o : Nat, o = (b.ra (opf x.f 33 30)).toNat →
      opf x.f 45 44 = p.2 → opf x.f 29 0 = 0 → slotGoes s x 3 [] [] → o % 64 = 0 → o + 64 ≤ lim →
      m = { moveOf b (slotCur s x) 6 x.f s.tick with vals := [b.ra (opf x.f 37 34), BitVec.ofNat 64 o] } →
      exec p.1 s = .next (afterSlot s x 3 [] ((slotCur s x).enqueueMove m)))

/-- R73, R75, R95: an engine instruction that heads its engine's queue and has started completes: it takes its effect on the
core, leaves the queue, and whatever waited for it goes on. The model's own choices in it: log 9. -/
def Obligations.EngineCompletion : Prop :=
  ∀ (s : State) (core eng : Nat) (o : EngOp) (cur : CoreState), (s.core core).cur.engq.find? (·.eng == eng) = some o →
    o.started = true →
    cur = { (s.core core).cur with
      engq := (s.core core).cur.engq.filter fun p => !(p.eng == o.eng && p.seq == o.seq) } →
    exec (.engineInstructionComplete core eng) s = .next ((({ s with free := s.free + matrixFree o } : State).setCore core
      { s.core core with
        cur := if eng < 4 then matrixDone o s.free cur else vectorDone o s.free cur
        engBeat := (s.core core).engBeat ||| 2 ^ eng }).pump core)

/-- R118, R139: the integer results of the element-wise vector instructions, lane by lane: sums, differences and products wrap
or saturate, MAX and MIN compare signed lanes, shifts take the count modulo the element width. The model's own choices in it:
log 84. -/
def Obligations.VectorIntegerLanes : Prop :=
  (∀ a b : BitVec 32,
    (∀ p ∈ [(0x10, a + b), (0x11, a - b), (0x12, a * b), (0x14, if a.slt b then b else a), (0x15, if b.slt a then b else a),
        (0x16, a &&& b), (0x17, a ||| b), (0x18, a ^^^ b), (0x19, a <<< (b.toNat % 32)), (0x1A, a >>> (b.toNat % 32)),
        (0x1B, a.sshiftRight (b.toNat % 32)), (0x1C, if a.slt 0 then -a else a), (0x1D, -a)],
      intOp p.1 0xD false a.toNat b.toNat = p.2.toNat) ∧
    (∀ p ∈ [(0x10, a.toInt + b.toInt), (0x11, a.toInt - b.toInt), (0x12, a.toInt * b.toInt),
        (0x1C, max a.toInt (-a.toInt)), (0x1D, -a.toInt)],
      intOp p.1 0xD true a.toNat b.toNat = (BitVec.ofInt 32 (max (-2 ^ 31) (min (2 ^ 31 - 1) p.2))).toNat)) ∧
  (∀ a b : BitVec 8,
    (∀ p ∈ [(0x10, a + b), (0x11, a - b), (0x14, if a.slt b then b else a), (0x15, if b.slt a then b else a),
        (0x16, a &&& b), (0x17, a ||| b), (0x18, a ^^^ b), (0x19, a <<< (b.toNat % 8)), (0x1A, a >>> (b.toNat % 8)),
        (0x1B, a.sshiftRight (b.toNat % 8)), (0x1C, if a.slt 0 then -a else a), (0x1D, -a)],
      intOp p.1 0xB false a.toNat b.toNat = p.2.toNat) ∧
    (∀ p ∈ [(0x10, a.toInt + b.toInt), (0x11, a.toInt - b.toInt), (0x1C, max a.toInt (-a.toInt)), (0x1D, -a.toInt)],
      intOp p.1 0xB true a.toNat b.toNat = (BitVec.ofInt 8 (max (-2 ^ 7) (min (2 ^ 7 - 1) p.2))).toNat))

/-! ## Moves (R71, R72, R88, R131, R132, R166, R239) -/

/-- R71, R72: the first move of an engine that has not started starts, once the scoreboard allows and its core is not
shuttered; a started move whose requests are answered, and whose bytes and units are here, writes its pieces and leaves; an
ATOM on this package is applied at its unit and its result written to the operand block; a sieve move leaves when its output
is whole. The model's own choices in it: log 88 and log 91. -/
def Obligations.MoveProgress : Prop :=
  (∀ (s : State) (n eng : Nat) (m : MoveOp), (s.core n).cur.moves.find? (fun m => m.eng == eng && !m.started) = some m →
    s.coreShut n = false → (s.core n).cur.moveReady m = true →
    (m.sched = false → exec (.moveStart n eng) s = .next (s.startMove n m none)) ∧
    (∀ p, m.sched = true → s.slotPort n m = some p → s.winServes p n m.tag = true → s.slotsLost n = false →
      exec (.moveStart n eng) s = .next (s.startMove n m (some p))) ∧
    (m.sched = true → s.slotPort n m = none → m.issued < s.tick → exec (.moveStart n eng) s = .next (s.startMove n m none)) ∧
    (∀ p, m.sched = true → s.slotPort n m = some p → (s.winServes p n m.tag = false ∨ s.slotsLost n = true) →
      s.slotStart n m = some (some p) → exec (.moveStart n eng) s = .next ((s.fallBack p).startMove n m none))) ∧
  (∀ (s s1 s2 s3 s4 s5 : State) (n tag fn ctx : Nat) (ext : List Byte) (m m1 m2 : MoveOp) (x : XTab) (buf : Tab Byte),
    s.move? n tag = some m → m.started = true → m.fid = none →
    (m.applied = true → exec (.moveComplete n tag ext) s = .next (s.flushOwed n tag).settleApplied) ∧
    (m.applied = false → m.isSieve = true → m.outAt = m.total →
      exec (.moveComplete n tag ext) s = .next (s.dropMove n tag).settleApplied) ∧
    (m.applied = false → m.isSieve = false → s.progress n tag = (some x, s1) → s1.move? n tag = some m1 →
      fn = (s1.coreFn n).1 → ctx = (s1.coreFn n).2.1 →
      ((m1.hostSrc x = [] ∨ hasRun m1.buf ((m1.hostSrc x).getD 0 (0, 0, 0)).1 1 = true) ∧ buf = m1.buf ∨
        m1.hostSrc x ≠ [] ∧ hasRun m1.buf ((m1.hostSrc x).getD 0 (0, 0, 0)).1 1 = false ∧
          s1.hostNeed fn ctx (m1.hostSrc x) ≤ ext.length ∧
          (s1.inParish fn ctx = false ∧ buf = fillHost m1.buf (m1.hostSrc x) ext ∨
            s1.inParish fn ctx = true ∧ s1.fillDoor fn ctx (joinHost (m1.hostSrc x)) ext m1.buf = some buf)) →
      s2 = (s1.setMove n { m1 with buf := buf }).pumpMove n tag x → s2.move? n tag = some m2 → m2.reqs = [] →
      (m2.op = 6 → exec (.moveComplete n tag ext) s = .next (s2.atomHere n m2 x).settleApplied) ∧
      (m2.op ≠ 6 → s3 = s2.moveVerify m2 x → s3.moveUnits m2 x = true → s3.putPieces n fn m2 x m2.dstPieces = (none, s4) →
        s5 = (s4.putHost n fn ctx m2 x).setMove n { m2 with applied := true } →
        (s5.owing.any fun o => o.move == some (n, tag)) = false →
        exec (.moveComplete n tag ext) s = .next (s5.dropMove n tag).settleApplied))) ∧
  (∀ (s s0 s1 : State) (n : Nat) (m : MoveOp) (x : XTab) (pa fn size : Nat) (log : Bool) (r : AtomRes),
    x.look m.target .mso = .loc pa log → size = (if opf m.f 45 44 = 2 then 16 else 8) → s.paStopped pa = false →
    s.countersRoom pa size = true → fn = (s.coreFn n).1 →
    s0 = (if log = true ∧ fn ≠ 0 then s.dirtyRun (fn - 1) pa size else s) →
    s0.atomOp (opf m.f 45 44) pa (s0.fld 0 0 Reg.DCTL_NODE.NODE) (leNat ((s0.core n).cur.store.getRun m.v1 16))
      (leNat ((s0.core n).cur.store.getRun (m.v1 + 16) 16)) = (r, s1) →
    s.atomHere n m x = s1.atomDone n m r)

/-- R88, R231, R237, R239: a walk of a started move fills the TLBs where its page translates, and stalls or faults the move
where it does not; RETRY closes an open fault and releases its moves, ABORT faults them with KIND 0x6, and either raises
BAD_RESUME where no such fault is open. The model's own choices in it: log 39, log 89 and log 93. -/
def Obligations.MoveTranslation : Prop :=
  (∀ (s s1 : State) (n tag va : Nat) (m m1 : MoveOp) (a : Nat) (acc : Acc) (t : Tr), s.move? n tag = some m →
    m.started = true → m.fid = none → m.accesses.find? (fun a => a.1 / 65536 == va / 65536) = some (a, acc) →
    s.xlateFor n m va acc = (t, m1, s1) →
    (t.good = true → exec (.translationWalk n tag va) s = .next (s1.setMove n m1)) ∧
    (t.good = false → exec (.translationWalk n tag va) s = .next (s1.xlateFailed n m1 va acc t)) ∧
    (s.replays n tag va = true → t.good = false →
      exec (.replayableFault n tag va) s = .next (s1.xlateFailed n m1 va acc t))) ∧
  (∀ (s : State) (fn fid : Nat),
    (s.faults.find? (fun o => o.fn == fn && o.entry && o.id == fid) = none →
      ∀ i ∈ [Instr.retry fn fid, .abort fn fid], exec i s = .next (s.raise fn 0 Reg.XLAT_STAT.BAD_RESUME)) ∧
    (∀ o, s.faults.find? (fun o => o.fn == fn && o.entry && o.id == fid) = some o →
      exec (.retry fn fid) s = .next (o.moves.foldl (fun s m => match s.move? m.1 m.2 with
        | some x => if x.fid == some fid then s.setMove m.1 { x with fid := none } else s
        | none => s) (s.closeFault fn fid)) ∧
      exec (.abort fn fid) s = .next (o.moves.foldl (fun s m => match s.move? m.1 m.2 with
        | some x => if x.fid == some fid then s.moveFault m.1 x 6 o.va true else s
        | none => s) (s.closeFault fn fid))))

/-- R88, R90, R157, R166, R167: an executing engine's imprecise exception is recorded, stops the core and fails its launch; a
block of a sieve move that passes its checks delivers its bytes, and one that fails is refused with one of the causes that it
fails by; one that the end of its stream cuts, or whose header arrived poisoned, is refused for that. The model's own choices
in it: log 36 and log 114. -/
def Obligations.EngineExceptionsAndBlocks : Prop :=
  (∀ (s : State) (n e : Nat) (x : ExcSrc), (s.core n).running = true → (s.core n).stopped = false → 6 ≤ x.kind →
    x.kind ≤ 0xB → (s.core n).cur.hasWork x = true →
    e = (if x.slot = 3 then 6 + x.eng else if x.slot = 2 then 4 + x.eng else x.eng) →
    exec (.engineException n x) s = .next
      (((s.recordExc n false ((s.core n).cur.workBundle x) x).stopCore n
        ((s.recordExc n false ((s.core n).cur.workBundle x) x).coreFn n).1).failLaunch n (kindStatus x.kind) x.kind
        (0x3000 + 8 * n + e) x.va x.tag true)) ∧
  (∀ (s s1 s2 : State) (n tag len : Nat) (blk hdr b out : List Byte) (isBad hb bb : Bool) (m m1 m2 : MoveOp) (fails : List Nat),
    s.move? n tag = some m → m.started = true → m.fid = none → m.isSieve = true → m.outAt < m.total →
    (s.sieveBytes n blk 3 m m.srcAt 16 = (.short, m1, s1) →
      exec (.sieveBlockDecode n tag blk isBad) s = .next ((s1.setMove n m1).draw.2.refuseBlock n m1 5)) ∧
    (s.sieveBytes n blk 3 m m.srcAt 16 = (.bytes hdr hb, m1, s1) →
      (hb = true → exec (.sieveBlockDecode n tag blk isBad) s = .next ((s1.setMove n m1).draw.2.refuseBlock n m1 6)) ∧
      (hb = false → len = (if yebHeader hdr then yebLen hdr else 16) →
        (s1.sieveBytes n blk 4 m1 m1.srcAt len = (.short, m2, s2) →
          exec (.sieveBlockDecode n tag blk isBad) s = .next ((s2.setMove n m2).draw.2.refuseBlock n m2 5)) ∧
        (s1.sieveBytes n blk 4 m1 m1.srcAt len = (.bytes b bb, m2, s2) →
          yebCheck b (s2.sieveTable (s2.coreFn n).1 m2 (yebTable b)) (isBad || bb) (m2.total - m2.outAt) = (fails, out) →
          (fails = [] → exec (.sieveBlockDecode n tag blk isBad) s = .next ((s2.sieveOut n m2 out).setMove n
            { m2 with srcAt := m2.srcAt + len, outAt := m2.outAt + out.length })) ∧
          (fails ≠ [] → ∃ c ∈ fails, exec (.sieveBlockDecode n tag blk isBad) s =
            .next ((s2.setMove n m2).draw.2.refuseBlock n m2 c))))))

/-! ## Preload and start of launches (R70, R79, R81, R512) -/

/-- R79, R81, R512: a preload begins on a core that the next launch may use; it completes with the binary in the instruction
region and the constants in the staging region; and a core that is free starts the launch that it has loaded, in the state of
R70. The model's own choices in it: log 96. -/
def Obligations.LaunchLoading : Prop :=
  (∀ (s : State) (n : Nat) (l : Launch), s.nextFor n = some l → l.phase ≤ 1 → s.coreShut n = false →
    ((s.core n).preload.any fun p => p.launch == l.id) = false →
    ((s.core n).launch = none → exec (.preloadStart n) s = .next (s.setCore n { s.core n with
      preload := some { launch := l.id, half := 0, started := true, done := false, fid := none } })) ∧
    ((s.core n).launch ≠ none → (s.core n).firstEnd = true → (s.core n).len ≤ 1024 → l.bundles ≤ 1024 →
      exec (.preloadStart n) s = .next (s.setCore n { s.core n with
        preload := some { launch := l.id, half := 1 - (s.core n).half, started := true, done := false, fid := none } }))) ∧
  (∀ (s s1 s2 s3 s4 : State) (n k : Nat) (ext e1 e2 bin cst : List Byte) (p : Preload) (l : Launch),
    (s.core n).preload = some p → s.launch? p.launch = some l → p.started = true → p.done = false →
    (s.preRead n l .bin l.prog (32 * l.bundles) ext = .fail k s1 →
      exec (.preloadComplete n ext) s = .next (s1.preloadFailed n l k)) ∧
    (s.preRead n l .bin l.prog (32 * l.bundles) ext = .ok bin e1 s1 →
      (s1.preRead n l .const l.constVa (1024 * l.constKib) e1 = .fail k s2 →
        exec (.preloadComplete n ext) s = .next (s2.preloadFailed n l k)) ∧
      (s1.preRead n l .const l.constVa (1024 * l.constKib) e1 = .ok cst e2 s2 → s3 = s2.endReads [0, n, l.id] →
        s4 = s3.setCore n { s3.core n with
          cur := { (s3.core n).cur with
            store := ((s3.core n).cur.store.setRun (0x1F0000 + p.half * 0x8000) bin).setRun 0x1B0000 cst }
          preload := some { p with done := true } } →
        exec (.preloadComplete n ext) s = .next (if l.measured then s4
          else (s4.updLaunch l.id fun l => { l with measured := true }).measure l.fn
            (beBytes 48 (Config.sha384 bin).toNat))))) ∧
  (∀ (s : State) (n : Nat) (l : Launch) (p : Preload), (s.core n).launch = none → (s.core n).running = false →
    s.coreShut n = false → s.movingCore n = false → s.nextFor n = some l → (s.core n).preload = some p →
    p.launch = l.id → p.done = true → exec (.launchCoreStart n) s = .next (s.startLaunch n l p.half))

/-! ## Translation services (R230, R234, R235, R240) -/

/-- R234, R235, R240: a query latches the state of a fault; a legal DCTL_XLAT_INV write starts an invalidation and sets BUSY,
and any other is IGNORED; an invalidation completes once the moves that used its scope are done with it. The model's own
choices in it: log 92 and log 93. -/
def Obligations.FaultQueryAndInvalidation : Prop :=
  (∀ (s : State) (fn fid : Nat),
    (∀ o, s.faults.find? (fun o => o.fn == fn && o.entry && o.id == fid % 65536) = some o →
      exec (.xlatFqueryWrite fn fid) s = .next (((s.setFld fn 0 Reg.XLAT_FQUERY.FAULT_ID fid).setFld fn 0
        Reg.XLAT_FQUERY.OPEN 1).setFld fn 0 Reg.XLAT_FQUERY.ATTACHED (min o.moves.length 0xFFFF))) ∧
    (s.faults.find? (fun o => o.fn == fn && o.entry && o.id == fid % 65536) = none →
      exec (.xlatFqueryWrite fn fid) s = .next (((s.setFld fn 0 Reg.XLAT_FQUERY.FAULT_ID fid).setFld fn 0
        Reg.XLAT_FQUERY.OPEN 0).setFld fn 0 Reg.XLAT_FQUERY.ATTACHED 0))) ∧
  (∀ (s : State) (v : U64) (scope pages : Nat), scope = bits v.toNat 62 2 → pages = bits v.toNat 0 16 →
    (s.fld 0 0 Reg.DCTL_XLAT_INVSTAT.BUSY ≠ 1 → (scope = 1 ∨ scope = 2 ∧ pages ≠ 0) →
      exec (.dctlXlatInvWrite v) s = .next ((s.setFld 0 0 Reg.DCTL_XLAT_INVSTAT.BUSY 1).startInval (bits v.toNat 57 5 + 1)
        (if scope = 1 then none else some (bits v.toNat 16 40, pages)) none)) ∧
    ((s.fld 0 0 Reg.DCTL_XLAT_INVSTAT.BUSY = 1 ∨ scope ≠ 1 ∧ scope ≠ 2 ∨ scope = 2 ∧ pages = 0) →
      exec (.dctlXlatInvWrite v) s = .next (s.raise 0 0 Reg.DCTL_XLAT_INVSTAT.IGNORED))) ∧
  (∀ (s s1 : State) (id : Nat) (v : Inval), s.invals.find? (·.id == id) = some v →
    (∀ w ∈ v.waiting, ∀ m ∈ (s.core w.1).cur.moves, m.seq ≠ w.2) →
    s1 = { s with invals := s.invals.filter fun x => x.id != v.id } →
    (v.ats = true → exec (.invalidateComplete id) s = .next (s1.send (.pcie v.fn 2 v.id))) ∧
    (v.ats = false → v.cmd = none → exec (.invalidateComplete id) s =
      .next ((s1.setFld 0 0 Reg.DCTL_XLAT_INVSTAT.BUSY 0).modAdd 0 0 Reg.DCTL_XLAT_INVSTAT.DONE 1)) ∧
    (∀ q sq g, v.ats = false → v.cmd = some (q, sq, g) →
      ((s1.qrec v.cfn q sq).filter fun r => recOp r.w == 0x13 || recOp r.w == 0x14) = none →
      exec (.invalidateComplete id) s = .next (s1.finish v.cfn q sq g 0 0 false)) ∧
    (∀ q sq g r, v.ats = false → v.cmd = some (q, sq, g) →
      ((s1.qrec v.cfn q sq).filter fun r => recOp r.w == 0x13 || recOp r.w == 0x14) = some r →
      exec (.invalidateComplete id) s = .next (({ s1 with mobjs := s1.mobjs.del (key2 v.cfn (recHandle r.w)) } : State).finish
        v.cfn q sq g 0 0 false)))

/-- R230: a host's invalidation drops the translations that it names and waits for the moves that use them; a granted
translation is cached and its moves go on; without access a page request goes out where PRI is on, and the moves fault where
it is off; a page response of Success asks for the translation again, and any other faults the moves with KIND 0x6. The
model's own choices in it: log 39. -/
def Obligations.HostTranslations : Prop :=
  (∀ (s s1 : State) (fn addr pages : Nat) (v : Inval),
    v = { id := s1.nextInval, fn := fn, range := none, cmd := none, cfn := fn, ats := true, waiting := v.waiting } →
    v.waiting = (s.cores.filter fun e => e.2.launch.isSome && (s.coreFn e.1).1 == fn).flatMap (fun e =>
      (e.2.cur.moves.filter fun m => m.started && m.hosts.any fun h =>
        decide (addr / 4096 ≤ h.1) && decide (h.1 < addr / 4096 + pages)).map fun m => (e.1, m.seq)) →
    s1 = s.setAts fn { s.atsOf fn with
      cached := (s.atsOf fn).cached.filter fun e => !(decide (addr / 4096 ≤ e.1) && decide (e.1 < addr / 4096 + pages)) } →
    exec (.atsInvalidation fn addr pages) s = .next { s1 with nextInval := s1.nextInval + 1, invals := s1.invals ++ [v] }) ∧
  (∀ (s : State) (fn va host : Nat) (t : Ats), t = s.atsOf fn → t.on = true → t.users.any (·.2.2 == va / 4096) = true →
    exec (.atsTranslationCompletion fn va host true) s = .next (((t.users.filter fun u => u.2.2 == va / 4096)).foldl
      (fun s u => (s.progress u.1 u.2.1).2) (s.setAts fn { t with
        cached := t.cached.put (va / 4096) (host / 4096), users := t.users.filter fun u => u.2.2 != va / 4096 })) ∧
    (t.pri = false → exec (.atsTranslationCompletion fn va host false) s = .next (s.failUsers fn (va / 4096) 6)) ∧
    (t.pri = true → exec (.atsTranslationCompletion fn va host false) s =
      .next (if t.asked.contains (va / 4096) ∨ t.waiting.contains (va / 4096) then s.stallUsers fn (va / 4096)
        else ((s.stallUsers fn (va / 4096)).setAts fn { t with waiting := t.waiting ++ [va / 4096] }).pumpPri fn))) ∧
  (∀ (s s1 : State) (fn va : Nat), (s.atsOf fn).asked.contains (va / 4096) = true →
    s1 = (s.setAts fn { s.atsOf fn with asked := (s.atsOf fn).asked.erase (va / 4096) }).pumpPri fn →
    exec (.priResponse fn va true) s = .next (s1.send (.pcie fn 1 (va / 4096))) ∧
    exec (.priResponse fn va false) s = .next (s1.failUsers fn (va / 4096) 6))

/-! ## Memory (R175, R186 to R196, R200, R405 to R412) -/

/-- R184: a Reed-Solomon word of 136 symbols has two errors corrected and four detected, and an 8-byte word of slice SRAM one
bit corrected and two detected; a unit without an error is clean, and one that its code detects or passes is not changed by
it. R175, R186, R188, R193, R194, R411: a controller that takes reads serves one of a mapped unit, and patrol scrub serves the
same way without comparing and with no command failed; a unit that its code passes goes on to the check of tier 2, a corrected
one is counted, an uncorrectable one is poisoned and logged UCE-C outside a twinned object; inside one it is repaired from a
copy that serves, waits for a stopped one, or both copies are lost. A unit that the map leaves unmapped faults. The model's
own choices in it: log 73 and log 111. -/
def Obligations.MemoryReadService : Prop :=
  (∀ (s : State) (pa : Nat) (errs : List Nat) (p : Place), place pa = some p → errs.Nodup →
     (errs = [] → s.readCoded pa errs = (.clean, s)) ∧
     ((∀ d j, p ≠ .slice d j) →
       (errs ≠ [] → errs.length ≤ 2 → s.readCoded pa errs = (.corrected, s)) ∧
       (2 < errs.length → errs.length ≤ 4 → s.readCoded pa errs = (.uncorrectable, s))) ∧
     (∀ d j, p = .slice d j →
       (errs ≠ [] → (errs.map (· / 72)).Nodup → s.readCoded pa errs = (.corrected, s)) ∧
       (∀ i k, i ∈ errs → k ∈ errs → i ≠ k → i / 72 = k / 72 → (∀ w, (errs.filter fun e => e / 72 == w).length ≤ 2) →
         s.readCoded pa errs = (.uncorrectable, s)))) ∧
  (∀ (s s1 s2 s3 s4 : State) (pa st : Nat) (e : ReadIn) (twin : Option (Nat × Nat × Nat)) (c : Ecc) (good : Bool),
     (s.mapped pa = none → exec (.memoryRead pa e) s = .fault (.unmappedAddress pa) ∧
       exec (.patrolScrub pa e) s = .fault (.unmappedAddress pa)) ∧
     (∀ p, s.mapped pa = some p → s.takesRead pa = true → twin = s.twinAt pa → s1 = s.tier2Read (pa / 256 * 256) 256 →
       (twin = none ∧ s1.poisoned pa = true ∧ s4 = s1 ∨
         ¬(twin = none ∧ s1.poisoned pa = true) ∧ s1.readCoded pa e.errs = (c, s2) ∧ s2.twinServes twin e = (good, s3) ∧
           (s3.poisoned pa = false ∧ c = .clean ∧ s4 = s3.authRead pa e.auth twin e.again good st ∨
            s3.poisoned pa = false ∧ c = .corrected ∧ s4 = (s3.memCE pa).authRead pa e.auth twin e.again good st ∨
            (s3.poisoned pa = true ∨ c = .uncorrectable) ∧ twin = none ∧
              s4 = (((s3.setPoison pa true).memUce pa).memLog 1 st pa) ∨
            (s3.poisoned pa = true ∨ c = .uncorrectable) ∧ ∃ i off o, twin = some (i, off, o) ∧
              (s3.paStopped o = true ∧ s4 = s3 ∨
               s3.paStopped o = false ∧ good = true ∧ s4 = s3.serveTwin pa o e.again false ∨
               s3.paStopped o = false ∧ good = false ∧ s4 = s3.loseUnit i pa o st))) →
       (st = 0x14 → exec (.memoryRead pa e) s = .next (s4.verifyRun pa 1)) ∧
       (st = 0 → (∀ d j, p ≠ .slice d j) → exec (.patrolScrub pa e) s = .next s4)))

/-- R187, R175: a MEMORY_WRITE of a run that is mapped, on a unit that runs, and whose counters have room, stores its bytes
and no other; a unit written whole is clean, and every other keeps its POISON. A poisoned payload writes no data and poisons
the units that it touches. The model's own choices in it: log 73. -/
def Obligations.MemoryWriteStores : Prop :=
  ∀ (s : State) (pa fn : Nat) (data : List Byte), s.mem.rising = true → s.poison.rising = true →
    s.runMapped pa data.length = true → (s.mapped pa).isSome = true → s.paStopped pa = false →
    s.countersRoom pa data.length = true → s.authFailed pa = false →
    (∃ t, exec (.memoryWrite pa data false false fn) s = .next t ∧
      (∀ a, t.mem.get 0 a = if pa ≤ a ∧ a < pa + data.length then data.getD (a - pa) 0 else s.mem.get 0 a) ∧
      (∀ u, t.poisoned (256 * u) = if pa ≤ 256 * u ∧ 256 * u + 256 ≤ pa + data.length then false else s.poisoned (256 * u)) ∧
      t.cores = s.cores ∧ t.queues = s.queues ∧ t.pending = s.pending) ∧
    (∃ t, exec (.memoryWrite pa data true false fn) s = .next t ∧ t.mem = s.mem ∧
      ∀ u, t.poisoned (256 * u) = if pa < 256 * u + 256 ∧ 256 * u < pa + data.length then true else s.poisoned (256 * u))

/-- R195, R196, R191, R200: the controllers' other commands: a verify scrub reads and compares both copies of a unit; the copy
of a held chunk that alone matches its ledger replaces the other, and where neither does the object is DAMAGED; a unit at its
critical temperature stops; a cooled unit restarts at step 3; and a wipe leaves its granule zero and clean. The model's own
choices in it: log 3. -/
def Obligations.MemoryUnitCommands : Prop :=
  (∀ (s s1 s2 : State) (tw unit a b : Nat) (e : ReadIn), a = s.twinPri tw + 256 * unit → b = s.twinSec tw + 256 * unit →
    tw < 64 → s.fld 0 tw Reg.DCTL_TWIN0.VALID = 1 → 256 * unit < s.twinLen tw * 65536 → s.paStopped a = false →
    s.paStopped b = false → s.chunkHeld tw (256 * unit) = false → s1 = s.serveRead a e 0 →
    s2 = (if s1.copyGood b = true ∧ a / 256 ∉ s1.mended then
      s1.serveRead b { e with errs := e.twinErrs, auth := e.twinAuth, twinErrs := [], twinAuth := .pass } 0 else s1) →
    exec (.verifyScrub tw unit e) s = .next (s2.compareTwin tw (256 * unit))) ∧
  (∀ (s s1 : State) (tw chunk len a b : Nat) (c : HeldChunk),
    s.chunks.find? (fun c => c.tw == tw && c.chunk == chunk) = some c →
    s1 = { s with chunks := s.chunks.filter fun x => !(x.tw == tw && x.chunk == chunk) } →
    len = min 0x100000 (s1.twinLen tw * 65536 - 0x100000 * chunk) → a = s1.twinPri tw + 0x100000 * chunk →
    b = s1.twinSec tw + 0x100000 * chunk →
    (∀ x y, (x, y) = (match s1.ledgers.find? tw with
        | none => (false, false)
        | some g => (s1.chunkMatches g chunk a len, s1.chunkMatches g chunk b len)) →
      (x = true → y = false → exec (.ledgerChunkCheck tw chunk) s = .next (s1.copyChunk a b len) ∧
        (s1.copyChunk a b len).mem = s1.mem.setRun b (s1.mem.getRun a len)) ∧
      (x = false → y = true → exec (.ledgerChunkCheck tw chunk) s = .next (s1.copyChunk b a len) ∧
        (s1.copyChunk b a len).mem = s1.mem.setRun a (s1.mem.getRun b len)) ∧
      (x = true → y = true → exec (.ledgerChunkCheck tw chunk) s = .next s1) ∧
      (x = false → y = false → exec (.ledgerChunkCheck tw chunk) s = .next
        ((((c.units ++ s1.chunkDiffs tw chunk len).eraseDups.foldl (fun s u =>
          (s.setPoison (s.twinPri tw + 256 * u) true).setPoison (s.twinSec tw + 256 * u) true) s1).damage tw).logErr
            { ErrRec.of 4 0x0F with unit := 0, addr := a })))) ∧
  (∀ (s s0 s1 : State) (unit temp : Nat) (told : List Nat), unit < 30 → s.fld 0 unit Reg.DCTL_MEMSTAT.PRESENT = 1 →
    (if unit < 12 then 107 else if unit < 28 then 105 else 112) ≤ temp → s.fld 0 unit Reg.DCTL_MEMSTAT.STEP ≠ 4 →
    s0 = s.flushUnits (fun pa => (place pa).any fun x => x.unit == unit) →
    s1 = ((({ s0 with hot := s0.hot.put unit (max temp (s0.hot.get 0 unit)) } : State).setFld 0 unit
      Reg.DCTL_MEMSTAT.STEP 4).raise 0 unit Reg.DCTL_MEMSTAT.STOP).logErr
      { ErrRec.of 4 (if unit < 12 then 6 else if unit < 28 then 7 else 5) with
        unit := if unit < 12 then 0x8000 + unit else if unit < 28 then 0x9000 + (unit - 12) else 0x5000 + (unit - 28) } →
    told = (s1.unitMembers unit).filter (fun q =>
      !((s1.unitMembers unit).any fun r => decide (r < q) && s1.vdOf r == s1.vdOf q)) →
    exec (.criticalTemperature unit temp) s = .next (told.foldl (fun s q => s.raiseAlarm 1 6 (s.vdOf q) (some q) 0) s1)) ∧
  (∀ (s : State) (unit : Nat), unit < 30 → s.fld 0 unit Reg.DCTL_MEMSTAT.STEP = 4 →
    s.hot.get 0 unit = 0 → s.fld 0 unit Reg.DCTL_MEMSTAT.TEMP + 3 < (if unit < 28 then 95 else 100) →
    exec (.memoryUnitRestart unit) s = .next (s.setFld 0 unit Reg.DCTL_MEMSTAT.STEP 3)) ∧
  (∀ (s : State) (g : Nat), g < 80 → s.wipes.any (fun w => w.granule == g && !w.done) = true →
    s.memStopped (granuleUnit g) = false → s.wipeBehind g = false →
    ∃ t, exec (.wipeComplete g) s = .next t ∧
      (∀ r ∈ granuleRanges g, ∀ a, r.1 ≤ a → a < r.1 + r.2 → t.mem.get 0 a = 0 ∧ t.poisoned a = false) ∧
      (∀ a, (∀ r ∈ granuleRanges g, ¬(r.1 ≤ a ∧ a < r.1 + r.2)) → t.mem.get 0 a = s.mem.get 0 a) ∧
      ∀ w ∈ t.wipes, w.granule = g → w.done = true)

/-! ## Memory-side operations (R203 to R219) -/

/-- R205, R207, R187: one element of an add, max or min at its unit: integer sums wrap, integer comparisons are signed, floats
are combined by their format; the element is written at its aligned address and no other byte changes; one in a poisoned unit
is not applied. A floating-point add may wait at the unit instead, and then no byte changes. R206: contributions that wait for
one element are summed in FP32, each sum rounded, in some order of theirs; the sum is added to the element and the result
rounded once. The model's own choices in it: log 90. -/
def Obligations.MemorySideElement : Prop :=
  (∀ (s : State) (pa e n a old c fn : Nat) (data : List Byte), s.mem.rising = true → e ≤ 5 →
     (2 ≤ e → s.fld 0 0 Reg.IDC_CAP1.FP_ADD = 1) → n = (if e = 1 then 8 else if e = 0 ∨ e = 2 then 4 else if e = 3 then 2 else 1) →
     a = pa / n * n → data.length = n → c = leNat data → old = leNat (s.mem.getRun a n) → s.runMapped pa n = true →
     (s.mapped pa).isSome = true → s.paStopped pa = false → s.countersRoom pa n = true → s.authFailed a = false →
     (∀ o ∈ s.owing, s.contribs.any (fun x => x.owed == o.id) = true) → (∀ x ∈ s.contribs, ¬(x.pa = a ∧ x.e = e)) →
     ∀ p ∈ [(Instr.memorySideAdd pa e data false false fn, 0), (.memorySideMax pa e data false false fn, 1),
         (.memorySideMin pa e data false false fn, 2)],
       ∃ t, exec p.1 s = .next t ∧
         (s.poisoned a = true → t.mem = s.mem) ∧
         (p.2 = 0 → 2 ≤ e → t.contribs ≠ s.contribs → t.mem = s.mem ∧ t.contribs = s.contribs ++ [⟨a, e, c, s.nextOwed⟩]) ∧
         (s.poisoned a = false → t.contribs = s.contribs → t.mem = s.mem.setRun a (leBytes n (combineEl p.2 e old c)) ∧
           (∀ b, b < a ∨ a + n ≤ b → t.mem.get 0 b = s.mem.get 0 b) ∧
           (e ≤ 1 → p.2 = 0 → leNat (t.mem.getRun a n) = (old + c) % 2 ^ (8 * n)) ∧
           (e ≤ 1 → p.2 = 1 → leNat (t.mem.getRun a n) =
             if (BitVec.ofNat (8 * n) old).slt (BitVec.ofNat (8 * n) c) then c else old) ∧
           (e ≤ 1 → p.2 = 2 → leNat (t.mem.getRun a n) =
             if (BitVec.ofNat (8 * n) c).slt (BitVec.ofNat (8 * n) old) then c else old)) ∧
         (p.2 ≠ 0 ∨ e ≤ 1 → t.contribs = s.contribs)) ∧
  (∀ (s : State) (e old : Nat) (vs : List Nat), 2 ≤ vs.length →
     ∃ l : List Nat, l.Perm vs ∧ (s.combineAdds e old vs).1 = narrowEl (efmtFmt e) 0 0 ((decodeEl (efmtFmt e) old).add
       (l.tail.foldl (fun sum v => decodeEl 0 (narrowEl 0 0 0 (sum.add (decodeEl (efmtFmt e) v))))
         (decodeEl (efmtFmt e) (l.headD 0)))))

/-- R207, R214, R216: SWAP stores its value, CAS only where the target equals the compare value, and CLAIM only where the
header equals it and the change is legal, an offer's beat being the unit's own; a datum not stored leaves memory as it was. -/
def Obligations.MemorySideAtomics : Prop :=
  ∀ (s : State) (pa fn : Nat), s.mem.rising = true → (s.mapped pa).isSome = true → s.paStopped pa = false →
    (∀ (new cmp : U64) (a old : Nat), a = pa / 8 * 8 → old = leNat (s.mem.getRun a 8) → s.runMapped pa 8 = true →
      s.countersRoom pa 8 = true → s.authFailed a = false → s.poisoned a = false →
      (∃ t, exec (.memorySideSwap pa new false fn) s = .next t ∧ t.mem = s.mem.setRun a (leBytes 8 new.toNat)) ∧
      (∃ t, exec (.memorySideCas pa cmp new false fn) s = .next t ∧
        t.mem = if old = cmp.toNat then s.mem.setRun a (leBytes 8 new.toNat) else s.mem)) ∧
    (∀ (cmp new : BitVec 128) (req a old : Nat), a = pa / 16 * 16 → old = leNat (s.mem.getRun a 16) → s.runMapped pa 16 = true →
      s.countersRoom pa 16 = true → s.authFailed a = false → s.poisoned a = false →
      ∃ t, exec (.memorySideClaim pa req cmp new false fn) s = .next t ∧
        t.mem = if old = cmp.toNat ∧
            claimLegal old new.toNat req s.now (s.fld 0 0 Reg.DCTL_MSU_CFG.OFFER_TIMEOUT) = true
          then s.mem.setRun a (leBytes 16 (if bits new.toNat 32 8 = 2 then putBits new.toNat 40 40 s.now else new.toNat))
          else s.mem)

/-- R217, R218: exactly which changes of a state header CLAIM permits. -/
def Obligations.ClaimTransitions : Prop :=
  ∀ (old new : BitVec 128) (req beat timeout : Nat), claimLegal old.toNat new.toNat req beat timeout = true ↔
    new.extractLsb' 80 32 = old.extractLsb' 80 32 + 1 ∧ new.extractLsb' 112 16 = 0 ∧
    (let node (h : BitVec 128) := h.extractLsb' 0 16
     let epoch (h : BitVec 128) := h.extractLsb' 16 16
     let state (h : BitVec 128) := h.extractLsb' 32 8
     let offer (h : BitVec 128) := h.extractLsb' 40 40
     state old = 0 ∧ state new = 1 ∧ (node new).toNat = req ∧ epoch new = epoch old + 1 ∧ offer new = 0 ∨
     state old = 1 ∧ state new = 2 ∧ req = (node old).toNat ∧ node new = node old ∧ epoch new = epoch old ∨
     state old = 1 ∧ state new = 0 ∧ req = (node old).toNat ∧ node new = 0 ∧ epoch new = epoch old ∧ offer new = 0 ∨
     state old = 2 ∧ state new = 1 ∧ (node new).toNat = req ∧ epoch new = epoch old + 1 ∧ offer new = 0 ∧
       (req ≠ (node old).toNat ∨ timeout ≤ (BitVec.ofNat 40 beat - offer old).toNat))

/-! ## Commands of the queues (R331 to R362) -/

/-- R53, R340, R342, R345, R346: a record that may start but fails its opening is a SEAL_FAILURE; one whose bytes came
poisoned fails with POISONED_DATA; one that opens and is not in form completes MALFORMED; one that cannot be served completes
with the status of its check. The model's own choices in it: log 15 and log 44. -/
def Obligations.CommandChecks : Prop :=
  ∀ (s : State) (fn q : Nat) (ext : List Byte) (r : QRec), s.startable fn q = some r →
    ∀ p ∈ queueCommands fn q ext, recOp r.w = p.1 →
      (r.sealBad = true ∨ s.openRec fn q r.sq r.w = none → exec p.2 s = .next (s.sealFailed fn q r.sq)) ∧
      (∀ w, r.sealBad = false → s.openRec fn q r.sq r.w = some w →
        (r.badRead = true → exec p.2 s = .next ((startedRec s fn q r w).failed1 (cmdOf fn q r w) 0x14 0x04 0)) ∧
        (r.badRead = false → recWf w = false → exec p.2 s = .next ((startedRec s fn q r w).done (cmdOf fn q r w) 0x19)) ∧
        (∀ st, r.badRead = false → recWf w = true → (startedRec s fn q r w).cmdCheck (cmdOf fn q r w) = st → st ≠ 0 →
          exec p.2 s = .next ((startedRec s fn q r w).done (cmdOf fn q r w) st)))

/-- R163, R284, R343, R347, R354, R356, R358, R509: what NOP, LAUNCH, GRAPH_LAUNCH, LATCH_SIGNAL, LATCH_WAIT, SIEVE_TABLE and
SCHED_LOAD do when they start. The model's own choices in it: log 15 and log 98. -/
def Obligations.WorkCommands : Prop :=
  ∀ (s t : State) (fn q va : Nat) (k : Cmd),
    (runs s fn q 0x00 t k va → exec (.nop fn q) s = .next (t.done k 0)) ∧
    (runs s fn q 0x01 t k va →
      (∀ o cs, t.mobjs.find? (key2 k.fn (recHandle k.w)) = some o → o.dying = false → t.launchCores k = some cs →
        exec (.launch fn q) s = .next { t with
          launches := t.launches ++ [
            { id := t.nextLaunch, fn := k.fn, q := k.q, sq := k.sq, ctx := k.ctx
              lc := ((t.ctx k.fn k.ctx).map (·.lc)).getD false, floor := recFloor k.w, prog := o.va
              argVa := if k.arg 8 8 = 0 then va else k.arg 8 8, constVa := k.arg 16 8, bundles := k.arg 28 2
              constKib := k.arg 30 2, cores := cs, ended := [], status := 0, excCore := 0, degraded := false
              measured := false, phase := 0, startBeat := t.tick, since := t.now, heldFrom := t.tick, lowBeats := 0
              saved := [], slots := [], phaseEdge := 0, g := k.g }]
          nextLaunch := t.nextLaunch + 1 }) ∧
      ((∀ o, t.mobjs.find? (key2 k.fn (recHandle k.w)) = some o → o.dying = true) ∨ t.launchCores k = none →
        exec (.launch fn q) s = .next (t.done k 0x11))) ∧
    (runs s fn q 0x02 t k va →
      (∀ x v, t.graphLive k = some x → x.vers.getLast? = some v →
        exec (.graphLaunch fn q) s = .next { t with
          graphs := t.graphs.put (key2 k.fn (recHandle k.w)) { x with
            vers := x.vers.map fun u => if u.num = v.num then { u with holders := u.holders + 1 } else u }
          gruns := t.gruns ++ [
            { fn := k.fn, q := k.q, sq := k.sq, graph := recHandle k.w, ver := v.num, argVa := k.arg 8 8
              st := v.recs.map fun _ => (0, 0), beats := v.recs.map fun _ => 0 }] }) ∧
      (t.graphLive k = none → exec (.graphLaunch fn q) s = .next (t.done k 0x11))) ∧
    (∀ l v, l = k.arg 16 2 % 4096 → v = BitVec.ofNat 64 (k.arg 8 8) → runs s fn q 0x03 t k va →
      (bitOf (k.arg 16 2) 15 = false → t.latchMine k l = true → ∀ o t', t.signal k.fn l v = (o, t') →
        exec (.latchSignal fn q) s = .next (t'.done k (if o = 7 then 0x1B else 0))) ∧
      (bitOf (k.arg 16 2) 15 = true → k.fn ≠ 0 → t.vdOf (k.fn - 1) ≠ 0 →
        k.arg 18 1 < t.fld 0 (k.fn - 1) Reg.DCTL_COMP_PART0.MEMBERS →
        ∀ b t', t.sendSignal k.fn (k.arg 18 1) l v (((t.ctx k.fn k.ctx).map (·.lc)).getD false) 2 k.q k.sq k.g = (b, t') →
          exec (.latchSignal fn q) s = .next (if b then t' else t'.done k 0x11)) ∧
      (bitOf (k.arg 16 2) 15 = false ∧ t.latchMine k l = false ∨ bitOf (k.arg 16 2) 15 = true ∧
          (k.fn = 0 ∨ t.vdOf (k.fn - 1) = 0 ∨ t.fld 0 (k.fn - 1) Reg.DCTL_COMP_PART0.MEMBERS ≤ k.arg 18 1) →
        exec (.latchSignal fn q) s = .next (t.done k 0x11))) ∧
    (runs s fn q 0x04 t k va → exec (.latchWait fn q) s =
      .next (if t.latchMine k (k.arg 16 2) then t.settled else t.done k 0x11)) ∧
    (runs s fn q 0x20 t k va → exec (.sieveTable fn q) s = .next t) ∧
    (runs s fn q 0x21 t k va → exec (.schedLoad fn q) s = .next t)

/-- R85, R86, R299, R332, R333, R361, R399: the commands on contexts, latches and sequence slots: a creation of what is there,
and an operation on what is not the context's own, completes WRONG_STATE; a destruction waits for an edge; SEQ_UPDATE takes
effect, and completes, at the next edge. The model's own choices in it: log 40, log 80 and log 97. -/
def Obligations.ContextCommands : Prop :=
  ∀ (s t : State) (fn q va : Nat) (k : Cmd) (ext : List Byte),
    (runs s fn q 0x10 t k va →
      (t.ctx k.fn k.ctx ≠ none → exec (.ctxCreate fn q) s = .next (t.done k 0x11)) ∧
      (∀ t' c, t.ctx k.fn k.ctx = none → t' = { t with ctxs := t.ctxs.put (key2 k.fn k.ctx) c } →
        c = { lc := k.arg 16 1 == 1, seed := BitVec.ofNat 64 (k.arg 8 8), q := [], closed := [], uj := 0, destroying := false } →
        exec (.ctxCreate fn q) s = .next ((if t'.enrolled k.fn then
          (t'.modAdd k.fn k.ctx Reg.DSTP_SESSION.SGEN 1).setFld k.fn k.ctx Reg.DSTP_SESSION.LIVE 1 else t').done k 0))) ∧
    (runs s fn q 0x11 t k va → exec (.ctxDestroy fn q) s = .next { t with
      ctxs := (t.updCtx k.fn k.ctx fun c => { c with destroying := true }).ctxs
      nextReset := t.nextReset + 1
      destroys := t.destroys ++ [
        { id := t.nextReset, kind := 1, fn := k.fn, num := k.ctx, q := k.q, sq := k.sq, started := false, waiting := []
          beat := t.tick }] }) ∧
    (∀ l, l = k.arg 16 2 →
      (∀ x : Latch, runs s fn q 0x1C t k va →
        x = { ctx := k.ctx, val := BitVec.ofNat 64 (k.arg 8 8), isMax := k.arg 18 1 == 1, held := 0 } →
        exec (.latchAlloc fn q) s = .next (if (t.latch? k.fn l).isSome then t.done k 0x11
          else ({ t with latches := t.latches.put (key2 k.fn l) x } : State).done k 0)) ∧
      (runs s fn q 0x1D t k va → exec (.latchFree fn q) s =
        .next (if t.latchMine k l then (t.freeLatch k.fn l).done k 0 else t.done k 0x11))) ∧
    (∀ i, i = recHandle k.w →
      (runs s fn q 0x1E t k va →
        (∀ x : SeqSlot, t.slotOwned k.fn i = true → t.slots.find? i = none →
          x = { fn := k.fn, ctx := k.ctx, tokens := 0, pageTokens := k.arg 16 2, pages := [], overflow := k.arg 8 8 } →
          exec (.seqBind fn q) s = .next (({ t with slots := t.slots.put i x } : State).done k 0)) ∧
        (t.slotOwned k.fn i = false ∨ t.slots.find? i ≠ none → exec (.seqBind fn q) s = .next (t.done k 0x11))) ∧
      (∀ op ∈ [0x05, 0x1F], runs s fn q op t k va → t.slotMine k i = none →
        exec (if op = 0x05 then .seqUpdate fn q ext else .seqUnbind fn q) s = .next (t.done k 0x11)) ∧
      (∀ x, t.slotMine k i = some x →
        (runs s fn q 0x1F t k va → exec (.seqUnbind fn q) s = .next { t with
          nextReset := t.nextReset + 1
          destroys := t.destroys ++ [
            { id := t.nextReset, kind := 3, fn := k.fn, num := i, q := k.q, sq := k.sq, started := false, waiting := []
              beat := t.tick }] }) ∧
        (runs s fn q 0x05 t k va →
          (∀ e t', t.readVa k.who k.fn (k.arg 16 8) (8 * k.arg 14 2) .rd ext = .fail e t' →
            exec (.seqUpdate fn q ext) s = .next (t'.failedRead k e (k.arg 16 8))) ∧
          (∀ d n t' spilled, t.readVa k.who k.fn (k.arg 16 8) (8 * k.arg 14 2) .rd ext = .ok d n t' →
            spilled = ((List.range (k.arg 14 2)).map (k.arg 12 2 + ·)).filter (fun j => decide (128 ≤ j)) →
            (∀ j ∈ spilled, t'.seqReady x j = true) →
            (∀ e, t'.spillFault x spilled = some e → exec (.seqUpdate fn q ext) s = .next (t'.failedRead k e.kind e.va)) ∧
            (t'.spillFault x spilled = none → exec (.seqUpdate fn q ext) s = .next { t' with deferred := t'.deferred ++
              [.seq i k.fn k.ctx (k.arg 8 4) (k.arg 12 2) ((List.range (k.arg 14 2)).map fun j => leField d (8 * j) 8)
                k.q k.sq k.g] })))))

/-- R234, R334, R344, R357, R359, R360, R361, R362: the commands on memory objects and graphs: MAP writes its leaves and makes
the object, UNMAP and RELEASE clear them and complete with their invalidation; GRAPH_STORE makes version 1, GRAPH_PATCH the
next version at the next edge, GRAPH_DESTROY waits for an edge; a handle in use or not in use completes WRONG_STATE. The
model's own choices in it: log 15, log 80, log 82 and log 103. -/
def Obligations.ObjectCommands : Prop :=
  ∀ (s t : State) (fn q va : Nat) (k : Cmd) (ext : List Byte) (h : Nat), h = key2 k.fn (recHandle k.w) →
    (runs s fn q 0x12 t k va →
      (t.mobjs.find? h ≠ none → exec (.map fn q) s = .next (t.done k 0x11)) ∧
      (t.mobjs.find? h = none → ∀ r, t.writeLeaves k.fn (mapLeaves (k.arg 24 4) (k.arg 8 8) (k.arg 16 8) (k.arg 24 4)
          (bitOf (k.arg 31 1) 4)) (fun x => leafValue (k.arg 31 1) (k.arg 30 1) x (k.arg 28 2) false) = r →
        (r = none → exec (.map fn q) s = .next (t.done k 0x11)) ∧
        (∀ t' o, r = some t' →
          o = (⟨k.arg 8 8, k.arg 24 4, k.arg 30 1, k.arg 31 1, k.arg 16 8, k.ctx, false⟩ : MemObj) →
          exec (.map fn q) s = .next (({ t' with mobjs := t'.mobjs.put h o } : State).done k 0)))) ∧
    (∀ p ∈ [(0x13, Instr.unmap fn q), (0x14, .release fn q)], runs s fn q p.1 t k va →
      ((∀ o, t.mobjs.find? h = some o → o.dying = true) → exec p.2 s = .next (t.done k 0x11)) ∧
      (∀ o t', t.mobjs.find? h = some o → o.dying = false → t' = t.clearLeaves k.fn o.leaves →
        exec p.2 s = .next (({ t' with mobjs := t'.mobjs.put h { o with dying := true } } : State).startInval k.fn
          (some (o.va / 65536, o.pages)) (some (k.q, k.sq, k.g))))) ∧
    (runs s fn q 0x15 t k va → exec (.invalidate fn q) s = .next (t.startInval k.fn
      (if k.arg 20 1 = 1 then none else some (k.arg 8 8 / 65536, k.arg 16 4 + if k.arg 8 8 % 65536 = 0 then 0 else 1))
      (some (k.q, k.sq, k.g)))) ∧
    (∀ n, n = k.arg 16 2 → runs s fn q 0x18 t k va →
      (t.graphs.find? h ≠ none ∨ t.graphRoom k.fn n = false → exec (.graphStore fn q ext) s = .next (t.done k 0x11)) ∧
      (t.graphs.find? h = none → t.graphRoom k.fn n = true →
        (∀ e t', t.readVa k.who k.fn (k.arg 8 8) (64 * n) .rd ext = .fail e t' →
          exec (.graphStore fn q ext) s = .next (t'.failedRead k e (k.arg 8 8))) ∧
        (∀ d m t', t.readVa k.who k.fn (k.arg 8 8) (64 * n) .rd ext = .ok d m t' →
          ∀ x : Graph, x = { ctx := k.ctx, vers := [⟨1, recsFrom n d, 0⟩], next := none, destroying := false } →
            exec (.graphStore fn q ext) s = .next (if (recsFrom n d).all graphRec then
              ({ t' with graphs := t'.graphs.put h x } : State).done k 0 else t'.done k 0x19)))) ∧
    (∀ x v n m, t.graphLive k = some x → x.vers.getLast? = some v → n = k.arg 16 2 → m = k.arg 18 2 →
      runs s fn q 0x19 t k va →
      (v.recs.length < n + m ∨ t.graphRoom k.fn v.recs.length = false →
        exec (.graphPatch fn q ext) s = .next (t.done k 0x11)) ∧
      (n + m ≤ v.recs.length → t.graphRoom k.fn v.recs.length = true →
        (16 ≤ x.vers.length ∨ x.next ≠ none → exec (.graphPatch fn q ext) s = .next t) ∧
        (x.vers.length < 16 → x.next = none →
          (∀ e t', t.readVa k.who k.fn (k.arg 8 8) (64 * m) .rd ext = .fail e t' →
            exec (.graphPatch fn q ext) s = .next (t'.failedRead k e (k.arg 8 8))) ∧
          (∀ d j t', t.readVa k.who k.fn (k.arg 8 8) (64 * m) .rd ext = .ok d j t' →
            exec (.graphPatch fn q ext) s = .next (if (recsFrom m d).all graphRec then
              { t' with
                graphs := t'.graphs.put h { x with
                  next := some ⟨(v.num + 1) % 65536, v.recs.take n ++ recsFrom m d ++ v.recs.drop (n + m), 0⟩ }
                deferred := t'.deferred ++ [.graph k.fn (recHandle k.w) k.q k.sq] }
              else t'.done k 0x19))))) ∧
    (∀ p ∈ [(0x19, Instr.graphPatch fn q ext), (0x1A, .graphDestroy fn q)], runs s fn q p.1 t k va → t.graphLive k = none →
      exec p.2 s = .next (t.done k 0x11)) ∧
    (∀ x, t.graphLive k = some x → runs s fn q 0x1A t k va → exec (.graphDestroy fn q) s = .next { t with
      graphs := t.graphs.put h { x with destroying := true }
      nextReset := t.nextReset + 1
      destroys := t.destroys ++ [
        { id := t.nextReset, kind := 2, fn := k.fn, num := recHandle k.w, q := k.q, sq := k.sq, started := false, waiting := []
          beat := t.tick }] })

/-- R192, R194, R335, R390, R392: the commands on shared objects, given by the physical function: SHARE_CREATE sets an entry
for two copies that lie apart in SHARED granules, and its ledger; SHARE_VERIFY hashes both copies; SHARE_MAP maps a verified
object into a partition; SHARE_UNMAP clears its leaves; SHARE_DESTROY clears the entry of one that no partition maps. The
model's own choices in it: log 31, log 80 and log 127. -/
def Obligations.SharedObjectCommands : Prop :=
  ∀ (s t : State) (q va : Nat) (k : Cmd) (ext : List Byte), k.fn = 0 →
    (runs s 0 q 0x30 t k va →
      (∀ e t', t.readVa k.who 0 (k.arg 8 8) 64 .rd ext = .fail e t' →
        exec (.shareCreate 0 q ext) s = .next (t'.failedRead k e (k.arg 8 8))) ∧
      (∀ d n t' a b len tier lva, t.readVa k.who 0 (k.arg 8 8) 64 .rd ext = .ok d n t' → a = leField d 0 8 → b = leField d 8 8 →
        len = leField d 16 4 → tier = leField d 20 1 → lva = leField d 24 8 →
        (shareForm d = true ↔ a % 65536 = 0 ∧ a < 2 ^ 44 ∧ b % 65536 = 0 ∧ b < 2 ^ 44 ∧ 1 ≤ len ∧ len ≤ 2 ^ 20 ∧ tier ≤ 2 ∧
          lva < 2 ^ 56 ∧ leField d 21 3 = 0 ∧ leNat (d.drop 32) = 0) ∧
        (shareForm d = false → exec (.shareCreate 0 q ext) s = .next (t'.done k 0x19)) ∧
        (shareForm d = true → (t'.copyLacks a len = true ∨ t'.copyLacks b len = true) →
          exec (.shareCreate 0 q ext) s = .next (t'.done k 0x1F)) ∧
        (shareForm d = true → t'.copyLacks a len = false → t'.copyLacks b len = false →
          (t'.twinOf (recHandle k.w) ≠ none ∨ (∀ i < 64, t'.fld 0 i Reg.DCTL_TWIN0.VALID ≠ 0) ∨ t'.copyOk tier a len = false ∨
            t'.copyOk tier b len = false ∨ copiesApart a b len = false) →
          exec (.shareCreate 0 q ext) s = .next (t'.done k 0x11)) ∧
        (∀ i, shareForm d = true → t'.copyLacks a len = false → t'.copyLacks b len = false →
          t'.twinOf (recHandle k.w) = none → (List.range 64).find? (fun i => t'.fld 0 i Reg.DCTL_TWIN0.VALID == 0) = some i →
          t'.copyOk tier a len = true → t'.copyOk tier b len = true → copiesApart a b len = true →
          (lva = 0 → exec (.shareCreate 0 q ext) s = .next
            (({ (t'.wr 0 (0x1003000 + 16 * i) (BitVec.ofNat 64
                  (2 ^ 63 + tier * 2 ^ 58 + a / 65536 * 2 ^ 16 + recHandle k.w))).wr 0 (0x1003008 + 16 * i)
                (BitVec.ofNat 64 (len % 2 ^ 20 * 2 ^ 44 + b / 65536 * 2 ^ 16)) with
              ledgers := t'.ledgers.del i, verified := t'.verified.filter (· != i) } : State).done k 0)) ∧
          (∀ pa m bytes, lva ≠ 0 → t'.frontXlate 0 lva .rd = .loc pa m → bytes = 64 + 48 * ceilDiv (len * 65536) 0x100000 →
            t'.runReady pa bytes = true →
            (∀ g, t'.poisonIn pa bytes = false → t'.ledgerImage pa len = some g → exec (.shareCreate 0 q ext) s = .next
              (({ (t'.wr 0 (0x1003000 + 16 * i) (BitVec.ofNat 64
                    (2 ^ 63 + 2 ^ 60 + tier * 2 ^ 58 + a / 65536 * 2 ^ 16 + recHandle k.w))).wr 0 (0x1003008 + 16 * i)
                  (BitVec.ofNat 64 (len % 2 ^ 20 * 2 ^ 44 + b / 65536 * 2 ^ 16)) with
                ledgers := t'.ledgers.put i g, verified := t'.verified.filter (· != i) } : State).done k 0)) ∧
            (t'.poisonIn pa bytes = true ∨ t'.ledgerImage pa len = none →
              exec (.shareCreate 0 q ext) s = .next (t'.failed1 k 0x14 0x0F lva)))))) ∧
    (∀ i, t.twinOf (recHandle k.w) = some i →
      (∀ g len, runs s 0 q 0x31 t k va → t.ledgers.find? i = some g → len = t.twinLen i * 65536 →
        (t.copyMatches g (t.twinPri i) len = true → t.copyMatches g (t.twinSec i) len = true →
          ∀ t', t' = ({ t with verified := (t.verified.filter (· != i)) ++ [i] } : State).setFld 0 i Reg.DCTL_TWIN0.DAMAGED 0 →
            exec (.shareVerify 0 q) s = .next
              (((t'.shared.filter fun x => x.tw == i).foldl (fun s x => s.setIntact x.fn) t').done k 0)) ∧
        (t.copyMatches g (t.twinPri i) len = false ∨ t.copyMatches g (t.twinSec i) len = false →
          exec (.shareVerify 0 q) s = .next ((if t.bothLost i then t.damage i else t).failed1 k 0x14 0x0F 0))) ∧
      (∀ f v, runs s 0 q 0x32 t k va → f = vf (k.arg 16 1) → v = k.arg 8 8 →
        (i ∈ t.verified → v % 65536 = 0 → v + t.twinLen i * 65536 ≤ 2 ^ 56 →
          t.fld 0 (f - 1) Reg.DCTL_COMP_PART0.STATE = 1 →
          ∀ r, t.writeLeaves f (mapLeaves (t.twinLen i) v (t.twinPri i) (t.twinLen i) false)
              (fun x => leafValue (1 + 4 * (k.arg 17 1 % 2)) 0 x 0 true) = r →
            (r = none → exec (.shareMap 0 q) s = .next (t.done k 0x11)) ∧
            (∀ t', r = some t' → exec (.shareMap 0 q) s = .next
              ((({ t' with shared := t'.shared ++ [⟨f, i, v⟩] } : State).setSharedMap f).done k 0))) ∧
        (i ∉ t.verified ∨ v % 65536 ≠ 0 ∨ 2 ^ 56 < v + t.twinLen i * 65536 ∨
            t.fld 0 (f - 1) Reg.DCTL_COMP_PART0.STATE ≠ 1 →
          exec (.shareMap 0 q) s = .next (t.done k 0x11))) ∧
      (runs s 0 q 0x33 t k va → (∀ x ∈ t.shared, x.fn = vf (k.arg 16 1) → x.tw ≠ i) →
        exec (.shareUnmap 0 q) s = .next (t.done k 0x11)) ∧
      (∀ f x more t1 t2, runs s 0 q 0x33 t k va → f = vf (k.arg 16 1) →
        t.shared.filter (fun x => x.fn == f && x.tw == i) = x :: more →
        t1 = more.foldl (fun s y => s.dropXlat f (some (y.va / 65536, t.twinLen i))) ((x :: more).foldl (fun s y =>
          s.clearLeaves f (mapLeaves (t.twinLen i) y.va (t.twinPri i) (t.twinLen i) false)) t) →
        t2 = { t1 with shared := t1.shared.filter fun y => !(y.fn == f && y.tw == i) } →
        exec (.shareUnmap 0 q) s = .next
          ((t2.setSharedMap f).startInval f (some (x.va / 65536, t.twinLen i)) (some (k.q, k.sq, k.g)) 0)) ∧
      (runs s 0 q 0x34 t k va →
        ((∃ x ∈ t.shared, x.tw = i) → exec (.shareDestroy 0 q) s = .next (t.done k 0x11)) ∧
        ((∀ x ∈ t.shared, x.tw ≠ i) → exec (.shareDestroy 0 q) s = .next
          (({ (t.wr 0 (0x1003000 + 16 * i) 0).wr 0 (0x1003008 + 16 * i) 0 with
            ledgers := t.ledgers.del i, verified := t.verified.filter (· != i)
            chunks := t.chunks.filter (·.tw != i) } : State).done k 0)))) ∧
    (∀ p ∈ [(0x31, Instr.shareVerify 0 q), (0x32, .shareMap 0 q), (0x33, .shareUnmap 0 q), (0x34, .shareDestroy 0 q)],
      runs s 0 q p.1 t k va → t.twinOf (recHandle k.w) = none → exec p.2 s = .next (t.done k 0x11))

/-- R163, R164, R285, R347, R356, R362, R427 to R429, R436: events of commands that have started: the end of a wait, of a
launch, of a budget and of a hold, and the checks of sieve tables and schedule images. The model's own choices in it: log 3,
log 98, log 99 and log 110. -/
def Obligations.CommandEvents : Prop :=
  ∀ (s : State) (fn q sq : Nat) (img : List Byte),
    (∀ g, s.waitOver fn q sq = some g → exec (.latchWaitTimeout fn q sq) s =
      .next (s.failCmd fn q sq g 0x15 0x11 0 (if fn = 0 then 0 else unitPart (fn - 1)) 0 0 0)) ∧
    (∀ l, s.launches.find? (fun l => l.fn == fn && l.q == q && l.sq == sq && l.phase == 6) = some l →
      exec (.commandComplete fn q sq) s = .next (s.finishLaunch l (if l.degraded then 1 else 0) 0 false)) ∧
    (∀ l, s.launches.find? (fun l => l.fn == fn && l.q == q && l.sq == sq && s.launchStalled l) = some l →
      exec (.stallBudgetExpiry fn q sq) s = .next (((s.logStall fn q sq).dropLaunch l).finish fn q sq l.g 0x15 0 true)) ∧
    (∀ r, s.launches.find? (fun l => l.fn == fn && l.q == q && l.sq == sq && s.launchStalled l) = none →
      s.qrec fn q sq = some r → r.st = 1 → s.cmdStalled fn r.w r.w r.stallFrom = true →
      exec (.stallBudgetExpiry fn q sq) s = .next ((s.logStall fn q sq).abandon fn q sq 0x15 true)) ∧
    (exec (.fencedHoldExpiry fn q sq) s =
        .next ((s.fenced.filter fun h => h.fn == fn && h.q == q && h.sq == sq).foldl State.expireHold s) ∧
      ∀ h l, h ∈ s.fenced → h.beat + 2 ≤ s.tick → (∀ a ∈ s.aborts, a.part + 1 ≠ h.fn) →
        s.launches.find? (fun l => l.fn == h.fn && l.q == h.q && l.sq == h.sq && l.g == h.g) = some l →
        s.expireHold h = ({ s with fenced := s.fenced.erase h } : State).finishLaunch l 0x16 0 false) ∧
    (∀ k va i, i = k.arg 16 1 → s.unrunCmd fn q 0x20 (fun k =>
        (s.oldVersions fn (k.arg 16 1)).isEmpty && !s.sieveComing fn (k.arg 16 1)) = some (k, va) →
      (∀ e t, s.readVa k.who fn (k.arg 8 8) 144 .rd img = .fail e t →
        exec (.sieveTableChecked fn q img) s = .next (t.failedRead k e (k.arg 8 8))) ∧
      (∀ d n t, s.readVa k.who fn (k.arg 8 8) 144 .rd img = .ok d n t →
        (tableImage d = none → exec (.sieveTableChecked fn q img) s = .next (t.failed1 k 0x14 0x0A (k.arg 8 8))) ∧
        (∀ w lens tag, tableImage d = some (w, lens, tag) → exec (.sieveTableChecked fn q img) s = .next { t with
          deferred := t.deferred ++
            [.sieve fn i (if w = 0 then none else some ⟨(t.sieveTbl fn i).num + 1, w, lens, tag⟩), .done fn q k.sq k.g 0] }))) ∧
    (∀ k va p act, p = k.arg 16 1 → act = k.arg 18 6 →
      s.unrunCmd fn q 0x21 (fun k => (s.port (k.arg 16 1)).next.isNone) = some (k, va) →
      (∀ e t, s.readVa k.who fn (k.arg 8 8) 16 .rd img = .fail e t →
        exec (.schedImageChecked fn q img) s = .next (t.failedRead k e (k.arg 8 8))) ∧
      (∀ h n t0, s.readVa k.who fn (k.arg 8 8) 16 .rd img = .ok h n t0 →
        (∀ e t, s.readVa k.who fn (k.arg 8 8) (16 + 8 * min (leField h 4 2) 256) .rd img = .fail e t →
          exec (.schedImageChecked fn q img) s = .next (t.failedRead k e (k.arg 8 8))) ∧
        (∀ d m t, s.readVa k.who fn (k.arg 8 8) (16 + 8 * min (leField h 4 2) 256) .rd img = .ok d m t →
          (schedImage d = none → exec (.schedImageChecked fn q img) s = .next (t.failed1 k 0x14 0x0B (k.arg 8 8))) ∧
          (∀ port len ws, schedImage d = some (port, len, ws) →
            (port ≠ p → exec (.schedImageChecked fn q img) s = .next (t.failed1 k 0x14 0x0B (k.arg 8 8))) ∧
            (∀ ok : Prop, port = p → (ok ↔ fn ≠ 0 ∧ t.fld 0 p Reg.DCTL_LYS_PCFG.BOUND ≠ 0 ∧
                t.fld 0 p Reg.DCTL_LYS_PCFG.PART = fn - 1 ∧ t.portLeaving p = false ∧ t.windowsFit fn p ws = true ∧
                len = t.lengthAt (max act (t.now + 1))) →
              (¬ok → exec (.schedImageChecked fn q img) s = .next (t.done k 0x11)) ∧
              (ok → exec (.schedImageChecked fn q img) s = .next
                ((t.setPort p { t.port p with next := some ⟨act, len, fn, q, k.sq, k.g, true, false, ws⟩ }).setFld 0 p
                  Reg.DCTL_LYS_SCHED.PENDING 1)))))))

/-- R325 to R331, R336, R361, R400: events of the queues: a tail block gives each ACTIVE queue its due records or halts it; a
record arrives at HEAD; QUEUE_ENABLE and QUEUE_DESTROY wait for an edge, RESUME for the next one; a context's counts are
latched; an engine's acknowledgement brings its destruction on. The model's own choices in it: log 3, log 99, log 100, log 110
and log 129. -/
def Obligations.QueueEvents : Prop :=
  ∀ (s : State) (fn q : Nat),
    (∀ tails : List U64, s.activeQueues fn ≠ [] → s.halted = false → (fn ≠ 0 → s.partShut (fn - 1) = false) →
      exec (.tailBlockArrival fn tails false) s =
        .next ((s.queueTurns fn).foldl (fun s q => s.takeTail fn q (tails.getD q 0)) s) ∧
      exec (.tailBlockArrival fn tails true) s = .next
        (((s.raise fn 0 Reg.INTC_TAIL.TAIL_ERR).intc fn 0).logCE 0x0D 0 (if fn = 0 then 0 else unitPart (fn - 1))
          (if fn = 0 then none else some (fn - 1)))) ∧
    (∀ (t : BitVec 32) (d : Nat), d = (t - BitVec.ofNat 32 (s.fld fn q Reg.QCFG_QSTAT.HEAD)).toNat →
      s.takeTail fn q (t.zeroExtend 64) = if d ≤ 2 ^ (s.fld fn q Reg.QCFG_Q0.SIZE + 6) then
        s.askRecords fn q (d - (s.queue fn q).due)
      else (s.raise fn q Reg.QCFG_QSTAT.BAD_TAIL).haltQueue fn q) ∧
    (∀ t : U64, 2 ^ 32 ≤ t.toNat → s.takeTail fn q t = (s.raise fn q Reg.QCFG_QSTAT.BAD_TAIL).haltQueue fn q) ∧
    (∀ (w : BitVec 512) (h : Nat), s.mayFetch fn q = true → h = s.fld fn q Reg.QCFG_QSTAT.HEAD →
      exec (.commandRecordArrival fn q w true) s = .next ((s.raise fn q Reg.QCFG_QSTAT.FETCH_ERR).haltQueue fn q) ∧
      ∀ s1 : State, s1 = (s.setQueue fn q { s.queue fn q with
          recs := (s.queue fn q).recs ++ [QRec.fetched h w (s.fld fn q Reg.QCFG_Q1.EN == 1)]
          due := (s.queue fn q).due - 1 }).modAdd fn q Reg.QCFG_QSTAT.HEAD 1 →
        exec (.commandRecordArrival fn q w false) s =
          .next (if h + 1 = 2 ^ 32 then s1.modAdd fn q Reg.DSTP_QGEN.WRAP 1 else s1)) ∧
    (∀ v : U64, v.extractLsb' 0 4 ≤ 10 → exec (.queueEnable fn q v) s = .next
      { s.setFld fn q Reg.QCFG_Q0.FETCH_MAX (v.extractLsb' 4 8).toNat with
        deferred := s.deferred ++ [.reg fn (0x21000 + 32 * q) (v ||| 0x8000000000000000)] }) ∧
    (∀ v : U64, 10 < v.extractLsb' 0 4 → exec (.queueEnable fn q v) s = .next s) ∧
    ((s.qstate fn q = 1 ∨ s.qstate fn q = 2) →
      (s.destroys.any fun d => d.kind == 0 && d.fn == fn && d.num == q) = false →
      exec (.queueDestroy fn q) s = .next { s with
        nextReset := s.nextReset + 1
        destroys := s.destroys ++ [
          { id := s.nextReset, kind := 0, fn := fn, num := q, q := q, sq := 0, started := false, waiting := []
            beat := s.tick }] }) ∧
    (s.qstate fn q = 2 → exec (.resume fn q) s = .next (s.setQueue fn q { s.queue fn q with resume := true })) ∧
    (s.qstate fn q ≠ 2 → exec (.resume fn q) s = .next s) ∧
    (∀ (c : Nat) (x : Option Ctx), c < 256 → x = s.ctx fn c → exec (.ctxSelLatch fn c) s = .next
      ((List.range 16).foldl (fun s j => s.wr fn (0xC8010 + 8 * j) (BitVec.ofNat 64 ((x.map fun y => y.closed.get 0 j).getD 0)))
        (s.closedBeat.2.wr fn 0xC8000 (BitVec.ofNat 64 (c + (if x.isSome then 0 else 256) + s.closedBeat.1 * 65536))))) ∧
    (∀ n, s.beat.last = some n → s.closedBeat = (n, s)) ∧
    (∀ (id core eng : Nat) (d d' : Destroy) (t : State),
      s.destroys.find? (fun d => d.id == id && d.started && d.waiting.contains (core, eng)) = some d →
      d' = { d with waiting := d.waiting.erase (core, eng) } →
      t = { s with destroys := s.destroys.map fun x => if x.id = id then d' else x } →
      exec (.destroyAck id core eng) s = .next (if d'.waiting = [] then t.finishDestroy d' else t))

/-- R6, R8, R320, R322 to R324, R469, R508: accesses of the host: BAR2 serves what the function may reach and refuses the
rest, flagged and logged; a register of BAR0 takes a write of its size; a companion counter is cleared as it is read. The
model's own choices in it: log 57 and log 58. -/
def Obligations.HostAccesses : Prop :=
  (∀ (s : State) (fn off n pa : Nat) (d : List Byte), pa = s.bar2Pa fn off → 0 < n → off + n ≤ 2 ^ (s.cfg fn).bar2 →
    (s.bar2Ok fn pa n false = false → exec (.bar2Read fn off n) s =
      .next ((s.bar2Refused fn).send (.bar2 fn off (List.replicate n 0xFF) false))) ∧
    (s.bar2Ok fn pa n false = true → (s.verifyRun pa n).runReady pa n = true →
      exec (.bar2Read fn off n) s = .next (((s.verifyRun pa n).readMem pa n).st.send
        (.bar2 fn off ((s.verifyRun pa n).readMem pa n).data ((s.verifyRun pa n).readMem pa n).bad))) ∧
    (d.length = n → s.bar2Ok fn pa n true = false → exec (.bar2Write fn off d) s = .next (s.bar2Refused fn)) ∧
    (d.length = n → s.bar2Ok fn pa n true = true → s.paStopped pa = false → s.countersRoom pa n = true →
      exec (.bar2Write fn off d) s = .next (s.writeMem pa d false).2)) ∧
  (∀ (s : State) (fn off size : Nat) (v : U64), s.inService = true → fn < 33 →
    (aligned off size = false → exec (.registerWrite fn off size v) s = .next (s.unsupported fn off)) ∧
    (∀ base r o, aligned off size = true → base = off / 8 * 8 → base ≠ 0x11C8000 →
      (fn ≠ 0 → pf0Only base = true → exec (.registerWrite fn off size v) s = .next s) ∧
      ((fn = 0 ∨ pf0Only base = false) →
        (regFind base regTable = none → exec (.registerWrite fn off size v) s = .next s) ∧
        (regFind base regTable = some (r, o) →
          (r.wide = true → exec (.registerWrite fn off size v) s = .next (if size = 8 then s.writeWhole fn base v.toNat else s)) ∧
          (r.wide = false → ¬(0x11C8000 ≤ base ∧ base < 0x1200000) →
            exec (.registerWrite fn off size v) s = .next
              (if size = 8 then s.writePlain fn base v (BitVec.allOnes 64) r
               else if off % 8 = 0 then s.writePlain fn base v 0x00000000FFFFFFFF r
               else s.writePlain fn base (v <<< 32) 0xFFFFFFFF00000000 r)))))) ∧
  (∀ (s s1 : State) (fn off base size : Nat), s.inService = true → fn < 33 → base = off / 8 * 8 →
    (aligned off size = false → exec (.counterRead fn off size) s = .next (s.unsupported fn off)) ∧
    (aligned off size = true → isCounter base = false → exec (.counterRead fn off size) s = .next (s.send (.reg fn off
      (BitVec.ofNat 64 (if size = 8 then s.readReg fn base else s.readReg fn base / 2 ^ (8 * (off % 8)) % 2 ^ 32))))) ∧
    (aligned off size = true → isCounter base = true →
      (counterSeen fn base = false → exec (.counterRead fn off size) s = .next (s.send (.reg fn off 0))) ∧
      (counterSeen fn base = true →
        s1 = s.send (.reg fn off (BitVec.ofNat 64 (if size = 8 then leNat (s.counters fn base)
          else leNat (s.counters fn base) / 2 ^ (8 * (off % 8)) % 2 ^ 32))) →
        exec (.counterRead fn off size) s = .next (s1.clearCounters fn base (off % 8) size)))) ∧
  (∀ (s s1 : State) (fn : Nat) (v : U64),
    s1 = (if fn = 0 then s.setFld 0 0 Reg.SNAP_CTL.HOLD (v.extractLsb' 1 1).toNat else s) →
    exec (.snapRing fn v) s = .next
      (if v.extractLsb' 2 2 = 0 ∨ v.extractLsb' 2 2 = 1 ∧ fn ≠ 0 then
        if v.getLsbD 0 then s1.partBell fn (v.extractLsb' 2 2 == 1) (v.extractLsb' 16 48).toNat else s1
      else s))

/-- R366 to R370: context switches: a launch that is due to leave begins to, its drain ends when none of its moves is left,
its images are written to its slots and its cores are free, and a launch comes back with the state that was saved. The model's
own choices in it: log 45 and log 110. -/
def Obligations.ContextSwitches : Prop :=
  ∀ (s : State) (id : Nat) (l : Launch), s.launch? id = some l →
    (∀ s1 : State, s.switchDue l = true →
      s1 = (s.heldBy l).foldl (fun t n => t.setCore n { t.core n with running := false }) s →
      exec (.contextSwitchStart id) s = .next ((s1.updLaunch l.id fun x =>
        { x with phase := 2, phaseEdge := s1.tick, slots := (s1.freeSlots l.fn).take (s.heldBy l).length }).satAdd l.fn 0
          Reg.QOSM_SWSTAT.SWITCHES 1)) ∧
    (l.phase = 2 → l.phaseEdge < s.tick → (∀ n ∈ s.heldBy l, (s.core n).cur.moves = []) →
      exec (.switchDrainEnd id) s = .next (s.updLaunch l.id fun x => { x with phase := 3, phaseEdge := s.tick })) ∧
    (∀ s1 s2 : State, l.phase = 3 → l.phaseEdge < s.tick →
      s1 = (l.slots.take (s.heldBy l).length).foldl (fun s i => s.writeImage l.fn i) s →
      s2 = (s.heldBy l).foldl (fun s n => s.freeCore n) s1 →
      exec (.switchSaveComplete id) s = .next (s2.updLaunch l.id fun x =>
        { x with phase := 4, phaseEdge := s2.tick, saved := (s.heldBy l).map fun n => (n, (s.core n).image) })) ∧
    (l.phase = 5 → l.phaseEdge < s.tick →
      (l.slots.take l.saved.length).any (s.imageBad l.fn) = false →
      ∀ s1 : State, s1 = l.saved.foldl (fun t x => t.setCore x.1 { x.2 with
          launch := some l.id, running := true, blockBeat := s.tick, late := false, lateRun := 0
          cur := { x.2.cur with hold := .free } }) s →
        exec (.switchInComplete id) s =
          .next (s1.updLaunch l.id fun x => { x with phase := 1, since := s1.now, heldFrom := s1.tick, saved := [], slots := [] })) ∧
    (l.phase ≤ 1 → exec (.switchInComplete id) s = .next (l.cores.foldl (fun t n => match t.startDue n with
      | some (x, _) => if x.id = l.id then t.launchCore n else t
      | none => t) s))

/-! ## Links and ports (R244 to R312) -/

/-- R254, R260, R261, R265, R270, R271, R273: a cell of a request or a response that a port does not receive goes no further;
one that it does is refused where its TYPE is reserved, a field is out of range or its virtual device is not the port's,
forwarded where it has not arrived, and else handed on. The model's own choices in it: log 8 and log 79. -/
def Obligations.CellArrival : Prop :=
  ∀ (s t : State) (p : Nat) (x c c0 : Cell) (i : Instr) (here : Cell → State → State),
    (i, c, here) ∈ [
      (Instr.rdReq p x, cellUnder x 2, fun c s => s.target p c), (.wr p x, cellUnder x 4, fun c s => s.target p c),
      (.mso p x, cellUnder x 6, fun c s => (s.target p c).settleApplied), (.atom p x, cellUnder x 7, fun c s => s.target p c),
      (.latch p x, cellUnder x 9, fun c s => s.latchCell p c), (.rdResp p x, cellUnder x 3, fun c s => s.answerCell p 0 c),
      (.atomResp p x, cellUnder x 8, fun c s => s.answerCell p 3 c),
      (.wrAck p x, cellUnder x 5, fun c s =>
        (ackEntries (c.payload.length / 4) c.payload).foldl (fun s e => s.answer e.1 1 e.2 []) s)] →
    (typeReserved x.typ = true → c = x) ∧
    (s.receive p c = (none, t) → exec i s = .next t) ∧
    (s.receive p c = (some c0, t) → t.inService = false → exec i s = .next t) ∧
    (s.receive p c = (some c0, t) → t.inService = true →
      (typeReserved x.typ = true ∨ cellFields c0 = false → exec i s = .next (t.routeErr p c0 false)) ∧
      (typeReserved x.typ = false → cellFields c0 = true →
        (t.carries p c0.vd = false → exec i s = .next (t.routeErr p c0 true)) ∧
        (t.carries p c0.vd = true → c0.hop < c0.nhop → exec i s = .next (t.forward p c0)) ∧
        (t.carries p c0.vd = true → c0.nhop ≤ c0.hop → exec i s = .next (here c0 t))))

/-- R253, R259, R260: the 544 bytes of a cell give it back; its 17 blocks, spread over the lanes in use from any block on, are
collected again in their order; and the stream's cells are found after a control block, 17 data blocks each. R254, R265 to
R268, R418: a cell that reaches a port which is not ACTIVE, or which waits for a replay, is discarded; one whose tag does not
open under the link key, with the nonce of its place in the sequence, is bad; a scheduled one that finds 576 in its pool
overflows; any other is received, in order, with its payload opened and its credit counted. The model's own choices in it: log
8 and log 128. -/
def Obligations.CellReception : Prop :=
  (∀ c : Cell, cellWidths c = true → c.route.length = 6 → (∀ r ∈ c.route, r < 32) → c.payload.length = payloadLen c →
    c.payload.length ≤ 512 → c.tag.length = 12 → c.resync = false →
    (cellBytes c).length = 544 ∧ cellOfBytes (cellBytes c) = c ∧ (cellBlocks c).length = 17 ∧
    (cellBlocks c).flatten = cellBytes c ∧ ∀ b ∈ cellBlocks c, b.length = 32) ∧
  (∀ (w : Nat) (bs : List (List Byte)), 0 < w →
    collect ((List.range w).map fun k => laneStream w k bs) 0 bs.length = bs) ∧
  (∀ cs : List Cell, delineate none (.resync :: cs.flatMap fun c => (cellBlocks c).map .data) = cs.map cellBytes) ∧
  (∀ (part : Option (List (List Byte))) (n : Nat) (cs : List Cell),
    delineate part (.align 0 n :: cs.flatMap fun c => (cellBlocks c).map .data) = cs.map cellBytes) ∧
  (∀ (s s1 : State) (p : Nat) (c : Cell) (t : Port), t = s.port p → s1 = s.setPort p { t with awaiting := false } →
     s.ports.rising = true →
     (s.portActive p = false ∨ t.awaiting = true ∧ c.resync = false → s.receive p c = (none, s)) ∧
     (s.portActive p = true → (t.awaiting = true → c.resync = true) →
       ∀ o : Option Cell, (o = if s.sealing p then
           (Config.gcmOpen (s.keyOf 7) (leBytes 2 (s.fld 0 p Reg.DCTL_LYS_PSTAT.FAR_NODE) ++
               leBytes 1 (s.fld 0 p Reg.DCTL_LYS_PSTAT.FAR_PORT) ++ [0] ++ leBytes 8 (t.rxBase + t.rxSeq)) (headerBytes c)
             (padTo 512 c.payload ++ padTo 12 c.tag)).map fun d => { c with payload := d.take (payloadLen c), tag := noTag }
         else some { c with tag := noTag }) →
       (o = none → s.receive p c = (none, (s1.tagFailure p).badCell p false)) ∧
       (∀ d, o = some d →
         (d.sched = true → 576 ≤ s1.buffered p 7 →
           s.receive p c = (none, (s1.raise 0 p Reg.DCTL_LYS_PSTAT.SCHED_OVF).badCell p true)) ∧
         ((d.sched = true → s1.buffered p 7 < 576) →
           s.receive p c = (some { d with resync := false }, s1.setPort p { t with
             awaiting := false, rxSeq := (t.rxSeq + 1) % 2 ^ 32
             rxUsed := if s.sealing p then t.rxBase + t.rxSeq + 1 else t.rxUsed
             recv := if d.sched then t.recv else t.recv.set 0 d.vc ((t.recv.get 0 d.vc + 1) % 65536) })))))

/-- R132, R261 to R264, R270, R309 to R312, R354: what a port does with a cell that has arrived: a request that passes its
check is served where its units run, and answered, or waits; one that fails it is answered with the status of its check; a
signal is given to its latch; a response is given to the request that it answers. The model's own choices in it: log 3 and log
79. -/
def Obligations.CellService : Prop :=
  (∀ (s : State) (p : Nat) (c : Cell),
    (s.boundPart p = none → s.target p c = s.routeErr p c true ∧ s.latchCell p c = s.routeErr p c true) ∧
    (∀ q, s.boundPart p = some q →
      (∀ st, s.targetCheck q (reqAddr c) (reqLen c) = .error st →
        s.target p c = if c.typ = 2 ∨ c.typ = 7 then s.refuse p c st else s.ack p c none st) ∧
      (∀ e, s.targetCheck q (reqAddr c) (reqLen c) = .ok e →
        (s.canServe c = true → s.target p c = s.serve p q e c) ∧
        (s.canServe c = false → s.target p c = { s with inbound := s.inbound ++ [⟨p, c, q, e⟩] })) ∧
      (s.partShut q = true → s.latchCell p c = s.ack p c none 6) ∧
      (s.partShut q = false →
        (s.fld 0 q Reg.DCTL_COMP_PART0.STATE = 1 → s.vdOf q = c.vd →
          ∀ st t, s.signal (vf q) c.addr (BitVec.ofNat 64 (leNat c.payload)) = (st, t) → s.latchCell p c = t.ack p c none st) ∧
        (s.fld 0 q Reg.DCTL_COMP_PART0.STATE ≠ 1 ∨ s.vdOf q ≠ c.vd → s.latchCell p c = s.ack p c none 1)))) ∧
  (∀ (s s1 : State) (p q e a : Nat) (c : Cell), a = reqAddr c →
    (c.typ = 2 → s.serve p q e c = (s.readMem a (c.len + 1)).st.sendCell p (respond (s.fld 0 0 Reg.DCTL_NODE.NODE) p c 3
      (if (s.readMem a (c.len + 1)).bad then 3 else 0) (s.readMem a (c.len + 1)).data)) ∧
    (s1 = (if c.log then s.dirtyRun q a (reqLen c) else s) →
      (c.typ = 4 → s.serve p q e c =
        (s1.writeMem a c.payload c.poison).2.ack p c (some (q, e)) (if (s1.writeMem a c.payload c.poison).1 then 3 else 0)) ∧
      (c.typ = 6 →
        (s1.mayWait a (c.op / 16) (c.op % 8) c.poison = true → s1.drawBool.1 = true → s.serve p q e c =
          (s1.drawBool.2.postContrib a (c.op % 8) c.payload s1.drawBool.2.nextOwed).owe (some (p, c, q, e)) none) ∧
        (∀ u, s1.mayWait a (c.op / 16) (c.op % 8) c.poison = true ∧ s1.drawBool = (false, u) ∨
            s1.mayWait a (c.op / 16) (c.op % 8) c.poison = false ∧ u = s1 →
          ∀ st t, u.mso a (c.op / 16) (c.op % 8) c.payload c.poison = (st, t) →
            s.serve p q e c = t.ack p c (some (q, e)) st)) ∧
      (c.typ = 7 → ∀ r t, s1.atomOp c.op a c.src (leNat (c.payload.take 16)) (leNat (c.payload.drop 16)) = (r, t) →
        s.serve p q e c = t.sendCell p (respond (s.fld 0 0 Reg.DCTL_NODE.NODE) p c 8 r.status
          (leBytes 16 r.found.toNat ++ leBytes 1 r.stored.toNat))))) ∧
  (∀ (s : State) (p kind : Nat) (c : Cell) (n : Nat) (m : MoveOp) (r : Req),
    s.reads.find? (fun x => x.ttag == c.ttag && x.answer.isNone) = none →
    s.sigs.find? (fun g => g.ttag == c.ttag) = none → s.reqOf c.ttag = some (n, m, r) → kind ≠ 1 →
    (c.op = 0 → c.payload.length ≠ (if kind = 0 then r.len else 17) → s.answerCell p kind c = s.routeErr p c false) ∧
    (c.op ≠ 0 ∨ c.payload.length = (if kind = 0 then r.len else 17) →
      (r.kind = kind → s.answerCell p kind c = s.answerMove n m r c.op c.payload) ∧
      (r.kind ≠ kind → s.answerCell p kind c = s))) ∧
  (∀ (s : State) (p : Nat) (c : Cell) (r : FarRead), s.reads.find? (fun x => x.ttag == c.ttag && x.answer.isNone) = some r →
    s.sigs.find? (fun g => g.ttag == c.ttag) = none →
    (c.op = 0 → c.payload.length ≠ r.len → s.answerCell p 0 c = s.routeErr p c false) ∧
    (c.op ≠ 0 ∨ c.payload.length = r.len → s.answerCell p 0 c = s.readAnswered r c.op c.payload)) ∧
  (∀ (s : State) (tag st : Nat),
    (∀ g, s.sigs.find? (fun g => g.ttag == tag) = some g → s.answer tag 1 st [] = s.sigDone g st) ∧
    (∀ n m r, s.sigs.find? (fun g => g.ttag == tag) = none → s.reads.find? (fun x => x.ttag == tag && x.answer.isNone) = none →
      s.reqOf tag = some (n, m, r) →
      s.answer tag 1 st [] = if r.kind = 1 ∨ r.kind = 2 then s.answerMove n m r st [] else s))

/-- R252, R254 to R257, R263 to R268, R271, R418, R419: codewords, the link cells and the timers that send them. The model's
own choices in it: log 41 and log 43. -/
def Obligations.LinkCells : Prop :=
  ∀ (s t : State) (p lane : Nat) (c : Cell),
    (s.portActive p = true → bitOf (s.fld 0 p Reg.DCTL_LYS_PSTAT.LANES) lane = true →
      exec (.codewordReceive p lane .clean) s = .next s ∧
      (∀ n, exec (.codewordReceive p lane (.corrected n)) s = .next (s.satAdd 0 p Reg.DCTL_LYS_CNT0.FEC_CORR n)) ∧
      exec (.codewordReceive p lane .uncorrectable) s =
        .next (((s.satAdd 0 p Reg.DCTL_LYS_CNT0.FEC_UNC 1).portCE p).badCell p false)) ∧
    (exec (.trainId p c) s = .next (s.takeTrainId p c.payload) ∧
      (s.ports.rising = true → s.portState p = 1 ∧ (s.port p).step = 4 ∨ s.portState p = 2 → c.payload.length = 32 →
        ((s.takeTrainId p c.payload).port p).farVd =
          (if bitOf (leField c.payload 8 1) 0 then leField c.payload 6 2 else 0) ∧
        ((s.takeTrainId p c.payload).port p).farParish = leField c.payload 16 8)) ∧
    (∀ arrival sent, s.portState p = 1 ∧ 4 ≤ (s.port p).step ∨ s.portState p = 2 →
      exec (.measure p arrival sent c) s =
        .next (s.sendLink p (linkCell 3 (leBytes 8 (leField c.payload 0 8) ++ leBytes 4 (sent - arrival))))) ∧
    (∀ arrival, s.portState p = 1 → (s.port p).step = 5 → (s.port p).meas.length < 64 → c.payload.length = 12 →
      t = s.setPort p { s.port p with
        meas := (s.port p).meas ++ [(leField c.payload 8 4, arrival - leField c.payload 0 8)] } →
      exec (.measureReply p arrival c) s = .next (t.measured p)) ∧
    (s.takeLink p c = (none, t) → exec (.creditAck p c) s = .next t ∧ exec (.nak p c) s = .next t) ∧
    (∀ d, s.takeLink p c = (some d, t) →
      (∀ (u : Port) (t1 t2 : State), d.payload.length = 20 → u = (t.port p).ackTo ((leField d.payload 0 4 + 1) % 2 ^ 32) →
        t1 = t.setPort p { u with
          credit := (List.range 8).foldl (fun k i => Tab.set 0 k i (leField d.payload (4 + 2 * i) 2)) [] } →
        t2 = (if u.replayDue then t1.tryReplay p else t1) →
        exec (.creditAck p c) s = .next (((t2.drainWait (u.wait.length + 1) p).pumpWindow p).resealDue p)) ∧
      (∀ (n : Nat) (u : Port) (lost : Bool) (t1 : State), d.payload.length = 5 → n = leField d.payload 0 4 →
        u = (t.port p).ackTo n →
        lost = (leField d.payload 4 1 == 1 && (u.replay.head?.any fun x => x.2.sched)) →
        t1 = ((t.setPort p { u with
          replay := if lost then unschedule u.replay else u.replay, replayDue := u.replayDue || lost
          tries := if u.tries = 0 ∨ u.trySeq ≠ n then 1 else u.tries + 1
          trySeq := n }).satAdd 0 p Reg.DCTL_LYS_CNT0.REPLAY 1).portCE p →
        exec (.nak p c) s = .next ((t1.tryReplay p).resealDue p))) ∧
    ((s.port p).replay ≠ [] → (s.port p).replayDue = false → s.tryReplay p =
      (s.port p).replay.zipIdx.foldl (fun s x => (s.setPort p { s.port p with blocks := (s.port p).blocks + 17 }).send
        (.cell p { s.wire p x.1.1 x.1.2 with resync := x.2 == 0 })) s) ∧
    (s.portActive p = true → exec (.creditReturnTimer p) s = .next (s.sendCreditAck p)) ∧
    exec (.ackGatherTimeout p) s = .next (s.flushAcks p (s.port p).acks.length)

/-- R248, R255 to R258, R268, R278 to R280: training, retraining and the limits of a port, and its laser module. The model's
own choices in it: log 4, log 42 and log 77. -/
def Obligations.PortEvents : Prop :=
  ∀ (s t : State) (p : Nat) (lanes : BitVec 16),
    (∀ (u : State) (k : Nat), u = s.tryTrain p → u.portState p = 1 → (u.port p).retryDue = false → (u.port p).step = k →
      (k = 1 → u.fld 0 (p / 4) Reg.DCTL_LYS_INLET.INTERLOCK = 1 →
        exec (.trainingStepComplete p lanes) s = .next (u.enterStep p 2)) ∧
      (∀ l, k = 2 → u.pickLanes p lanes.toNat = some l →
        exec (.trainingStepComplete p lanes) s = .next (((u.setFld 0 p Reg.DCTL_LYS_PSTAT.LANES l).setPort p
          { u.port p with passed := lanes.toNat }).enterStep p 3)) ∧
      (k = 2 → u.pickLanes p lanes.toNat = none → exec (.trainingStepComplete p lanes) s = .next (u.failStep p)) ∧
      (k = 3 → exec (.trainingStepComplete p lanes) s = .next (u.enterStep p 4)) ∧
      (k = 4 → (u.port p).ident = true → exec (.trainingStepComplete p lanes) s = .next (u.enterStep p 5)) ∧
      (k = 5 → 64 ≤ (u.port p).meas.length → exec (.trainingStepComplete p lanes) s = .next (u.enterStep p 6)) ∧
      (k = 6 → exec (.trainingStepComplete p lanes) s = .next (u.goActive p))) ∧
    (s.portState p = 1 → (s.port p).retryDue = false →
      ((s.port p).fails < 2 → exec (.trainingStepFail p) s =
        .next (s.setPort p { s.port p with fails := (s.port p).fails + 1, retryDue := true })) ∧
      (2 ≤ (s.port p).fails → exec (.trainingStepFail p) s =
        .next (((s.setFld 0 p Reg.DCTL_LYS_PSTAT.STATE 4).setPort p { s.port p with
          fails := 0, step := 0, retryDue := false }).logCE 0x0B 0 (unitPort p) (s.boundPart p)))) ∧
    (s.portState p = 1 → (s.port p).retryDue = true → exec (.trainingRetryTimer p) s =
      .next (s.setPort p { s.port p with step := 1, retryDue := false, ident := false })) ∧
    (s.portState p = 2 → exec (.laneLockLoss p) s = .next ((s.setFld 0 p Reg.DCTL_LYS_PSTAT.STATE 3).takeOut p)) ∧
    (0 < (s.port p).tries → s.fld 0 p Reg.DCTL_LYS_PCFG.RETRY_LIM ≤ (s.port p).tries →
      exec (.replayLimit p) s = .next ((s.setPort p { s.port p with tries := 0 }).quickRetrain p)) ∧
    (s.portState p = 3 →
      (∀ l u, s.pickLanes p (s.fld 0 p Reg.DCTL_LYS_PSTAT.LANES &&& lanes.toNat) = some l →
        u = (s.setFld 0 p Reg.DCTL_LYS_PSTAT.LANES l).setFld 0 p Reg.DCTL_LYS_PSTAT.STATE 2 →
        t = ((u.raise 0 p Reg.DCTL_LYS_PSTAT.RETRAIN).logCE 0x0B 0 (unitPort p) (u.boundPart p)).setPort p
          { s.port p with blocks := 0 } →
        exec (.quickRetrainSuccess p lanes) s =
          .next ((t.badCell p false).drainWait ((t.port p).wait.length + 1) p)) ∧
      exec (.quickRetrainTimeout p) s = .next (s.dropPort p)) ∧
    (s.portState p = 2 ∨ s.portState p = 3 →
      exec (.portDown p) s = .next (if s.fld 0 p Reg.DCTL_LYS_PCFG.EN = 1 then s.leaveActive p 1 1 true
        else s.leaveActive p 0 0 true) ∧
      (s.fld 0 p Reg.DCTL_LYS_PCFG.TAG_LIM ≤ (s.port p).tagFails → t = s.leaveActive p 4 0 true →
        exec (.tagLimit p) s = .next ((t.logErr { ErrRec.of 4 0x0B with
          cause := 7, unit := unitPort p, part := t.boundPart p }).raiseAlarm 2 7 0
            ((t.logErr { ErrRec.of 4 0x0B with cause := 7, unit := unitPort p, part := t.boundPart p }).boundPart p) 0))) ∧
    (∀ n, exec (.laserModuleSeated n) s = .next ((s.setFld 0 n Reg.DCTL_LYS_INLET.PRESENT 1).closeLoop n) ∧
      ∀ (x : InletReading) (u : State), u = s.setFld 0 n ⟨0x1006800, 8, 24, 32⟩ x.word.toNat →
        (x.seated = true → x.onGrid = true → 100 ≤ bits x.word.toNat 24 8 → bits x.word.toNat 12 8 ≤ 140 →
          exec (.inletFault n x) s = .next u) ∧
        (x.seated = false ∨ x.onGrid = false ∨ bits x.word.toNat 24 8 < 100 ∨ 140 < bits x.word.toNat 12 8 →
          t = ([4 * n, 4 * n + 1, 4 * n + 2, 4 * n + 3]).foldl (fun s p =>
            if s.portUp p then s.raise 0 p Reg.DCTL_LYS_PSTAT.LASER_LOSS else s)
            ((if x.seated then u else u.setFld 0 n Reg.DCTL_LYS_INLET.PRESENT 0).raise 0 n Reg.DCTL_LYS_INLET.INLET_FAULT) →
          (x.seated = false ∨ 150 < bits x.word.toNat 12 8 → exec (.inletFault n x) s = .next (t.openLoop n)) ∧
          (x.seated = true → bits x.word.toNat 12 8 ≤ 150 → exec (.inletFault n x) s =
            .next (([4 * n, 4 * n + 1, 4 * n + 2, 4 * n + 3]).foldl State.dimPort t))))

/-- R275 to R277, R282, R285, R288 to R293, R434, R470: a flooded cell that is new is forwarded on every other port in its
scope and acted on; a pending table becomes active; a window opens for its move or its input port, and closes. The model's own
choices in it: log 59 and log 98. -/
def Obligations.FloodsAndWindows : Prop :=
  (∀ (s t t1 : State) (p : Nat) (x c c0 : Cell) (i : Instr) (act : Cell → State → State),
    (i, c, act) ∈ [
      (Instr.bell p x, cellUnder x 0xB, fun c s => s.bellArrives (leField c.payload 4 1) (leField c.payload 6 6)),
      (.alarm p x, cellUnder x 0xC, fun c s => s.alarmArrives c.payload)] →
    (s.receive p c = (none, t) → exec i s = .next t) ∧
    (s.receive p c = (some c0, t) → t.inService = true →
      (typeReserved x.typ = true ∨ floodFields c0 = false → exec i s = .next (t.routeErr p c0 false)) ∧
      (typeReserved x.typ = false → floodFields c0 = true →
        (t.flooded c.typ (leField c0.payload 0 2) (leField c0.payload 2 2) = true → exec i s = .next t) ∧
        (t.flooded c.typ (leField c0.payload 0 2) (leField c0.payload 2 2) = false →
          t1 = t.recordFlood c.typ (leField c0.payload 0 2) (leField c0.payload 2 2) →
          exec i s = .next (act c0 (if c0.hop < 6 then
            t1.sendAll (t1.floodPorts (leField c0.payload 4 1) (leField c0.payload 12 2) (some p)) { c0 with hop := c0.hop + 1 }
            else t1)))))) ∧
  (∀ (s u t : State) (p : Nat) (n : SchedTable), (s.port p).next = some n → n.act ≤ s.now → n.fresh = false →
    u = (s.setPort p { s.port p with active := if n.windows.isEmpty then none else some n, next := none }).checkLength p →
    t = ((u.setFld 0 p Reg.DCTL_LYS_SCHED.PENDING 0).setFld 0 p Reg.DCTL_LYS_SCHED.ACT_BEAT u.now).setFld 0 p
      Reg.DCTL_LYS_SCHED.COUNT n.windows.length →
    ∀ t1, t1 = t.setFld 0 p Reg.DCTL_LYS_SCHED.STATE (t.tableState p) →
      exec (.schedTableActivate p) s = .next ((if n.act < t1.now then
        t1.schedFlag p Reg.DCTL_LYS_SCHED.LOAD_LATE Reg.PCTL_SCHED_STAT.LOAD_LATE else t1).finish n.fn n.q n.sq n.g 0 0 false)) ∧
  (∀ (s : State) (p : Nat), ((s.port p).next = none ∨ ∃ n, (s.port p).next = some n ∧ (s.now < n.act ∨ n.fresh = true)) →
    exec (.schedTableActivate p) s = .next s) ∧
  (∀ (s t : State) (p i : Nat) (w : Window), (s.windows p)[i]? = some w →
    (s.tableServes p = true → (s.port p).openWin = none → (s.port p).winAt ≤ i →
      t = s.setPort p { s.port p with openWin := some i, winAt := i + 1, winLeft := winLen w } →
      exec (.windowOpen p i) s = .next (if winKind w = 1 then t.openTx p w
        else t.pumpFwd (winIn w) p (t.heldCells (winIn w)))) ∧
    ((s.port p).openWin = some i → t = s.setPort p { s.port p with openWin := none, winLeft := 0 } →
      (winKind w ≠ 1 → exec (.windowClose p i) s = .next (t.pumpFwd (winIn w) p (t.heldCells (winIn w)))) ∧
      (winKind w = 1 → (∃ x ∈ (t.windows p).drop (i + 1), winNames x (winCore w) (winTag w) = true) →
        exec (.windowClose p i) s = .next t) ∧
      (winKind w = 1 → (∀ x ∈ (t.windows p).drop (i + 1), winNames x (winCore w) (winTag w) = false) →
        exec (.windowClose p i) s = .next (t.spill p (t.slotMoves p (some (winCore w, winTag w)))))))

/-! ## Management sessions (R381 to R398, R467 to R494) -/

/-- R475, R476, R487, R488: a request of no open session does nothing; a session with 64 requests outstanding is BUSY; one
that the controller does not serve is WRONG_STATE; and where no request stands before it, a response leaves at once. The
model's own choices in it: log 3 and log 17. -/
def Obligations.SessionRequests : Prop :=
  (∀ (s : State) (sess req x y z w : Nat) (body : BitVec 896) (nonce digest : BitVec 384) (a : LifeAuth) (em : EnrolMsg)
    (km : KeysMsg) (pairs : List (Nat × U64)) (entries : List U64) (data : List Byte) (det : BitVec 128),
    ∀ p ∈ [(0x01, .getInfo sess req), (0x02, .report sess req nonce), (0x03, .mgmtRoot sess req digest a), (0x10, .bind sess req body),
      (0x10, .unbind sess req body), (0x10, .moveCore sess req body), (0x10, .retuneQos sess req body),
      (0x12, .configWrite sess req pairs), (0x13, .routeWrite sess req x y entries), (0x20, .lifeChallenge sess req),
      (0x30, .parishEnrol sess req em), (0x31, .parishKeys sess req km), (0x32, .parishAdd sess req x y),
      (0x33, .parishLeave sess req), (0x34, .alarmRaise sess req x y z det), (0x35, .bellRaise sess req x y z),
      (0x40, .fwBegin sess req x y), (0x41, .fwChunk sess req x data), (0x42, .fwCommit sess req x), (0x50, .dumpList sess req),
      (0x51, .dumpRead sess req x y z), (0x52, .dumpAck sess req x), (0x53, .logRead sess req x y), (0x60, .teleSub sess req x y),
      (0x71, .testReq sess req w)],
      (s.session? sess = none → exec p.2 s = .next s) ∧
      (∀ k, s.session? sess = some k →
        (64 ≤ k.reqs.length → exec p.2 s = .next (s.enterReq sess p.1 req (some (0x22, [])))) ∧
        (k.reqs.length < 64 → s.serves p.1 = false → exec p.2 s = .next (s.enterReq sess p.1 req (some (0x11, [])))))) ∧
  (∀ (s : State) (sess typ req st : Nat) (b : List Byte) (k : Session), s.session? sess = some k →
    (k.reqs = [] → (s.enterReq sess typ req (some (st, b))).out = s.out ++ [.kmc sess typ req st false b]) ∧
    (∀ r rs, k.reqs = r :: rs → r.resp = none →
      (s.enterReq sess typ req (some (st, b))).out = s.out ∧
      (s.enterReq sess typ req (some (st, b))).session? sess =
        some { k with reqs := k.reqs ++ [{ req := req, typ := typ, resp := some (st, b) }] }))

/-- R394, R426, R440, R467, R484, R489, R491, R492, R494: sessions open and close; what the requests for information, dumps,
the log, telemetry and tests answer. The model's own choices in it: log 17, log 20, log 22, log 23, log 52 and log 126. -/
def Obligations.SessionQueries : Prop :=
  ∀ (s t : State) (sess req x y z : Nat),
    (s.kmcUp = true → s.kmc.sessions.length < 4 → s.session? sess = none →
      t = { s with kmc := { s.kmc with
        sessions := s.kmc.sessions ++ [{ id := sess, reqs := [], period := 0, mask := 0, upTo := s.now }], kept := [] } } →
      exec (.kmcSessionOpen sess true) s =
        .next (s.kmc.kept.foldl (fun t b => t.send (.kmc sess 0x0011 0 0 true b)) t)) ∧
    (s.kmcUp = false ∨ 4 ≤ s.kmc.sessions.length ∨ s.session? sess ≠ none →
      ∀ ok, exec (.kmcSessionOpen sess ok) s = .next s) ∧
    exec (.kmcSessionOpen sess false) s = .next s ∧
    (s.session? sess ≠ none →
      t = { s with kmc := { s.kmc with
        sessions := s.kmc.sessions.filter (·.id != sess)
        fw := if (s.kmc.fw.map (·.sess)) == some sess then none else s.kmc.fw } } →
      exec (.kmcSessionClose sess) s = .next t.startLife) ∧
    (asked s sess 0x01 → exec (.getInfo sess req) s = .next (s.enterReq sess 0x01 req
      (some (0, s.regBytes [0x0, 0x10, 0x18, 0x1030000, Reg.DCTL_BOOT_STAT.BANK.off])))) ∧
    (∀ nonce r, asked s sess 0x02 → s.report 1 none (leBytes 48 (nonce : BitVec 384).toNat) = (r, t) →
      exec (.report sess req nonce) s = .next (t.enterReq sess 0x02 req (some (0, r)))) ∧
    (asked s sess 0x50 → exec (.dumpList sess req) s =
      .next (s.enterReq sess 0x50 req (some (0, s.regBytes [0x1007018])))) ∧
    (asked s sess 0x51 → ∀ d, s.dump.slots.find? x = some d →
      (∀ b, x ≤ 3 → z ≤ 65536 → s.sec.busy = false → d.opened (s.keyOf 4) = some b → exec (.dumpRead sess req x y z) s =
        .next (s.enterReq sess 0x51 req (some (0, (b.drop y).take z)))) ∧
      (x ≤ 3 → z ≤ 65536 → s.sec.busy = false → d.opened (s.keyOf 4) = none → exec (.dumpRead sess req x y z) s =
        .next (s.enterReq sess 0x51 req (some (0x11, [])))) ∧
      (x ≤ 3 → z ≤ 65536 → s.sec.busy = true → exec (.dumpRead sess req x y z) s =
        .next (s.enterReq sess 0x51 req (some (0x22, [])))) ∧
      (3 < x ∨ 65536 < z → exec (.dumpRead sess req x y z) s = .next (s.enterReq sess 0x51 req (some (0x20, []))))) ∧
    (asked s sess 0x51 → x ≤ 3 → z ≤ 65536 → s.sec.busy = false → s.dump.slots.find? x = none →
      exec (.dumpRead sess req x y z) s = .next (s.enterReq sess 0x51 req (some (0x11, [])))) ∧
    (asked s sess 0x52 → x ≤ 3 → exec (.dumpAck sess req x) s =
      .next ((s.setFld 0 0 ⟨0x1007018, 0, 28 + x, 1⟩ 0).enterReq sess 0x52 req (some (0, [])))) ∧
    (asked s sess 0x53 → y ≤ 1024 → exec (.logRead sess req x y) s = .next (s.enterReq sess 0x53 req
      (some (0, (((s.log.stored.flatMap (LogBlock.records (s.keyOf 4))).filter fun b =>
        decide ((leNat (b.take 4) + 2 ^ 32 - x % 2 ^ 32) % 2 ^ 32 < 2 ^ 31)).take y).flatten)))) ∧
    (asked s sess 0x53 → 1024 < y → exec (.logRead sess req x y) s = .next (s.enterReq sess 0x53 req (some (0x20, [])))) ∧
    (asked s sess 0x60 → x < 65536 → y < 64 → exec (.teleSub sess req x y) s =
      .next ((s.updSession sess fun k => { k with period := x, mask := y, upTo := s.now }).enterReq sess 0x60 req (some (0, [])))) ∧
    (∀ k, s.session? sess = some k → t = (s.updSession sess fun k => { k with upTo := max k.upTo s.now }) →
      (k.period ≠ 0 → k.upTo / k.period < s.now / k.period → exec (.telemetry sess) s = .next (t.send (.kmc sess 0x0061 0 0 true
        (leBytes 6 s.now ++ leBytes 2 k.mask ++ (setBits k.mask 6).flatMap fun g => s.regBytes (teleGroup g))))) ∧
      (k.period = 0 ∨ s.now / k.period ≤ k.upTo / k.period → exec (.telemetry sess) s = .next t)) ∧
    (asked s sess 0x71 → s.fld 0 0 Reg.DCTL_LIFE.TEST_ENGINE = 1 →
      (∀ q < 32, s.fld 0 q Reg.DCTL_COMP_PART0.STATE ≠ 1) → exec (.testReq sess req x) s =
      .next (({ s with free := s.free + 1 } : State).enterReq sess 0x71 req (some (0, Config.document (1000 + x) s.free)))) ∧
    (asked s sess 0x71 → s.fld 0 0 Reg.DCTL_LIFE.TEST_ENGINE ≠ 1 ∨ (∃ q < 32, s.fld 0 q Reg.DCTL_COMP_PART0.STATE = 1) →
      exec (.testReq sess req x) s = .next (s.enterReq sess 0x71 req (some (0x11, []))))

/-- R269, R277, R434, R469, R475, R485, R489, R491, R493: what the requests that configure, alarm, ring and update do. The
model's own choices in it: log 21, log 24 and log 65. -/
def Obligations.SessionUpdates : Prop :=
  ∀ (s t : State) (sess req x y z : Nat),
    (asked s sess 0x03 → ∀ (dg : BitVec 384) (a : LifeAuth),
      t = (if s.sec.challenge = some a.challenge then { s with sec := { s.sec with challenge := none } } else s) →
      exec (.mgmtRoot sess req dg a) s = .next
        (if s.authOk a = true ∧ a.signer = 2 ∧ s.fld 0 0 Reg.DCTL_LIFE.OWNER = 1 then
          ({ t with kmc := { t.kmc with root := beBytes 48 dg.toNat } } : State).enterReq sess 0x03 req (some (0, []))
        else t.enterReq sess 0x03 req (some (0x21, [])))) ∧
    (asked s sess 0x12 → ∀ pairs : List (Nat × U64),
      (64 < pairs.length ∨ (∃ p ∈ pairs, kmcMask p.1 = 0) → exec (.configWrite sess req pairs) s =
        .next (s.enterReq sess 0x12 req (some (0x20, [])))) ∧
      (pairs.length ≤ 64 → (∀ p ∈ pairs, kmcMask p.1 ≠ 0) →
        ((∃ p ∈ pairs, p.1 = 0x1000080) → s.nodeFree = false →
          exec (.configWrite sess req pairs) s = .next (s.enterReq sess 0x12 req (some (0x11, [])))) ∧
        ((∀ p ∈ pairs, p.1 ≠ 0x1000080) ∨ s.nodeFree = true →
          t = pairs.foldl (fun (u : State) p =>
            { u.writeConfig p.1 p.2 with kmc := { (u.writeConfig p.1 p.2).kmc with
                config := (u.writeConfig p.1 p.2).kmc.config.put p.1 p.2 } }) s →
          exec (.configWrite sess req pairs) s = .next (t.enterReq sess 0x12 req (some (0, [])))))) ∧
    (asked s sess 0x13 → ∀ es : List U64,
      (x < 32 → y + es.length ≤ 512 → (∀ e ∈ es, e.extractLsb' 0 5 = 0) →
        t = { s with deferred := s.deferred ++ es.zipIdx.map fun e => .reg 0 (0x1008000 + 8 * (512 * x + y + e.2)) e.1 } →
        exec (.routeWrite sess req x y es) s = .next (t.enterReq sess 0x13 req (some (0, [])))) ∧
      (32 ≤ x ∨ 512 < y + es.length ∨ (∃ e ∈ es, e.extractLsb' 0 5 ≠ 0) →
        exec (.routeWrite sess req x y es) s = .next (s.enterReq sess 0x13 req (some (0x20, []))))) ∧
    (asked s sess 0x34 → ∀ (det : BitVec 128),
      ((x = 1 ∧ y = 9 ∧ z ≠ 0) ∨ (x = 2 ∧ (y = 8 ∨ y = 9) ∧ z = 0) → ∀ (s0 s1 : State) (node o : Nat) (pay : List Byte),
        s.draw = (o, s0) → node = s.fld 0 0 Reg.DCTL_NODE.NODE →
        pay = alarmPayload node s.alarmId x y s.now z (o % 256) (leBytes 16 det.toNat) →
        s1 = { s0.recordFlood 0xC node s.alarmId with alarmId := (s.alarmId + 1) % 65536 } →
        exec (.alarmRaise sess req x y z det) s = .next (((s1.sendAll (s1.floodPorts x z none)
          { cellOf 0xC (if x = 2 then 6 else 4) with hop := 1, src := node, vd := z, len := 31, payload := pay }).alarmArrives
            pay).enterReq sess 0x34 req (some (0, [])))) ∧
      (¬((x = 1 ∧ y = 9 ∧ z ≠ 0) ∨ (x = 2 ∧ (y = 8 ∨ y = 9) ∧ z = 0)) →
        exec (.alarmRaise sess req x y z det) s = .next (s.enterReq sess 0x34 req (some (0x20, []))))) ∧
    (asked s sess 0x35 →
      ((x = 1 ∧ y ≠ 0) ∨ (x = 3 ∧ y = 0) → exec (.bellRaise sess req x y z) s =
        .next (((s.addBell 0 z).sendBell x y z).enterReq sess 0x35 req (some (0, [])))) ∧
      (¬((x = 1 ∧ y ≠ 0) ∨ (x = 3 ∧ y = 0)) → exec (.bellRaise sess req x y z) s =
        .next (s.enterReq sess 0x35 req (some (0x20, []))))) ∧
    (asked s sess 0x40 → x < 8 →
      (s.kmc.fw = none → s.sec.busy = false →
        t = { s with kmc := { s.kmc with fw := some { sess := sess, image := x, len := y, data := [] } } } →
        exec (.fwBegin sess req x y) s = .next (t.enterReq sess 0x40 req (some (0, [])))) ∧
      (s.kmc.fw ≠ none ∨ s.sec.busy = true → exec (.fwBegin sess req x y) s =
        .next (s.enterReq sess 0x40 req (some (0x22, []))))) ∧
    (∀ w, s.kmc.fw = some w → w.sess = sess →
      (asked s sess 0x41 → ∀ data : List Byte,
        (data.length ≤ 65536 → x + data.length ≤ w.len →
          t = { s with kmc := { s.kmc with fw := some { w with
            data := data.zipIdx.foldl (fun d b => d.put (x + b.2) b.1) w.data } } } →
          exec (.fwChunk sess req x data) s = .next (t.enterReq sess 0x41 req (some (0, [])))) ∧
        (65536 < data.length ∨ w.len < x + data.length →
          exec (.fwChunk sess req x data) s = .next (s.enterReq sess 0x41 req (some (0x20, []))))) ∧
      (asked s sess 0x42 →
        (x = 1 ∨ x = 2 ∧ s.fld 0 0 Reg.DCTL_LIFE.TEST_KEYS = 1 →
          t = { s with kmc := { s.kmc with
            fw := none, bankB := s.kmc.bankB.put w.image w.bytes, bankA := s.kmc.bankA.put w.image w.bytes } } →
          exec (.fwCommit sess req x) s = .next (t.startLife.enterReq sess 0x42 req (some (0, [])))) ∧
        (x ≠ 1 → x ≠ 2 ∨ s.fld 0 0 Reg.DCTL_LIFE.TEST_KEYS ≠ 1 → exec (.fwCommit sess req x) s =
          .next (s.enterReq sess 0x42 req (some (0x21, [])))))) ∧
    ((∀ w, s.kmc.fw = some w → w.sess ≠ sess) →
      (asked s sess 0x41 → ∀ data, exec (.fwChunk sess req x data) s = .next (s.enterReq sess 0x41 req (some (0x11, [])))) ∧
      (asked s sess 0x42 → exec (.fwCommit sess req x) s = .next (s.enterReq sess 0x42 req (some (0x11, [])))))

/-- R381, R382, R394 to R398: the lifecycle and parish requests, a parish's start and a partition's report. The model's own
choices in it: log 19, log 53, log 67 and log 69. -/
def Obligations.LifecycleAndParish : Prop :=
  (∀ (s t : State) (sess req : Nat),
    (asked s sess 0x20 →
      t = { s with free := s.free + 1, sec := { s.sec with challenge := some (Config.entropy s.free) } } →
      exec (.lifeChallenge sess req) s =
        .next (t.enterReq sess 0x20 req (some (0, leBytes 32 (Config.entropy s.free).toNat)))) ∧
    (∀ (a : LifeAuth) (k : Session), s.session? sess = some k →
      (64 ≤ k.reqs.length ∨ s.sec.life ≠ none →
        exec (.lifeAuth sess req a) s = .next (s.enterReq sess 0x21 req (some (0x22, [])))) ∧
      (k.reqs.length < 64 → s.sec.life = none →
        t = (if s.sec.challenge = some a.challenge then { s with sec := { s.sec with challenge := none } } else s) →
        ∀ ok, ok = (s.authOk a && lifePermitted a.present a.target a.signer (s.fld 0 0 Reg.DCTL_LIFE.OWNER == 1)) →
          (ok = false → exec (.lifeAuth sess req a) s = .next (t.enterReq sess 0x21 req (some (0x21, [])))) ∧
          (ok = true → ∀ t1 : State, t1 = t.enterReq sess 0x21 req none →
            exec (.lifeAuth sess req a) s =
              .next ({ t1 with sec := { t1.sec with life := some (sess, req, a) } } : State).startLife))) ∧
    (∀ (m : EnrolMsg) (s1 s2 s3 : State) (r pub kem : List Byte) (e : Enrol), asked s sess 0x30 → s.sec.busy = false →
      s.fld 0 0 Reg.DCTL_LIFE.STATE = 3 → s.fld 0 0 Reg.DCTL_PARISH2.STATE = 0 → s1 = { s with free := s.free + 1283 } →
      s2 = (s1.loadKey 40 (keyAttr 2 true true 5) (leBytes 32 (Config.entropy s.free).toNat)).loadKey 41
        (keyAttr 2 true true 6) (leBytes 32 (Config.entropy (s.free + 1)).toNat) →
      pub = freeBytes (s.free + 2) 97 → kem = freeBytes (s.free + 99) 1184 →
      (∀ p ∈ setBits m.ports.toNat 32, bitOf (s.fld 0 0 Reg.IDC_CAP0.PORT_MASK) p = true) →
      s2.report 1 none (shaBytes (leBytes 16 m.parish.toNat ++ leBytes 48 m.nonce.toNat ++ pub ++ kem)) = (r, s3) →
      e = { parish := leBytes 16 m.parish.toNat, parts := m.parts.toNat, ports := m.ports.toNat, start := m.start
            report := r, keyed := false } →
      exec (.parishEnrol sess req m) s = .next
        ((({ s3 with sec := { s3.sec with enrol := some e } } : State).setFld 0 0 Reg.DCTL_PARISH2.STATE 1).enterReq sess 0x30
          req (some (0, r ++ pub ++ kem)))) ∧
    (∀ m : EnrolMsg, asked s sess 0x30 → s.sec.busy = false →
      (∃ p ∈ setBits m.ports.toNat 32, bitOf (s.fld 0 0 Reg.IDC_CAP0.PORT_MASK) p = false) →
      exec (.parishEnrol sess req m) s = .next (s.enterReq sess 0x30 req (some (0x1F, [])))) ∧
    (∀ (m : KeysMsg) (e : Enrol) (kek : List Byte), asked s sess 0x31 → m.ecdh.length = 97 → m.ct.length = 1088 →
      m.iv.length = 12 → m.wrapped.length = 64 → s.sec.enrol = some e → e.keyed = false →
      (e.start ≤ s.now → exec (.parishKeys sess req m) s = .next (s.dropEnrol.enterReq sess 0x31 req (some (0x11, [])))) ∧
      (s.now < e.start → kek = kdf (Config.agree (s.keyOf 40) m.ecdh ++ Config.agree (s.keyOf 41) m.ct) "YX-KEK"
          (shaBytes (e.report ++ m.ecdh ++ m.ct)) 32 → t = s.loadKey 43 (keyAttr 8 true true 1) kek →
        ∀ o, Config.gcmOpen kek m.iv (e.parish ++ leBytes 2 (t.fld 0 0 Reg.DCTL_NODE.NODE)) m.wrapped = o →
          (o = none → exec (.parishKeys sess req m) s = .next (t.dropEnrol.enterReq sess 0x31 req (some (0x11, [])))) ∧
          (∀ pms, o = some pms → exec (.parishKeys sess req m) s =
            .next ((t.installKeys e pms).enterReq sess 0x31 req (some (0, [])))))) ∧
    (∀ q edge, asked s sess 0x32 → q < 32 → s.sec.busy = false → s.fld 0 0 Reg.DCTL_PARISH2.STATE = 2 →
      s.fld 0 q Reg.DCTL_COMP_PART0.STATE = 1 → bitOf (s.fld 0 0 Reg.DCTL_PARISH2.PARTS) q = false →
      s.fld 0 (8 + q) Reg.DCTL_KEY_ATTR.VALID ≠ 1 →
      t = s.loadKey (8 + q) (hostAttr q) (kdf (s.keyOf 42) "YX-HOST"
        (s.parishId ++ beBytes 2 (s.fld 0 0 Reg.DCTL_NODE.NODE) ++ beBytes 1 q) 48) →
      exec (.parishAdd sess req q edge) s = .next
        (({ t with sec := { t.sec with adds := t.sec.adds ++ [(q, edge)] } } : State).enterReq sess 0x32 req (some (0, [])))) ∧
    (asked s sess 0x33 → exec (.parishLeave sess req) s = .next (if s.fld 0 0 Reg.DCTL_PARISH2.STATE = 2
      then s.endParish.enterReq sess 0x33 req (some (0, [])) else s.enterReq sess 0x33 req (some (0x11, []))))) ∧
  (∀ (s t : State), s.sec.enrol = none →
    t = { s with sec := { s.sec with adds := s.sec.adds.filter fun x => !decide (x.2 ≤ s.now) } } →
    exec .parishStart s =
      .next ((s.sec.adds.filter fun x => decide (x.2 ≤ s.now)).foldl (fun s x => s.enterParish x.1) t)) ∧
  (∀ (s t u : State) (e : Enrol), s.sec.enrol = some e → e.start ≤ s.now → s.sec.adds = [] →
    (e.keyed = false → s.dropEnrol.sec.adds = [] →
      exec .parishStart s = .next { s.dropEnrol with sec := { s.dropEnrol.sec with adds := [] } }) ∧
    (e.keyed = true →
      t = ((({ s with sec := { s.sec with enrol := none } } : State).wr 0 0x1030400
        (BitVec.ofNat 64 (leField e.parish 0 8))).wr 0 0x1030408 (BitVec.ofNat 64 (leField e.parish 8 8))).setFld 0 0
          Reg.DCTL_PARISH2.STATE 2 →
      u = (setBits e.ports 32).foldl State.sealPort ((setBits e.parts 32).foldl State.enterParish t) → u.sec.adds = [] →
      exec .parishStart s = .next { u with sec := { u.sec with adds := [] } })) ∧
  (∀ (s t : State) (fn : Nat) (v : U64), t = (if v.getLsbD 1 then
      (s.setFld fn 0 Reg.DSTP_ATTEST.BUF (v.extractLsb' 15 37).toNat).setFld fn 0 Reg.DSTP_ATTEST.DONE 0
      else s.setFld fn 0 Reg.DSTP_ATTEST.BUF (v.extractLsb' 15 37).toNat) →
    exec (.attestGo fn v) s = .next (if v.getLsbD 0 = true ∧ fn ≠ 0 ∧ t.fld fn 0 Reg.DSTP_ATTEST.GO = 0 then
      { t.setFld fn 0 Reg.DSTP_ATTEST.GO 1 with sec := { t.sec with asked := t.sec.asked ++ [fn] } } else t)) ∧
  (∀ (s t u : State) (fn : Nat) (nonce : BitVec 384) (r : List Byte), s.sec.asked.head? = some fn →
    s.report 2 (some (fn - 1)) (leBytes 48 nonce.toNat) = (r, t) →
    u = t.send (.host (t.fld fn 0 Reg.DSTP_ATTEST.BUF * 32768) r) →
    exec (.attestReportDone fn nonce) s = .next
      ((({ u with sec := { u.sec with asked := u.sec.asked.tail } } : State).setFld fn 0 Reg.DSTP_ATTEST.GO 0).raise fn 0
        Reg.DSTP_ATTEST.DONE))

/-- R302 to R315: COMPOSE takes a change into the queue or refuses it; a change whose turn has come opens its epoch, is
refused, or waits; drains end, and moved cores are copied. The model's own choices in it: log 30, log 47, log 48 and log 76. -/
def Obligations.Composition : Prop :=
  (∀ (s : State) (sess req : Nat) (b : BitVec 896), asked s sess 0x10 →
    ∀ p ∈ [(1, Instr.bind sess req b), (2, .unbind sess req b), (3, .moveCore sess req b), (4, .retuneQos sess req b)],
      (s.sec.busy = true → exec p.2 s = .next (s.enterReq sess 0x10 req (some (0x22, [])))) ∧
      (s.sec.busy = false → composeOk p.1 b = false → exec p.2 s = .next (s.enterReq sess 0x10 req (some (0x20, [])))) ∧
      (∀ h t, s.sec.busy = false → composeOk p.1 b = true → s.acceptChange (some sess) (composeOf b) none = (h, t) →
        exec p.2 s = .next (t.enterReq sess 0x10 req (some (0, leBytes 4 h))))) ∧
  (∀ (s t t1 : State) (sess : Option Nat) (c : Compose) (rot : Option Nat) (h : Nat) (x : Change), s.takeHandle = (h, t) →
    x = t.newChange h sess c (c.op == 3 && t.fld 0 (t.pcore c.core) Reg.IDC_PCORE_STAT.STATE == 4) rot →
    t1 = { t with changes := t.changes ++ [x] } →
    (64 ≤ t.queuedChanges.length → s.acceptChange sess c rot = (h, t.compDone x 0x11)) ∧
    (t.queuedChanges.length < 64 →
      (∀ st, t.compRefused x false = some st → s.acceptChange sess c rot = (h, t.compDone x st)) ∧
      (t.compRefused x false = none →
        s.acceptChange sess c rot = (h, if c.op = 3 then t1.setFld 0 c.core Reg.IDC_CORE_MAP.STATE 3 else t1)))) ∧
  (∀ (s : State) (h : Nat) (ext : List Byte), (∃ x ∈ s.changes, x.handle = h ∧ x.accepted = s.tick) →
    exec (.epochOpen h ext) s = .next s) ∧
  (∀ (s : State) (h : Nat) (ext : List Byte) (x : Change), s.queuedChanges.find? (·.handle == h) = some x →
    (∀ y ∈ s.changes, y.handle = h → y.accepted ≠ s.tick) →
    (s.compTurn x = false → exec (.epochOpen h ext) s = .next s) ∧
    (s.compTurn x = true →
      (∀ st, s.compRefused x true = some st → exec (.epochOpen h ext) s = .next (s.compDone x st)) ∧
      (s.compRefused x true = none → s.compWaits x = true → exec (.epochOpen h ext) s = .next s) ∧
      (s.compRefused x true = none → s.compWaits x = false →
        (∀ q t, x.c.op = 1 → x.c.part = q → t = s.openEpoch q →
          exec (.epochOpen h ext) s = .next (((t.bindAll x.c).compDone (t.opened x 1) 0).drainIfDone q)) ∧
        (∀ q, x.c.op = 2 → x.c.part = q → (x.c.force = false ∧ x.c.dissolve = false ∨ x.shut = true) →
          exec (.epochOpen h ext) s = .next (((s.openEpoch q).openUnbind x).drainIfDone q)) ∧
        (∀ q t, x.c.op = 2 → x.c.part = q → (x.c.force = true ∨ x.c.dissolve = true) → x.shut = false → t = s.shutterUnbind x →
          exec (.epochOpen h ext) s = .next (((t.openEpoch q).openUnbind { x with shut := true }).drainIfDone q)) ∧
        (∀ k, x.c.op = 3 → s.owner x.c.core = none → s.moveTarget x = some k → (s.openMove x k).changePart x = none →
          exec (.epochOpen h ext) s = .next (s.openMove x k)) ∧
        (∀ q k t, x.c.op = 3 → s.owner x.c.core = some q → t = s.openEpoch q → t.moveTarget x = some k →
          (t.openMove x k).changePart x = some q → exec (.epochOpen h ext) s = .next ((t.openMove x k).drainIfDone q)) ∧
        (∀ q, x.c.op = 4 → x.c.part = q →
          (∀ e t, s.readVa [2, x.handle] (vf q) x.c.qosVa 128 .rd ext = .fail e t →
            exec (.epochOpen h ext) s = .next ((t.qosUnread x e).compDone x 0x11)) ∧
          (∀ d rest t u, s.readVa [2, x.handle] (vf q) x.c.qosVa 128 .rd ext = .ok d rest t →
            (qosOk d = false → exec (.epochOpen h ext) s = .next (t.compDone x 0x11)) ∧
            (qosOk d = true → u = t.openEpoch q → exec (.epochOpen h ext) s =
              .next (((u.setQos (vf q) d).compDone (u.opened x 1) 0).drainIfDone q))))))) ∧
  (∀ (s : State) (h : Nat) (x : Change), s.queuedChanges.find? (·.handle == h) = some x →
    (x.c.at_ + s.fld 0 0 Reg.DCTL_COMP_CFG.DRAIN_LIM ≤ s.now → x.accepted + s.fld 0 0 Reg.DCTL_COMP_CFG.DRAIN_LIM ≤ s.tick →
      s.compTurn x = false ∨ s.compRefused x true = none ∧ s.compWaits x = true →
      exec (.changeStall h) s = .next (s.compDone x 0x15)) ∧
    (s.now < x.c.at_ + s.fld 0 0 Reg.DCTL_COMP_CFG.DRAIN_LIM ∨ s.tick < x.accepted + s.fld 0 0 Reg.DCTL_COMP_CFG.DRAIN_LIM →
      exec (.changeStall h) s = .next s)) ∧
  (∀ (s : State) (q e : Nat), s.drainEpoch q = some e →
    (s.drainCount q e = 0 → exec (.drainEnd q) s = .next (s.endDrain q)) ∧
    (s.drainCount q e ≠ 0 → exec (.drainEnd q) s = .next s) ∧
    (∀ (age : BitVec 40) (s1 s2 : State),
      age = BitVec.ofNat 40 s.now - BitVec.ofNat 40 (s.fld 0 q Reg.DCTL_COMP_PART1.DRAIN_BEAT) →
      (age.toNat ≤ s.fld 0 0 Reg.DCTL_COMP_CFG.DRAIN_LIM → exec (.drainLimit q) s = .next s) ∧
      (s.fld 0 0 Reg.DCTL_COMP_CFG.DRAIN_LIM < age.toNat →
        s1 = ((s.cores.filter fun n => (s.coreFn n.1).1 == vf q && n.2.cur.moves.any fun m => m.started && m.epoch == e).map
          (·.1)).foldl State.fenceMoves s →
        s2 = (s1.inbound.filter fun i => i.part == q && i.epoch == e).foldl (fun s i => s.dropInbound i 6) s1 →
        exec (.drainLimit q) s = .next
          (((s2.logCE 0x0E 0 (unitPart q) (some q)).raise 0 0 Reg.DCTL_COMP_STAT.DRAIN_FORCED).endDrain q)))) ∧
  (∀ (s : State) (n : Nat),
    ((s.core n).cur.moves = [] → exec (.coreStateCopyDone n) s = .next { s with
      changes := s.changes.map fun x =>
        if x.c.op = 3 ∧ x.phase = 1 ∧ x.c.core = n then { x with copied := true } else x }) ∧
    ((s.core n).cur.moves ≠ [] → exec (.coreStateCopyDone n) s = .next s))

/-! ## Resets, errors, dumps and the key roll (R55, R59, R414, R422 to R441) -/

/-- R430, R431, R433: a reset joins one that covers it; otherwise it replaces the smaller ones and waits for an edge, and a
member's partition, and every member on a die or device, sends its alarm. A reset then is shuttered, drains or sticks, and
waits for its wipes. The model's own choices in it: log 51, log 54 and log 75. -/
def Obligations.ResetSequence : Prop :=
  (∀ (s t : State) (dump : Bool) (k : Nat),
    ∀ p ∈ [(1, k, Instr.engineReset k dump), (2, k, .coreReset k dump), (3, k, .clusterReset k dump), (4, k, .partitionReset k dump),
      (6, k, .dieReset k dump), (7, 0, .deviceWarmReset dump), (8, 0, .deviceColdReset dump)],
      ∀ d, d = (if p.1 = 4 ∧ s.vdOf k ≠ 0 then 5 else p.1) →
        ((∃ r ∈ s.resets, r.phase < 4 ∧ s.resetWithin d p.2.1 r.domain r.target = true) →
          t = { s with resets := s.resets.map fun r =>
            if dump = true ∧ r.phase = 0 ∧ s.resetWithin d p.2.1 r.domain r.target = true then { r with dump := true } else r } →
          exec p.2.2 s = .next t) ∧
        ((∀ r ∈ s.resets, r.phase < 4 → s.resetWithin d p.2.1 r.domain r.target = false) → ∀ asked : Bool,
          asked = (s.resets.any fun r => decide (r.phase = 0) && r.dump && s.resetWithin r.domain r.target d p.2.1) →
          t = { s with
            resets := (s.resets.filter fun r => !(r.phase < 4 && s.resetWithin r.domain r.target d p.2.1)) ++
              [{ id := s.nextReset, domain := d, target := p.2.1, dump := dump || asked, phase := 0, edge := s.tick, cause := none }]
            nextReset := s.nextReset + 1 } →
          (d ≤ 4 → exec p.2.2 s = .next t) ∧
          (d = 5 → exec p.2.2 s = .next (t.raiseAlarm 1 1 (s.vdOf k) (some k) 5)) ∧
          (d = 6 → exec p.2.2 s = .next ((s.dieParts k).foldl (fun u q => u.partAlarm q 1 6) t)) ∧
          (7 ≤ d → exec p.2.2 s = .next ((List.range 32).foldl (fun u q => u.partAlarm q 1 d) t)))) ∧
  (∀ (s : State) (id : Nat), s.resets.find? (fun r => r.id == id && r.phase == 0 && r.edge != s.tick) = none →
    exec (.resetShutter id) s = .next s) ∧
  (∀ (s s1 s2 s3 s4 s5 : State) (id : Nat) (r : Reset),
    s.resets.find? (fun r => r.id == id && r.phase == 0 && r.edge != s.tick) = some r →
    s1 = (((s.updReset id fun x => { x with phase := 1, edge := s.tick + s.drainBudget }).setFld 0 0 Reg.DCTL_RST_STAT.DOMAIN
      r.domain).setFld 0 0 Reg.DCTL_RST_STAT.TARGET r.target).setFld 0 0 Reg.DCTL_RST_STAT.STATE 1 →
    s2 = (if r.domain = 1 then s1 else s1.fenceChanges (s1.resetCores r ++ (s1.resetParts r).map (4000 + ·))) →
    s3 = { s2 with
      aborts := s2.aborts.filter fun a => a.part ∉ s1.resetParts r
      cores := s2.cores.mapVals fun n c => if n ∈ s1.resetCores r then { c with running := false } else c
      dump := if r.dump then { s2.dump with due := some r.cause } else s2.dump } →
    s4 = (s1.resetParts r).foldl (fun u q => u.clearQcfg (vf q)) s3 →
    s5 = (s1.resetCores r).foldl (fun u n => u.squashWhere n (u.coreFn n).1 fun m =>
      m.fid.isSome && (if r.domain = 1 then some (r.target % 8) else none).all fun e => m.eng + 6 == e) s4 →
    exec (.resetShutter id) s = .next (s5.failCores.resetDrain id)) ∧
  (∀ (s : State) (n : Nat), s.failed.filter s.coreShut = [n] → s.fld 0 n Reg.IDC_CORE_MAP.K < 17 → s.failCores = s.failCore n) ∧
  (∀ (s : State) (a b : Nat), s.failed.filter s.coreShut = [a, b] →
    s.fld 0 b Reg.IDC_CORE_MAP.K < s.fld 0 a Reg.IDC_CORE_MAP.K → s.fld 0 a Reg.IDC_CORE_MAP.K < 17 →
    s.failCores = (s.failCore b).failCore a) ∧
  (∀ (s : State) (id : Nat) (r : Reset), s.resets.find? (fun r => r.id == id && r.phase == 1) = some r →
    (s.resetRemains r = true → s.tick < r.edge → exec (.resetDrainEnd id) s = .next s) ∧
    (s.resetRemains r = false ∨ r.edge ≤ s.tick →
      (s.resetStuck r = true → exec (.resetDrainEnd id) s =
        .next ((((s.updReset id fun x => { x with phase := 2 }).rstState r 2).raise 0 0 Reg.DCTL_RST_STAT.STUCK).logErr
          { ErrRec.of 4 0x12 with cause := r.domain })) ∧
      (s.resetStuck r = false → exec (.resetDrainEnd id) s = .next (s.squashReset r)))) ∧
  (∀ (s : State) (dom k : Nat),
    let stuck := s.resets.find? fun r => r.phase == 2 && (r.domain == dom || dom == 4 && r.domain == 5) && r.target == k
    (stuck = none → exec (.resetForce dom k) s = .next s) ∧
    (∀ r, stuck = some r → exec (.resetForce dom k) s =
      .next (((s.resetPorts r).foldl State.dropPort (s.raise 0 0 Reg.DCTL_RST_STAT.FORCED)).squashReset r))) ∧
  (∀ (s : State) (id : Nat) (r : Reset), s.resets.find? (fun r => r.id == id && r.phase == 3) = some r →
    ((r.domain ≠ 8 → ∀ q ∈ s.resetParts r, s.wipeOwed q = false) → (r.domain = 8 → s.dump.due = none ∧ s.dump.staged = none) →
      exec (.resetWipeDone id) s = .next (s.updReset id fun x => { x with phase := 4 })) ∧
    ((r.domain ≠ 8 ∧ ∃ q ∈ s.resetParts r, s.wipeOwed q = true) ∨ (r.domain = 8 ∧ (s.dump.due ≠ none ∨ s.dump.staged ≠ none)) →
      exec (.resetWipeDone id) s = .next s))

/-- R53, R55, R59, R422, R426, R434 to R440: errors log their class and decide their resets; an abort starts at the edge after
its alarm; records go to eMMC 63 to a block; a dump that is due is captured, then written into its slot. The model's own
choices in it: log 28, log 52 and log 86. -/
def Obligations.ErrorsAndDumps : Prop :=
  (∀ (s : State) (q src : Nat), exec (.ucePError q src) s =
    .next ((s.logErr { ErrRec.of 2 src with unit := unitPart q, part := some q }).decideReset 4 q false true 2)) ∧
  (∀ (s t v : State) (src kind ix : Nat), t = s.logErr { ErrRec.of 3 src with unit := kind * 4096 + ix } →
    v = ((List.range 32).filter fun q => t.vdOf q != 0).foldl (fun w q => w.raiseAlarm 1 3 (w.vdOf q) none
      (if t.fld 0 0 Reg.DCTL_RST_CFG.AUTO_WARM = 1 then 7 else 0)) t →
    (t.fld 0 0 Reg.DCTL_RST_CFG.AUTO_WARM = 1 → exec (.fatalError src kind ix) s =
      .next ((v.decideReset 7 0 true true 1).dueDump (t.log.recs.getLast?.map fun r => (r.cls, r.seq)))) ∧
    (t.fld 0 0 Reg.DCTL_RST_CFG.AUTO_WARM ≠ 1 → exec (.fatalError src kind ix) s =
      .next { v.dueDump (t.log.recs.getLast?.map fun r => (r.cls, r.seq)) with
        deferred := (v.dueDump (t.log.recs.getLast?.map fun r => (r.cls, r.seq))).deferred ++ [.halt] })) ∧
  (∀ (s : State) (cause : Option (Nat × Nat)),
    ((∃ r ∈ s.resets, r.phase = 0 ∧ r.dump = true ∧ 7 ≤ r.domain) → (s.dueDump cause).dump = s.dump ∧
      ∀ r ∈ (s.dueDump cause).resets, r.phase = 0 → r.dump = true → 7 ≤ r.domain → r.cause = cause) ∧
    ((∀ r ∈ s.resets, r.phase = 0 → r.dump = true → r.domain < 7) →
      s.dueDump cause = { s with dump := { s.dump with due := some cause } })) ∧
  (∀ (s : State) (q : Nat),
    (∀ a, s.aborts.find? (fun a => a.part == q && !a.started && decide (a.beat < s.tick)) = some a →
      exec (.alarmAbort q) s = .next (({ s with
        nextReset := s.nextReset + 1
        destroys := s.destroys ++ [{ id := s.nextReset, kind := 4, fn := vf q, num := q, q := 64, sq := 0, started := false
                                     waiting := [], beat := s.tick }]
        aborts := s.aborts.map fun x => if x.part = q then { x with started := true } else x } : State).startDestroy
          { id := s.nextReset, kind := 4, fn := vf q, num := q, q := 64, sq := 0, started := false, waiting := [], beat := s.tick })) ∧
    ((∀ a ∈ s.aborts, a.part = q → a.started = false → s.tick ≤ a.beat) → exec (.alarmAbort q) s = .next s)) ∧
  (∀ (s : State) (n : Nat), (s.fld 0 n Reg.IDC_CORE_MAP.STATE ≠ 0 → s.fld 0 n Reg.IDC_CORE_MAP.STATE ≠ 2 → n ∉ s.failed →
      exec (.coreUncorrectedError n) s = .next (({ s with failed := s.failed ++ [n] } : State).decideReset 2 n false false 0)) ∧
    (s.fld 0 n Reg.IDC_CORE_MAP.STATE = 0 ∨ s.fld 0 n Reg.IDC_CORE_MAP.STATE = 2 ∨ n ∈ s.failed →
      exec (.coreUncorrectedError n) s = .next s)) ∧
  (∀ (s t : State), t = { s with bridge := s.bridge + 1 } →
    (s.bridge < 4 ∨ s.fld 0 0 Reg.IDC_TOPO.BRIDGE_HALF ≠ 0 → exec .bridgeLaneFail s = .next t) ∧
    (4 ≤ s.bridge → s.fld 0 0 Reg.IDC_TOPO.BRIDGE_HALF = 0 → exec .bridgeLaneFail s =
      .next ((t.setFld 0 0 Reg.IDC_TOPO.BRIDGE_HALF 1).logCE 0x04 0 0 none))) ∧
  (∀ (s : State) (d n tag pos va fn q sq : Nat),
    exec (.networkPacketError d .corrected) s = .next (s.logCE 0x04 0 (0x5000 + d) none) ∧
    exec (.networkPacketError d .header) s = .next (s.fatal 0x04 (0x5000 + d)) ∧
    (∀ m, (s.core n).cur.moves.find? (fun m => m.tag == tag && m.started) = some m →
      exec (.networkPacketError d (.payload n tag pos)) s =
        .next (s.setMove n { m with badAt := m.badAt ++ [(pos / 64 * 64, 64)] })) ∧
    ((∀ m ∈ (s.core n).cur.moves, m.tag = tag → m.started = false) →
      exec (.networkPacketError d (.payload n tag pos)) s = .next s) ∧
    (∀ m, (s.core n).cur.moves.find? (fun m => m.tag == tag && m.started && m.fid.isNone) = some m →
      exec (.networkPacketError d (.walk n tag va)) s = .next (s.moveFault n m 8 va true)) ∧
    (∀ p l, (s.core n).preload = some p → p.started = true → p.done = false → s.launch? p.launch = some l →
      exec (.networkPacketError d (.preload n)) s = .next (s.preloadFailed n l 8)) ∧
    exec (.networkPacketError d (.record fn q sq)) s =
      .next (s.updRec fn q sq fun r => if r.st = 2 then r else { r with badRead := true })) ∧
  (∀ (s : State) (new : List LogBlock), new = logBlocks (s.keyOf 4) (s.fld 0 0 Reg.DCTL_LIFE.BOOTS)
      (s.log.recs.drop (s.log.recs.length - s.log.unstored)) s.log.block →
    exec .logFlush s = .next { s with
      log := { s.log with
        stored := (s.log.stored ++ new).drop (s.log.stored.length + new.length - 4096)
        unstored := 0, block := s.log.block + new.length } }) ∧
  (∀ (s : State), (s.dump.due = none → exec .dumpCapture s = .next s) ∧
    (∀ (cls seq : Nat), s.dump.due = some (some (cls, seq)) → ∀ body, body = s.dumpSections →
      exec .dumpCapture s = .next { s with
        free := s.free + 12
        dump := { s.dump with
          due := none, erred := false, count := s.dump.count + 1
          staged := some { recSeq := seq, head := s.dumpHeader (64 + body.length + 16) cls seq, body := body } } })) ∧
  (∀ (s t : State) (i : Nat), (s.dump.staged = none → exec .dumpWritten s = .next s) ∧
    (∀ d, s.dump.staged = some d → i = s.dumpSlot →
      t = ((((if bitOf (s.fld 0 0 Reg.DCTL_DUMP_STAT.NEW) i then s.raise 0 0 Reg.DCTL_DUMP_STAT.DUMP_LOST else s).setFld 0 0
        ⟨0x1007018, 0, 28 + i, 1⟩ 1).setFld 0 0 ⟨0x1007018, 0, 24 + i, 1⟩ 1).setFld 0 0 Reg.DCTL_DUMP_STAT.LAST_SEQ
          d.recSeq).raise 0 0 Reg.DCTL_DUMP_STAT.DUMP_TAKEN →
      exec .dumpWritten s = .next { t with dump := { s.dump with
        staged := none, slots := s.dump.slots.put i (d.sealed (t.keyOf 4))
        ages := (s.dump.ages.filter (· != i)) ++ [i] } }))

/-- R414 to R417, R421: a roll is asked for by PF0 or the timer; it starts with a fresh key in slot 6 and empties the other
half of each controller's tree; it goes group by group; and it ends with the key in slot 5, once every controller has passed
its last. The model's own choices in it: log 33 and log 74. -/
def Obligations.KeyRoll : Prop :=
  (∀ (s t : State), t = { s with rollWant := true } →
    (∀ u, u = (if s.fld 0 0 Reg.DCTL_T2SEC_STAT.STATE = 0 then t else t.setFld 0 0 Reg.DCTL_T2SEC_STAT.STATE 2) →
      exec .rollTimer s = .next u ∧ exec .rollReq s = .next (u.setFld 0 0 Reg.DCTL_T2SEC_CTL.ROLL_REQ 1))) ∧
  (∀ (s : State), s.rollWant = false ∨ s.rolling = true → exec .keyRollStart s = .next s) ∧
  (∀ (s t : State) (ms : List Nat), s.rollWant = true → s.rolling = false →
    ms = ((List.range 16).filter fun m =>
      s.fld 0 (12 + m) Reg.DCTL_MEMSTAT.PRESENT == 1 && s.fld 0 m Reg.DCTL_T2ROLL.STATE != 2) →
    t = ((({ s with rollWant := false, free := s.free + 1 } : State).loadKey 6 (keyAttr 25 false false 1)
      (leBytes 32 (Config.entropy s.free).toNat)).setFld 0 0 Reg.DCTL_T2SEC_CTL.ROLL_REQ 0).setFld 0 0
        Reg.DCTL_T2SEC_STAT.STATE 1 →
    exec .keyRollStart s = .next (ms.foldl (fun u m =>
      let half := 2 * m + (1 - u.fld 0 m Reg.DCTL_T2ROLL.HALF)
      let v := (u.setFld 0 m Reg.DCTL_T2ROLL.STATE 1).setFld 0 m Reg.DCTL_T2ROLL.THR 0
      { v with
        t2node := v.t2node.filter fun e => e.1 / 2 ^ 30 != half
        t2cache := v.t2cache.filter fun e => e.1 / 2 ^ 30 != half }) t)) ∧
  (∀ (s t u : State) (m k pa : Nat) (au : Auth),
    (s.rollGoes m = false → exec (.rollGroup m au) s = .next s) ∧
    (s.rollGoes m = true → s.draw = (k, t) →
      pa = 0x20000000000 + m * 0x2000000000 + 4096 * t.fld 0 m Reg.DCTL_T2ROLL.THR + 512 * (k % 8) →
      u = (t.leafLookup pa).authRead pa au (t.twinAt pa) false ((t.twinAt pa).any fun x => t.copyGood x.2.2) 0 →
      (u.fld 0 m Reg.DCTL_T2ROLL.STATE = 1 → exec (.rollGroup m au) s = .next (u.rollGroup m)) ∧
      (u.fld 0 m Reg.DCTL_T2ROLL.STATE ≠ 1 → exec (.rollGroup m au) s = .next u))) ∧
  (∀ (s : State), s.rolling = false ∨ (∃ m < 16, s.fld 0 m Reg.DCTL_T2ROLL.STATE = 1 ∧ s.fld 0 m Reg.DCTL_T2ROLL.THR ≠ 2 ^ 25) →
    exec .rollComplete s = .next s) ∧
  (∀ (s s1 s2 s3 s4 : State) (ms : List Nat), s.rolling = true →
    ms = (List.range 16).filter (fun m => s.fld 0 m Reg.DCTL_T2ROLL.STATE == 1) →
    (∀ m ∈ ms, s.fld 0 m Reg.DCTL_T2ROLL.THR = 2 ^ 25) →
    s1 = (List.range 10).foldl (fun u l => ((u.t2cache.filter fun e => !e.2.isEmpty && nodeLevel e.1 == l &&
      ms.any fun m => e.1 / 2 ^ 30 == 2 * m + (1 - s.fld 0 m Reg.DCTL_T2ROLL.HALF)).map (·.1)).foldl State.writeBack u) s →
    s2 = ((s1.destroySlot 5).loadKey 5 (keyAttr 25 false false 1) (s1.keyOf 6)).destroySlot 6 →
    s3 = ms.foldl (fun u m =>
      { (u.setFld 0 m Reg.DCTL_T2ROLL.HALF (1 - u.fld 0 m Reg.DCTL_T2ROLL.HALF)).setFld 0 m Reg.DCTL_T2ROLL.STATE 0 with
        t2base := u.t2base.del m }) s2 →
    s4 = (((List.range 16).foldl (fun u m => u.setFld 0 m Reg.DCTL_T2ROLL.THR 0) s3).setFld 0 0 Reg.DCTL_T2SEC_STAT.LAST_ROLL
      ((List.range 16).foldl (fun u m => u.setFld 0 m Reg.DCTL_T2ROLL.THR 0) s3).now).modAdd 0 0 Reg.DCTL_T2SEC_STAT.ROLLS 1 →
    exec .rollComplete s = .next ((s4.setFld 0 0 Reg.DCTL_T2SEC_STAT.STATE (if s4.rollWant then 2 else 0)).raise 0 0
      Reg.DCTL_T2SEC_STAT.ROLL_DONE))

/-! ## Power and rotation (R442 to R466) -/

/-- R442 to R447, R452, R455, R456, R458, R463 to R465: a power state is asked for at the next edge; heat and droop act at
once; hints wait for their edges; a slice of rotation test passes, fails, or is abandoned outside its window. The model's own
choices in it: log 56, log 70, log 71 and log 72. -/
def Obligations.PowerAndRotation : Prop :=
  (∀ (s : State) (rest : List Deferred), rest = s.deferred.filter (fun d => match d with
      | .power _ => false
      | _ => true) →
    (s.inService = false → exec .run s = .next s ∧ exec .parked s = .next s ∧ exec .off s = .next s) ∧
    (s.inService = true →
      exec .run s = .next { s with deferred := rest ++ [.power 3] } ∧
      exec .parked s = .next { s with deferred := rest ++ [.power 4] } ∧
      exec .off s = .next (({ s with pow := { s.pow with off := true } } : State).decideReset 8 0 false false 1))) ∧
  (∀ (s : State) (i : Nat), exec (.domainWakeComplete i) s =
    .next { s with pow := { s.pow with waking := s.pow.waking.filter (· != i) } }) ∧
  (∀ (s t u v : State) (d temp : Nat),
    (s.inService = false ∨ temp < s.fld 0 0 Reg.PWR_TCFG.T_HOT → exec (.tHot d temp) s = .next s) ∧
    (s.inService = true → s.fld 0 0 Reg.PWR_TCFG.T_HOT ≤ temp → t = s.raise 0 0 Reg.PWR_STAT.HOT_EVT →
      u = ({ t with pow := { t.pow with up := none } } : State).setClock 4 →
      exec (.tHot d temp) s = .next ((u.setFld 0 0 Reg.PWR_STAT.DUTY 4).logErr { ErrRec.of 4 0x10 with unit := 0x5000 + d })) ∧
    (s.inService = false ∨ temp < s.fld 0 0 Reg.PWR_TCFG.T_TRIP → exec (.tTrip d temp) s = .next s) ∧
    (s.inService = true → s.fld 0 0 Reg.PWR_TCFG.T_TRIP ≤ temp → t = s.logErr { ErrRec.of 3 0x10 with unit := 0x5000 + d } →
      u = ((List.range 32).filter fun q => t.vdOf q != 0).foldl (fun w q => w.raiseAlarm 1 3 (w.vdOf q) none 8) (t.setFault 0xA) →
      v = ({ u with pow := { u.pow with off := true } } : State).decideReset 8 0 false true 1 →
      exec (.tTrip d temp) s = .next (v.dueDump (t.log.recs.getLast?.map fun r => (r.cls, r.seq))))) ∧
  (∀ (s t u : State) (c : Nat), (c ∈ s.pow.droop → exec (.droopDetect c) s = .next s) ∧
    (c ∉ s.pow.droop → t = (if s.pow.drooped = [] then s.raise 0 0 Reg.PWR_STAT.DROOP_EVT else s) →
      u = (t.satAdd 0 (c / 16) Reg.PWR_DROOP.COUNT 1).logCE 0x10 0 (0x5000 + c / 16) none →
      exec (.droopDetect c) s = .next (
        let v : State := { u with pow := { u.pow with
          droop := u.pow.droop ++ [c]
          drooped := if c / 16 ∈ u.pow.drooped then u.pow.drooped else u.pow.drooped ++ [c / 16] } }
        if v.fld 0 (c / 16) Reg.DCTL_ROT_STAT.CLUSTER = c % 16 then v.abandonSlice (c / 16) else v)) ∧
    exec (.droopRecover c) s = .next { s with pow := { s.pow with droop := s.pow.droop.filter (· != c) } }) ∧
  (∀ (s : State) (lead level : Nat),
    (lead = 0 ∨ s.fld 0 0 Reg.PWR_STAT.STATE ≠ 3 → exec (.heavy lead level) s = .next s ∧ exec (.light lead) s = .next s) ∧
    (lead ≠ 0 → s.fld 0 0 Reg.PWR_STAT.STATE = 3 →
      ((∀ h ∈ s.hints, h.light = true → h.edge ≠ s.tick + lead) → exec (.heavy lead level) s =
        .next { s with hints := s.hints ++ [{ light := false, edge := s.tick + lead, level := level }] }) ∧
      ((∃ h ∈ s.hints, h.light = true ∧ h.edge = s.tick + lead) → exec (.heavy lead level) s = .next s) ∧
      exec (.light lead) s = .next { s with
        hints := (s.hints.filter fun h => h.light || decide (h.edge < s.tick + lead)) ++
          [{ light := true, edge := s.tick + lead, level := 0 }] })) ∧
  (∀ (s : State) (mj : Nat), (s.pow.est = 0 → exec (.regulatorReport mj) s = .next s) ∧
    (s.pow.est ≠ 0 → exec (.regulatorReport mj) s =
      .next { s with pow := { s.pow with scaleN := mj, scaleD := s.pow.est, est := 0 } })) ∧
  (∀ (s : State) (d : Nat), (2 ≤ d → exec (.rotationStep d) s = .next s ∧ exec (.sliceAbandon d) s = .next s ∧
      ∀ ok, exec (.rotationSliceEnd d ok) s = .next s) ∧
    (d < 2 →
      (s.fld 0 d Reg.DCTL_ROT_STAT.STATE = 2 → ∀ t, t = ((s.setFld 0 (s.rotCore d) Reg.IDC_PCORE_STAT.STATE 2).setFld 0 d
          Reg.DCTL_ROT_STAT.STATE 0).raise 0 d Reg.DCTL_ROT_STAT.WINDOW_OUT →
        exec (.sliceAbandon d) s = .next t ∧ (2 < s.fld 0 0 Reg.PWR_STAT.CLK → ∀ ok, exec (.rotationSliceEnd d ok) s = .next t)) ∧
      (s.fld 0 d Reg.DCTL_ROT_STAT.STATE ≠ 2 →
        exec (.sliceAbandon d) s = .next s ∧ ∀ ok, exec (.rotationSliceEnd d ok) s = .next s) ∧
      (s.fld 0 d Reg.DCTL_ROT_STAT.STATE = 2 → s.fld 0 0 Reg.PWR_STAT.CLK ≤ 2 →
        exec (.rotationSliceEnd d true) s = .next ((((s.setFld 0 (s.rotCore d) Reg.IDC_PCORE_STAT.STATE 2).setFld 0 (s.rotCore d)
          Reg.IDC_PCORE_STAT.LAST_TEST s.now).satAdd 0 d Reg.DCTL_ROT_STAT.PASSES 1).setFld 0 d Reg.DCTL_ROT_STAT.STATE 0) ∧
        exec (.rotationSliceEnd d false) s = .next ((((((s.setFld 0 (s.rotCore d) Reg.IDC_PCORE_STAT.STATE 4).setFld 0 (s.rotCore d)
          Reg.IDC_PCORE_STAT.CAUSE 3).satAdd 0 d Reg.DCTL_ROT_STAT.FAILS 1).raise 0 d Reg.DCTL_ROT_STAT.ROT_FAIL).logCE 0x01 0
            (0x2000 + s.rotCore d) none).setFld 0 d Reg.DCTL_ROT_STAT.STATE 0)) ∧
      (s.fld 0 d Reg.DCTL_ROT_STAT.STATE = 0 ∨ s.fld 0 d Reg.DCTL_ROT_STAT.STATE = 3 →
        (s.fld 0 d Reg.DCTL_ROT_STAT.STATE = 0 → (s.rot d).left = 0) → s.rotRuns d = true →
        exec (.rotationStep d) s = .next (s.tryStep d)) ∧
      (s.fld 0 d Reg.DCTL_ROT_STAT.STATE = 1 → (∃ x ∈ s.changes, x.rotate = some d) → s.fld 0 0 Reg.PWR_STAT.CLK ≤ 2 →
        exec (.rotationStep d) s = .next s) ∧
      (s.fld 0 d Reg.DCTL_ROT_STAT.STATE = 1 → (∀ x ∈ s.changes, x.rotate ≠ some d) →
        ∀ t, t = s.setFld 0 d Reg.DCTL_ROT_STAT.STATE (if s.fld 0 (s.rotCore d) Reg.IDC_PCORE_STAT.STATE = 3 then 2 else 0) →
          (t.fld 0 0 Reg.PWR_STAT.CLK ≤ 2 → 16 * d + t.fld 0 d Reg.DCTL_ROT_STAT.CLUSTER ∉ t.pow.droop →
            exec (.rotationStep d) s = .next t) ∧
          (2 < t.fld 0 0 Reg.PWR_STAT.CLK ∨ 16 * d + t.fld 0 d Reg.DCTL_ROT_STAT.CLUSTER ∈ t.pow.droop →
            exec (.rotationStep d) s = .next (t.abandonSlice d)))))

/-! ## Power-up, the host link and the module (R474 to R482, R495 to R506) -/

/-- R474 to R482: a step of power-up ends only in its order, marks what its tests found and has its effect; a failure stops
power-up or goes on as its class says; step 13 reaches release, which takes effect once the host link has trained. The model's
own choices in it: log 29, log 62 and log 66. -/
def Obligations.PowerUp : Prop :=
  (∀ (s t u : State) (step ms : Nat) (r : BootResult),
    (s.stepRuns step = false ∨ (step = 12 ∧ s.lockReached = false) → exec (.bootStepComplete step ms r) s = .next s) ∧
    (s.stepRuns 3 = true → r.absent &&& ~~~BitVec.ofNat 8 s.absentOk ≠ 0 → exec (.bootStepComplete 3 ms r) s =
      .next (s.imagesFailed (r.absent &&& ~~~BitVec.ofNat 8 s.absentOk))) ∧
    (s.stepRuns step = true → (step = 12 → s.lockReached = true) →
      (step = 3 → r.absent &&& ~~~BitVec.ofNat 8 s.absentOk = 0) →
      t = (stepMarks step r).foldl (fun w k => (w.recordFail step k).markUnit k) s →
      u = (({ t with boot := { t.boot with done := t.boot.done ++ [step] } } : State).setFld 0 0 Reg.DCTL_BOOT_STAT.LAST_STEP
        step).bootEffect step r →
      (step ≠ 13 → exec (.bootStepComplete step ms r) s = .next u) ∧
      (step = 13 → ∀ v, v = ({ u.setFld 0 0 Reg.DCTL_BOOT_STAT.T_RELEASE (min ms 0xFFFF) with
          boot := { u.boot with ready := true } } : State) →
        exec (.bootStepComplete step ms r) s = .next (if u.boot.linked then v.release else v)))) ∧
  (∀ (s : State) (step : Nat) (f : BootFail), s.stepRuns step = false → exec (.bootStepFail step f) s = .next s) ∧
  (∀ (s : State), s.stepRuns 1 = true → exec (.bootStepFail 1 .rail) s = .next (s.setFault 1).railsDown) ∧
  (∀ (s : State), s.stepRuns 2 = true → exec (.bootStepFail 2 .rom) s = .next (((s.recordFail 2 0).setFault 2).bootStop 1)) ∧
  (∀ (s t : State) (bad : BitVec 8), s.stepRuns 3 = true →
    (bad.extractLsb' 0 3 ≠ 0 → exec (.bootStepFail 3 (.images bad)) s = .next (((s.recordFail 3 0).setFault 3).bootStop 1)) ∧
    (bad ≠ 0 → bad.extractLsb' 0 3 = 0 → t = ((s.recordFail 3 0).bootDone 3).bootDone 4 →
      exec (.bootStepFail 3 (.images bad)) s = .next ((t.kmc.config.foldl (fun w e => w.bootConfig e.1 e.2) t).bootStop 2))) ∧
  (∀ (s t u : State), s.stepRuns 4 = true → t = (s.recordFail 4 0).bootDone 4 →
    u = (t.kmc.config.foldl (fun w e => w.bootConfig e.1 e.2) t).enableOptics →
    exec (.bootStepFail 4 .kmcLink) s =
      .next (if u.fld 0 0 Reg.DCTL_LIFE.STATE = 0 then { u with boot := { u.boot with stop := 2 } } else u)) ∧
  (∀ (s : State), s.stepRuns 5 = true → exec (.bootStepFail 5 .keys) s = .next (((s.recordFail 5 0).setFault 5).bootStop 3)) ∧
  (∀ (s : State) (step unit : Nat), step = 6 ∨ step = 7 → s.stepRuns step = true →
    exec (.bootStepFail step (.unit unit)) s = .next (((s.recordFail step unit).setFault 6).bootStop 3)) ∧
  (∀ (s t : State), (s.stepRuns 12 = true → (∀ k ∈ [9, 10, 11], s.stepOver k = true) → s.lockReached = false →
      t = ((((s.recordFail 12 0).bootDone 12).setFld 0 0 Reg.DCTL_BOOT_STAT.BOOT_LOCK_TO 1).setFld 0 0 Reg.DCTL_BEAT_STAT.LOCK
        2).setFld 0 0 Reg.DCTL_BEAT_NUM.BEAT_NUM 0 →
      exec .bootLockTimeout s = .next ((({ t with beat := { t.beat with held := 0, limitSent := false } } : State).raise 0 0
        Reg.DCTL_BEAT_STAT.BEAT_HOLDOVER).intc 0 11)) ∧
    (s.stepRuns 12 = false ∨ (∃ k ∈ [9, 10, 11], s.stepOver k = false) ∨ s.lockReached = true → exec .bootLockTimeout s = .next s))

/-- R430, R478, R496 to R500, R505, R506: what the host link's and the module's contacts and limits do. The model's own
choices in it: log 62, log 64 and log 68. -/
def Obligations.HostLinkAndModule : Prop :=
  (∀ s : State, exec .perstDeassert s = .next { s with boot := { s.boot with perst := true } } ∧
    exec .rstNDeassert s = .next { s with mod := { s.mod with rstLow := false } }) ∧
  (∀ (s t : State), t = { s with boot := { s.boot with linked := true } } →
    (s.boot.perst = true → s.mod.rails = true → 3 ∈ s.boot.done → s.boot.linked = false →
      exec .pcieLinkTrained s = .next (if s.booting = true ∧ s.boot.ready = true then t.release else t)) ∧
    (s.boot.perst = false ∨ s.mod.rails = false ∨ 3 ∉ s.boot.done ∨ s.boot.linked = true → exec .pcieLinkTrained s = .next s)) ∧
  (∀ (s t : State), t = { s with boot := { s.boot with linked := false } } →
    (s.boot.linked = false → exec .pcieLinkDown s = .next s) ∧
    (s.boot.linked = true → exec .pcieLinkDown s = .next (if s.inService = true then t.decideReset 7 0 false false 1 else t))) ∧
  (∀ (s t : State) (fn n quota : Nat) (on mask : Bool) (id : Nat) (c : CfgReq),
    (s.boot.linked = false ∨ 33 ≤ fn → exec (.pcieConfigRequest fn c) s = .next s) ∧
    (s.boot.linked = true → fn < 33 →
      (s.inService = false → exec (.pcieConfigRequest fn c) s = .next (s.send (.pcie fn 6 0))) ∧
      (s.inService = true → t = s.send (.pcie fn 7 0) →
        exec (.pcieConfigRequest fn (.other id)) s = .next t ∧
        exec (.pcieConfigRequest fn (.bar2Size n)) s = .next (if 30 ≤ n ∧ n ≤ 40 then
          { t with cfgs := t.cfgs.set FnCfg.fresh fn { t.cfg fn with bar2 := n } } else t) ∧
        exec (.pcieConfigRequest fn (.ats on)) s = .next (t.setAts fn (if on then { t.atsOf fn with on := true }
          else { t.atsOf fn with on := false, cached := [] })) ∧
        exec (.pcieConfigRequest fn (.pri on quota)) s = .next (t.setAts fn { t.atsOf fn with pri := on, quota := quota }) ∧
        exec (.pcieConfigRequest fn (.msix on mask)) s = .next (({ t with
          cfgs := t.cfgs.set FnCfg.fresh fn { t.cfg fn with msix := on, masked := mask } } : State).msiFlush fn) ∧
        exec (.pcieConfigRequest fn (.tags10 on)) s =
          .next { t with cfgs := t.cfgs.set FnCfg.fresh fn { t.cfg fn with tags10 := on } } ∧
        exec (.pcieConfigRequest fn (.vfs on)) s = .next (if fn = 0 then
          { t with cfgs := t.cfgs.set FnCfg.fresh 0 { t.cfg 0 with vfs := on } } else t) ∧
        ∀ u, u = ({ t with cfgs := t.cfgs.del fn } : State).setAts fn Ats.fresh →
          exec (.pcieConfigRequest fn .flr) s =
            .next (if fn = 0 then u else (u.resetErrl fn).decideReset 4 (fn - 1) false false 1)))) ∧
  (∀ (s t : State) (vin : Nat), (s.mod.pwrEn = true → exec (.pwrEnRise vin) s = .next s) ∧
    (s.mod.pwrEn = false → t = { s with mod := { s.mod with pwrEn := true, vin := vin } } →
      (vin ≤ 460 ∨ s.fld 0 0 Reg.PWR_STAT.STATE ≠ 0 → exec (.pwrEnRise vin) s = .next t) ∧
      (460 < vin → s.fld 0 0 Reg.PWR_STAT.STATE = 0 → ∀ u, u = t.coldStart 1 →
        exec (.pwrEnRise vin) s =
          .next { u with mod := { u.mod with rails := false }, boot := { u.boot with perst := false } }))) ∧
  (∀ (s t : State), (s.mod.pwrEn = false → exec .pwrEnFall s = .next s) ∧
    (s.mod.pwrEn = true → t = (if s.fld 0 0 Reg.PWR_STAT.STATE = 0 then s else s.railsDown) →
      exec .pwrEnFall s = .next ({ t with mod := { t.mod with pwrEn := false, status := 0 } } : State).releaseFault)) ∧
  (∀ (s t : State) (us : Nat), (s.mod.pwrEn = false ∨ s.mod.rails = false ∨ us = 0 → exec (.rstNAssert us) s = .next s) ∧
    (s.mod.pwrEn = true → s.mod.rails = true → 10 ≤ us → t = { s with mod := { s.mod with rstLow := true } } →
      exec (.rstNAssert us) s = .next (if s.inService = true then t.decideReset 8 0 false false 1 else t.coldStart 2)) ∧
    (∀ b, s.mod.pwrEn = true → s.mod.rails = true → 0 < us → us < 10 → s.drawBool = (b, t) →
      exec (.rstNAssert us) s = (if b then exec (.rstNAssert 10) t else .next t))) ∧
  (∀ (s t : State) (v : Nat),
    (440 ≤ v ∨ s.mod.pwrEn = false → exec (.inputUndervoltage v) s = .next s) ∧
    (v < 440 → s.mod.pwrEn = true → t = ({ s with mod := { s.mod with vin := v } } : State).pmStatus 0x2008 →
      exec (.inputUndervoltage v) s = .next (if s.fld 0 0 Reg.PWR_STAT.STATE = 0 then t else t.railsDown)) ∧
    (v ≤ 570 ∨ s.mod.pwrEn = false → exec (.inputOvervoltage v) s = .next s) ∧
    (570 < v → s.mod.pwrEn = true → t = (({ s with mod := { s.mod with vin := v } } : State).pmStatus 0x2000).setFault 0xB →
      exec (.inputOvervoltage v) s = .next (if s.fld 0 0 Reg.PWR_STAT.STATE = 0 then t else t.railsDown)) ∧
    (v ≤ 585 ∨ s.mod.rails = false → exec (.inputOvercurrent v) s = .next s) ∧
    (585 < v → s.mod.rails = true → t = (({ s with mod := { s.mod with iin := v } } : State).pmStatus 0x2000).setFault 0xB →
      exec (.inputOvercurrent v) s = .next ((t.raise 0 0 Reg.DCTL_MOD_STAT.OC_EVT).logErr (ErrRec.of 4 0x10))) ∧
    (s.mod.rails = false → exec .vinSagEvent s = .next s) ∧
    (s.mod.rails = true → exec .vinSagEvent s =
      .next (((s.pmStatus 0x2008).raise 0 0 Reg.DCTL_MOD_STAT.UV_EVT).logCE 0x10 0 0 none)))

/-- R486, R501: the module's PMBus queries are answered while its input stage runs, and SPDM requests while the management
controller serves them: with the response of each, or with ERROR. The model's own choices in it: log 18 and log 61. -/
def Obligations.ModuleQueries : Prop :=
  (∀ s : State, ∀ p ∈ [(0x88, s.mod.vin, Instr.readVin), (0x89, s.mod.iin, .readIin), (0x97, s.mod.pin, .readPin),
      (0x8D, s.mod.tin, .readTemperature1), (0x8E, s.mod.tout, .readTemperature2), (0x79, s.mod.status, .statusWord)],
    (s.mod.pwrEn = true → 440 ≤ s.mod.vin ∨ s.mod.rails = true → exec p.2.2 s = .next (s.send (.pin p.1 p.2.1))) ∧
    (s.mod.pwrEn = false ∨ (s.mod.vin < 440 ∧ s.mod.rails = false) → exec p.2.2 s = .next s)) ∧
  (∀ (s : State) (a b : Bool) (off len slot i : Nat) (nonce : BitVec 256) (m : List Byte),
    m = shaBytes certChain ++ leBytes 32 nonce.toNat →
    (s.kmcUp = false ∨ s.boot.stop = 2 → ∀ c ∈ [Instr.getVersion, .getCapabilities, .negotiateAlgorithms a b, .getDigests,
        .getCertificate slot off len, .challenge slot nonce, .getMeasurements i], exec c s = .next s) ∧
    (s.kmcUp = true → s.boot.stop ≠ 2 →
      (∀ p ∈ [(0x04, leBytes 2 0x1300, Instr.getVersion), (0x61, Config.document 21 0, .getCapabilities),
          (0x63, leBytes 1 a.toNat ++ leBytes 1 b.toNat, .negotiateAlgorithms a b),
          (0x01, leBytes 1 1 ++ shaBytes certChain, .getDigests),
          (0x02, (certChain.drop off).take len, .getCertificate 0 off len),
          (0x03, m ++ fixed 384 (Config.sign (s.keyOf 0) m), .challenge 0 nonce),
          (0x60, [9], .getMeasurements 0), (0x60, s.hFw, .getMeasurements 9),
          (0x60, ((List.range 8).flatMap s.imageDigest) ++ s.hFw, .getMeasurements 0xFF)],
        exec p.2.2 s = .next (s.send (.kmc 0x10000 p.1 0 0 false p.2.1))) ∧
      (1 ≤ i → i ≤ 8 → exec (.getMeasurements i) s = .next (s.send (.kmc 0x10000 0x60 0 0 false (s.imageDigest (i - 1))))) ∧
      (slot ≠ 0 → exec (.getCertificate slot off len) s = .next (s.send (.kmc 0x10000 0x7F 0 0 false [])) ∧
        exec (.challenge slot nonce) s = .next (s.send (.kmc 0x10000 0x7F 0 0 false []))) ∧
      (9 < i → i ≠ 0xFF → exec (.getMeasurements i) s = .next (s.send (.kmc 0x10000 0x7F 0 0 false [])))))

/-! ## The beat (R16 to R32, R274) -/

/-- R19 to R31: what a marker does on a follower, when the package holds over, changes its port or its length, and the events
of lateness. R16, R28: an edge of a package in service takes its actions in the order of R28; before release the beat alone
runs, and without rails nothing does. The model's own choices in it: log 25, log 26, log 27, log 28, log 29 and log 37. -/
def Obligations.BeatAndEdge : Prop :=
  (∀ (s : State) (n : Nat), (s.beat.step = some n → s.nextBeat = n) ∧
    (s.beat.step = none → s.nextBeat = if s.beat.restart then 0 else s.now + 1)) ∧
  (∀ (s : State) (pay : List Byte), (s.role ≠ 1 ∨ s.beat.marked = some s.nextBeat → exec .beatMarkerEmit s = .next s) ∧
    (s.role = 1 → s.beat.marked ≠ some s.nextBeat →
      pay = leBytes 6 s.nextBeat ++ leBytes 3 (s.fld 0 0 Reg.DCTL_BEAT_CFG.LEAD * 1000) ++ leBytes 1 0 ++
        leBytes 1 (s.fld 0 0 Reg.DCTL_BEAT_CFG.BEAT_LEN) ++ leBytes 6 (s.fld 0 0 Reg.DCTL_BEAT_NEXT.CHANGE_AT) ++
        leBytes 1 (s.fld 0 0 Reg.DCTL_BEAT_NEXT.NEXT_LEN) ++ leBytes 2 (s.fld 0 0 Reg.DCTL_NODE.NODE) →
      ∀ t, t = s.sendAll ((List.range 32).filter s.portActive) { cellOf 0xA 5 with
          src := s.fld 0 0 Reg.DCTL_NODE.NODE, len := 19, payload := pay } →
        exec .beatMarkerEmit s = .next { t with beat := { t.beat with marked := some t.nextBeat } })) ∧
  (∀ (s t u : State) (p arr : Nat) (res : List (Nat × Nat)) (x c : Cell),
    (s.receive p (cellUnder x 0xA) = (none, t) → exec (.beat p arr res x) s = .next t) ∧
    (s.receive p (cellUnder x 0xA) = (some c, t) →
      (typeReserved x.typ = true ∨ markerFields c = false → exec (.beat p arr res x) s = .next (t.routeErr p c false)) ∧
      (typeReserved x.typ = false → markerFields c = true →
        (t.role ≠ 0 → exec (.beat p arr res x) s = .next t) ∧
        (t.role = 0 →
          (leField c.payload 6 3 < t.fld 0 p Reg.DCTL_LYS_DLY.D_LINK + 1000 → exec (.beat p arr res x) s =
            .next ((t.raise 0 0 Reg.DCTL_BEAT_STAT.BEAT_LEAD_SHORT).intc 0 11)) ∧
          (t.fld 0 p Reg.DCTL_LYS_DLY.D_LINK + 1000 ≤ leField c.payload 6 3 →
            u = ({ t with beat := { t.beat with
              heard := (p, bits (leField c.payload 9 1) 0 3) :: t.beat.heard.filter fun x => x.1 != p } } : State).changePort →
            exec (.beat p arr res x) s = .next (if p = u.fld 0 0 Reg.DCTL_BEAT_STAT.PORT then u.useMarker p arr res c.payload
              else u)))))) ∧
  (∀ (s : State), (s.role ≠ 0 ∨ s.beat.heard = [] → exec .markerPortChange s = .next s) ∧
    (∀ p h, s.role = 0 → bestHeard s.beat.heard = some (p, h) →
      (s.beat.chosen = true →
        s.beat.quietPort = 0 ∨ (∃ x ∈ s.beat.heard, x.1 = s.fld 0 0 Reg.DCTL_BEAT_STAT.PORT) → exec .markerPortChange s = .next s) ∧
      (s.beat.chosen = false ∨
        (s.beat.quietPort ≠ 0 ∧ ∀ x ∈ s.beat.heard, x.1 ≠ s.fld 0 0 Reg.DCTL_BEAT_STAT.PORT) →
        ∀ t, t = (s.setFld 0 0 Reg.DCTL_BEAT_STAT.PORT p).setFld 0 0 Reg.DCTL_BEAT_STAT.HOPS h →
          exec .markerPortChange s = .next { t with beat := { t.beat with chosen := true, quietPort := 0 } }))) ∧
  (∀ (s t : State), (s.role ≠ 0 ∨ s.lock ≠ 1 ∨ s.beat.quietAll < 2 → exec .holdoverEntry s = .next s) ∧
    (s.role = 0 → s.lock = 1 → 2 ≤ s.beat.quietAll → t = s.setFld 0 0 Reg.DCTL_BEAT_STAT.LOCK 2 →
      ∀ u, u = ((({ t with beat := { t.beat with
        held := 0, limitSent := false, trial := none, agreed := 0, far := [], quietAll := 0 } } : State).raise 0 0
          Reg.DCTL_BEAT_STAT.BEAT_HOLDOVER).intc 0 11).logCE 0x0C 0 0 none →
      exec .holdoverEntry s =
        .next (((List.range 32).filter fun p => u.fld 0 p Reg.DCTL_LYS_SCHED.STATE == 1).foldl State.takeOut u))) ∧
  (∀ (s t : State), (s.lock ≠ 2 ∨ s.beat.held ≤ s.fld 0 0 Reg.DCTL_BEAT_CFG.HOLD_LIM * 100 ∨ s.beat.limitSent = true →
      exec .holdoverLimit s = .next s) ∧
    (s.lock = 2 → s.fld 0 0 Reg.DCTL_BEAT_CFG.HOLD_LIM * 100 < s.beat.held → s.beat.limitSent = false →
      t = ({ s with beat := { s.beat with limitSent := true } } : State).logErr { ErrRec.of 4 0x0C with cause := 5 } →
      exec .holdoverLimit s = .next (t.vdsHere.foldl (fun u v => u.raiseAlarm 1 5 v none 0) t))) ∧
  (∀ (s t : State) (at_ len : Nat), at_ = s.fld 0 0 Reg.DCTL_BEAT_NEXT.CHANGE_AT → len = s.fld 0 0 Reg.DCTL_BEAT_NEXT.NEXT_LEN →
    (at_ = 2 ^ 48 - 1 ∨ s.now < at_ → exec .beatLengthChange s = .next s) ∧
    (at_ ≠ 2 ^ 48 - 1 → at_ ≤ s.now →
      t = (s.setFld 0 0 Reg.DCTL_BEAT_NEXT.CHANGE_AT (2 ^ 48 - 1)).setFld 0 0 Reg.DCTL_BEAT_NEXT.NEXT_LEN 0 →
      exec .beatLengthChange s =
        .next (if 2 ≤ len ∧ len ≤ 40 then t.setFld 0 0 Reg.DCTL_BEAT_CFG.BEAT_LEN len else t))) ∧
  (∀ (s t : State) (n : Nat), ((s.core n).lateDue = false → exec (.latenessEvent n) s = .next s) ∧
    ((s.core n).lateDue = true → t = s.setCore n { s.core n with lateDue := false } →
      (∀ q, t.owner n = some q → exec (.latenessEvent n) s = .next ((t.intc (vf q) 3).logCE 0x0C 0 (unitCore n) ((t.intc (vf q) 3).owner n))) ∧
      (t.owner n = none → exec (.latenessEvent n) s = .next (t.logCE 0x0C 0 (unitCore n) none)))) ∧
  (∀ (s : State) (e : EdgeIn), (s.mod.rails = false → exec (.beatEdge e) s = .next s) ∧
    (s.mod.rails = true → s.inService = false → exec (.beatEdge e) s = .next s.beatPart) ∧
    (s.mod.rails = true → s.inService = true → ∀ s0 s1 s2 s3 s4 s5 s6 : State,
      s0 = (s.flushUnits fun _ => true).noteRoutes → s1 = (s0.latchSections.beatPart).ringBells s0 → s2 = s1.edgeSample e →
      s3 = s2.edgeWatch s0 → s4 = (List.range 512).foldl (fun t n => (t.markLate n).lateEvent n) s3 → s5 = s4.edgeResets →
      (s5.inService = false → exec (.beatEdge e) s = .next s5) ∧
      (s5.inService = true → s6 = (s5.edgePower e).edgeCompose e →
        exec (.beatEdge e) s = .next s6.edgeStarts.reapReads.forgetLeft))) ∧
  (∀ (s t u : State),
    (s.inService = false → exec .edgeDeferredApply s = .next s.applyDirect) ∧
    (s.inService = true →
      t = (s.deferred.filter fun d => !d.late).foldl State.applyOne { s with deferred := s.deferred.filter Deferred.late } →
      u = t.applyLate → exec .edgeDeferredApply s = .next u.applyPower))

/-! ## Latches and latency targets (R354, R355, R373, R374) -/

/-- R355: a MAX latch takes the larger value and keeps no bitmap, and counts a signal that is not above its value as stale; an
ORDERED latch whose bitmap holds no value past 2^64 - 1 reaches a value only when that value is signalled or held, so that it
passes over none, and keeps such a bitmap, in which it holds no other value (R354). -/
def Obligations.LatchSignals : Prop :=
  (∀ (t : Latch) (x : U64), t.isMax = true → (t.signal x).1.val.toNat = max t.val.toNat x.toNat ∧ (t.signal x).1.held = t.held ∧
      (t.signal x).1.isMax = true ∧ ((t.signal x).2 = 2 ↔ x.toNat ≤ t.val.toNat) ∧ (t.signal x).2 ≠ 3) ∧
  (∀ (t : Latch) (x : U64), t.isMax = false → t.fits →
    t.val.toNat ≤ (t.signal x).1.val.toNat ∧ (t.signal x).1.fits ∧
    (∀ m, t.val.toNat < m → m ≤ (t.signal x).1.val.toNat →
      m = x.toNat ∨ bitOf t.held.toNat (m - t.val.toNat - 1) = true) ∧
    (∀ m, (t.signal x).1.val.toNat < m → bitOf (t.signal x).1.held.toNat (m - (t.signal x).1.val.toNat - 1) = true →
      m = x.toNat ∨ bitOf t.held.toNat (m - t.val.toNat - 1) = true) ∧
    ((t.signal x).2 = 3 ↔ t.val.toNat + 64 < x.toNat)) ∧
  (∀ (s : State) (fn l : Nat) (t : Latch) (x : U64), s.regs.rising = true → s.latch? fn l = some t → t.isMax = true →
    ((s.signalLatch fn l x).2.latch? fn l).map (fun u => u.val.toNat) = some (max t.val.toNat x.toNat) ∧
    (s.signalLatch fn l x).1 = 0 ∧
    (s.signalLatch fn l x).2.fld fn 0 Reg.LTCH_STAT.STALE =
      min (2 ^ 32 - 1) (s.fld fn 0 Reg.LTCH_STAT.STALE + if x.toNat ≤ t.val.toNat then 1 else 0))

/-- R373, R374: at an edge the new step of a partition's target is the larger of the step that M ÷ target gives and the old
step less one; a target of 0 has the step 0. The model's own choices in it: log 4. -/
def Obligations.LatencySteps : Prop :=
  ∀ (s : State) (q target : Nat) (mean : Nat → Nat) (place : Nat) (f : Fld), s.regs.rising = true →
    (place, target, f) ∈ s.targets (vf q) →
    ((s.qosStep q mean).fld (vf q) 0 f =
      if target = 0 then 0
      else max (if 4 * mean place < 3 * target then 0
        else if 8 * mean place < 7 * target then 1
        else if mean place < target then 2 else 3) (s.fld (vf q) 0 f - 1))

/-! ## Every command and every step -/

/-- R40, R63 to R65, R71, R75: a slot of a bundle always completes, and writes no byte of package memory and no poison mark,
and leaves the keys, translations, objects, sequence slots and changes of the package: it acts on its core, and its engines
act later. The model's own choices in it: log 9. -/
def Obligations.SlotFrame : Prop :=
  ∀ (c : Instr) (x : Slot) (s : State), slotOf c = some x →
    ∃ t, exec c s = .next t ∧ t.mem = s.mem ∧ t.poison = s.poison ∧ t.pending = s.pending ∧ t.keys = s.keys ∧
      t.ledgers = s.ledgers ∧ t.shared = s.shared ∧ t.wipes = s.wipes ∧ t.t2ctr = s.t2ctr ∧ t.tlbs = s.tlbs ∧ t.ctlbs = s.ctlbs ∧
      t.ptrs = s.ptrs ∧ t.faults = s.faults ∧ t.invals = s.invals ∧ t.ats = s.ats ∧ t.sieve = s.sieve ∧ t.cfgs = s.cfgs ∧
      t.progs = s.progs ∧ t.mobjs = s.mobjs ∧ t.slots = s.slots ∧ t.changes = s.changes

/-- The block's queue: a step takes the command at the front and answers what `exec` answers for it with the queue's rest; on
an empty queue the block idles (log 2). The model's own choices in it: log 2. -/
def Obligations.StepRunsFront : Prop :=
  ∀ (s : State), (s.pending = [] → step s = .next s) ∧
    (∀ c cs, s.pending = c :: cs → step s = exec c { s with pending := cs }) ∧
    (∀ c cs, step { s with pending := c :: cs } = exec c { s with pending := cs })

/-- The state after reset has the form that every step keeps, with no command waiting and memory zero (log 1); and its
registers show the reset values that the tables of DCTL_BEAT_CFG, DCTL_MSU_CFG, DCTL_COMP_CFG, DCTL_RST_CFG, PWR_STAT and
PWR_TCFG give. The model's own choices in it: log 1, log 6 and log 7. -/
def Obligations.ResetInvariant : Prop :=
  State.reset.inv ∧ State.reset.pending = [] ∧
    (∀ e ∈ [(Reg.DCTL_BEAT_CFG.LEAD, 0x0A), (Reg.DCTL_BEAT_CFG.HOLD_LIM, 0x14), (Reg.DCTL_BEAT_CFG.ROLE, 0),
      (Reg.DCTL_BEAT_CFG.BEAT_LEN, 5), (Reg.DCTL_MSU_CFG.OFFER_TIMEOUT, 0x64), (Reg.DCTL_COMP_CFG.DRAIN_LIM, 0xC8),
      (Reg.DCTL_RST_CFG.AUTO_WARM, 1), (Reg.DCTL_RST_CFG.DRAIN_B, 2), (Reg.PWR_STAT.STATE, 2), (Reg.PWR_STAT.DUTY, 8),
      (Reg.PWR_TCFG.T_LIM, 0x64), (Reg.PWR_TCFG.T_HOT, 0x6E), (Reg.PWR_TCFG.T_TRIP, 0x78), (Reg.PWR_TCFG.T_OPT, 0x5F)], State.reset.fld 0 0 e.1 = e.2) ∧
    (∀ a, State.reset.mem.get 0 a = 0)

/-- From every state in the canonical form a step answers, if it answers a next state, one in the canonical form, with the
first of the waiting commands taken and no other touched. -/
def Obligations.StepKeepsInvariant : Prop :=
  ∀ (s t : State), s.inv → step s = .next t → t.inv ∧ t.pending = s.pending.tail
end

