-- ==== Sys2Proof/Laws/Commands.lean ====
section
/-! SUPPORT. The spec lemmas of the queue commands: what a start of an opcode does. -/

open Sys2Proof Sys2Proof.Machine

namespace Sys2Proof.Laws

/-- A start that passes its checks runs its command's own effect. -/
theorem runs_command {s : State} {fn q op : Nat} {t : State} {k : Cmd} {va : Nat} (h : runs s fn q op t k va)
    (ext : List Byte) : s.command fn q op ext = t.runOp k va ext := by
  obtain ⟨hc, ho, h⟩ := h
  obtain ⟨r, w, h1, h2, h3, h4, h5, h6, rfl, rfl, rfl⟩ | ⟨h1, h2, h3, rfl⟩ | ⟨h1, h2, g, i, h3, rfl, rfl, rfl⟩ := h
  · simp only [startedRec, cmdOf] at *
    have hf : (some r).filter (fun r => recOp r.w == op) = some r := by simp [Option.filter, h2]
    simp [State.command, State.startRec, State.runCmd, h1, hf, h3, h4, h5, h6, hc]
  · simp only [State.command, State.runCmd, h1, h2, h3, hc]
    rfl
  · simp [State.command, State.startGraphRec, State.runCmd, h1, h2, h3, hc]

end Sys2Proof.Laws
end

