-- ==== Sys2Proof/Laws/Tab.lean ====
section
/-! SUPPORT. What the operations of tables keep: numbers stay strictly rising, no entry equals what an unlisted number reads
as, and a read after a write gives what was written, there and elsewhere. -/

namespace Sys2Proof

variable {α : Type}

/-- Every number of a table lies above a bound. -/
def Tab.above (k : Nat) (t : Tab α) : Prop := ∀ e ∈ t, k < e.1

theorem Tab.above_tail {k : Nat} {e : Nat × α} {t : Tab α} (h : Tab.above k (e :: t)) : Tab.above k t :=
  fun x hx => h x (List.mem_cons_of_mem e hx)

theorem Tab.above_mono {j k : Nat} {t : Tab α} (hjk : j ≤ k) (h : Tab.above k t) : Tab.above j t :=
  fun x hx => Nat.lt_of_le_of_lt hjk (h x hx)

/-- Rising numbers, entry by entry. -/
theorem Tab.rising_cons (e : Nat × α) (t : Tab α) : Tab.rising (e :: t) = true ↔ Tab.above e.1 t ∧ Tab.rising t = true := by
  induction t generalizing e with
  | nil => simp [Tab.rising, Tab.above]
  | cons f t ih =>
    have hr : Tab.rising (e :: f :: t) = (decide (e.1 < f.1) && Tab.rising (f :: t)) := rfl
    rw [hr, Bool.and_eq_true, decide_eq_true_eq]
    refine ⟨fun h => ⟨fun x hx => ?_, h.2⟩, fun h => ⟨h.1 f List.mem_cons_self, h.2⟩⟩
    rcases List.mem_cons.mp hx with rfl | hx
    · exact h.1
    · exact Nat.lt_trans h.1 (((ih f).mp h.2).1 x hx)

theorem Tab.mem_del {t : Tab α} {k : Nat} {e : Nat × α} (h : e ∈ t.del k) : e ∈ t := by
  induction t with
  | nil => simp [Tab.del] at h
  | cons f t ih =>
    obtain ⟨j, w⟩ := f
    by_cases hjk : j = k
    · simp only [Tab.del, hjk, if_true] at h
      exact List.mem_cons_of_mem _ h
    · simp only [Tab.del, if_neg hjk, List.mem_cons] at h
      rcases h with rfl | h
      · exact List.mem_cons_self
      · exact List.mem_cons_of_mem _ (ih h)

theorem Tab.mem_put {t : Tab α} {k : Nat} {v : α} {e : Nat × α} (h : e ∈ t.put k v) : e = (k, v) ∨ e ∈ t := by
  induction t with
  | nil => simpa [Tab.put] using h
  | cons f t ih =>
    obtain ⟨j, w⟩ := f
    simp only [Tab.put] at h
    split at h
    · simpa using h
    · split at h
      · rcases List.mem_cons.mp h with h | h
        · exact .inl h
        · exact .inr (List.mem_cons_of_mem _ h)
      · rcases List.mem_cons.mp h with rfl | h
        · exact .inr List.mem_cons_self
        · exact (ih h).imp_right (List.mem_cons_of_mem _)

theorem Tab.rising_del {t : Tab α} (k : Nat) (h : t.rising = true) : (t.del k).rising = true := by
  induction t with
  | nil => rfl
  | cons f t ih =>
    obtain ⟨j, w⟩ := f
    obtain ⟨h1, h2⟩ := (Tab.rising_cons _ _).mp h
    by_cases hjk : j = k
    · simpa only [Tab.del, hjk, if_true] using h2
    · simp only [Tab.del, if_neg hjk]
      exact (Tab.rising_cons _ _).mpr ⟨fun e he => h1 e (Tab.mem_del he), ih h2⟩

theorem Tab.rising_put {t : Tab α} (k : Nat) (v : α) (h : t.rising = true) : (t.put k v).rising = true := by
  induction t with
  | nil => rfl
  | cons f t ih =>
    obtain ⟨j, w⟩ := f
    obtain ⟨h1, h2⟩ := (Tab.rising_cons _ _).mp h
    simp only [Tab.put]
    split
    · next hlt =>
      refine (Tab.rising_cons _ _).mpr ⟨fun e he => ?_, h⟩
      rcases List.mem_cons.mp he with rfl | he
      · exact hlt
      · exact Nat.lt_trans hlt (h1 e he)
    · split
      · next hkj =>
        subst hkj
        exact (Tab.rising_cons _ _).mpr ⟨h1, h2⟩
      · next hnlt hne =>
        refine (Tab.rising_cons _ _).mpr ⟨fun e he => ?_, ih h2⟩
        rcases Tab.mem_put he with rfl | he
        · show j < k
          omega
        · exact h1 e he

theorem Tab.rising_set [DecidableEq α] (d : α) {t : Tab α} (k : Nat) (v : α) (h : t.rising = true) :
    (t.set d k v).rising = true := by
  unfold Tab.set
  split
  · exact Tab.rising_del k h
  · exact Tab.rising_put k v h

theorem Tab.rising_filter {t : Tab α} (p : Nat × α → Bool) (h : t.rising = true) :
    Tab.rising (List.filter p t : Tab α) = true := by
  induction t with
  | nil => rfl
  | cons f t ih =>
    obtain ⟨h1, h2⟩ := (Tab.rising_cons _ _).mp h
    rw [List.filter_cons]
    split
    · exact (Tab.rising_cons _ _).mpr ⟨fun e he => h1 e (List.mem_filter.mp he).1, ih h2⟩
    · exact ih h2

theorem Tab.wf_iff [DecidableEq α] (d : α) (t : Tab α) : t.wf d = true ↔ t.rising = true ∧ ∀ e ∈ t, e.2 ≠ d := by
  simp [Tab.wf]

theorem Tab.wf_nil [DecidableEq α] (d : α) : Tab.wf d ([] : Tab α) = true := rfl

/-- Writing a value keeps the canonical form. -/
theorem Tab.wf_set [DecidableEq α] (d : α) {t : Tab α} (k : Nat) (v : α) (h : t.wf d = true) : (t.set d k v).wf d = true := by
  rw [Tab.wf_iff] at h ⊢
  refine ⟨Tab.rising_set d k v h.1, fun e he => ?_⟩
  unfold Tab.set at he
  split at he
  · exact h.2 e (Tab.mem_del he)
  · next hv =>
    rcases Tab.mem_put he with rfl | he
    · exact hv
    · exact h.2 e he

/-- Dropping entries keeps the canonical form. -/
theorem Tab.wf_filter [DecidableEq α] (d : α) {t : Tab α} (p : Nat × α → Bool) (h : t.wf d = true) :
    Tab.wf d (List.filter p t : Tab α) = true := by
  rw [Tab.wf_iff] at h ⊢
  exact ⟨Tab.rising_filter p h.1, fun e he => h.2 e (List.mem_filter.mp he).1⟩

/-- Writing a run of bytes keeps the memory's canonical form. -/
theorem Memory.wf_setRun (bs : List Byte) {m : Tab Byte} (k : Nat) (h : Memory.wf m = true) : Memory.wf (m.setRun k bs) = true := by
  induction bs generalizing m k with
  | nil => exact h
  | cons b bs ih => exact ih (k + 1) (Tab.wf_set 0 k b h)

/-- Writing a byte keeps the memory's canonical form. -/
theorem Memory.wf_set {m : Tab Byte} (k : Nat) (b : Byte) (h : Memory.wf m = true) : Memory.wf (m.set 0 k b) = true :=
  Tab.wf_set 0 k b h

/-- Dropping bytes keeps the memory's canonical form. -/
theorem Memory.wf_filter {m : Tab Byte} (p : Nat × Byte → Bool) (h : Memory.wf m = true) :
    Memory.wf (List.filter p m : Tab Byte) = true :=
  Tab.wf_filter 0 p h

/-! ## Reading after writing -/

theorem Tab.find?_put (t : Tab α) (k j : Nat) (v : α) : (t.put k v).find? j = if j = k then some v else t.find? j := by
  induction t with
  | nil =>
    simp only [Tab.put, Tab.find?]
    by_cases h : k = j
    · simp [h]
    · rw [if_neg h, if_neg (fun e => h e.symm)]
  | cons f t ih =>
    obtain ⟨i, w⟩ := f
    simp only [Tab.put]
    split
    · rw [Tab.find?]
      by_cases h : k = j
      · simp [h]
      · rw [if_neg h, if_neg (fun e => h e.symm)]
    · split
      · next hki =>
        subst hki
        simp only [Tab.find?]
        by_cases h : k = j
        · simp [h]
        · rw [if_neg h, if_neg (fun e => h e.symm), if_neg h]
      · next hne =>
        simp only [Tab.find?, ih]
        by_cases h : i = j
        · subst h
          rw [if_pos rfl, if_neg (fun e => hne e.symm), if_pos rfl]
        · rw [if_neg h, if_neg h]

/-- In a rising table no number after a bound is the bound. -/
theorem Tab.find?_above {k : Nat} {t : Tab α} (h : Tab.above k t) : t.find? k = none := by
  induction t with
  | nil => rfl
  | cons f t ih =>
    obtain ⟨j, w⟩ := f
    have hj : k < j := h _ List.mem_cons_self
    rw [Tab.find?, if_neg (by omega)]
    exact ih (Tab.above_tail h)

theorem Tab.find?_del {t : Tab α} (h : t.rising = true) (k j : Nat) : (t.del k).find? j = if j = k then none else t.find? j := by
  induction t with
  | nil => simp [Tab.del, Tab.find?]
  | cons f t ih =>
    obtain ⟨i, w⟩ := f
    obtain ⟨h1, h2⟩ := (Tab.rising_cons _ _).mp h
    by_cases hik : i = k
    · subst hik
      rw [Tab.del, if_pos rfl]
      by_cases hj : j = i
      · subst hj
        rw [if_pos rfl]
        exact Tab.find?_above h1
      · rw [if_neg hj, Tab.find?, if_neg (fun e => hj e.symm)]
    · rw [Tab.del, if_neg hik, Tab.find?, Tab.find?, ih h2]
      by_cases hij : i = j
      · subst hij
        rw [if_pos rfl, if_pos rfl, if_neg hik]
      · rw [if_neg hij, if_neg hij]

/-- A read after a write of a canonical table gives the value written at its number, and the value before elsewhere. -/
theorem Tab.get_set [DecidableEq α] (d : α) {t : Tab α} (h : t.rising = true) (k j : Nat) (v : α) :
    (t.set d k v).get d j = if j = k then v else t.get d j := by
  unfold Tab.set Tab.get
  split
  · next hv =>
    rw [Tab.find?_del h]
    by_cases hj : j = k
    · simp [hj, hv]
    · simp [hj]
  · rw [Tab.find?_put]
    by_cases hj : j = k
    · simp [hj]
    · simp [hj]

/-- Writing a run of bytes leaves every byte before it as it was. -/
theorem Tab.get_setRun_before (bs : List Byte) {m : Tab Byte} (h : m.rising = true) (k j : Nat) (hj : j < k) :
    (m.setRun k bs).get 0 j = m.get 0 j := by
  induction bs generalizing m k with
  | nil => rfl
  | cons b bs ih =>
    rw [Tab.setRun, ih (Tab.rising_set 0 k b h) (k + 1) (by omega), Tab.get_set 0 h, if_neg (by omega)]

/-- Writing a run of bytes: the bytes of the run read as written, and every other as before. -/
theorem Tab.get_setRun (bs : List Byte) {m : Tab Byte} (h : m.rising = true) (k j : Nat) :
    (m.setRun k bs).get 0 j = if k ≤ j ∧ j < k + bs.length then bs.getD (j - k) 0 else m.get 0 j := by
  induction bs generalizing m k with
  | nil =>
    rw [if_neg (by simp only [List.length_nil]; omega)]
    rfl
  | cons b bs ih =>
    rw [Tab.setRun, ih (Tab.rising_set 0 k b h)]
    by_cases hk : j = k
    · subst hk
      rw [if_neg (by omega), Tab.get_set 0 h, if_pos rfl, if_pos (by simp)]
      simp
    · by_cases hj : k + 1 ≤ j ∧ j < k + 1 + bs.length
      · rw [if_pos hj, if_pos (by simp only [List.length_cons]; omega)]
        obtain ⟨i, rfl⟩ : ∃ i, j = k + 1 + i := ⟨j - (k + 1), by omega⟩
        rw [show k + 1 + i - (k + 1) = i by omega, show k + 1 + i - k = i + 1 by omega]
        rfl
      · rw [if_neg hj, Tab.get_set 0 h, if_neg hk, if_neg (by simp only [List.length_cons]; omega)]

end Sys2Proof
end

