-- ==== Sys2Proof/Laws/KeepsBase.lean ====
section
/-! SUPPORT. The canonical form of the state (State.kept) is kept by every operation of the model that gives a state: the
shared operations, the log, cells, alarms and the issue of slots.
One lemma for each, to be cited in place of unfolding it. -/

set_option linter.unusedTactic false
set_option linter.unreachableTactic false

namespace Sys2Proof.Machine

open Sys2Proof

/-- The canonical form of the state, with a given queue of waiting commands: what every operation of the model keeps. -/
def State.kept (cmds : List Instr) (s : State) : Prop :=
  Memory.wf s.mem = true ∧ s.poison.wf false = true ∧ s.regs.rising = true ∧ s.cnts.wf 0 = true ∧ s.bells.length ≤ 16 ∧
    s.log.recs.length ≤ 4096 ∧ s.log.unstored ≤ 4096 ∧ s.log.next < 2 ^ 32 ∧ s.kmc.sessions.length ≤ 4 ∧
    s.kmc.kept.length ≤ 256 ∧ s.alarmId < 65536 ∧ s.bellId < 65536 ∧ s.nextHandle < 2 ^ 32 ∧ s.pending = cmds

theorem State.kept_iff {cmds : List Instr} {s : State} : s.kept cmds ↔ s.inv ∧ s.pending = cmds := by
  simp only [State.kept, State.inv]
  tauto

variable {cmds : List Instr}

/-- A field that the invariant does not speak of may change. -/
theorem State.kept_mk {s : State} (h : s.kept cmds)
    (free : Nat) (out : List Out) (deferred : List Deferred) (bad : List Nat) (dead : List Nat) (chunks : List
    HeldChunk) (ledgers : Tab Ledger) (shared : List SharedMap) (verified : List Nat) (wipes : List Wipe) (contribs :
    List Contrib) (owing : List Owing) (nextOwed : Nat) (reads : List FarRead) (mended : List Nat) (hot : Tab Nat)
    (t2ctr : Tab Nat) (t2base : Tab Nat) (t2node : Tab Nat) (t2cache : Tab (List Nat)) (rollWant : Bool) (tlbs : Tab
    (List Leaf)) (ctlbs : Tab (List Leaf)) (ptrs : Tab (List Ptr)) (faults : List OpenFault) (nextFault : Nat) (invals
    : List Inval) (nextInval : Nat) (ats : Tab Ats) (sieve : Tab SieveTbl) (cfgs : Tab FnCfg) (progs : Tab ProgLog)
    (beat : BeatSt) (cores : Tab Core) (queues : Tab Queue) (fetched : Nat) (turn : Nat) (launches : List Launch)
    (nextLaunch : Nat) (gruns : List GRun) (ctxs : Tab Ctx) (mobjs : Tab MemObj) (graphs : Tab Graph) (latches : Tab
    Latch) (slots : Tab SeqSlot) (destroys : List Destroy) (ports : Tab Port) (sigs : List SigOut) (nextSig : Nat)
    (inbound : List Inbound) (changes : List Change) (failed : List Nat) (awaitSpare : List Nat) (halted : Bool)
    (flood : List Flood) (resets : List Reset) (nextReset : Nat) (aborts : List Abort) (fenced : List FencedHold)
    (parishEnd : Bool) (keys : Tab (List Byte)) (pview : Option Nat) (snap : Snap) (hints : List Hint) (dump : DumpSt)
    (sec : Sec) (pow : Pow) (rots : Tab Rot) (boot : Boot) (mod : Module) (bridge : Nat) :
    State.kept cmds (State.mk
    (s.pending) free out deferred (s.regs) (s.cnts) (s.mem) (s.poison) bad dead chunks ledgers shared verified wipes
    contribs owing nextOwed reads mended hot t2ctr t2base t2node t2cache rollWant tlbs ctlbs ptrs faults nextFault
    invals nextInval ats sieve cfgs progs beat cores queues fetched turn launches nextLaunch gruns ctxs mobjs graphs
    latches slots destroys (s.log) ports sigs nextSig inbound changes (s.nextHandle) failed awaitSpare halted (s.kmc)
    flood (s.alarmId) (s.bellId) resets nextReset aborts fenced parishEnd keys (s.bells) pview snap hints dump sec pow
    rots boot mod bridge) := h

theorem State.kept_ite {c : Prop} [Decidable c] {a b : State} (ha : a.kept cmds) (hb : b.kept cmds) : (if c then a else
    b).kept cmds := by
  split
  · exact ha
  · exact hb

theorem State.kept_foldl {α : Type} {f : State → α → State} (hf : ∀ s x, s.kept cmds → (f s x).kept cmds) {s : State} (h :
    s.kept cmds)
    (l : List α) : (l.foldl f s).kept cmds := by
  induction l generalizing s with
  | nil => exact h
  | cons x l ih => exact ih (hf s x h)

theorem State.kept_snd {α : Type} {p : α × State} {a : α} {t : State} (e : p = (a, t)) (h : p.2.kept cmds) : t.kept cmds := by
  subst e
  exact h

theorem State.kept_ite2 {α : Type} {c : Prop} [Decidable c] {a b : α × State} (ha : a.2.kept cmds) (hb : b.2.kept cmds) :
    (if c then a else b).2.kept cmds := by
  split
  · exact ha
  · exact hb

theorem State.kept_iteRd {c : Prop} [Decidable c] {a b : Rd} (ha : a.st.kept cmds) (hb : b.st.kept cmds) : (if c then a else
    b).st.kept cmds := by
  split
  · exact ha
  · exact hb

theorem State.kept_snd2 {α β : Type} {p : α × β × State} {a : α} {b : β} {t : State} (e : p = (a, b, t))
    (h : p.2.2.kept cmds) : t.kept cmds := by
  subst e
  exact h

theorem State.kept_snd3 {α β γ : Type} {p : α × β × γ × State} {a : α} {b : β} {c : γ} {t : State} (e : p = (a, b, c, t))
    (h : p.2.2.2.kept cmds) : t.kept cmds := by
  subst e
  exact h

theorem State.kept_ite3 {α β : Type} {c : Prop} [Decidable c] {a b : α × β × State} (ha : a.2.2.kept cmds)
    (hb : b.2.2.kept cmds) : (if c then a else b).2.2.kept cmds := by
  split
  · exact ha
  · exact hb

/-! One lemma for each field that the invariant speaks of. -/

theorem State.kept_mem {s : State} {m : Tab Byte} (h : s.kept cmds) (hm : Memory.wf m = true) : State.kept cmds { s with mem
    := m } := ⟨hm, h.2⟩

theorem State.kept_poison {s : State} {m : Tab Bool} (h : s.kept cmds) (hm : m.wf false = true) : State.kept cmds { s with
    poison := m } :=
  ⟨h.1, hm, h.2.2⟩

theorem State.kept_bells {s : State} {b : List Bell} (h : s.kept cmds) (hb : b.length ≤ 16) : State.kept cmds { s with bells
    := b } :=
  ⟨h.1, h.2.1, h.2.2.1, h.2.2.2.1, hb, h.2.2.2.2.2⟩

theorem State.kept_cnts {s : State} {t : Tab Byte} (h : s.kept cmds) (ht : t.wf 0 = true) : State.kept cmds { s with cnts := t
    } :=
  ⟨h.1, h.2.1, h.2.2.1, ht, h.2.2.2.2⟩

theorem State.kept_log {s : State} {l : ErrLog} (h : s.kept cmds) (hr : l.recs.length ≤ 4096) (hu : l.unstored ≤ 4096)
    (hn : l.next < 2 ^ 32) : State.kept cmds { s with log := l } :=
  ⟨h.1, h.2.1, h.2.2.1, h.2.2.2.1, h.2.2.2.2.1, hr, hu, hn, h.2.2.2.2.2.2.2.2⟩

theorem State.kept_kmc {s : State} {k : Kmc} (h : s.kept cmds) (hs : k.sessions.length ≤ 4) (hk : k.kept.length ≤ 256) :
    State.kept cmds { s with kmc := k } :=
  ⟨h.1, h.2.1, h.2.2.1, h.2.2.2.1, h.2.2.2.2.1, h.2.2.2.2.2.1, h.2.2.2.2.2.2.1, h.2.2.2.2.2.2.2.1, hs, hk,
    h.2.2.2.2.2.2.2.2.2.2⟩

theorem State.kept_sessions {s : State} (h : s.kept cmds) : s.kmc.sessions.length ≤ 4 := h.2.2.2.2.2.2.2.2.1

theorem State.kept_kept {s : State} (h : s.kept cmds) : s.kmc.kept.length ≤ 256 := h.2.2.2.2.2.2.2.2.2.1

theorem State.kept_alarmId {s : State} {n : Nat} (h : s.kept cmds) (hn : n < 65536) : State.kept cmds { s with alarmId := n } :=
  ⟨h.1, h.2.1, h.2.2.1, h.2.2.2.1, h.2.2.2.2.1, h.2.2.2.2.2.1, h.2.2.2.2.2.2.1, h.2.2.2.2.2.2.2.1, h.2.2.2.2.2.2.2.2.1,
    h.2.2.2.2.2.2.2.2.2.1, hn, h.2.2.2.2.2.2.2.2.2.2.2⟩

theorem State.kept_bellId {s : State} {n : Nat} (h : s.kept cmds) (hn : n < 65536) : State.kept cmds { s with bellId := n } :=
  ⟨h.1, h.2.1, h.2.2.1, h.2.2.2.1, h.2.2.2.2.1, h.2.2.2.2.2.1, h.2.2.2.2.2.2.1, h.2.2.2.2.2.2.2.1, h.2.2.2.2.2.2.2.2.1,
    h.2.2.2.2.2.2.2.2.2.1, h.2.2.2.2.2.2.2.2.2.2.1, hn, h.2.2.2.2.2.2.2.2.2.2.2.2⟩

theorem State.kept_nextHandle {s : State} {n : Nat} (h : s.kept cmds) (hn : n < 2 ^ 32) : State.kept cmds { s with nextHandle
    := n } :=
  ⟨h.1, h.2.1, h.2.2.1, h.2.2.2.1, h.2.2.2.2.1, h.2.2.2.2.2.1, h.2.2.2.2.2.2.1, h.2.2.2.2.2.2.2.1, h.2.2.2.2.2.2.2.2.1,
    h.2.2.2.2.2.2.2.2.2.1, h.2.2.2.2.2.2.2.2.2.2.1, h.2.2.2.2.2.2.2.2.2.2.2.1, hn, h.2.2.2.2.2.2.2.2.2.2.2.2.2⟩

theorem State.kept_memSet {s : State} {a : Nat} {v : Byte} (h : s.kept cmds) : State.kept cmds { s with mem := s.mem.set 0 a v } :=
  State.kept_mem h (Memory.wf_set _ _ h.1)

theorem State.kept_memRun {s : State} {a : Nat} {l : List Byte} (h : s.kept cmds) :
    State.kept cmds { s with mem := s.mem.setRun a l } :=
  State.kept_mem h (Memory.wf_setRun _ _ h.1)

/-! ## The definitions of Machine/Ops.lean -/

theorem State.wr_kept (s : State) (fn off : Nat) (v : U64) (h : s.kept cmds) : (s.wr fn off v).kept cmds := by
  obtain ⟨h1, h2, h3, h4⟩ := h
  exact ⟨h1, h2, Tab.rising_set _ _ _ h3, h4⟩

theorem State.setFld_kept (s : State) (fn i : Nat) (f : Fld) (v : Nat) (hi : s.kept cmds) : (State.setFld s fn i f v).kept
    cmds := by
  unfold State.setFld
  try dsimp only
  repeat' first
    | with_reducible first
      | assumption | apply State.wr_kept | apply State.kept_ite
    | fail_if_no_progress with_reducible apply State.kept_mk

theorem State.satAdd_kept (s : State) (fn i : Nat) (f : Fld) (n : Nat) (hi : s.kept cmds) : (State.satAdd s fn i f n).kept
    cmds := by
  unfold State.satAdd
  try dsimp only
  repeat' first
    | with_reducible first
      | assumption | apply State.setFld_kept | apply State.kept_ite
    | fail_if_no_progress with_reducible apply State.kept_mk

theorem State.modAdd_kept (s : State) (fn i : Nat) (f : Fld) (n : Nat) (hi : s.kept cmds) : (State.modAdd s fn i f n).kept
    cmds := by
  unfold State.modAdd
  try dsimp only
  repeat' first
    | with_reducible first
      | assumption | apply State.setFld_kept | apply State.kept_ite
    | fail_if_no_progress with_reducible apply State.kept_mk

theorem State.raise_kept (s : State) (fn i : Nat) (f : Fld) (h : s.kept cmds) : (s.raise fn i f).kept cmds := by
  obtain ⟨h1, h2, h3, h4, h5⟩ := State.setFld_kept s fn i f 1 h
  exact ⟨h1, h2, h3, Tab.wf_set _ _ _ h4, h5⟩

theorem State.send_kept (s : State) (o : Out) (hi : s.kept cmds) : (State.send s o).kept cmds := by
  unfold State.send
  try dsimp only
  repeat' first
    | with_reducible first
      | assumption | apply State.kept_ite
    | fail_if_no_progress with_reducible apply State.kept_mk

theorem State.setCfg_kept (s : State) (fn : Nat) (c : FnCfg) (hi : s.kept cmds) : (State.setCfg s fn c).kept cmds := by
  unfold State.setCfg
  try dsimp only
  repeat' first
    | with_reducible first
      | assumption | apply State.kept_ite
    | fail_if_no_progress with_reducible apply State.kept_mk

theorem State.msi_kept (s : State) (fn vec : Nat) (hi : s.kept cmds) : (State.msi s fn vec).kept cmds := by
  unfold State.msi
  try dsimp only
  repeat' first
    | with_reducible first
      | assumption | apply State.send_kept | apply State.setFld_kept | apply State.kept_ite
    | with_reducible refine State.kept_snd (by assumption) ?_ | with_reducible refine State.kept_snd2 (by assumption) ?_
    | with_reducible refine State.kept_snd3 (by assumption) ?_ | fail_if_no_progress with_reducible apply State.kept_mk

theorem State.msiFlush_kept (s : State) (fn : Nat) (hi : s.kept cmds) : (State.msiFlush s fn).kept cmds := by
  unfold State.msiFlush
  try dsimp only
  repeat' first
    | with_reducible first
      | assumption | apply State.setFld_kept | apply State.send_kept | apply State.kept_ite
      | refine State.kept_foldl (fun _ _ _ => ?_) ?_ _
    | with_reducible refine State.kept_snd (by assumption) ?_ | with_reducible refine State.kept_snd2 (by assumption) ?_
    | with_reducible refine State.kept_snd3 (by assumption) ?_ | fail_if_no_progress with_reducible apply State.kept_mk

theorem State.intc_kept (s : State) (fn b : Nat) (hi : s.kept cmds) : (State.intc s fn b).kept cmds := by
  unfold State.intc
  try dsimp only
  repeat' first
    | with_reducible first
      | assumption | apply State.raise_kept | apply State.msi_kept | apply State.kept_ite
    | with_reducible refine State.kept_snd (by assumption) ?_ | with_reducible refine State.kept_snd2 (by assumption) ?_
    | with_reducible refine State.kept_snd3 (by assumption) ?_ | fail_if_no_progress with_reducible apply State.kept_mk

theorem State.draw_kept (s : State) (hi : s.kept cmds) : (State.draw s).2.kept cmds := by
  unfold State.draw
  try dsimp only
  repeat' first
    | with_reducible first
      | assumption | apply State.kept_ite | apply State.kept_ite2
    | fail_if_no_progress with_reducible apply State.kept_mk

theorem State.drawBool_kept (s : State) (hi : s.kept cmds) : (State.drawBool s).2.kept cmds := by
  unfold State.drawBool
  try dsimp only
  repeat' first
    | with_reducible first
      | assumption | apply State.kept_ite | apply State.kept_ite2
    | fail_if_no_progress with_reducible apply State.kept_mk

theorem State.closedBeat_kept (s : State) (hi : s.kept cmds) : (State.closedBeat s).2.kept cmds := by
  unfold State.closedBeat
  try dsimp only
  repeat' first
    | with_reducible first
      | assumption | apply State.draw_kept | apply State.kept_ite | apply State.kept_ite2
    | split | with_reducible refine State.kept_snd (by assumption) ?_
    | with_reducible refine State.kept_snd2 (by assumption) ?_ | with_reducible refine State.kept_snd3 (by assumption) ?_
    | fail_if_no_progress with_reducible apply State.kept_mk

theorem State.setOwner_kept (s : State) (g b : Nat) (hi : s.kept cmds) : (State.setOwner s g b).kept cmds := by
  unfold State.setOwner
  try dsimp only
  repeat' first
    | with_reducible first
      | assumption | apply State.setFld_kept | apply State.kept_ite
    | fail_if_no_progress with_reducible apply State.kept_mk

/-! ## The definitions of Machine/Log.lean -/

theorem State.postErr_kept (s : State) (fn : Nat) (r : ErrRec) (hi : s.kept cmds) : (State.postErr s fn r).kept cmds := by
  unfold State.postErr
  try dsimp only
  repeat' first
    | with_reducible first
      | assumption | apply State.satAdd_kept | apply State.raise_kept | apply State.send_kept | apply State.modAdd_kept
      | apply State.intc_kept | apply State.kept_ite
    | with_reducible refine State.kept_snd (by assumption) ?_ | with_reducible refine State.kept_snd2 (by assumption) ?_
    | with_reducible refine State.kept_snd3 (by assumption) ?_ | fail_if_no_progress with_reducible apply State.kept_mk

/-- The on-chip records with one more: the latest 4,096. -/
theorem State.length_recs {α : Type} (l : List α) : (l.drop (l.length - 4096)).length ≤ 4096 := by
  rw [List.length_drop]
  omega

theorem State.logErr_kept (s : State) (r : ErrRec) (h : s.kept cmds) : (s.logErr r).kept cmds := by
  unfold State.logErr
  dsimp only
  have h6 : s.log.recs.length ≤ 4096 := h.2.2.2.2.2.1
  apply State.kept_ite
  · exact State.kept_log h (by rw [List.length_map]; exact h6) h.2.2.2.2.2.2.1 h.2.2.2.2.2.2.2.1
  · have hl : ∀ (n : Nat) (l : List ErrRec), n < 2 ^ 32 → l.length ≤ 4096 → State.kept cmds { s with log := { s.log with
        next := n, recs := l, unstored := min (s.log.unstored + 1) 4096 } } := fun n l hn hl =>
      State.kept_log h hl (Nat.min_le_right _ _) hn
    have h1 := hl _ _ (Nat.mod_lt (s.log.next + 1) (by decide)) (State.length_recs (s.log.recs ++ [{ r with
      seq := s.log.next, beat := if r.boot then 0 else s.now
      node := if r.received then r.node else s.fld 0 0 Reg.DCTL_NODE.NODE, detail := s.recDetail r }]))
    split
    · exact State.postErr_kept _ _ _ (State.postErr_kept _ _ _ h1)
    · exact State.postErr_kept _ _ _ h1

theorem State.logCE_kept (s : State) (source cause unit : Nat) (part : Option Nat) (hi : s.kept cmds) : (State.logCE s
    source cause unit part).kept cmds := by
  unfold State.logCE
  try dsimp only
  repeat' first
    | with_reducible first
      | assumption | apply State.logErr_kept | apply State.kept_ite
    | fail_if_no_progress with_reducible apply State.kept_mk

/-! ## The definitions of Machine/Keys.lean -/

theorem State.resealStore_kept (s : State) (root : Nat) (hi : s.kept cmds) : (State.resealStore s root).kept cmds := by
  obtain ⟨h1, h2, h3, h4, h5, h6, h7, h8, h9⟩ := hi
  exact ⟨h1, h2, h3, h4, h5, h6, h7, h8, h9⟩

/-! ## The definitions of Machine/Cells.lean -/

theorem State.setPort_kept (s : State) (p : Nat) (v : Port) (hi : s.kept cmds) : (State.setPort s p v).kept cmds := by
  unfold State.setPort
  try dsimp only
  repeat' first
    | with_reducible first
      | assumption | apply State.kept_ite
    | fail_if_no_progress with_reducible apply State.kept_mk

theorem State.transmit_kept (s : State) (p : Nat) (c : Cell) (hi : s.kept cmds) : (State.transmit s p c).kept cmds := by
  unfold State.transmit
  try dsimp only
  repeat' first
    | with_reducible first
      | assumption | apply State.draw_kept | apply State.setPort_kept | apply State.send_kept | apply State.kept_ite
    | fail_if_no_progress with_reducible apply State.kept_mk

theorem State.sendLink_kept (s : State) (p : Nat) (c : Cell) (hi : s.kept cmds) : (State.sendLink s p c).kept cmds := by
  unfold State.sendLink
  try dsimp only
  repeat' first
    | with_reducible first
      | assumption | apply State.setPort_kept | apply State.send_kept | apply State.kept_ite
    | fail_if_no_progress with_reducible apply State.kept_mk

theorem State.sendHeld_kept (s : State) (p : Nat) (c : Cell) (held : Option (Nat × Nat)) (hi : s.kept cmds) :
    (State.sendHeld s p c held).kept cmds := by
  unfold State.sendHeld
  try dsimp only
  repeat' first
    | with_reducible first
      | assumption | apply State.transmit_kept | apply State.setPort_kept | apply State.satAdd_kept | apply State.kept_ite
    | with_reducible refine State.kept_snd (by assumption) ?_ | with_reducible refine State.kept_snd2 (by assumption) ?_
    | with_reducible refine State.kept_snd3 (by assumption) ?_ | fail_if_no_progress with_reducible apply State.kept_mk

theorem State.sendCell_kept (s : State) (p : Nat) (c : Cell) (hi : s.kept cmds) : (State.sendCell s p c).kept cmds := by
  unfold State.sendCell
  try dsimp only
  repeat' first
    | with_reducible first
      | assumption | apply State.sendHeld_kept | apply State.kept_ite
    | fail_if_no_progress with_reducible apply State.kept_mk

theorem State.drainWait_kept (n : Nat) (s : State) (p : Nat) (h : s.kept cmds) : (State.drainWait n s p).kept cmds := by
  induction n generalizing s with
  | zero => exact h
  | succ n ih =>
    rw [State.drainWait]
    split
    · exact h
    · exact ih _ (State.transmit_kept _ _ _ (State.setPort_kept _ _ _ h))

theorem State.sendAll_kept (s : State) (ps : List Nat) (c : Cell) (hi : s.kept cmds) : (State.sendAll s ps c).kept cmds := by
  unfold State.sendAll
  try dsimp only
  repeat' first
    | with_reducible first
      | assumption | apply State.sendCell_kept | apply State.kept_ite | refine State.kept_foldl (fun _ _ _ => ?_) ?_ _
    | fail_if_no_progress with_reducible apply State.kept_mk

theorem State.recordFlood_kept (s : State) (typ origin id : Nat) (hi : s.kept cmds) : (State.recordFlood s typ origin
    id).kept cmds := by
  unfold State.recordFlood
  try dsimp only
  repeat' first
    | with_reducible first
      | assumption | apply State.kept_ite
    | with_reducible refine State.kept_snd (by assumption) ?_ | with_reducible refine State.kept_snd2 (by assumption) ?_
    | with_reducible refine State.kept_snd3 (by assumption) ?_ | fail_if_no_progress with_reducible apply State.kept_mk

/-! ## The definitions of Machine/Alarm.lean -/

theorem State.recordAbort_kept (s : State) (q : Nat) (hi : s.kept cmds) : (State.recordAbort s q).kept cmds := by
  unfold State.recordAbort
  try dsimp only
  repeat' first
    | with_reducible first
      | assumption | apply State.kept_ite
    | with_reducible refine State.kept_snd (by assumption) ?_ | with_reducible refine State.kept_snd2 (by assumption) ?_
    | with_reducible refine State.kept_snd3 (by assumption) ?_ | fail_if_no_progress with_reducible apply State.kept_mk

theorem State.alarmAct_kept (s : State) (scope cause vd : Nat) (except : Option Nat) (hi : s.kept cmds) : (State.alarmAct s
    scope cause vd except).kept cmds := by
  unfold State.alarmAct
  try dsimp only
  repeat' first
    | with_reducible first
      | assumption | apply State.intc_kept | apply State.recordAbort_kept | apply State.kept_ite
      | refine State.kept_foldl (fun _ _ _ => ?_) ?_ _
    | with_reducible refine State.kept_snd (by assumption) ?_ | with_reducible refine State.kept_snd2 (by assumption) ?_
    | with_reducible refine State.kept_snd3 (by assumption) ?_ | fail_if_no_progress with_reducible apply State.kept_mk

theorem State.raiseAlarm_kept (s : State) (scope cause vd : Nat) (part : Option Nat) (dom : Nat) (h : s.kept cmds) :
    (s.raiseAlarm scope cause vd part dom).kept cmds := by
  unfold State.raiseAlarm
  dsimp only
  apply State.alarmAct_kept
  apply State.sendAll_kept
  refine State.kept_alarmId ?_ (Nat.mod_lt _ (by decide))
  apply State.recordFlood_kept
  split
  · exact h
  · exact State.draw_kept s h

theorem State.vdAlarm_kept (s : State) (vd q cause dom : Nat) (hi : s.kept cmds) : (State.vdAlarm s vd q cause dom).kept
    cmds := by
  unfold State.vdAlarm
  try dsimp only
  repeat' first
    | with_reducible first
      | assumption | apply State.raiseAlarm_kept | apply State.kept_ite
    | fail_if_no_progress with_reducible apply State.kept_mk

theorem State.partAlarm_kept (s : State) (q cause dom : Nat) (hi : s.kept cmds) : (State.partAlarm s q cause dom).kept cmds
    := by
  unfold State.partAlarm
  try dsimp only
  repeat' first
    | with_reducible first
      | assumption | apply State.vdAlarm_kept | apply State.kept_ite
    | fail_if_no_progress with_reducible apply State.kept_mk

theorem State.decideReset_kept (s : State) (domain target : Nat) (dump error : Bool) (alarm : Nat) (hi : s.kept cmds) :
    (State.decideReset s domain target dump error alarm).kept cmds := by
  unfold State.decideReset
  try dsimp only
  repeat' first
    | with_reducible first
      | assumption | apply State.partAlarm_kept | apply State.kept_ite | refine State.kept_foldl (fun _ _ _ => ?_) ?_ _
    | with_reducible refine State.kept_snd (by assumption) ?_ | with_reducible refine State.kept_snd2 (by assumption) ?_
    | with_reducible refine State.kept_snd3 (by assumption) ?_ | fail_if_no_progress with_reducible apply State.kept_mk

/-! ## The definitions of Machine/Complete.lean -/

theorem State.setQueue_kept (s : State) (fn q : Nat) (v : Queue) (hi : s.kept cmds) : (State.setQueue s fn q v).kept cmds :=
    by
  unfold State.setQueue
  try dsimp only
  repeat' first
    | with_reducible first
      | assumption | apply State.kept_ite
    | fail_if_no_progress with_reducible apply State.kept_mk

theorem State.updRec_kept (s : State) (fn q sq : Nat) (f : QRec → QRec) (hi : s.kept cmds) : (State.updRec s fn q sq f).kept
    cmds := by
  unfold State.updRec
  try dsimp only
  repeat' first
    | with_reducible first
      | assumption | apply State.setQueue_kept | apply State.kept_ite
    | fail_if_no_progress with_reducible apply State.kept_mk

theorem State.updCtx_kept (s : State) (fn c : Nat) (f : Ctx → Ctx) (hi : s.kept cmds) : (State.updCtx s fn c f).kept cmds :=
    by
  unfold State.updCtx
  try dsimp only
  repeat' first
    | with_reducible first
      | assumption | apply State.kept_ite
    | split | fail_if_no_progress with_reducible apply State.kept_mk

theorem State.signalLatch_kept (s : State) (fn l : Nat) (x : U64) (hi : s.kept cmds) : (State.signalLatch s fn l x).2.kept
    cmds := by
  unfold State.signalLatch
  try dsimp only
  repeat' first
    | with_reducible first
      | assumption | apply State.logCE_kept | apply State.satAdd_kept | apply State.raise_kept | apply State.kept_ite
      | apply State.kept_ite2
    | split | with_reducible refine State.kept_snd (by assumption) ?_
    | with_reducible refine State.kept_snd2 (by assumption) ?_ | with_reducible refine State.kept_snd3 (by assumption) ?_
    | fail_if_no_progress with_reducible apply State.kept_mk

theorem State.sendSignal_kept (s : State) (fn member l : Nat) (x : U64) (lc : Bool) (kind q sq : Nat) (g : Option Nat) (hi :
    s.kept cmds) : (State.sendSignal s fn member l x lc kind q sq g).2.kept cmds := by
  unfold State.sendSignal
  try dsimp only
  repeat' first
    | with_reducible first
      | assumption | apply State.logCE_kept | apply State.sendCell_kept | apply State.kept_ite | apply State.kept_ite2
    | split | with_reducible refine State.kept_snd (by assumption) ?_
    | with_reducible refine State.kept_snd2 (by assumption) ?_ | with_reducible refine State.kept_snd3 (by assumption) ?_
    | fail_if_no_progress with_reducible apply State.kept_mk

theorem State.faultPolicy_kept (s : State) (fn ctx : Nat) (hi : s.kept cmds) : (State.faultPolicy s fn ctx).kept cmds := by
  unfold State.faultPolicy
  try dsimp only
  repeat' first
    | with_reducible first
      | assumption | apply State.decideReset_kept | apply State.updCtx_kept | apply State.kept_ite
    | split | fail_if_no_progress with_reducible apply State.kept_mk

theorem State.haltQueue_kept (s : State) (fn q : Nat) (hi : s.kept cmds) : (State.haltQueue s fn q).kept cmds := by
  unfold State.haltQueue
  try dsimp only
  repeat' first
    | with_reducible first
      | assumption | apply State.setQueue_kept | apply State.setFld_kept | apply State.raise_kept | apply State.intc_kept
      | apply State.kept_ite
    | fail_if_no_progress with_reducible apply State.kept_mk

theorem State.postRecord_kept (s : State) (fn q : Nat) (r : QRec) (status detail : Nat) (halted : Bool) (hi : s.kept cmds) :
    (State.postRecord s fn q r status detail halted).kept cmds := by
  unfold State.postRecord
  try dsimp only
  repeat' first
    | with_reducible first
      | assumption | apply State.send_kept | apply State.setQueue_kept | apply State.modAdd_kept | apply State.msi_kept
      | apply State.kept_ite
    | with_reducible refine State.kept_snd (by assumption) ?_ | with_reducible refine State.kept_snd2 (by assumption) ?_
    | with_reducible refine State.kept_snd3 (by assumption) ?_ | fail_if_no_progress with_reducible apply State.kept_mk

theorem State.completionLatch_kept (s : State) (fn q sq : Nat) (w : BitVec 512) (status : Nat) (hi : s.kept cmds) :
    (State.completionLatch s fn q sq w status).kept cmds := by
  unfold State.completionLatch
  try dsimp only
  repeat' first
    | with_reducible first
      | assumption | apply State.sendSignal_kept | apply State.signalLatch_kept | apply State.kept_ite
    | with_reducible refine State.kept_snd (by assumption) ?_ | with_reducible refine State.kept_snd2 (by assumption) ?_
    | with_reducible refine State.kept_snd3 (by assumption) ?_ | fail_if_no_progress with_reducible apply State.kept_mk

theorem State.completeRec_kept (s : State) (fn q sq status detail : Nat) (force policy : Bool) (hi : s.kept cmds) :
    (State.completeRec s fn q sq status detail force policy).kept cmds := by
  unfold State.completeRec
  try dsimp only
  repeat' first
    | with_reducible first
      | assumption | apply State.setQueue_kept | apply State.haltQueue_kept | apply State.updCtx_kept
      | apply State.postRecord_kept | apply State.completionLatch_kept | apply State.faultPolicy_kept | apply State.kept_ite
    | split | with_reducible refine State.kept_snd (by assumption) ?_
    | with_reducible refine State.kept_snd2 (by assumption) ?_ | with_reducible refine State.kept_snd3 (by assumption) ?_
    | fail_if_no_progress with_reducible apply State.kept_mk

theorem State.releaseVersion_kept (s : State) (fn graph ver : Nat) (hi : s.kept cmds) : (State.releaseVersion s fn graph
    ver).kept cmds := by
  unfold State.releaseVersion
  try dsimp only
  repeat' first
    | with_reducible first
      | assumption | apply State.kept_ite
    | split | with_reducible refine State.kept_snd (by assumption) ?_
    | with_reducible refine State.kept_snd2 (by assumption) ?_ | with_reducible refine State.kept_snd3 (by assumption) ?_
    | fail_if_no_progress with_reducible apply State.kept_mk

theorem State.completeGraph_kept (s : State) (g : GRun) (i status : Nat) (hi : s.kept cmds) : (State.completeGraph s g i
    status).kept cmds := by
  unfold State.completeGraph
  try dsimp only
  repeat' first
    | with_reducible first
      | assumption | apply State.completionLatch_kept | apply State.releaseVersion_kept | apply State.completeRec_kept
      | apply State.kept_ite
    | with_reducible refine State.kept_snd (by assumption) ?_ | with_reducible refine State.kept_snd2 (by assumption) ?_
    | with_reducible refine State.kept_snd3 (by assumption) ?_ | fail_if_no_progress with_reducible apply State.kept_mk

theorem State.finish1_kept (s : State) (fn q sq : Nat) (g : Option Nat) (status detail : Nat) (policy : Bool) (hi : s.kept
    cmds) : (State.finish1 s fn q sq g status detail policy).kept cmds := by
  unfold State.finish1
  try dsimp only
  repeat' first
    | with_reducible first
      | assumption | apply State.completeRec_kept | apply State.completeGraph_kept | apply State.kept_ite
    | split | fail_if_no_progress with_reducible apply State.kept_mk

theorem State.settle_kept (n : Nat) (s : State) (h : s.kept cmds) : (State.settle n s).kept cmds := by
  induction n generalizing s with
  | zero => exact h
  | succ n ih =>
    rw [State.settle]
    split
    · exact h
    · exact ih _ (State.finish1_kept _ _ _ _ _ _ _ _ h)

theorem State.settled_kept (s : State) (hi : s.kept cmds) : (State.settled s).kept cmds := by
  unfold State.settled
  try dsimp only
  repeat' first
    | with_reducible first
      | assumption | apply State.settle_kept | apply State.kept_ite
    | fail_if_no_progress with_reducible apply State.kept_mk

theorem State.finish_kept (s : State) (fn q sq : Nat) (g : Option Nat) (status detail : Nat) (policy : Bool) (hi : s.kept
    cmds) : (State.finish s fn q sq g status detail policy).kept cmds := by
  unfold State.finish
  try dsimp only
  repeat' first
    | with_reducible first
      | assumption | apply State.finish1_kept | apply State.settled_kept | apply State.kept_ite
    | fail_if_no_progress with_reducible apply State.kept_mk

theorem State.signal_kept (s : State) (fn l : Nat) (x : U64) (hi : s.kept cmds) : (State.signal s fn l x).2.kept cmds := by
  unfold State.signal
  try dsimp only
  repeat' first
    | with_reducible first
      | assumption | apply State.signalLatch_kept | apply State.settled_kept | apply State.kept_ite | apply State.kept_ite2
    | split | with_reducible refine State.kept_snd (by assumption) ?_
    | with_reducible refine State.kept_snd2 (by assumption) ?_ | with_reducible refine State.kept_snd3 (by assumption) ?_
    | fail_if_no_progress with_reducible apply State.kept_mk

theorem State.failCmd_kept (s : State) (fn q sq : Nat) (g : Option Nat) (status source cause unit addr : Nat) (tag : Nat)
    (detail : Nat) (hi : s.kept cmds) : (State.failCmd s fn q sq g status source cause unit addr tag detail).kept cmds := by
  unfold State.failCmd
  try dsimp only
  repeat' first
    | with_reducible first
      | assumption | apply State.logErr_kept | apply State.finish_kept | apply State.kept_ite
    | with_reducible refine State.kept_snd (by assumption) ?_ | with_reducible refine State.kept_snd2 (by assumption) ?_
    | with_reducible refine State.kept_snd3 (by assumption) ?_ | fail_if_no_progress with_reducible apply State.kept_mk

/-! ## The definitions of Machine/Operands.lean -/

theorem State.setCore_kept (s : State) (n : Nat) (c : Core) (hi : s.kept cmds) : (State.setCore s n c).kept cmds := by
  unfold State.setCore
  try dsimp only
  repeat' first
    | with_reducible first
      | assumption | apply State.kept_ite
    | fail_if_no_progress with_reducible apply State.kept_mk

theorem State.recordExc_kept (s : State) (n : Nat) (precise : Bool) (bundle : Nat) (e : ExcSrc) (hi : s.kept cmds) :
    (State.recordExc s n precise bundle e).kept cmds := by
  unfold State.recordExc
  try dsimp only
  repeat' first
    | with_reducible first
      | assumption | apply State.satAdd_kept | apply State.wr_kept | apply State.kept_ite
    | with_reducible refine State.kept_snd (by assumption) ?_ | with_reducible refine State.kept_snd2 (by assumption) ?_
    | with_reducible refine State.kept_snd3 (by assumption) ?_ | fail_if_no_progress with_reducible apply State.kept_mk

theorem State.updLaunch_kept (s : State) (id : Nat) (f : Launch → Launch) (hi : s.kept cmds) : (State.updLaunch s id f).kept
    cmds := by
  unfold State.updLaunch
  try dsimp only
  repeat' first
    | with_reducible first
      | assumption | apply State.kept_ite
    | fail_if_no_progress with_reducible apply State.kept_mk

theorem State.finishLaunch_kept (s : State) (l : Launch) (status detail : Nat) (policy : Bool) (hi : s.kept cmds) :
    (State.finishLaunch s l status detail policy).kept cmds := by
  unfold State.finishLaunch
  try dsimp only
  repeat' first
    | with_reducible first
      | assumption | apply State.updLaunch_kept | apply State.finish_kept | apply State.kept_ite
    | fail_if_no_progress with_reducible apply State.kept_mk

theorem State.failLaunch_kept (s : State) (n : Nat) (status kind unit va tag : Nat) (logIt : Bool) (hi : s.kept cmds) :
    (State.failLaunch s n status kind unit va tag logIt).kept cmds := by
  unfold State.failLaunch
  try dsimp only
  repeat' first
    | with_reducible first
      | assumption | apply State.logErr_kept | apply State.finishLaunch_kept | apply State.kept_ite
    | split | with_reducible refine State.kept_snd (by assumption) ?_
    | with_reducible refine State.kept_snd2 (by assumption) ?_ | with_reducible refine State.kept_snd3 (by assumption) ?_
    | fail_if_no_progress with_reducible apply State.kept_mk

theorem State.recordAll_kept (s : State) (n bundle : Nat) (es : List ExcSrc) (hi : s.kept cmds) : (State.recordAll s n
    bundle es).kept cmds := by
  unfold State.recordAll
  try dsimp only
  repeat' first
    | with_reducible first
      | assumption | apply State.recordExc_kept | apply State.kept_ite | refine State.kept_foldl (fun _ _ _ => ?_) ?_ _
    | fail_if_no_progress with_reducible apply State.kept_mk

theorem State.preciseAt_kept (s : State) (n bundle : Nat) (e : ExcSrc) (es : List ExcSrc) (hi : s.kept cmds) :
    (State.preciseAt s n bundle e es).kept cmds := by
  unfold State.preciseAt
  try dsimp only
  repeat' first
    | with_reducible first
      | assumption | apply State.setCore_kept | apply State.recordAll_kept | apply State.failLaunch_kept
      | apply State.kept_ite
    | fail_if_no_progress with_reducible apply State.kept_mk

theorem State.preciseExc_kept (s : State) (n : Nat) (e : ExcSrc) (es : List ExcSrc) (hi : s.kept cmds) : (State.preciseExc s
    n e es).kept cmds := by
  unfold State.preciseExc
  try dsimp only
  repeat' first
    | with_reducible first
      | assumption | apply State.preciseAt_kept | apply State.kept_ite
    | fail_if_no_progress with_reducible apply State.kept_mk

/-! ## The definitions of Machine/Issue.lean -/

theorem State.startEngines_kept (s : State) (n : Nat) (hi : s.kept cmds) : (State.startEngines s n).kept cmds := by
  unfold State.startEngines
  try dsimp only
  repeat' first
    | with_reducible first
      | assumption | apply State.setCore_kept | apply State.updLaunch_kept | apply State.kept_ite
    | split | with_reducible refine State.kept_snd (by assumption) ?_
    | with_reducible refine State.kept_snd2 (by assumption) ?_ | with_reducible refine State.kept_snd3 (by assumption) ?_
    | fail_if_no_progress with_reducible apply State.kept_mk

theorem State.sendPosted_kept (s : State) (n : Nat) (g : PostedSig) (hi : s.kept cmds) : (State.sendPosted s n g).kept cmds
    := by
  unfold State.sendPosted
  try dsimp only
  repeat' first
    | with_reducible first
      | assumption | apply State.sendSignal_kept | apply State.signal_kept | apply State.kept_ite
    | split | with_reducible refine State.kept_snd (by assumption) ?_
    | with_reducible refine State.kept_snd2 (by assumption) ?_ | with_reducible refine State.kept_snd3 (by assumption) ?_
    | fail_if_no_progress with_reducible apply State.kept_mk

theorem State.sendSigs_kept (s : State) (n : Nat) (hi : s.kept cmds) : (State.sendSigs s n).kept cmds := by
  unfold State.sendSigs
  try dsimp only
  repeat' first
    | with_reducible first
      | assumption | apply State.sendPosted_kept | apply State.setCore_kept | apply State.kept_ite
      | refine State.kept_foldl (fun _ _ _ => ?_) ?_ _
    | with_reducible refine State.kept_snd (by assumption) ?_ | with_reducible refine State.kept_snd2 (by assumption) ?_
    | with_reducible refine State.kept_snd3 (by assumption) ?_ | fail_if_no_progress with_reducible apply State.kept_mk

theorem State.retireEnd_kept (s : State) (n : Nat) (hi : s.kept cmds) : (State.retireEnd s n).kept cmds := by
  unfold State.retireEnd
  try dsimp only
  repeat' first
    | with_reducible first
      | assumption | apply State.setCore_kept | apply State.updLaunch_kept | apply State.kept_ite
    | split | with_reducible refine State.kept_snd (by assumption) ?_
    | with_reducible refine State.kept_snd2 (by assumption) ?_ | with_reducible refine State.kept_snd3 (by assumption) ?_
    | fail_if_no_progress with_reducible apply State.kept_mk

theorem State.retireBeatEnd_kept (s : State) (n : Nat) (hi : s.kept cmds) : (State.retireBeatEnd s n).kept cmds := by
  unfold State.retireBeatEnd
  try dsimp only
  repeat' first
    | with_reducible first
      | assumption | apply State.setCore_kept | apply State.kept_ite
    | fail_if_no_progress with_reducible apply State.kept_mk

theorem State.advanced_kept (s : State) (n e : Nat) (hi : s.kept cmds) : (State.advanced s n e).kept cmds := by
  unfold State.advanced
  try dsimp only
  repeat' first
    | with_reducible first
      | assumption | apply State.setCore_kept | apply State.kept_ite
    | fail_if_no_progress with_reducible apply State.kept_mk

theorem State.pump_kept (s : State) (n : Nat) (hi : s.kept cmds) : (State.pump s n).kept cmds := by
  unfold State.pump
  try dsimp only
  repeat' first
    | with_reducible first
      | assumption | apply State.startEngines_kept | apply State.sendSigs_kept | apply State.retireBeatEnd_kept
      | apply State.retireEnd_kept | apply State.kept_ite
    | fail_if_no_progress with_reducible apply State.kept_mk

theorem State.closeBundle_kept (s : State) (n : Nat) (b : OpenBundle) (after : State → State) (hi : s.kept cmds) (hf_after :
    ∀ t, State.kept cmds t → State.kept cmds (after t)) : (State.closeBundle s n b after).kept cmds := by
  unfold State.closeBundle
  try dsimp only
  repeat' first
    | with_reducible first
      | assumption | apply hf_after | apply State.setCore_kept | apply State.preciseExc_kept | apply State.pump_kept
      | apply State.kept_ite
    | split | fail_if_no_progress with_reducible apply State.kept_mk

theorem State.slotIn_kept (s : State) (x : Slot) (cls : Nat) (b : OpenBundle) (after : State → State) (hi : s.kept cmds)
    (hf_after : ∀ t, State.kept cmds t → State.kept cmds (after t)) : (State.slotIn s x cls b after).kept cmds := by
  unfold State.slotIn
  try dsimp only
  repeat' first
    | with_reducible first
      | assumption | apply hf_after | apply State.setCore_kept | apply State.closeBundle_kept | apply State.kept_ite
    | exact fun _ h => h | intro _ _ _ | intro _ _ | fail_if_no_progress with_reducible apply State.kept_mk

theorem State.issueWith_kept (s : State) (x : Slot) (q : SlotReq) (ready : CoreState → Bool) (run : CoreState → CoreState →
    SlotRun) (after : State → State) (hi : s.kept cmds) (hf_after : ∀ t, State.kept cmds t → State.kept cmds (after t)) :
    (State.issueWith s x q ready run after).kept cmds := by
  unfold State.issueWith
  try dsimp only
  repeat' first
    | with_reducible first
      | assumption | apply hf_ready | apply hf_run | apply hf_after | apply State.preciseAt_kept | apply State.slotIn_kept
      | apply State.kept_ite
    | exact fun _ h => h | intro _ _ _ | intro _ _ | fail_if_no_progress with_reducible apply State.kept_mk

theorem State.issue_kept (s : State) (x : Slot) (q : SlotReq) (ready : CoreState → Bool) (run : CoreState → CoreState →
    SlotRun) (hi : s.kept cmds) : (State.issue s x q ready run).kept cmds := by
  unfold State.issue
  try dsimp only
  repeat' first
    | with_reducible first
      | assumption | apply hf_ready | apply hf_run | apply State.issueWith_kept | apply State.kept_ite
    | exact fun _ h => h | intro _ _ _ | intro _ _ | fail_if_no_progress with_reducible apply State.kept_mk

/-! ## The definitions of Machine/MoveIssue.lean -/

theorem State.moveArith_kept (s : State) (x : Slot) (k : Nat) (hi : s.kept cmds) : (State.moveArith s x k).kept cmds := by
  unfold State.moveArith
  try dsimp only
  repeat' first
    | with_reducible first
      | assumption | apply State.issue_kept | apply State.kept_ite
    | with_reducible refine State.kept_snd (by assumption) ?_ | with_reducible refine State.kept_snd2 (by assumption) ?_
    | with_reducible refine State.kept_snd3 (by assumption) ?_ | fail_if_no_progress with_reducible apply State.kept_mk

theorem State.gatherScatter_kept (s : State) (x : Slot) (op : Nat) (hi : s.kept cmds) : (State.gatherScatter s x op).kept
    cmds := by
  unfold State.gatherScatter
  try dsimp only
  repeat' first
    | with_reducible first
      | assumption | apply State.issue_kept | apply State.wr_kept | apply State.kept_ite
    | with_reducible refine State.kept_snd (by assumption) ?_ | with_reducible refine State.kept_snd2 (by assumption) ?_
    | with_reducible refine State.kept_snd3 (by assumption) ?_ | fail_if_no_progress with_reducible apply State.kept_mk

theorem State.atomIssue_kept (s : State) (x : Slot) (k : Nat) (hi : s.kept cmds) : (State.atomIssue s x k).kept cmds := by
  unfold State.atomIssue
  try dsimp only
  repeat' first
    | with_reducible first
      | assumption | apply State.issue_kept | apply State.kept_ite
    | with_reducible refine State.kept_snd (by assumption) ?_ | with_reducible refine State.kept_snd2 (by assumption) ?_
    | with_reducible refine State.kept_snd3 (by assumption) ?_ | fail_if_no_progress with_reducible apply State.kept_mk

end Sys2Proof.Machine
end

