-- ==== Sys2Proof/Laws/KeepsMemory.lean ====
section
/-! SUPPORT. The canonical form of the state (State.kept) is kept by every operation of the model that gives a state: memory,
the memory side and translation.
One lemma for each, to be cited in place of unfolding it. -/

set_option linter.unusedTactic false
set_option linter.unreachableTactic false

namespace Sys2Proof.Machine

open Sys2Proof

variable {cmds : List Instr}

/-! ## The definitions of Machine/Memory.lean -/

theorem State.setPoison_kept (s : State) (pa : Nat) (b : Bool) (h : s.kept cmds) : (s.setPoison pa b).kept cmds :=
  State.kept_poison h (Tab.wf_set _ _ _ h.2.1)

theorem State.memLog_kept (s : State) (cls status pa : Nat) (hi : s.kept cmds) : (State.memLog s cls status pa).kept cmds :=
    by
  unfold State.memLog
  try dsimp only
  repeat' first
    | with_reducible first
      | assumption | apply State.logErr_kept | apply State.kept_ite
    | split | fail_if_no_progress with_reducible apply State.kept_mk

theorem State.memCE_kept (s : State) (pa : Nat) (hi : s.kept cmds) : (State.memCE s pa).kept cmds := by
  unfold State.memCE
  try dsimp only
  repeat' first
    | with_reducible first
      | assumption | apply State.satAdd_kept | apply State.raise_kept | apply State.memLog_kept | apply State.kept_ite
    | split | fail_if_no_progress with_reducible apply State.kept_mk

theorem State.memUce_kept (s : State) (pa : Nat) (hi : s.kept cmds) : (State.memUce s pa).kept cmds := by
  unfold State.memUce
  try dsimp only
  repeat' first
    | with_reducible first
      | assumption | apply State.satAdd_kept | apply State.raise_kept | apply State.kept_ite
    | split | fail_if_no_progress with_reducible apply State.kept_mk

theorem State.setIntact_kept (s : State) (fn : Nat) (hi : s.kept cmds) : (State.setIntact s fn).kept cmds := by
  unfold State.setIntact
  try dsimp only
  repeat' first
    | with_reducible first
      | assumption | apply State.setFld_kept | apply State.kept_ite
    | fail_if_no_progress with_reducible apply State.kept_mk

theorem State.damage_kept (s : State) (i : Nat) (hi : s.kept cmds) : (State.damage s i).kept cmds := by
  unfold State.damage
  try dsimp only
  repeat' first
    | with_reducible first
      | assumption | apply State.setFld_kept | apply State.kept_ite | refine State.kept_foldl (fun _ _ _ => ?_) ?_ _
    | with_reducible refine State.kept_snd (by assumption) ?_ | with_reducible refine State.kept_snd2 (by assumption) ?_
    | with_reducible refine State.kept_snd3 (by assumption) ?_ | fail_if_no_progress with_reducible apply State.kept_mk

theorem State.mend_kept (s : State) (pa : Nat) (hi : s.kept cmds) : (State.mend s pa).kept cmds := by
  unfold State.mend
  try dsimp only
  repeat' first
    | with_reducible first
      | assumption | apply State.kept_ite
    | fail_if_no_progress with_reducible apply State.kept_mk

theorem State.repairUnit_kept (s : State) (pa other : Nat) (h : s.kept cmds) : (s.repairUnit pa other).kept cmds :=
  State.setPoison_kept _ _ _ (State.kept_mem h (Memory.wf_setRun _ _ h.1))

theorem State.compareTwin_kept (s : State) (i off : Nat) (hi : s.kept cmds) : (State.compareTwin s i off).kept cmds := by
  unfold State.compareTwin
  try dsimp only
  repeat' first
    | with_reducible first
      | assumption | apply State.kept_ite
    | with_reducible refine State.kept_snd (by assumption) ?_ | with_reducible refine State.kept_snd2 (by assumption) ?_
    | with_reducible refine State.kept_snd3 (by assumption) ?_ | fail_if_no_progress with_reducible apply State.kept_mk

theorem State.verifyRun_kept (s : State) (pa len : Nat) (hi : s.kept cmds) : (State.verifyRun s pa len).kept cmds := by
  unfold State.verifyRun
  try dsimp only
  repeat' first
    | with_reducible first
      | assumption | apply State.compareTwin_kept | apply State.kept_ite | refine State.kept_foldl (fun _ _ _ => ?_) ?_ _
    | split | with_reducible refine State.kept_snd (by assumption) ?_
    | with_reducible refine State.kept_snd2 (by assumption) ?_ | with_reducible refine State.kept_snd3 (by assumption) ?_
    | fail_if_no_progress with_reducible apply State.kept_mk

theorem State.requestRoll_kept (s : State) (hi : s.kept cmds) : (State.requestRoll s).kept cmds := by
  unfold State.requestRoll
  try dsimp only
  repeat' first
    | with_reducible first
      | assumption | apply State.setFld_kept | apply State.kept_ite
    | fail_if_no_progress with_reducible apply State.kept_mk

theorem State.hwm_kept (s : State) (n : Nat) (hi : s.kept cmds) : (State.hwm s n).kept cmds := by
  unfold State.hwm
  try dsimp only
  repeat' first
    | with_reducible first
      | assumption | apply State.raise_kept | apply State.requestRoll_kept | apply State.kept_ite
    | fail_if_no_progress with_reducible apply State.kept_mk

theorem State.dirtyNode_kept (s : State) (n : Nat) (hi : s.kept cmds) : (State.dirtyNode s n).kept cmds := by
  unfold State.dirtyNode
  try dsimp only
  repeat' first
    | with_reducible first
      | assumption | apply State.kept_ite
    | fail_if_no_progress with_reducible apply State.kept_mk

theorem State.writeBack_kept (s : State) (n : Nat) (hi : s.kept cmds) : (State.writeBack s n).kept cmds := by
  unfold State.writeBack
  try dsimp only
  repeat' first
    | with_reducible first
      | assumption | apply State.dirtyNode_kept | apply State.hwm_kept | apply State.kept_ite
    | with_reducible refine State.kept_snd (by assumption) ?_ | with_reducible refine State.kept_snd2 (by assumption) ?_
    | with_reducible refine State.kept_snd3 (by assumption) ?_ | fail_if_no_progress with_reducible apply State.kept_mk

theorem State.cacheRoom_kept (s : State) (die : Nat) (hi : s.kept cmds) : (State.cacheRoom s die).kept cmds := by
  unfold State.cacheRoom
  try dsimp only
  repeat' first
    | with_reducible first
      | assumption | apply State.draw_kept | apply State.writeBack_kept | apply State.kept_ite
    | split | with_reducible refine State.kept_snd (by assumption) ?_
    | with_reducible refine State.kept_snd2 (by assumption) ?_ | with_reducible refine State.kept_snd3 (by assumption) ?_
    | fail_if_no_progress with_reducible apply State.kept_mk

theorem State.nodeLookup_kept (f : Nat) (s : State) (n : Nat) (h : s.kept cmds) : (State.nodeLookup f s n).kept cmds := by
  induction f generalizing s n with
  | zero => exact h
  | succ f ih =>
    rw [State.nodeLookup]
    dsimp only
    split
    · exact State.satAdd_kept _ _ _ _ _ h
    · have h1 := State.satAdd_kept s 0 (nodeDie n) Reg.DCTL_T2CC.MISSES 1 h
      apply State.kept_mk
      apply State.cacheRoom_kept
      split
      · exact ih _ _ h1
      · exact h1

theorem State.leafLookup_kept (s : State) (pa : Nat) (hi : s.kept cmds) : (State.leafLookup s pa).kept cmds := by
  unfold State.leafLookup
  try dsimp only
  repeat' first
    | with_reducible first
      | assumption | apply State.nodeLookup_kept | apply State.kept_ite
    | split | fail_if_no_progress with_reducible apply State.kept_mk

theorem State.granuleWrite_kept (s : State) (pa : Nat) (hi : s.kept cmds) : (State.granuleWrite s pa).kept cmds := by
  unfold State.granuleWrite
  try dsimp only
  repeat' first
    | with_reducible first
      | assumption | apply State.nodeLookup_kept | apply State.dirtyNode_kept | apply State.hwm_kept | apply State.kept_ite
    | split | with_reducible refine State.kept_snd (by assumption) ?_
    | with_reducible refine State.kept_snd2 (by assumption) ?_ | with_reducible refine State.kept_snd3 (by assumption) ?_
    | fail_if_no_progress with_reducible apply State.kept_mk

theorem State.tier2Write_kept (s : State) (pa len : Nat) (hi : s.kept cmds) : (State.tier2Write s pa len).kept cmds := by
  unfold State.tier2Write
  try dsimp only
  repeat' first
    | with_reducible first
      | assumption | apply State.granuleWrite_kept | apply State.writeBack_kept | apply State.kept_ite
      | refine State.kept_foldl (fun _ _ _ => ?_) ?_ _
    | split | with_reducible refine State.kept_snd (by assumption) ?_
    | with_reducible refine State.kept_snd2 (by assumption) ?_ | with_reducible refine State.kept_snd3 (by assumption) ?_
    | fail_if_no_progress with_reducible apply State.kept_mk

theorem State.tier2Read_kept (s : State) (pa len : Nat) (hi : s.kept cmds) : (State.tier2Read s pa len).kept cmds := by
  unfold State.tier2Read
  try dsimp only
  repeat' first
    | with_reducible first
      | assumption | apply State.leafLookup_kept | apply State.kept_ite | refine State.kept_foldl (fun _ _ _ => ?_) ?_ _
    | split | with_reducible refine State.kept_snd (by assumption) ?_
    | with_reducible refine State.kept_snd2 (by assumption) ?_ | with_reducible refine State.kept_snd3 (by assumption) ?_
    | fail_if_no_progress with_reducible apply State.kept_mk

theorem State.readTwin_kept (s : State) (i pa other : Nat) (off n : Nat) (hi : s.kept cmds) : (State.readTwin s i pa other
    off n).st.kept cmds := by
  unfold State.readTwin
  try dsimp only
  repeat' first
    | with_reducible first
      | assumption | apply State.drawBool_kept | apply State.repairUnit_kept | apply State.memUce_kept
      | apply State.memCE_kept | apply State.mend_kept | apply State.damage_kept | apply State.memLog_kept
      | apply State.kept_ite | apply State.kept_iteRd
    | split | with_reducible refine State.kept_snd (by assumption) ?_
    | with_reducible refine State.kept_snd2 (by assumption) ?_ | with_reducible refine State.kept_snd3 (by assumption) ?_
    | fail_if_no_progress with_reducible apply State.kept_mk

theorem State.readUnit_kept (s : State) (pa off n : Nat) (hi : s.kept cmds) : (State.readUnit s pa off n).st.kept cmds := by
  unfold State.readUnit
  try dsimp only
  repeat' first
    | with_reducible first
      | assumption | apply State.readTwin_kept | apply State.kept_ite | apply State.kept_iteRd
    | split | with_reducible refine State.kept_snd (by assumption) ?_
    | with_reducible refine State.kept_snd2 (by assumption) ?_ | with_reducible refine State.kept_snd3 (by assumption) ?_
    | fail_if_no_progress with_reducible apply State.kept_mk

theorem State.readUnits_kept (f : Nat) (s : State) (pa len : Nat) (h : s.kept cmds) : (State.readUnits f s pa len).st.kept
    cmds := by
  induction f generalizing s pa len with
  | zero => exact h
  | succ f ih =>
    rw [State.readUnits]
    dsimp only
    split
    · exact h
    · exact ih _ _ _ (State.readUnit_kept _ _ _ _ h)

theorem State.readMem_kept (s : State) (pa len : Nat) (hi : s.kept cmds) : (State.readMem s pa len).st.kept cmds := by
  unfold State.readMem
  try dsimp only
  repeat' first
    | with_reducible first
      | assumption | apply State.tier2Read_kept | apply State.readUnits_kept | apply State.kept_ite | apply State.kept_iteRd
    | fail_if_no_progress with_reducible apply State.kept_mk

theorem State.storeUnits_kept (f : Nat) (s : State) (pa : Nat) (d : List Byte) (h : s.kept cmds) : (State.storeUnits f s pa
    d).kept cmds := by
  induction f generalizing s pa d with
  | zero => exact h
  | succ f ih =>
    rw [State.storeUnits]
    dsimp only
    have h1 := State.kept_mem h (Memory.wf_setRun (d.take (min d.length (256 - pa % 256))) pa h.1)
    split
    · exact h
    · exact ih _ _ _ (State.kept_ite (State.setPoison_kept _ _ _ h1) h1)

theorem State.poisonRun_kept (s : State) (pa len : Nat) (hi : s.kept cmds) : (State.poisonRun s pa len).kept cmds := by
  unfold State.poisonRun
  try dsimp only
  repeat' first
    | with_reducible first
      | assumption | apply State.setPoison_kept | apply State.kept_ite | refine State.kept_foldl (fun _ _ _ => ?_) ?_ _
    | with_reducible refine State.kept_snd (by assumption) ?_ | with_reducible refine State.kept_snd2 (by assumption) ?_
    | with_reducible refine State.kept_snd3 (by assumption) ?_ | fail_if_no_progress with_reducible apply State.kept_mk

theorem State.writeMem_kept (s : State) (pa : Nat) (d : List Byte) (isPoisoned : Bool) (hi : s.kept cmds) : (State.writeMem
    s pa d isPoisoned).2.kept cmds := by
  unfold State.writeMem
  try dsimp only
  repeat' first
    | with_reducible first
      | assumption | apply State.poisonRun_kept | apply State.tier2Write_kept | apply State.storeUnits_kept
      | apply State.kept_ite | apply State.kept_ite2
    | fail_if_no_progress with_reducible apply State.kept_mk

theorem State.dirty_kept (s : State) (q pa : Nat) (h : s.kept cmds) : (s.dirty q pa).kept cmds := by
  unfold State.dirty
  exact State.kept_ite h (State.kept_ite (State.kept_mem h (Memory.wf_set _ _ h.1)) (State.raise_kept _ _ _ _ h))

theorem State.dirtyRun_kept (s : State) (q pa len : Nat) (hi : s.kept cmds) : (State.dirtyRun s q pa len).kept cmds := by
  unfold State.dirtyRun
  try dsimp only
  repeat' first
    | with_reducible first
      | assumption | apply State.dirty_kept | apply State.kept_ite | refine State.kept_foldl (fun _ _ _ => ?_) ?_ _
    | with_reducible refine State.kept_snd (by assumption) ?_ | with_reducible refine State.kept_snd2 (by assumption) ?_
    | with_reducible refine State.kept_snd3 (by assumption) ?_ | fail_if_no_progress with_reducible apply State.kept_mk

theorem State.securityAlarm_kept (s : State) (pa : Nat) (hi : s.kept cmds) : (State.securityAlarm s pa).kept cmds := by
  unfold State.securityAlarm
  try dsimp only
  repeat' first
    | with_reducible first
      | assumption | apply State.memLog_kept | apply State.raiseAlarm_kept | apply State.partAlarm_kept
      | apply State.kept_ite
    | split | fail_if_no_progress with_reducible apply State.kept_mk

theorem State.garble_kept (s : State) (pa : Nat) (hi : s.kept cmds) : (State.garble s pa).kept cmds := by
  unfold State.garble
  try dsimp only
  repeat' first
    | with_reducible first
      | assumption | apply State.draw_kept | apply State.kept_ite | refine State.kept_foldl (fun _ _ _ => ?_) ?_ _
      | apply State.kept_memSet | apply State.kept_memRun
    | split | with_reducible refine State.kept_snd (by assumption) ?_
    | with_reducible refine State.kept_snd2 (by assumption) ?_ | with_reducible refine State.kept_snd3 (by assumption) ?_
    | fail_if_no_progress with_reducible apply State.kept_mk

theorem State.readCoded_kept (s : State) (pa : Nat) (errs : List Nat) (hi : s.kept cmds) : (State.readCoded s pa
    errs).2.kept cmds := by
  unfold State.readCoded
  try dsimp only
  repeat' first
    | with_reducible first
      | assumption | apply State.drawBool_kept | apply State.garble_kept | apply State.kept_ite | apply State.kept_ite2
    | split | with_reducible refine State.kept_snd (by assumption) ?_
    | with_reducible refine State.kept_snd2 (by assumption) ?_ | with_reducible refine State.kept_snd3 (by assumption) ?_
    | fail_if_no_progress with_reducible apply State.kept_mk

theorem State.poisonRead_kept (s : State) (pa st : Nat) (hi : s.kept cmds) : (State.poisonRead s pa st).kept cmds := by
  unfold State.poisonRead
  try dsimp only
  repeat' first
    | with_reducible first
      | assumption | apply State.setPoison_kept | apply State.memUce_kept | apply State.memLog_kept | apply State.kept_ite
    | fail_if_no_progress with_reducible apply State.kept_mk

theorem State.loseUnit_kept (s : State) (i pa other st : Nat) (hi : s.kept cmds) : (State.loseUnit s i pa other st).kept
    cmds := by
  unfold State.loseUnit
  try dsimp only
  repeat' first
    | with_reducible first
      | assumption | apply State.setPoison_kept | apply State.memUce_kept | apply State.damage_kept
      | apply State.memLog_kept | apply State.kept_ite
    | fail_if_no_progress with_reducible apply State.kept_mk

theorem State.serveTwin_kept (s : State) (pa other : Nat) (again alarm : Bool) (hi : s.kept cmds) : (State.serveTwin s pa
    other again alarm).kept cmds := by
  unfold State.serveTwin
  try dsimp only
  repeat' first
    | with_reducible first
      | assumption | apply State.repairUnit_kept | apply State.mend_kept | apply State.memLog_kept | apply State.memUce_kept
      | apply State.memCE_kept | apply State.kept_ite
    | with_reducible refine State.kept_snd (by assumption) ?_ | with_reducible refine State.kept_snd2 (by assumption) ?_
    | with_reducible refine State.kept_snd3 (by assumption) ?_ | fail_if_no_progress with_reducible apply State.kept_mk

theorem State.authRead_kept (s : State) (pa : Nat) (a : Auth) (twin : Option (Nat × Nat × Nat)) (again good : Bool) (st :
    Nat) (hi : s.kept cmds) : (State.authRead s pa a twin again good st).kept cmds := by
  unfold State.authRead
  try dsimp only
  repeat' first
    | with_reducible first
      | assumption | apply State.memCE_kept | apply State.raise_kept | apply State.serveTwin_kept
      | apply State.loseUnit_kept | apply State.memLog_kept | apply State.setPoison_kept | apply State.securityAlarm_kept
      | apply State.setFld_kept | apply State.kept_ite
    | split | fail_if_no_progress with_reducible apply State.kept_mk

theorem State.twinServes_kept (s : State) (twin : Option (Nat × Nat × Nat)) (e : ReadIn) (hi : s.kept cmds) :
    (State.twinServes s twin e).2.kept cmds := by
  unfold State.twinServes
  try dsimp only
  repeat' first
    | with_reducible first
      | assumption | apply State.readCoded_kept | apply State.kept_ite | apply State.kept_ite2
    | split | with_reducible refine State.kept_snd (by assumption) ?_
    | with_reducible refine State.kept_snd2 (by assumption) ?_ | with_reducible refine State.kept_snd3 (by assumption) ?_
    | fail_if_no_progress with_reducible apply State.kept_mk

theorem State.serveRead_kept (s : State) (pa : Nat) (e : ReadIn) (st : Nat) (hi : s.kept cmds) : (State.serveRead s pa e
    st).kept cmds := by
  unfold State.serveRead
  try dsimp only
  repeat' first
    | with_reducible first
      | assumption | apply State.tier2Read_kept | apply State.readCoded_kept | apply State.twinServes_kept
      | apply State.authRead_kept | apply State.memCE_kept | apply State.poisonRead_kept | apply State.serveTwin_kept
      | apply State.loseUnit_kept | apply State.kept_ite
    | split | with_reducible refine State.kept_snd (by assumption) ?_
    | with_reducible refine State.kept_snd2 (by assumption) ?_ | with_reducible refine State.kept_snd3 (by assumption) ?_
    | fail_if_no_progress with_reducible apply State.kept_mk

theorem State.copyChunk_kept (s : State) (fr dst len : Nat) (hi : s.kept cmds) : (State.copyChunk s fr dst len).kept cmds :=
    by
  unfold State.copyChunk
  try dsimp only
  repeat' first
    | with_reducible first
      | assumption | apply State.setPoison_kept | apply State.tier2Write_kept | apply State.memCE_kept
      | apply State.kept_ite | refine State.kept_foldl (fun _ _ _ => ?_) ?_ _ | apply State.kept_memSet
      | apply State.kept_memRun
    | with_reducible refine State.kept_snd (by assumption) ?_ | with_reducible refine State.kept_snd2 (by assumption) ?_
    | with_reducible refine State.kept_snd3 (by assumption) ?_ | fail_if_no_progress with_reducible apply State.kept_mk

theorem State.stopUnit_kept (s : State) (unit temp : Nat) (hi : s.kept cmds) : (State.stopUnit s unit temp).kept cmds := by
  unfold State.stopUnit
  try dsimp only
  repeat' first
    | with_reducible first
      | assumption | apply State.setFld_kept | apply State.raise_kept | apply State.logErr_kept
      | apply State.raiseAlarm_kept | apply State.kept_ite | refine State.kept_foldl (fun _ _ _ => ?_) ?_ _
    | with_reducible refine State.kept_snd (by assumption) ?_ | with_reducible refine State.kept_snd2 (by assumption) ?_
    | with_reducible refine State.kept_snd3 (by assumption) ?_ | fail_if_no_progress with_reducible apply State.kept_mk

theorem State.restartUnit_kept (s : State) (unit : Nat) (hi : s.kept cmds) : (State.restartUnit s unit).kept cmds := by
  unfold State.restartUnit
  try dsimp only
  repeat' first
    | with_reducible first
      | assumption | apply State.setFld_kept | apply State.kept_ite
    | fail_if_no_progress with_reducible apply State.kept_mk

theorem State.noteTemp_kept (s : State) (unit temp : Nat) (hi : s.kept cmds) : (State.noteTemp s unit temp).kept cmds := by
  unfold State.noteTemp
  try dsimp only
  repeat' first
    | with_reducible first
      | assumption | apply State.setFld_kept | apply State.kept_ite
    | fail_if_no_progress with_reducible apply State.kept_mk

theorem State.throttle_kept (s : State) (unit : Nat) (hi : s.kept cmds) : (State.throttle s unit).kept cmds := by
  unfold State.throttle
  try dsimp only
  repeat' first
    | with_reducible first
      | assumption | apply State.setFld_kept | apply State.raise_kept | apply State.kept_ite
    | with_reducible refine State.kept_snd (by assumption) ?_ | with_reducible refine State.kept_snd2 (by assumption) ?_
    | with_reducible refine State.kept_snd3 (by assumption) ?_ | fail_if_no_progress with_reducible apply State.kept_mk

theorem State.zeroRange_kept (s : State) (lo n : Nat) (h : s.kept cmds) : (s.zeroRange lo n).kept cmds := by
  obtain ⟨h1, h2, h3⟩ := h
  exact ⟨Memory.wf_filter _ h1, Tab.wf_filter _ _ h2, h3⟩

theorem State.beginWipes_kept (s : State) (hi : s.kept cmds) : (State.beginWipes s).kept cmds := by
  unfold State.beginWipes
  try dsimp only
  repeat' first
    | with_reducible first
      | assumption | apply State.kept_ite
    | with_reducible refine State.kept_snd (by assumption) ?_ | with_reducible refine State.kept_snd2 (by assumption) ?_
    | with_reducible refine State.kept_snd3 (by assumption) ?_ | fail_if_no_progress with_reducible apply State.kept_mk

theorem State.wipeGranule_kept (s : State) (g : Nat) (hi : s.kept cmds) : (State.wipeGranule s g).kept cmds := by
  unfold State.wipeGranule
  try dsimp only
  repeat' first
    | with_reducible first
      | assumption | apply State.zeroRange_kept | apply State.setFld_kept | apply State.kept_ite
      | refine State.kept_foldl (fun _ _ _ => ?_) ?_ _
    | with_reducible refine State.kept_snd (by assumption) ?_ | with_reducible refine State.kept_snd2 (by assumption) ?_
    | with_reducible refine State.kept_snd3 (by assumption) ?_ | fail_if_no_progress with_reducible apply State.kept_mk

theorem State.freeWiped_kept (s : State) (hi : s.kept cmds) : (State.freeWiped s).kept cmds := by
  unfold State.freeWiped
  try dsimp only
  repeat' first
    | with_reducible first
      | assumption | apply State.setOwner_kept | apply State.kept_ite | refine State.kept_foldl (fun _ _ _ => ?_) ?_ _
    | with_reducible refine State.kept_snd (by assumption) ?_ | with_reducible refine State.kept_snd2 (by assumption) ?_
    | with_reducible refine State.kept_snd3 (by assumption) ?_ | fail_if_no_progress with_reducible apply State.kept_mk

theorem State.startWipe_kept (s : State) (g : Nat) (hi : s.kept cmds) : (State.startWipe s g).kept cmds := by
  unfold State.startWipe
  try dsimp only
  repeat' first
    | with_reducible first
      | assumption | apply State.setOwner_kept | apply State.kept_ite
    | with_reducible refine State.kept_snd (by assumption) ?_ | with_reducible refine State.kept_snd2 (by assumption) ?_
    | with_reducible refine State.kept_snd3 (by assumption) ?_ | fail_if_no_progress with_reducible apply State.kept_mk

/-! ## The definitions of Machine/MemorySide.lean -/

theorem State.sumFree_kept (e f : Nat) (s : State) (vs : List Nat) (acc : Option FV) (h : s.kept cmds) :
    (State.sumFree e f s vs acc).2.kept cmds := by
  induction f generalizing s vs acc with
  | zero => exact h
  | succ f ih =>
    rw [State.sumFree]
    dsimp only
    split
    · exact State.draw_kept s h
    · exact ih _ _ _ (State.draw_kept s h)

theorem State.combineAdds_kept (s : State) (e old : Nat) (vs : List Nat) (h : s.kept cmds) :
    (s.combineAdds e old vs).2.kept cmds := by
  unfold State.combineAdds
  split
  · exact h
  · have h1 := State.sumFree_kept e vs.length s vs none h
    dsimp only
    split <;> exact h1

theorem State.owePoison_kept (s : State) (ids : List Nat) (hi : s.kept cmds) : (State.owePoison s ids).kept cmds := by
  unfold State.owePoison
  try dsimp only
  repeat' first
    | with_reducible first
      | assumption | apply State.kept_ite
    | with_reducible refine State.kept_snd (by assumption) ?_ | with_reducible refine State.kept_snd2 (by assumption) ?_
    | with_reducible refine State.kept_snd3 (by assumption) ?_ | fail_if_no_progress with_reducible apply State.kept_mk

theorem State.applyElement_kept (s : State) (pa e : Nat) (own : List Nat) (h : s.kept cmds) :
    (s.applyElement pa e own).2.kept cmds := by
  unfold State.applyElement
  dsimp only
  have h0 : State.kept cmds { s with contribs := s.contribs.filter fun c => !(c.pa == pa && c.e == e) } := State.kept_mk h ..
  apply State.kept_ite2
  · exact State.owePoison_kept _ _ h0
  · exact State.kept_memRun (State.combineAdds_kept _ _ _ _ h0)

theorem State.msoElems_kept (op e f : Nat) (s : State) (pa : Nat) (d : List Byte) (h : s.kept cmds) :
    (State.msoElems op e f s pa d).2.kept cmds := by
  induction f generalizing s pa d with
  | zero => exact h
  | succ f ih =>
    rw [State.msoElems]
    dsimp only
    split
    · exact h
    · exact ih _ _ _ (State.kept_ite2 (State.applyElement_kept _ _ _ _ h) (State.kept_ite2 h (State.kept_memRun h)))

theorem State.flushContribs_kept (s : State) (p : Nat → Bool) (hi : s.kept cmds) : (State.flushContribs s p).kept cmds := by
  unfold State.flushContribs
  try dsimp only
  repeat' first
    | with_reducible first
      | assumption | apply State.tier2Write_kept | apply State.applyElement_kept | apply State.kept_ite
      | refine State.kept_foldl (fun _ _ _ => ?_) ?_ _
    | with_reducible refine State.kept_snd (by assumption) ?_ | with_reducible refine State.kept_snd2 (by assumption) ?_
    | with_reducible refine State.kept_snd3 (by assumption) ?_ | fail_if_no_progress with_reducible apply State.kept_mk

theorem State.postContrib_kept (s : State) (pa e : Nat) (d : List Byte) (owed : Nat) (hi : s.kept cmds) : (State.postContrib
    s pa e d owed).kept cmds := by
  unfold State.postContrib
  try dsimp only
  repeat' first
    | with_reducible first
      | assumption | apply State.kept_ite
    | fail_if_no_progress with_reducible apply State.kept_mk

theorem State.owe_kept (s : State) (cell : Option (Nat × Cell × Nat × Nat)) (move : Option (Nat × Nat)) (hi : s.kept cmds) :
    (State.owe s cell move).kept cmds := by
  unfold State.owe
  try dsimp only
  repeat' first
    | with_reducible first
      | assumption | apply State.kept_ite
    | with_reducible refine State.kept_snd (by assumption) ?_ | with_reducible refine State.kept_snd2 (by assumption) ?_
    | with_reducible refine State.kept_snd3 (by assumption) ?_ | fail_if_no_progress with_reducible apply State.kept_mk

theorem State.mso_kept (s : State) (pa op e : Nat) (d : List Byte) (isPoisoned : Bool) (hi : s.kept cmds) : (State.mso s pa
    op e d isPoisoned).2.kept cmds := by
  unfold State.mso
  try dsimp only
  repeat' first
    | with_reducible first
      | assumption | apply State.poisonRun_kept | apply State.msoElems_kept | apply State.tier2Write_kept
      | apply State.kept_ite | apply State.kept_ite2
    | split | with_reducible refine State.kept_snd (by assumption) ?_
    | with_reducible refine State.kept_snd2 (by assumption) ?_ | with_reducible refine State.kept_snd3 (by assumption) ?_
    | fail_if_no_progress with_reducible apply State.kept_mk

theorem State.atomic_kept (s : State) (pa n : Nat) (store : Nat → Option Nat) (h : s.kept cmds) : (s.atomic pa n store).2.kept
    cmds := by
  unfold State.atomic
  dsimp only
  apply State.kept_ite2
  · exact State.draw_kept s h
  · split
    · exact State.tier2Read_kept _ _ _ h
    · have h1 := State.tier2Write_kept s (pa / n * n) n h
      exact State.kept_mem h1 (Memory.wf_setRun _ _ h1.1)

theorem State.swap_kept (s : State) (pa : Nat) (new : Nat) (hi : s.kept cmds) : (State.swap s pa new).2.kept cmds := by
  unfold State.swap
  try dsimp only
  repeat' first
    | with_reducible first
      | assumption | apply State.atomic_kept | apply State.kept_ite | apply State.kept_ite2
    | with_reducible refine State.kept_snd (by assumption) ?_ | with_reducible refine State.kept_snd2 (by assumption) ?_
    | with_reducible refine State.kept_snd3 (by assumption) ?_ | fail_if_no_progress with_reducible apply State.kept_mk

theorem State.cas_kept (s : State) (pa cmp new : Nat) (hi : s.kept cmds) : (State.cas s pa cmp new).2.kept cmds := by
  unfold State.cas
  try dsimp only
  repeat' first
    | with_reducible first
      | assumption | apply State.atomic_kept | apply State.kept_ite | apply State.kept_ite2
    | with_reducible refine State.kept_snd (by assumption) ?_ | with_reducible refine State.kept_snd2 (by assumption) ?_
    | with_reducible refine State.kept_snd3 (by assumption) ?_ | fail_if_no_progress with_reducible apply State.kept_mk

theorem State.claim_kept (s : State) (pa req cmp new : Nat) (hi : s.kept cmds) : (State.claim s pa req cmp new).2.kept cmds
    := by
  unfold State.claim
  try dsimp only
  repeat' first
    | with_reducible first
      | assumption | apply State.atomic_kept | apply State.kept_ite | apply State.kept_ite2
    | fail_if_no_progress with_reducible apply State.kept_mk

theorem State.atomOp_kept (s : State) (aop pa req cmp new : Nat) (hi : s.kept cmds) : (State.atomOp s aop pa req cmp
    new).2.kept cmds := by
  unfold State.atomOp
  try dsimp only
  repeat' first
    | with_reducible first
      | assumption | apply State.swap_kept | apply State.cas_kept | apply State.claim_kept | apply State.kept_ite
      | apply State.kept_ite2
    | fail_if_no_progress with_reducible apply State.kept_mk

theorem State.claimStat_kept (s : State) (fn cmp : Nat) (r : AtomRes) (hi : s.kept cmds) : (State.claimStat s fn cmp r).kept
    cmds := by
  unfold State.claimStat
  try dsimp only
  repeat' first
    | with_reducible first
      | assumption | apply State.satAdd_kept | apply State.raise_kept | apply State.kept_ite
    | fail_if_no_progress with_reducible apply State.kept_mk

/-! ## The definitions of Machine/Translation.lean -/

theorem State.cachePut_kept {α : Type} (s : State) (cap : Nat) (l : List α) (x : α) (hi : s.kept cmds) : (State.cachePut s
    cap l x).2.kept cmds := by
  unfold State.cachePut
  try dsimp only
  repeat' first
    | with_reducible first
      | assumption | apply State.draw_kept | apply State.kept_ite | apply State.kept_ite2
    | split | with_reducible refine State.kept_snd (by assumption) ?_
    | with_reducible refine State.kept_snd2 (by assumption) ?_ | with_reducible refine State.kept_snd3 (by assumption) ?_
    | fail_if_no_progress with_reducible apply State.kept_mk

theorem State.cacheGet_kept (s : State) (l : List Leaf) (fn page : Nat) (h : s.kept cmds) : (s.cacheGet l fn page).2.2.kept
    cmds := by
  unfold State.cacheGet
  split
  · exact h
  · dsimp only
    split <;> exact State.drawBool_kept s h

theorem State.engFill_kept (s : State) (eng : Nat) (e : Leaf) (hi : s.kept cmds) : (State.engFill s eng e).kept cmds := by
  unfold State.engFill
  try dsimp only
  repeat' first
    | with_reducible first
      | assumption | apply State.cachePut_kept | apply State.kept_ite
    | split | with_reducible refine State.kept_snd (by assumption) ?_
    | with_reducible refine State.kept_snd2 (by assumption) ?_ | with_reducible refine State.kept_snd3 (by assumption) ?_
    | fail_if_no_progress with_reducible apply State.kept_mk

theorem State.clusterFill_kept (s : State) (cl : Nat) (e : Leaf) (hi : s.kept cmds) : (State.clusterFill s cl e).kept cmds
    := by
  unfold State.clusterFill
  try dsimp only
  repeat' first
    | with_reducible first
      | assumption | apply State.cachePut_kept | apply State.kept_ite
    | split | with_reducible refine State.kept_snd (by assumption) ?_
    | with_reducible refine State.kept_snd2 (by assumption) ?_ | with_reducible refine State.kept_snd3 (by assumption) ?_
    | fail_if_no_progress with_reducible apply State.kept_mk

theorem State.ptrFill_kept (s : State) (cl : Nat) (ps : List Ptr) (hi : s.kept cmds) : (State.ptrFill s cl ps).kept cmds := by
  unfold State.ptrFill
  try dsimp only
  repeat' first
    | with_reducible first
      | assumption | apply State.cachePut_kept | apply State.kept_ite | refine State.kept_foldl (fun _ _ _ => ?_) ?_ _
    | split | with_reducible refine State.kept_snd (by assumption) ?_
    | with_reducible refine State.kept_snd2 (by assumption) ?_ | with_reducible refine State.kept_snd3 (by assumption) ?_
    | fail_if_no_progress with_reducible apply State.kept_mk

theorem State.walkStart_kept (s : State) (cl fn va : Nat) (l : List Nat) (h : s.kept cmds) : (State.walkStart s cl fn va
    l).2.kept cmds := by
  induction l generalizing s with
  | nil => exact h
  | cons x l ih =>
    rw [State.walkStart]
    split
    · exact ih _ h
    · dsimp only
      split
      · exact State.drawBool_kept s h
      · exact ih _ (State.drawBool_kept s h)

theorem State.cachedWalk_kept (s : State) (cl fn va : Nat) (hi : s.kept cmds) : (State.cachedWalk s cl fn va).2.kept cmds :=
    by
  unfold State.cachedWalk
  try dsimp only
  repeat' first
    | with_reducible first
      | assumption | apply State.walkStart_kept | apply State.ptrFill_kept | apply State.kept_ite | apply State.kept_ite2
    | split | with_reducible refine State.kept_snd (by assumption) ?_
    | with_reducible refine State.kept_snd2 (by assumption) ?_ | with_reducible refine State.kept_snd3 (by assumption) ?_
    | fail_if_no_progress with_reducible apply State.kept_mk

theorem State.walkFill_kept (s : State) (cl : Nat) (eng : Option Nat) (old : Bool) (fn va : Nat) (acc : Acc) (hi : s.kept
    cmds) : (State.walkFill s cl eng old fn va acc).2.2.kept cmds := by
  unfold State.walkFill
  try dsimp only
  repeat' first
    | with_reducible first
      | assumption | apply State.cachedWalk_kept | apply State.clusterFill_kept | apply State.engFill_kept
      | apply State.kept_ite | apply State.kept_ite3
    | split | with_reducible refine State.kept_snd (by assumption) ?_
    | with_reducible refine State.kept_snd2 (by assumption) ?_ | with_reducible refine State.kept_snd3 (by assumption) ?_
    | fail_if_no_progress with_reducible apply State.kept_mk

theorem State.xlate_kept (s : State) (n : Nat) (eng : Option Nat) (old : Bool) (fn va : Nat) (acc : Acc) (h : s.kept cmds) :
    (s.xlate n eng old fn va acc).2.2.kept cmds := by
  unfold State.xlate
  apply State.kept_ite3
  · exact h
  · cases eng with
    | none =>
      dsimp only [Option.filter, Option.map]
      have h2 := State.cacheGet_kept s (s.ctlbs.get [] (s.clusterOf n)) fn (va / 65536) h
      split
      · exact State.kept_mk h2 ..
      · exact State.walkFill_kept _ _ _ _ _ _ _ (State.kept_mk h2 ..)
    | some k =>
      dsimp only [Option.map]
      have h1 := State.cacheGet_kept s (s.tlbs.get [] (2 * n + k)) fn (va / 65536) h
      generalize s.cacheGet (s.tlbs.get [] (2 * n + k)) fn (va / 65536) = p at h1 ⊢
      split
      · exact State.kept_mk h1 ..
      · have h2 := State.cacheGet_kept { p.2.2 with tlbs := p.2.2.tlbs.set [] (2 * n + k) p.2.1 }
          (p.2.2.ctlbs.get [] (s.clusterOf n)) fn (va / 65536) (State.kept_mk h1 ..)
        split
        · exact State.kept_ite (State.engFill_kept _ _ _ (State.kept_mk h2 ..)) (State.kept_mk h2 ..)
        · exact State.walkFill_kept _ _ _ _ _ _ _ (State.kept_mk h2 ..)

theorem State.sendRead_kept {s t : State} {q node addr len : Nat} {lc retry : Bool} {n : Nat}
    (e : s.sendRead q node addr len lc retry n = some t) (h : s.kept cmds) : t.kept cmds := by
  unfold State.sendRead at e
  split at e
  · cases e
  · dsimp only at e
    split at e
    · cases e
    · cases e
      exact State.sendCell_kept _ _ _ h

theorem State.farPiece_kept (s : State) (who : List Nat) (q : Nat) (lc : Bool) (node addr len : Nat) (h : s.kept cmds) :
    (State.farPiece s who q lc node addr len).2.kept cmds := by
  unfold State.farPiece
  split
  · split <;> exact h
  · dsimp only
    split
    · exact h
    · next e => exact State.kept_mk (State.sendRead_kept e h) ..

theorem State.farRead_kept (who : List Nat) (q : Nat) (lc : Bool) (node f : Nat) (s : State) (addr len : Nat) (h : s.kept cmds) :
    (State.farRead who q lc node f s addr len).2.kept cmds := by
  induction f generalizing s addr len with
  | zero => exact h
  | succ f ih =>
    rw [State.farRead]
    apply State.kept_ite2
    · exact h
    · exact ih _ _ _ (State.farPiece_kept _ _ _ _ _ _ _ h)

/-- The state that a read of virtual memory leaves. -/
def VaRead.state : VaRead → State
  | .ok _ _ s => s
  | .fail _ s => s
  | .wait s => s

theorem VaRead.kept_ok {r : VaRead} {d x : List Byte} {t : State} (e : r = .ok d x t) (h : r.state.kept cmds) : t.kept cmds := by
  subst e
  exact h

theorem VaRead.kept_fail {r : VaRead} {k : Nat} {t : State} (e : r = .fail k t) (h : r.state.kept cmds) : t.kept cmds := by
  subst e
  exact h

theorem VaRead.kept_wait {r : VaRead} {t : State} (e : r = .wait t) (h : r.state.kept cmds) : t.kept cmds := by
  subst e
  exact h

theorem State.vaRead_kept (who : List Nat) (fn : Nat) (lc : Bool) (tr : State → Nat → Tr × State) (f : Nat) (s : State)
    (va len : Nat) (ext : List Byte) (htr : ∀ t a, State.kept cmds t → (tr t a).2.kept cmds) (h : s.kept cmds) :
    (State.vaRead who fn lc tr f s va len ext).state.kept cmds := by
  induction f generalizing s va len ext with
  | zero => exact h
  | succ f ih =>
    have hgot : ∀ (t : Tr) (n : Nat) (s : State), s.kept cmds → (match t with
        | .miss k => VaRead.fail k s
        | .replay _ _ => .fail 6 s
        | .wait => .wait s
        | .loc pa _ =>
          let s := s.verifyRun pa n
          if !s.runReady pa n then .wait s
          else
            let r := s.readMem pa n
            if r.bad then .fail 8 r.st else .ok r.data ext r.st
        | .far node pa _ => if fn = 0 then .fail 6 s else match State.farRead who (fn - 1) lc node (n / 512 + 2) s pa n with
          | (.data d, s) => .ok d ext s
          | (.miss k, s) => .fail k s
          | (.wait, s) => .wait s
        | .host _ => if ext.length < n then .fail 6 s else .ok (ext.take n) (ext.drop n) s).state.kept cmds := by
      intro t n s hs
      cases t with
      | miss k => exact hs
      | replay _ _ => exact hs
      | wait => exact hs
      | loc pa a =>
        have h1 := State.verifyRun_kept s pa n hs
        dsimp only
        split
        · exact h1
        · have h2 := State.readMem_kept (s.verifyRun pa n) pa n h1
          split <;> exact h2
      | far node pa a =>
        dsimp only
        split
        · exact hs
        · have h1 := State.farRead_kept who (fn - 1) lc node (n / 512 + 2) s pa n hs
          split <;> (next e => exact State.kept_snd e h1)
      | host a =>
        dsimp only
        split <;> exact hs
    rw [State.vaRead]
    split
    · exact h
    · dsimp only
      have h1 := hgot (tr s va).1 (min len (65536 - va % 65536)) (tr s va).2 (htr _ _ h)
      split
      · next d x t e =>
        have h2 := VaRead.kept_ok e h1
        have h3 := ih t (va + min len (65536 - va % 65536)) (len - min len (65536 - va % 65536)) x h2
        split
        · next e' => exact VaRead.kept_ok e' h3
        · exact h3
      · exact h1

theorem State.endReads_kept (s : State) (who : List Nat) (hi : s.kept cmds) : (State.endReads s who).kept cmds := by
  unfold State.endReads
  try dsimp only
  repeat' first
    | with_reducible first
      | assumption | apply State.kept_ite
    | fail_if_no_progress with_reducible apply State.kept_mk

theorem State.readVa_kept (s : State) (who : List Nat) (fn va len : Nat) (acc : Acc) (ext : List Byte) (h : s.kept cmds) :
    (s.readVa who fn va len acc ext).state.kept cmds := by
  have h1 := State.vaRead_kept who fn true (fun s a => (s.frontXlate fn a acc, s)) (len / 65536 + 2) s va len ext
    (fun _ _ h => h) h
  unfold State.readVa
  split
  · next e => exact State.endReads_kept _ _ (VaRead.kept_ok e h1)
  · next e => exact State.endReads_kept _ _ (VaRead.kept_fail e h1)
  · next e => exact VaRead.kept_wait e h1

theorem State.readAnswered_kept (s : State) (r : FarRead) (st : Nat) (data : List Byte) (h : s.kept cmds) :
    (State.readAnswered s r st data).kept cmds := by
  unfold State.readAnswered
  dsimp only
  split
  · have h1 := State.satAdd_kept _ (vf r.q) 0 Reg.PCTL_COMP_STAT.STALE_RETRIES 1
      (State.raise_kept s (vf r.q) 0 Reg.PCTL_COMP_STAT.STALE h)
    split
    · next e => exact State.kept_mk (State.sendRead_kept e h1) ..
    · exact State.kept_mk h1 ..
  · exact State.kept_mk h ..

theorem State.setAts_kept (s : State) (fn : Nat) (a : Ats) (hi : s.kept cmds) : (State.setAts s fn a).kept cmds := by
  unfold State.setAts
  try dsimp only
  repeat' first
    | with_reducible first
      | assumption | apply State.kept_ite
    | fail_if_no_progress with_reducible apply State.kept_mk

theorem State.askAts_kept (s : State) (n tag fn page : Nat) (hi : s.kept cmds) : (State.askAts s n tag fn page).kept cmds :=
    by
  unfold State.askAts
  try dsimp only
  repeat' first
    | with_reducible first
      | assumption | apply State.send_kept | apply State.setAts_kept | apply State.kept_ite
    | with_reducible refine State.kept_snd (by assumption) ?_ | with_reducible refine State.kept_snd2 (by assumption) ?_
    | with_reducible refine State.kept_snd3 (by assumption) ?_ | fail_if_no_progress with_reducible apply State.kept_mk

theorem State.dropXlat_kept (s : State) (fn : Nat) (r : Option (Nat × Nat)) (hi : s.kept cmds) : (State.dropXlat s fn
    r).kept cmds := by
  unfold State.dropXlat
  try dsimp only
  repeat' first
    | with_reducible first
      | assumption | apply State.kept_ite
    | with_reducible refine State.kept_snd (by assumption) ?_ | with_reducible refine State.kept_snd2 (by assumption) ?_
    | with_reducible refine State.kept_snd3 (by assumption) ?_ | fail_if_no_progress with_reducible apply State.kept_mk

theorem State.dropEngTlbs_kept (s : State) (n : Nat) (hi : s.kept cmds) : (State.dropEngTlbs s n).kept cmds := by
  unfold State.dropEngTlbs
  try dsimp only
  repeat' first
    | with_reducible first
      | assumption | apply State.kept_ite
    | fail_if_no_progress with_reducible apply State.kept_mk

theorem State.dropGranule_kept (s : State) (fn g : Nat) (hi : s.kept cmds) : (State.dropGranule s fn g).kept cmds := by
  unfold State.dropGranule
  try dsimp only
  repeat' first
    | with_reducible first
      | assumption | apply State.kept_ite
    | with_reducible refine State.kept_snd (by assumption) ?_ | with_reducible refine State.kept_snd2 (by assumption) ?_
    | with_reducible refine State.kept_snd3 (by assumption) ?_ | fail_if_no_progress with_reducible apply State.kept_mk

theorem State.countOpen_kept (s : State) (fn : Nat) (hi : s.kept cmds) : (State.countOpen s fn).kept cmds := by
  unfold State.countOpen
  try dsimp only
  repeat' first
    | with_reducible first
      | assumption | apply State.setFld_kept | apply State.kept_ite
    | fail_if_no_progress with_reducible apply State.kept_mk

theorem State.writeFault_kept (s : State) (o : OpenFault) (hi : s.kept cmds) : (State.writeFault s o).kept cmds := by
  unfold State.writeFault
  try dsimp only
  repeat' first
    | with_reducible first
      | assumption | apply State.send_kept | apply State.modAdd_kept | apply State.raise_kept | apply State.msi_kept
      | apply State.kept_ite
    | with_reducible refine State.kept_snd (by assumption) ?_ | with_reducible refine State.kept_snd2 (by assumption) ?_
    | with_reducible refine State.kept_snd3 (by assumption) ?_ | fail_if_no_progress with_reducible apply State.kept_mk

theorem State.takeEntries_kept (f : Nat) (s : State) (fn : Nat) (h : s.kept cmds) : (State.takeEntries f s fn).kept cmds := by
  induction f generalizing s with
  | zero => exact h
  | succ f ih =>
    rw [State.takeEntries]
    split
    · exact h
    · split
      · exact ih _ (State.countOpen_kept _ _ (State.kept_mk h ..))
      · exact h

theorem State.writeFaults_kept (f : Nat) (s : State) (fn : Nat) (h : s.kept cmds) : (State.writeFaults f s fn).kept cmds := by
  induction f generalizing s with
  | zero => exact h
  | succ f ih =>
    rw [State.writeFaults]
    split
    · exact h
    · split
      · exact ih _ (State.writeFault_kept _ _ (State.kept_mk h ..))
      · exact State.raise_kept _ _ _ _ h

theorem State.drainFaults_kept (s : State) (fn : Nat) (h : s.kept cmds) : (s.drainFaults fn).kept cmds :=
  State.writeFaults_kept _ _ _ (State.takeEntries_kept _ _ _ h)

theorem State.openFault_kept (s : State) (n tag fn va cause : Nat) (acc : Acc) (pte ctx : Nat) (hi : s.kept cmds) :
    (State.openFault s n tag fn va cause acc pte ctx).2.kept cmds := by
  unfold State.openFault
  try dsimp only
  repeat' first
    | with_reducible first
      | assumption | apply State.countOpen_kept | apply State.raise_kept | apply State.drainFaults_kept
      | apply State.kept_ite | apply State.kept_ite2
    | split | with_reducible refine State.kept_snd (by assumption) ?_
    | with_reducible refine State.kept_snd2 (by assumption) ?_ | with_reducible refine State.kept_snd3 (by assumption) ?_
    | fail_if_no_progress with_reducible apply State.kept_mk

theorem State.closeFault_kept (s : State) (fn fid : Nat) (hi : s.kept cmds) : (State.closeFault s fn fid).kept cmds := by
  unfold State.closeFault
  try dsimp only
  repeat' first
    | with_reducible first
      | assumption | apply State.countOpen_kept | apply State.drainFaults_kept | apply State.kept_ite
    | with_reducible refine State.kept_snd (by assumption) ?_ | with_reducible refine State.kept_snd2 (by assumption) ?_
    | with_reducible refine State.kept_snd3 (by assumption) ?_ | fail_if_no_progress with_reducible apply State.kept_mk

theorem State.detach_kept (s : State) (n tag : Nat) (hi : s.kept cmds) : (State.detach s n tag).kept cmds := by
  unfold State.detach
  try dsimp only
  repeat' first
    | with_reducible first
      | assumption | apply State.closeFault_kept | apply State.kept_ite | refine State.kept_foldl (fun _ _ _ => ?_) ?_ _
    | with_reducible refine State.kept_snd (by assumption) ?_ | with_reducible refine State.kept_snd2 (by assumption) ?_
    | with_reducible refine State.kept_snd3 (by assumption) ?_ | fail_if_no_progress with_reducible apply State.kept_mk

theorem State.fquery_kept (s : State) (fn fid : Nat) (hi : s.kept cmds) : (State.fquery s fn fid).kept cmds := by
  unfold State.fquery
  try dsimp only
  repeat' first
    | with_reducible first
      | assumption | apply State.setFld_kept | apply State.kept_ite
    | split | fail_if_no_progress with_reducible apply State.kept_mk

end Sys2Proof.Machine
end

