-- ==== Sys2Proof/Laws/KeepsMoves.lean ====
section
/-! SUPPORT. The canonical form of the state (State.kept) is kept by every operation of the model that gives a state: moves,
the link, bells and invalidation.
One lemma for each, to be cited in place of unfolding it. -/

set_option linter.unusedTactic false
set_option linter.unreachableTactic false

namespace Sys2Proof.Machine

open Sys2Proof

variable {cmds : List Instr}

/-! ## The definitions of Machine/Moves.lean -/

theorem State.xlateFor_kept (s : State) (n : Nat) (m : MoveOp) (va : Nat) (acc : Acc) (hi : s.kept cmds) : (State.xlateFor s
    n m va acc).2.2.kept cmds := by
  unfold State.xlateFor
  try dsimp only
  repeat' first
    | with_reducible first
      | assumption | apply State.xlate_kept | apply State.kept_ite | apply State.kept_ite3
    | split | with_reducible refine State.kept_snd (by assumption) ?_
    | with_reducible refine State.kept_snd2 (by assumption) ?_ | with_reducible refine State.kept_snd3 (by assumption) ?_
    | fail_if_no_progress with_reducible apply State.kept_mk

theorem State.xlateMove_kept (s : State) (n : Nat) (m : MoveOp) (l : List (Nat × Acc)) (h : s.kept cmds) :
    (State.xlateMove s n m l).2.2.2.kept cmds := by
  induction l generalizing s m with
  | nil => exact h
  | cons x l ih =>
    obtain ⟨a, acc⟩ := x
    rw [State.xlateMove]
    dsimp only
    have h1 := State.xlateFor_kept s n m a acc h
    split
    · exact ih _ _ h1
    · exact h1

theorem State.setMove_kept (s : State) (n : Nat) (m : MoveOp) (hi : s.kept cmds) : (State.setMove s n m).kept cmds := by
  unfold State.setMove
  try dsimp only
  repeat' first
    | with_reducible first
      | assumption | apply State.setCore_kept | apply State.kept_ite
    | fail_if_no_progress with_reducible apply State.kept_mk

theorem State.landPiece_kept (s : State) (n fn : Nat) (m : MoveOp) (r : Run) (hi : s.kept cmds) : (State.landPiece s n fn m
    r).kept cmds := by
  unfold State.landPiece
  try dsimp only
  repeat' first
    | with_reducible first
      | assumption | apply State.drawBool_kept | apply State.setCore_kept | apply State.wr_kept | apply State.mso_kept
      | apply State.dirtyRun_kept | apply State.writeMem_kept | apply State.kept_ite
    | split | with_reducible refine State.kept_snd (by assumption) ?_
    | with_reducible refine State.kept_snd2 (by assumption) ?_ | with_reducible refine State.kept_snd3 (by assumption) ?_
    | fail_if_no_progress with_reducible apply State.kept_mk

theorem State.dropOwed_kept (s : State) (n tag : Nat) (hi : s.kept cmds) : (State.dropOwed s n tag).kept cmds := by
  unfold State.dropOwed
  try dsimp only
  repeat' first
    | with_reducible first
      | assumption | apply State.drawBool_kept | apply State.kept_ite | refine State.kept_foldl (fun _ _ _ => ?_) ?_ _
    | split | with_reducible refine State.kept_snd (by assumption) ?_
    | with_reducible refine State.kept_snd2 (by assumption) ?_ | with_reducible refine State.kept_snd3 (by assumption) ?_
    | fail_if_no_progress with_reducible apply State.kept_mk

theorem State.squashWhere_kept (s : State) (n fn : Nat) (p : MoveOp → Bool) (hi : s.kept cmds) : (State.squashWhere s n fn
    p).kept cmds := by
  unfold State.squashWhere
  try dsimp only
  repeat' first
    | with_reducible first
      | assumption | apply State.landPiece_kept | apply State.detach_kept | apply State.dropOwed_kept
      | apply State.setCore_kept | apply State.kept_ite | refine State.kept_foldl (fun _ _ _ => ?_) ?_ _
    | with_reducible refine State.kept_snd (by assumption) ?_ | with_reducible refine State.kept_snd2 (by assumption) ?_
    | with_reducible refine State.kept_snd3 (by assumption) ?_ | fail_if_no_progress with_reducible apply State.kept_mk

theorem State.squashMoves_kept (s : State) (n fn : Nat) (hi : s.kept cmds) : (State.squashMoves s n fn).kept cmds := by
  unfold State.squashMoves
  try dsimp only
  repeat' first
    | with_reducible first
      | assumption | apply State.squashWhere_kept | apply State.kept_ite
    | fail_if_no_progress with_reducible apply State.kept_mk

theorem State.closeStalled_kept (s : State) (n : Nat) (eng : Option Nat) (hi : s.kept cmds) : (State.closeStalled s n
    eng).kept cmds := by
  unfold State.closeStalled
  try dsimp only
  repeat' first
    | with_reducible first
      | assumption | apply State.squashWhere_kept | apply State.kept_ite
    | fail_if_no_progress with_reducible apply State.kept_mk

theorem State.stopCore_kept (s : State) (n fn : Nat) (hi : s.kept cmds) : (State.stopCore s n fn).kept cmds := by
  unfold State.stopCore
  try dsimp only
  repeat' first
    | with_reducible first
      | assumption | apply State.squashMoves_kept | apply State.setCore_kept | apply State.kept_ite
    | fail_if_no_progress with_reducible apply State.kept_mk

theorem State.moveFault_kept (s : State) (n : Nat) (m : MoveOp) (kind va : Nat) (logIt : Bool) (hi : s.kept cmds) :
    (State.moveFault s n m kind va logIt).kept cmds := by
  unfold State.moveFault
  try dsimp only
  repeat' first
    | with_reducible first
      | assumption | apply State.recordExc_kept | apply State.stopCore_kept | apply State.failLaunch_kept
      | apply State.kept_ite
    | with_reducible refine State.kept_snd (by assumption) ?_ | with_reducible refine State.kept_snd2 (by assumption) ?_
    | with_reducible refine State.kept_snd3 (by assumption) ?_ | fail_if_no_progress with_reducible apply State.kept_mk

theorem State.dropLeaves_kept (s : State) (n : Nat) (m : MoveOp) (hi : s.kept cmds) : (State.dropLeaves s n m).kept cmds := by
  unfold State.dropLeaves
  try dsimp only
  repeat' first
    | with_reducible first
      | assumption | apply State.setMove_kept | apply State.kept_ite
    | with_reducible refine State.kept_snd (by assumption) ?_ | with_reducible refine State.kept_snd2 (by assumption) ?_
    | with_reducible refine State.kept_snd3 (by assumption) ?_ | fail_if_no_progress with_reducible apply State.kept_mk

theorem State.xlateFailed_kept (s : State) (n : Nat) (m : MoveOp) (va : Nat) (acc : Acc) (t : Tr) (hi : s.kept cmds) :
    (State.xlateFailed s n m va acc t).kept cmds := by
  unfold State.xlateFailed
  try dsimp only
  repeat' first
    | with_reducible first
      | assumption | apply State.moveFault_kept | apply State.openFault_kept | apply State.dropLeaves_kept
      | apply State.setMove_kept | apply State.kept_ite
    | split | with_reducible refine State.kept_snd (by assumption) ?_
    | with_reducible refine State.kept_snd2 (by assumption) ?_ | with_reducible refine State.kept_snd3 (by assumption) ?_
    | fail_if_no_progress with_reducible apply State.kept_mk

theorem State.srcPart_kept (s : State) (n : Nat) (m : MoveOp) (x : XTab) (e : Side) (pos len : Nat) (hi : s.kept cmds) :
    (State.srcPart s n m x e pos len).2.kept cmds := by
  unfold State.srcPart
  try dsimp only
  repeat' first
    | with_reducible first
      | assumption | apply State.verifyRun_kept | apply State.readMem_kept | apply State.kept_ite | apply State.kept_ite2
    | split | fail_if_no_progress with_reducible apply State.kept_mk

theorem State.srcBytes_kept (s : State) (n fn : Nat) (m : MoveOp) (x : XTab) (pos len : Nat) (l : List Run) (h : s.kept cmds) :
    (State.srcBytes s n fn m x pos len l).2.kept cmds := by
  induction l generalizing s with
  | nil => exact h
  | cons r rs ih =>
    rw [State.srcBytes]
    split
    · exact ih _ h
    · have h1 := State.srcPart_kept s n m x (r.src.plus (max pos r.pos - r.pos)) (max pos r.pos)
        (min (pos + len) (r.pos + r.len) - max pos r.pos) h
      split
      · next e => exact State.kept_snd e h1
      · next e =>
        have h2 := ih _ (State.kept_snd e h1)
        split
        · next e' => exact State.kept_snd e' h2
        · next e' => exact State.kept_snd e' h2

theorem State.noteRoutes_kept (s : State) (hi : s.kept cmds) : (State.noteRoutes s).kept cmds := by
  unfold State.noteRoutes
  try dsimp only
  repeat' first
    | with_reducible first
      | assumption | apply State.kept_ite
    | with_reducible refine State.kept_snd (by assumption) ?_ | with_reducible refine State.kept_snd2 (by assumption) ?_
    | with_reducible refine State.kept_snd3 (by assumption) ?_ | fail_if_no_progress with_reducible apply State.kept_mk

theorem State.reqData_kept (s : State) (n fn : Nat) (m : MoveOp) (x : XTab) (r : Req) (hi : s.kept cmds) : (State.reqData s
    n fn m x r).2.kept cmds := by
  unfold State.reqData
  try dsimp only
  repeat' first
    | with_reducible first
      | assumption | apply State.srcBytes_kept | apply State.kept_ite | apply State.kept_ite2
    | split | with_reducible refine State.kept_snd (by assumption) ?_
    | with_reducible refine State.kept_snd2 (by assumption) ?_ | with_reducible refine State.kept_snd3 (by assumption) ?_
    | fail_if_no_progress with_reducible apply State.kept_mk

theorem State.sendReq_kept (s : State) (n : Nat) (m : MoveOp) (x : XTab) (r : Req) (h : s.kept cmds) :
    (s.sendReq n m x r).2.kept cmds := by
  unfold State.sendReq
  dsimp only
  split
  · exact h
  · split
    · exact State.raise_kept _ _ _ _ (State.satAdd_kept _ _ _ _ _ h)
    · split
      · exact h
      · have h1 := State.reqData_kept s n (s.coreFn n).1 m x r h
        split
        · next e => exact State.kept_snd e h1
        · next e =>
          have h2 := State.kept_snd e h1
          split
          · exact State.setPort_kept _ _ _ (State.setMove_kept _ _ _ h2)
          · exact State.setMove_kept _ _ _ h2

theorem State.sendReq_kept1 {s t u : State} {n : Nat} {m : MoveOp} {x : XTab} {r : Req}
    (e : s.sendReq n m x r = (some t, u)) (h : s.kept cmds) : t.kept cmds := by
  unfold State.sendReq at e
  dsimp only at e
  split at e
  · cases e
  · split at e
    · cases e
    · split at e
      · cases e
        exact h
      · have h1 := State.reqData_kept s n (s.coreFn n).1 m x r h
        split at e
        · next e' =>
          cases e
          exact State.kept_snd e' h1
        · next e' =>
          have h2 := State.kept_snd e' h1
          cases e
          apply State.sendCell_kept
          apply State.advanced_kept
          split
          · exact State.setPort_kept _ _ _ (State.setMove_kept _ _ _ h2)
          · exact State.setMove_kept _ _ _ h2

theorem State.pumpReqs_kept (f : Nat) (s : State) (n tag : Nat) (x : XTab) (rs : List Req) (h : s.kept cmds) :
    (State.pumpReqs f s n tag x rs).kept cmds := by
  induction f generalizing s rs with
  | zero =>
    rw [State.pumpReqs]
    exact h
  | succ f ih =>
    unfold State.pumpReqs
    split
    · next r rest m _ =>
      apply State.kept_ite
      · exact ih _ _ h
      · apply State.kept_ite
        · exact State.moveFault_kept _ _ _ _ _ _ h
        · have h1 := State.sendReq_kept s n m x r h
          split
          · next e => exact State.moveFault_kept _ _ _ _ _ _ (State.kept_snd e h1)
          · next e => exact ih _ _ (State.sendReq_kept1 e h)
    · exact h

theorem State.resendAll_kept (s : State) (n : Nat) (m : MoveOp) (l : List Req) (h : s.kept cmds) :
    (State.resendAll s n m l).2.2.kept cmds := by
  induction l generalizing s m with
  | nil => exact h
  | cons r l ih =>
    rw [State.resendAll]
    dsimp only
    have h1 := State.xlate_kept s n (some m.eng) false (s.coreFn n).1 (m.reqVa r).1 (m.reqVa r).2 h
    split
    · next e => exact ih _ _ (State.kept_snd2 e h1)
    · next e => exact ih _ _ (State.kept_snd2 e h1)
    · next e => exact ih _ _ (State.kept_snd2 e h1)
    · next e => exact State.kept_snd2 e h1

theorem State.pumpMove_kept (s : State) (n tag : Nat) (x : XTab) (h : s.kept cmds) : (s.pumpMove n tag x).kept cmds := by
  unfold State.pumpMove
  split
  · exact h
  · next m _ =>
    apply State.kept_ite
    · exact h
    · have h1 := State.resendAll_kept s n m (m.reqs.filter fun r => r.retried && !r.sent && r.nhop == 0) h
      split
      · next e => exact State.xlateFailed_kept _ _ _ _ _ _ (State.kept_snd2 e h1)
      · next e => exact State.pumpReqs_kept _ _ _ _ _ _ (State.setMove_kept _ _ _ (State.kept_snd2 e h1))

theorem State.writeDoor_kept (fn ctx f : Nat) (s : State) (slot : Nat) (d : List Byte) (h : s.kept cmds) :
    (State.writeDoor fn ctx f s slot d).kept cmds := by
  induction f generalizing s slot d with
  | zero => exact h
  | succ f ih =>
    rw [State.writeDoor]
    dsimp only
    split
    · exact h
    · exact ih _ _ _ (State.send_kept _ _ (State.send_kept _ _ (State.wr_kept _ _ _ _ h)))

theorem State.askHost_kept (s : State) (fn ctx : Nat) (m : MoveOp) (x : XTab) (hi : s.kept cmds) : (State.askHost s fn ctx m
    x).kept cmds := by
  unfold State.askHost
  try dsimp only
  repeat' first
    | with_reducible first
      | assumption | apply State.send_kept | apply State.kept_ite | refine State.kept_foldl (fun _ _ _ => ?_) ?_ _
    | with_reducible refine State.kept_snd (by assumption) ?_ | with_reducible refine State.kept_snd2 (by assumption) ?_
    | with_reducible refine State.kept_snd3 (by assumption) ?_ | fail_if_no_progress with_reducible apply State.kept_mk

theorem State.progress_kept (s : State) (n tag : Nat) (hi : s.kept cmds) : (State.progress s n tag).2.kept cmds := by
  unfold State.progress
  try dsimp only
  repeat' first
    | with_reducible first
      | assumption | apply State.xlateMove_kept | apply State.xlateFailed_kept | apply State.setMove_kept
      | apply State.mso_kept | apply State.moveFault_kept | apply State.askAts_kept | apply State.pumpMove_kept
      | apply State.askHost_kept | apply State.kept_ite | apply State.kept_ite2
    | split | with_reducible refine State.kept_snd (by assumption) ?_
    | with_reducible refine State.kept_snd2 (by assumption) ?_ | with_reducible refine State.kept_snd3 (by assumption) ?_
    | fail_if_no_progress with_reducible apply State.kept_mk

theorem State.startMove_kept (s : State) (n : Nat) (m : MoveOp) (inSlot : Option Nat) (hi : s.kept cmds) : (State.startMove
    s n m inSlot).kept cmds := by
  unfold State.startMove
  try dsimp only
  repeat' first
    | with_reducible first
      | assumption | apply State.setMove_kept | apply State.advanced_kept | apply State.progress_kept | apply State.kept_ite
    | with_reducible refine State.kept_snd (by assumption) ?_ | with_reducible refine State.kept_snd2 (by assumption) ?_
    | with_reducible refine State.kept_snd3 (by assumption) ?_ | fail_if_no_progress with_reducible apply State.kept_mk

theorem State.schedFlag_kept (s : State) (p : Nat) (f g : Fld) (hi : s.kept cmds) : (State.schedFlag s p f g).kept cmds := by
  unfold State.schedFlag
  try dsimp only
  repeat' first
    | with_reducible first
      | assumption | apply State.raise_kept | apply State.intc_kept | apply State.kept_ite
    | with_reducible refine State.kept_snd (by assumption) ?_ | with_reducible refine State.kept_snd2 (by assumption) ?_
    | with_reducible refine State.kept_snd3 (by assumption) ?_ | fail_if_no_progress with_reducible apply State.kept_mk

theorem State.fallBack_kept (s : State) (p : Nat) (hi : s.kept cmds) : (State.fallBack s p).kept cmds := by
  unfold State.fallBack
  try dsimp only
  repeat' first
    | with_reducible first
      | assumption | apply State.schedFlag_kept | apply State.satAdd_kept | apply State.kept_ite
    | fail_if_no_progress with_reducible apply State.kept_mk

theorem State.tryStart_kept (s : State) (n eng : Nat) (hi : s.kept cmds) : (State.tryStart s n eng).kept cmds := by
  unfold State.tryStart
  try dsimp only
  repeat' first
    | with_reducible first
      | assumption | apply State.startMove_kept | apply State.fallBack_kept | apply State.kept_ite
    | split | with_reducible refine State.kept_snd (by assumption) ?_
    | with_reducible refine State.kept_snd2 (by assumption) ?_ | with_reducible refine State.kept_snd3 (by assumption) ?_
    | fail_if_no_progress with_reducible apply State.kept_mk

theorem State.dropMove_kept (s : State) (n tag : Nat) (hi : s.kept cmds) : (State.dropMove s n tag).kept cmds := by
  unfold State.dropMove
  try dsimp only
  repeat' first
    | with_reducible first
      | assumption | apply State.detach_kept | apply State.advanced_kept | apply State.setCore_kept | apply State.pump_kept
      | apply State.kept_ite
    | split | fail_if_no_progress with_reducible apply State.kept_mk

theorem State.putPiece_kept (s : State) (n fn : Nat) (m : MoveOp) (x : XTab) (r : Run) (d : List Byte) (bad : Bool) (hi :
    s.kept cmds) : (State.putPiece s n fn m x r d bad).2.kept cmds := by
  unfold State.putPiece
  try dsimp only
  repeat' first
    | with_reducible first
      | assumption | apply State.setCore_kept | apply State.wr_kept | apply State.mso_kept | apply State.dirtyRun_kept
      | apply State.writeMem_kept | apply State.drawBool_kept | apply State.postContrib_kept | apply State.owe_kept
      | apply State.kept_ite | apply State.kept_ite2
    | split | with_reducible refine State.kept_snd (by assumption) ?_
    | with_reducible refine State.kept_snd2 (by assumption) ?_ | with_reducible refine State.kept_snd3 (by assumption) ?_
    | fail_if_no_progress with_reducible apply State.kept_mk

theorem State.putPieces_kept (s : State) (n fn : Nat) (m : MoveOp) (x : XTab) (l : List Run) (h : s.kept cmds) :
    (State.putPieces s n fn m x l).2.kept cmds := by
  induction l generalizing s with
  | nil => exact h
  | cons r rs ih =>
    rw [State.putPieces]
    split
    · exact ih _ h
    · have h1 := State.srcBytes_kept s n fn m x r.pos r.len m.srcPieces h
      split
      · next e => exact State.kept_snd e h1
      · next e => exact ih _ (State.putPiece_kept _ _ _ _ _ _ _ _ (State.kept_snd e h1))

theorem State.kept_MoveOp_sendPages (m : MoveOp) (f : Nat) (s : State) (a : Nat) (d : List Byte) (h : s.kept cmds) :
    (MoveOp.sendPages m f s a d).kept cmds := by
  induction f generalizing s a d with
  | zero => exact h
  | succ f ih =>
    rw [MoveOp.sendPages]
    split
    · exact h
    · exact ih _ _ _ (State.send_kept _ _ h)

theorem State.putHost_kept (s : State) (n fn ctx : Nat) (m : MoveOp) (x : XTab) (hi : s.kept cmds) : (State.putHost s n fn
    ctx m x).kept cmds := by
  unfold State.putHost
  try dsimp only
  repeat' first
    | with_reducible first
      | assumption | apply State.srcBytes_kept | apply State.writeDoor_kept | apply State.kept_MoveOp_sendPages
      | apply State.kept_ite | refine State.kept_foldl (fun _ _ _ => ?_) ?_ _
    | split | with_reducible refine State.kept_snd (by assumption) ?_
    | with_reducible refine State.kept_snd2 (by assumption) ?_ | with_reducible refine State.kept_snd3 (by assumption) ?_
    | fail_if_no_progress with_reducible apply State.kept_mk

theorem State.moveVerify_kept (s : State) (m : MoveOp) (x : XTab) (hi : s.kept cmds) : (State.moveVerify s m x).kept cmds :=
    by
  unfold State.moveVerify
  try dsimp only
  repeat' first
    | with_reducible first
      | assumption | apply State.verifyRun_kept | apply State.kept_ite | refine State.kept_foldl (fun _ _ _ => ?_) ?_ _
    | split | fail_if_no_progress with_reducible apply State.kept_mk

theorem State.atomResult_kept (s : State) (n : Nat) (m : MoveOp) (r : AtomRes) (hi : s.kept cmds) : (State.atomResult s n m
    r).kept cmds := by
  unfold State.atomResult
  try dsimp only
  repeat' first
    | with_reducible first
      | assumption | apply State.setCore_kept | apply State.kept_ite
    | fail_if_no_progress with_reducible apply State.kept_mk

theorem State.atomDone_kept (s : State) (n : Nat) (m : MoveOp) (r : AtomRes) (hi : s.kept cmds) : (State.atomDone s n m
    r).kept cmds := by
  unfold State.atomDone
  try dsimp only
  repeat' first
    | with_reducible first
      | assumption | apply State.claimStat_kept | apply State.atomResult_kept | apply State.moveFault_kept
      | apply State.dropMove_kept | apply State.kept_ite
    | with_reducible refine State.kept_snd (by assumption) ?_ | with_reducible refine State.kept_snd2 (by assumption) ?_
    | with_reducible refine State.kept_snd3 (by assumption) ?_ | fail_if_no_progress with_reducible apply State.kept_mk

theorem State.atomHere_kept (s : State) (n : Nat) (m : MoveOp) (x : XTab) (hi : s.kept cmds) : (State.atomHere s n m x).kept
    cmds := by
  unfold State.atomHere
  try dsimp only
  repeat' first
    | with_reducible first
      | assumption | apply State.mso_kept | apply State.dirtyRun_kept | apply State.atomOp_kept | apply State.atomDone_kept
      | apply State.kept_ite
    | split | with_reducible refine State.kept_snd (by assumption) ?_
    | with_reducible refine State.kept_snd2 (by assumption) ?_ | with_reducible refine State.kept_snd3 (by assumption) ?_
    | fail_if_no_progress with_reducible apply State.kept_mk

theorem State.flushOwed_kept (s : State) (n tag : Nat) (hi : s.kept cmds) : (State.flushOwed s n tag).kept cmds := by
  unfold State.flushOwed
  try dsimp only
  repeat' first
    | with_reducible first
      | assumption | apply State.flushContribs_kept | apply State.kept_ite
    | with_reducible refine State.kept_snd (by assumption) ?_ | with_reducible refine State.kept_snd2 (by assumption) ?_
    | with_reducible refine State.kept_snd3 (by assumption) ?_ | fail_if_no_progress with_reducible apply State.kept_mk

theorem State.completeMove_kept (s : State) (n tag : Nat) (ext : List Byte) (hi : s.kept cmds) : (State.completeMove s n tag
    ext).kept cmds := by
  unfold State.completeMove
  try dsimp only
  repeat' first
    | with_reducible first
      | assumption | apply State.flushOwed_kept | apply State.dropMove_kept | apply State.progress_kept
      | apply State.raise_kept | apply State.moveFault_kept | apply State.setMove_kept | apply State.pumpMove_kept
      | apply State.atomHere_kept | apply State.moveVerify_kept | apply State.putPieces_kept | apply State.putHost_kept
      | apply State.kept_ite
    | split | with_reducible refine State.kept_snd (by assumption) ?_
    | with_reducible refine State.kept_snd2 (by assumption) ?_ | with_reducible refine State.kept_snd3 (by assumption) ?_
    | fail_if_no_progress with_reducible apply State.kept_mk

theorem State.walkMove_kept (s : State) (n tag va : Nat) (hi : s.kept cmds) : (State.walkMove s n tag va).kept cmds := by
  unfold State.walkMove
  try dsimp only
  repeat' first
    | with_reducible first
      | assumption | apply State.xlateFor_kept | apply State.setMove_kept | apply State.xlateFailed_kept
      | apply State.kept_ite
    | split | with_reducible refine State.kept_snd (by assumption) ?_
    | with_reducible refine State.kept_snd2 (by assumption) ?_ | with_reducible refine State.kept_snd3 (by assumption) ?_
    | fail_if_no_progress with_reducible apply State.kept_mk

theorem State.retryFault_kept (s : State) (fn fid : Nat) (hi : s.kept cmds) : (State.retryFault s fn fid).kept cmds := by
  unfold State.retryFault
  try dsimp only
  repeat' first
    | with_reducible first
      | assumption | apply State.raise_kept | apply State.setMove_kept | apply State.closeFault_kept | apply State.kept_ite
      | refine State.kept_foldl (fun _ _ _ => ?_) ?_ _
    | split | fail_if_no_progress with_reducible apply State.kept_mk

theorem State.abortFault_kept (s : State) (fn fid : Nat) (hi : s.kept cmds) : (State.abortFault s fn fid).kept cmds := by
  unfold State.abortFault
  try dsimp only
  repeat' first
    | with_reducible first
      | assumption | apply State.raise_kept | apply State.moveFault_kept | apply State.closeFault_kept
      | apply State.kept_ite | refine State.kept_foldl (fun _ _ _ => ?_) ?_ _
    | split | fail_if_no_progress with_reducible apply State.kept_mk

theorem State.sieveAsk_kept (s : State) (n : Nat) (m : MoveOp) (va node pa : Nat) (log : Bool) (hi : s.kept cmds) :
    (State.sieveAsk s n m va node pa log).kept cmds := by
  unfold State.sieveAsk
  try dsimp only
  repeat' first
    | with_reducible first
      | assumption | apply State.setMove_kept | apply State.pumpMove_kept | apply State.kept_ite
    | with_reducible refine State.kept_snd (by assumption) ?_ | with_reducible refine State.kept_snd2 (by assumption) ?_
    | with_reducible refine State.kept_snd3 (by assumption) ?_ | fail_if_no_progress with_reducible apply State.kept_mk

theorem State.sieveHost_kept (s : State) (fn : Nat) (m : MoveOp) (off h : Nat) (hi : s.kept cmds) : (State.sieveHost s fn m
    off h).kept cmds := by
  unfold State.sieveHost
  try dsimp only
  repeat' first
    | with_reducible first
      | assumption | apply State.send_kept | apply State.kept_ite
    | fail_if_no_progress with_reducible apply State.kept_mk

theorem State.sieveBytes_kept (s : State) (n : Nat) (blk : List Byte) (f : Nat) (m : MoveOp) (off len : Nat) (h : s.kept cmds) :
    (State.sieveBytes s n blk f m off len).2.2.kept cmds := by
  induction f generalizing s m off len with
  | zero => exact h
  | succ f ih =>
    rw [State.sieveBytes]
    dsimp only
    apply State.kept_ite3
    · exact h
    · apply State.kept_ite3
      · exact State.kept_ite3 h h
      · have h1 := State.xlateFor_kept s n m (m.sieveVa + off) .rd h
        generalize s.xlateFor n m (m.sieveVa + off) .rd = p at h1 ⊢
        have tail : ∀ (off len : Nat) (q : SieveIn × MoveOp × State), q.2.2.kept cmds →
            (match q with
            | (.bytes d b, m, s) => match State.sieveBytes s n blk f m off len with
              | (.bytes d' b', m, s) => (.bytes (d ++ d') (b || b'), m, s)
              | r => r
            | r => r : SieveIn × MoveOp × State).2.2.kept cmds := by
          intro off len q hq
          split
          · next m s =>
            have h3 := ih s m off len hq
            split
            · next e => exact State.kept_snd2 e h3
            · exact h3
          · exact hq
        obtain ⟨t, m, u⟩ := p
        refine tail _ _ _ ?_
        cases t with
        | loc pa l =>
          exact State.kept_ite3 (State.readMem_kept _ _ _ (State.verifyRun_kept _ _ _ h1)) (State.verifyRun_kept _ _ _ h1)
        | far node pa l =>
          exact State.kept_ite3 h1 (State.kept_ite (State.sieveAsk_kept _ _ _ _ _ _ _ (State.setMove_kept _ _ _ h1))
            (State.pumpMove_kept _ _ _ _ (State.setMove_kept _ _ _ h1)))
        | host a =>
          dsimp only
          split
          · exact State.askAts_kept _ _ _ _ _ (State.setMove_kept _ _ _ h1)
          · exact State.kept_ite3 h1 (State.kept_ite3 (State.sieveHost_kept _ _ _ _ _ h1) h1)
        | replay c pte => exact State.xlateFailed_kept _ _ _ _ _ _ h1
        | miss k => exact State.xlateFailed_kept _ _ _ _ _ _ h1
        | wait => exact State.xlateFailed_kept _ _ _ _ _ _ h1

theorem State.refuseBlock_kept (s : State) (n : Nat) (m : MoveOp) (cause : Nat) (hi : s.kept cmds) : (State.refuseBlock s n
    m cause).kept cmds := by
  unfold State.refuseBlock
  try dsimp only
  repeat' first
    | with_reducible first
      | assumption | apply State.satAdd_kept | apply State.setFld_kept | apply State.raise_kept | apply State.intc_kept
      | apply State.logErr_kept | apply State.moveFault_kept | apply State.kept_ite
    | split | with_reducible refine State.kept_snd (by assumption) ?_
    | with_reducible refine State.kept_snd2 (by assumption) ?_ | with_reducible refine State.kept_snd3 (by assumption) ?_
    | fail_if_no_progress with_reducible apply State.kept_mk

theorem State.sieveOut_kept (s : State) (n : Nat) (m : MoveOp) (d : List Byte) (hi : s.kept cmds) : (State.sieveOut s n m
    d).kept cmds := by
  unfold State.sieveOut
  try dsimp only
  repeat' first
    | with_reducible first
      | assumption | apply State.setCore_kept | apply State.kept_ite | refine State.kept_foldl (fun _ _ _ => ?_) ?_ _
    | split | with_reducible refine State.kept_snd (by assumption) ?_
    | with_reducible refine State.kept_snd2 (by assumption) ?_ | with_reducible refine State.kept_snd3 (by assumption) ?_
    | fail_if_no_progress with_reducible apply State.kept_mk

theorem State.failBlock_kept (s : State) (n : Nat) (m : MoveOp) (fails : List Nat) (hi : s.kept cmds) : (State.failBlock s n
    m fails).kept cmds := by
  unfold State.failBlock
  try dsimp only
  repeat' first
    | with_reducible first
      | assumption | apply State.draw_kept | apply State.refuseBlock_kept | apply State.kept_ite
    | split | with_reducible refine State.kept_snd (by assumption) ?_
    | with_reducible refine State.kept_snd2 (by assumption) ?_ | with_reducible refine State.kept_snd3 (by assumption) ?_
    | fail_if_no_progress with_reducible apply State.kept_mk

theorem State.sieveBlock_kept (s : State) (n tag : Nat) (blk : List Byte) (isPoisoned : Bool) (hi : s.kept cmds) :
    (State.sieveBlock s n tag blk isPoisoned).kept cmds := by
  unfold State.sieveBlock
  try dsimp only
  repeat' first
    | with_reducible first
      | assumption | apply State.sieveBytes_kept | apply State.setMove_kept | apply State.failBlock_kept
      | apply State.sieveOut_kept | apply State.kept_ite
    | split | with_reducible refine State.kept_snd (by assumption) ?_
    | with_reducible refine State.kept_snd2 (by assumption) ?_ | with_reducible refine State.kept_snd3 (by assumption) ?_
    | fail_if_no_progress with_reducible apply State.kept_mk

theorem State.engineExc_kept (s : State) (n : Nat) (x : ExcSrc) (hi : s.kept cmds) : (State.engineExc s n x).kept cmds := by
  unfold State.engineExc
  try dsimp only
  repeat' first
    | with_reducible first
      | assumption | apply State.recordExc_kept | apply State.stopCore_kept | apply State.failLaunch_kept
      | apply State.kept_ite
    | with_reducible refine State.kept_snd (by assumption) ?_ | with_reducible refine State.kept_snd2 (by assumption) ?_
    | with_reducible refine State.kept_snd3 (by assumption) ?_ | fail_if_no_progress with_reducible apply State.kept_mk

/-! ## The definitions of Machine/Link.lean -/

theorem State.portCE_kept (s : State) (p : Nat) (hi : s.kept cmds) : (State.portCE s p).kept cmds := by
  unfold State.portCE
  try dsimp only
  repeat' first
    | with_reducible first
      | assumption | apply State.setPort_kept | apply State.logCE_kept | apply State.kept_ite
    | fail_if_no_progress with_reducible apply State.kept_mk

theorem State.sendNak_kept (s : State) (p : Nat) (ovf : Bool) (hi : s.kept cmds) : (State.sendNak s p ovf).kept cmds := by
  unfold State.sendNak
  try dsimp only
  repeat' first
    | with_reducible first
      | assumption | apply State.sendLink_kept | apply State.kept_ite
    | fail_if_no_progress with_reducible apply State.kept_mk

theorem State.badCell_kept (s : State) (p : Nat) (ovf : Bool) (hi : s.kept cmds) : (State.badCell s p ovf).kept cmds := by
  unfold State.badCell
  try dsimp only
  repeat' first
    | with_reducible first
      | assumption | apply State.setPort_kept | apply State.sendNak_kept | apply State.kept_ite
    | fail_if_no_progress with_reducible apply State.kept_mk

theorem State.sendCreditAck_kept (s : State) (p : Nat) (hi : s.kept cmds) : (State.sendCreditAck s p).kept cmds := by
  unfold State.sendCreditAck
  try dsimp only
  repeat' first
    | with_reducible first
      | assumption | apply State.sendLink_kept | apply State.kept_ite
    | with_reducible refine State.kept_snd (by assumption) ?_ | with_reducible refine State.kept_snd2 (by assumption) ?_
    | with_reducible refine State.kept_snd3 (by assumption) ?_ | fail_if_no_progress with_reducible apply State.kept_mk

theorem State.refuse_kept (s : State) (p : Nat) (c : Cell) (st : Nat) (hi : s.kept cmds) : (State.refuse s p c st).kept cmds
    := by
  unfold State.refuse
  try dsimp only
  repeat' first
    | with_reducible first
      | assumption | apply State.sendCell_kept | apply State.kept_ite
    | fail_if_no_progress with_reducible apply State.kept_mk

theorem State.refuseLost_kept (s : State) (c : Cell) (hi : s.kept cmds) : (State.refuseLost s c).kept cmds := by
  unfold State.refuseLost
  try dsimp only
  repeat' first
    | with_reducible first
      | assumption | apply State.refuse_kept | apply State.kept_ite
    | fail_if_no_progress with_reducible apply State.kept_mk

theorem State.suspend_kept (s : State) (p : Nat) (hi : s.kept cmds) : (State.suspend s p).kept cmds := by
  unfold State.suspend
  try dsimp only
  repeat' first
    | with_reducible first
      | assumption | apply State.setFld_kept | apply State.setPort_kept | apply State.kept_ite
    | fail_if_no_progress with_reducible apply State.kept_mk

theorem State.routeErr_kept (s : State) (p : Nat) (c : Cell) (mismatch : Bool) (hi : s.kept cmds) : (State.routeErr s p c
    mismatch).kept cmds := by
  unfold State.routeErr
  try dsimp only
  repeat' first
    | with_reducible first
      | assumption | apply State.satAdd_kept | apply State.raise_kept | apply State.portCE_kept | apply State.refuse_kept
      | apply State.kept_ite
    | with_reducible refine State.kept_snd (by assumption) ?_ | with_reducible refine State.kept_snd2 (by assumption) ?_
    | with_reducible refine State.kept_snd3 (by assumption) ?_ | fail_if_no_progress with_reducible apply State.kept_mk

theorem State.sendAcks_kept (s : State) (p : Nat) (a : Ack) (hi : s.kept cmds) : (State.sendAcks s p a).kept cmds := by
  unfold State.sendAcks
  try dsimp only
  repeat' first
    | with_reducible first
      | assumption | apply State.setPort_kept | apply State.sendCell_kept | apply State.kept_ite
      | refine State.kept_foldl (fun _ _ _ => ?_) ?_ _
    | with_reducible refine State.kept_snd (by assumption) ?_ | with_reducible refine State.kept_snd2 (by assumption) ?_
    | with_reducible refine State.kept_snd3 (by assumption) ?_ | fail_if_no_progress with_reducible apply State.kept_mk

theorem State.flushAcks_kept (s : State) (p n : Nat) (h : s.kept cmds) : (State.flushAcks s p n).kept cmds := by
  induction n generalizing s with
  | zero => exact h
  | succ n ih =>
    rw [State.flushAcks]
    split
    · exact h
    · exact ih _ (State.sendAcks_kept _ _ _ h)

theorem State.ack_kept (s : State) (p : Nat) (c : Cell) (acc : Option (Nat × Nat)) (st : Nat) (hi : s.kept cmds) :
    (State.ack s p c acc st).kept cmds := by
  unfold State.ack
  try dsimp only
  repeat' first
    | with_reducible first
      | assumption | apply State.setPort_kept | apply State.sendAcks_kept | apply State.kept_ite
    | with_reducible refine State.kept_snd (by assumption) ?_ | with_reducible refine State.kept_snd2 (by assumption) ?_
    | with_reducible refine State.kept_snd3 (by assumption) ?_ | fail_if_no_progress with_reducible apply State.kept_mk

theorem State.fwdMiss_kept (s : State) (p o : Nat) (c : Cell) (hi : s.kept cmds) : (State.fwdMiss s p o c).kept cmds := by
  unfold State.fwdMiss
  try dsimp only
  repeat' first
    | with_reducible first
      | assumption | apply State.schedFlag_kept | apply State.satAdd_kept | apply State.sendHeld_kept | apply State.kept_ite
    | fail_if_no_progress with_reducible apply State.kept_mk

theorem State.fwdSend_kept (s : State) (p o : Nat) (c : Cell) (hi : s.kept cmds) : (State.fwdSend s p o c).kept cmds := by
  unfold State.fwdSend
  try dsimp only
  repeat' first
    | with_reducible first
      | assumption | apply State.setPort_kept | apply State.sendHeld_kept | apply State.kept_ite
    | fail_if_no_progress with_reducible apply State.kept_mk

theorem State.pumpFwd_kept (s : State) (p o n : Nat) (h : s.kept cmds) : (State.pumpFwd s p o n).kept cmds := by
  induction n generalizing s with
  | zero => exact h
  | succ n ih =>
    rw [State.pumpFwd]
    dsimp only
    split
    · exact h
    · split
      · exact ih _ (State.fwdSend_kept _ _ _ _ (State.setPort_kept _ _ _ h))
      · split
        · exact h
        · exact ih _ (State.fwdMiss_kept _ _ _ _ (State.setPort_kept _ _ _ h))

theorem State.pumpHeld_kept (s : State) (o : Nat) (hi : s.kept cmds) : (State.pumpHeld s o).kept cmds := by
  unfold State.pumpHeld
  try dsimp only
  repeat' first
    | with_reducible first
      | assumption | apply State.pumpFwd_kept | apply State.kept_ite | refine State.kept_foldl (fun _ _ _ => ?_) ?_ _
    | with_reducible refine State.kept_snd (by assumption) ?_ | with_reducible refine State.kept_snd2 (by assumption) ?_
    | with_reducible refine State.kept_snd3 (by assumption) ?_ | fail_if_no_progress with_reducible apply State.kept_mk

theorem State.missHeld_kept (s : State) (o : Nat) (hi : s.kept cmds) : (State.missHeld s o).kept cmds := by
  unfold State.missHeld
  try dsimp only
  repeat' first
    | with_reducible first
      | assumption | apply State.setPort_kept | apply State.fwdMiss_kept | apply State.kept_ite
      | refine State.kept_foldl (fun _ _ _ => ?_) ?_ _
    | with_reducible refine State.kept_snd (by assumption) ?_ | with_reducible refine State.kept_snd2 (by assumption) ?_
    | with_reducible refine State.kept_snd3 (by assumption) ?_ | fail_if_no_progress with_reducible apply State.kept_mk

theorem State.forward_kept (s : State) (p : Nat) (c : Cell) (hi : s.kept cmds) : (State.forward s p c).kept cmds := by
  unfold State.forward
  try dsimp only
  repeat' first
    | with_reducible first
      | assumption | apply State.routeErr_kept | apply State.setPort_kept | apply State.pumpFwd_kept
      | apply State.sendHeld_kept | apply State.kept_ite
    | fail_if_no_progress with_reducible apply State.kept_mk

theorem State.tagFailure_kept (s : State) (p : Nat) (hi : s.kept cmds) : (State.tagFailure s p).kept cmds := by
  unfold State.tagFailure
  try dsimp only
  repeat' first
    | with_reducible first
      | assumption | apply State.setPort_kept | apply State.satAdd_kept | apply State.raise_kept | apply State.portCE_kept
      | apply State.kept_ite
    | fail_if_no_progress with_reducible apply State.kept_mk

theorem State.receive_kept (s : State) (p : Nat) (c : Cell) (hi : s.kept cmds) : (State.receive s p c).2.kept cmds := by
  unfold State.receive
  try dsimp only
  repeat' first
    | with_reducible first
      | assumption | apply State.setPort_kept | apply State.tagFailure_kept | apply State.badCell_kept
      | apply State.raise_kept | apply State.kept_ite | apply State.kept_ite2
    | split | with_reducible refine State.kept_snd (by assumption) ?_
    | with_reducible refine State.kept_snd2 (by assumption) ?_ | with_reducible refine State.kept_snd3 (by assumption) ?_
    | fail_if_no_progress with_reducible apply State.kept_mk

theorem State.route_kept (s : State) (p : Nat) (c : Cell) (here : Cell → State → State)
    (hh : ∀ c t, State.kept cmds t → (here c t).kept cmds) (h : s.kept cmds) : (s.route p c here).kept cmds := by
  unfold State.route
  have h1 := State.receive_kept s p c h
  split
  · next e => exact State.kept_snd e h1
  · next e =>
    have h2 := State.kept_snd e h1
    repeat' first
      | with_reducible first
        | assumption | apply State.routeErr_kept | apply State.forward_kept | apply hh
      | split

/-! ## The definitions of Machine/Target.lean -/

theorem State.serve_kept (s : State) (p q e : Nat) (c : Cell) (hi : s.kept cmds) : (State.serve s p q e c).kept cmds := by
  unfold State.serve
  try dsimp only
  repeat' first
    | with_reducible first
      | assumption | apply State.dirtyRun_kept | apply State.readMem_kept | apply State.sendCell_kept
      | apply State.writeMem_kept | apply State.ack_kept | apply State.drawBool_kept | apply State.postContrib_kept
      | apply State.owe_kept | apply State.mso_kept | apply State.atomOp_kept | apply State.kept_ite
    | split | with_reducible refine State.kept_snd (by assumption) ?_
    | with_reducible refine State.kept_snd2 (by assumption) ?_ | with_reducible refine State.kept_snd3 (by assumption) ?_
    | fail_if_no_progress with_reducible apply State.kept_mk

theorem State.target_kept (s : State) (p : Nat) (c : Cell) (hi : s.kept cmds) : (State.target s p c).kept cmds := by
  unfold State.target
  try dsimp only
  repeat' first
    | with_reducible first
      | assumption | apply State.routeErr_kept | apply State.refuse_kept | apply State.ack_kept | apply State.serve_kept
      | apply State.kept_ite
    | split | with_reducible refine State.kept_snd (by assumption) ?_
    | with_reducible refine State.kept_snd2 (by assumption) ?_ | with_reducible refine State.kept_snd3 (by assumption) ?_
    | fail_if_no_progress with_reducible apply State.kept_mk

theorem State.serveWaiting_kept (s : State) (hi : s.kept cmds) : (State.serveWaiting s).kept cmds := by
  unfold State.serveWaiting
  try dsimp only
  repeat' first
    | with_reducible first
      | assumption | apply State.serve_kept | apply State.kept_ite | refine State.kept_foldl (fun _ _ _ => ?_) ?_ _
    | with_reducible refine State.kept_snd (by assumption) ?_ | with_reducible refine State.kept_snd2 (by assumption) ?_
    | with_reducible refine State.kept_snd3 (by assumption) ?_ | fail_if_no_progress with_reducible apply State.kept_mk

theorem State.dropInbound_kept (s : State) (i : Inbound) (st : Nat) (hi : s.kept cmds) : (State.dropInbound s i st).kept
    cmds := by
  unfold State.dropInbound
  try dsimp only
  repeat' first
    | with_reducible first
      | assumption | apply State.refuse_kept | apply State.ack_kept | apply State.kept_ite
    | fail_if_no_progress with_reducible apply State.kept_mk

theorem State.latchCell_kept (s : State) (p : Nat) (c : Cell) (hi : s.kept cmds) : (State.latchCell s p c).kept cmds := by
  unfold State.latchCell
  try dsimp only
  repeat' first
    | with_reducible first
      | assumption | apply State.routeErr_kept | apply State.ack_kept | apply State.signal_kept | apply State.kept_ite
    | split | with_reducible refine State.kept_snd (by assumption) ?_
    | with_reducible refine State.kept_snd2 (by assumption) ?_ | with_reducible refine State.kept_snd3 (by assumption) ?_
    | fail_if_no_progress with_reducible apply State.kept_mk

theorem State.giveOwed_kept (s : State) (o : Owing) (hi : s.kept cmds) : (State.giveOwed s o).kept cmds := by
  unfold State.giveOwed
  try dsimp only
  repeat' first
    | with_reducible first
      | assumption | apply State.ack_kept | apply State.moveFault_kept | apply State.dropMove_kept | apply State.kept_ite
    | split | with_reducible refine State.kept_snd (by assumption) ?_
    | with_reducible refine State.kept_snd2 (by assumption) ?_ | with_reducible refine State.kept_snd3 (by assumption) ?_
    | fail_if_no_progress with_reducible apply State.kept_mk

theorem State.settleApplied_kept (s : State) (hi : s.kept cmds) : (State.settleApplied s).kept cmds := by
  unfold State.settleApplied
  try dsimp only
  repeat' first
    | with_reducible first
      | assumption | apply State.giveOwed_kept | apply State.kept_ite | refine State.kept_foldl (fun _ _ _ => ?_) ?_ _
    | fail_if_no_progress with_reducible apply State.kept_mk

theorem State.flushUnits_kept (s : State) (p : Nat → Bool) (hi : s.kept cmds) : (State.flushUnits s p).kept cmds := by
  unfold State.flushUnits
  try dsimp only
  repeat' first
    | with_reducible first
      | assumption | apply State.flushContribs_kept | apply State.settleApplied_kept | apply State.kept_ite
    | fail_if_no_progress with_reducible apply State.kept_mk

/-! ## The definitions of Machine/Answer.lean -/

theorem State.sigDone_kept (s : State) (g : SigOut) (st : Nat) (hi : s.kept cmds) : (State.sigDone s g st).kept cmds := by
  unfold State.sigDone
  try dsimp only
  repeat' first
    | with_reducible first
      | assumption | apply State.finish_kept | apply State.logCE_kept | apply State.kept_ite
    | fail_if_no_progress with_reducible apply State.kept_mk

theorem State.reissue_kept (s : State) (n : Nat) (m : MoveOp) (r : Req) (hi : s.kept cmds) : (State.reissue s n m r).kept
    cmds := by
  unfold State.reissue
  try dsimp only
  repeat' first
    | with_reducible first
      | assumption | apply State.raise_kept | apply State.satAdd_kept | apply State.setMove_kept | apply State.pumpMove_kept
      | apply State.kept_ite
    | split | with_reducible refine State.kept_snd (by assumption) ?_
    | with_reducible refine State.kept_snd2 (by assumption) ?_ | with_reducible refine State.kept_snd3 (by assumption) ?_
    | fail_if_no_progress with_reducible apply State.kept_mk

theorem State.fenceMove_kept (s : State) (n : Nat) (hi : s.kept cmds) : (State.fenceMove s n).kept cmds := by
  unfold State.fenceMove
  try dsimp only
  repeat' first
    | with_reducible first
      | assumption | apply State.stopCore_kept | apply State.finishLaunch_kept | apply State.kept_ite
    | split | with_reducible refine State.kept_snd (by assumption) ?_
    | with_reducible refine State.kept_snd2 (by assumption) ?_ | with_reducible refine State.kept_snd3 (by assumption) ?_
    | fail_if_no_progress with_reducible apply State.kept_mk

theorem State.takeAnswer_kept (s : State) (n : Nat) (m : MoveOp) (hi : s.kept cmds) : (State.takeAnswer s n m).kept cmds := by
  unfold State.takeAnswer
  try dsimp only
  repeat' first
    | with_reducible first
      | assumption | apply State.setMove_kept | apply State.pumpMove_kept | apply State.progress_kept | apply State.kept_ite
    | fail_if_no_progress with_reducible apply State.kept_mk

theorem State.answerMove_kept (s : State) (n : Nat) (m : MoveOp) (r : Req) (st : Nat) (data : List Byte) (hi : s.kept cmds)
    : (State.answerMove s n m r st data).kept cmds := by
  unfold State.answerMove
  try dsimp only
  repeat' first
    | with_reducible first
      | assumption | apply State.advanced_kept | apply State.atomDone_kept | apply State.takeAnswer_kept
      | apply State.raise_kept | apply State.moveFault_kept | apply State.reissue_kept | apply State.fenceMove_kept
      | apply State.kept_ite
    | with_reducible refine State.kept_snd (by assumption) ?_ | with_reducible refine State.kept_snd2 (by assumption) ?_
    | with_reducible refine State.kept_snd3 (by assumption) ?_ | fail_if_no_progress with_reducible apply State.kept_mk

theorem State.answer_kept (s : State) (t kind st : Nat) (data : List Byte) (hi : s.kept cmds) : (State.answer s t kind st
    data).kept cmds := by
  unfold State.answer
  try dsimp only
  repeat' first
    | with_reducible first
      | assumption | apply State.sigDone_kept | apply State.readAnswered_kept | apply State.answerMove_kept
      | apply State.kept_ite
    | split | with_reducible refine State.kept_snd (by assumption) ?_
    | with_reducible refine State.kept_snd2 (by assumption) ?_ | with_reducible refine State.kept_snd3 (by assumption) ?_
    | fail_if_no_progress with_reducible apply State.kept_mk

theorem State.answerCell_kept (s : State) (p kind : Nat) (c : Cell) (hi : s.kept cmds) : (State.answerCell s p kind c).kept
    cmds := by
  unfold State.answerCell
  try dsimp only
  repeat' first
    | with_reducible first
      | assumption | apply State.answer_kept | apply State.routeErr_kept | apply State.kept_ite
    | split | with_reducible refine State.kept_snd (by assumption) ?_
    | with_reducible refine State.kept_snd2 (by assumption) ?_ | with_reducible refine State.kept_snd3 (by assumption) ?_
    | fail_if_no_progress with_reducible apply State.kept_mk

/-! ## The definitions of Machine/Bells.lean -/

theorem State.snapFlag_kept (s : State) (f : Fld) (hi : s.kept cmds) : (State.snapFlag s f).kept cmds := by
  unfold State.snapFlag
  try dsimp only
  repeat' first
    | with_reducible first
      | assumption | apply State.raise_kept | apply State.kept_ite | refine State.kept_foldl (fun _ _ _ => ?_) ?_ _
    | fail_if_no_progress with_reducible apply State.kept_mk

theorem State.addBell_kept (s : State) (origin target : Nat) (h : s.kept cmds) : (s.addBell origin target).kept cmds := by
  unfold State.addBell
  dsimp only
  split
  · exact h
  · split
    · exact State.snapFlag_kept _ _ h
    · refine State.kept_bells h ?_
      rw [List.length_append, List.length_singleton]
      omega

theorem State.sendBell_kept (s : State) (scope vd target : Nat) (h : s.kept cmds) : (s.sendBell scope vd target).kept cmds :=
  State.sendAll_kept _ _ _ (State.kept_bellId (State.recordFlood_kept _ _ _ _ h) (Nat.mod_lt _ (by decide)))

theorem State.partBell_kept (s : State) (fn : Nat) (onVd : Bool) (target : Nat) (hi : s.kept cmds) : (State.partBell s fn
    onVd target).kept cmds := by
  unfold State.partBell
  try dsimp only
  repeat' first
    | with_reducible first
      | assumption | apply State.addBell_kept | apply State.target_kept | apply State.sendBell_kept | apply State.kept_ite
    | fail_if_no_progress with_reducible apply State.kept_mk

theorem State.hint_kept (s : State) (isLight : Bool) (lead level : Nat) (hi : s.kept cmds) : (State.hint s isLight lead
    level).kept cmds := by
  unfold State.hint
  try dsimp only
  repeat' first
    | with_reducible first
      | assumption | apply State.kept_ite
    | with_reducible refine State.kept_snd (by assumption) ?_ | with_reducible refine State.kept_snd2 (by assumption) ?_
    | with_reducible refine State.kept_snd3 (by assumption) ?_ | fail_if_no_progress with_reducible apply State.kept_mk

/-! ## The definitions of Machine/Invalidate.lean -/

theorem State.startInval_kept (s : State) (fn : Nat) (r : Option (Nat × Nat)) (cmd : Option (Nat × Nat × Option Nat)) (cfn :
    Nat) (hi : s.kept cmds) : (State.startInval s fn r cmd cfn).kept cmds := by
  unfold State.startInval
  try dsimp only
  repeat' first
    | with_reducible first
      | assumption | apply State.dropXlat_kept | apply State.kept_ite
    | fail_if_no_progress with_reducible apply State.kept_mk

theorem State.completeInval_kept (s : State) (v : Inval) (hi : s.kept cmds) : (State.completeInval s v).kept cmds := by
  unfold State.completeInval
  try dsimp only
  repeat' first
    | with_reducible first
      | assumption | apply State.send_kept | apply State.finish_kept | apply State.setFld_kept | apply State.modAdd_kept
      | apply State.kept_ite
    | split | with_reducible refine State.kept_snd (by assumption) ?_
    | with_reducible refine State.kept_snd2 (by assumption) ?_ | with_reducible refine State.kept_snd3 (by assumption) ?_
    | fail_if_no_progress with_reducible apply State.kept_mk

theorem State.xlatInv_kept (s : State) (v : Nat) (hi : s.kept cmds) : (State.xlatInv s v).kept cmds := by
  unfold State.xlatInv
  try dsimp only
  repeat' first
    | with_reducible first
      | assumption | apply State.raise_kept | apply State.setFld_kept | apply State.startInval_kept | apply State.kept_ite
    | fail_if_no_progress with_reducible apply State.kept_mk

theorem State.atsInval_kept (s : State) (fn addr pages : Nat) (hi : s.kept cmds) : (State.atsInval s fn addr pages).kept
    cmds := by
  unfold State.atsInval
  try dsimp only
  repeat' first
    | with_reducible first
      | assumption | apply State.setAts_kept | apply State.kept_ite
    | with_reducible refine State.kept_snd (by assumption) ?_ | with_reducible refine State.kept_snd2 (by assumption) ?_
    | with_reducible refine State.kept_snd3 (by assumption) ?_ | fail_if_no_progress with_reducible apply State.kept_mk

theorem State.failUsers_kept (s : State) (fn page kind : Nat) (hi : s.kept cmds) : (State.failUsers s fn page kind).kept
    cmds := by
  unfold State.failUsers
  try dsimp only
  repeat' first
    | with_reducible first
      | assumption | apply State.setAts_kept | apply State.moveFault_kept | apply State.kept_ite
      | refine State.kept_foldl (fun _ _ _ => ?_) ?_ _
    | split | with_reducible refine State.kept_snd (by assumption) ?_
    | with_reducible refine State.kept_snd2 (by assumption) ?_ | with_reducible refine State.kept_snd3 (by assumption) ?_
    | fail_if_no_progress with_reducible apply State.kept_mk

theorem State.pumpPri_kept (s : State) (fn : Nat) (hi : s.kept cmds) : (State.pumpPri s fn).kept cmds := by
  unfold State.pumpPri
  try dsimp only
  repeat' first
    | with_reducible first
      | assumption | apply State.send_kept | apply State.setAts_kept | apply State.kept_ite
      | refine State.kept_foldl (fun _ _ _ => ?_) ?_ _
    | with_reducible refine State.kept_snd (by assumption) ?_ | with_reducible refine State.kept_snd2 (by assumption) ?_
    | with_reducible refine State.kept_snd3 (by assumption) ?_ | fail_if_no_progress with_reducible apply State.kept_mk

theorem State.stallUsers_kept (s : State) (fn page : Nat) (hi : s.kept cmds) : (State.stallUsers s fn page).kept cmds := by
  unfold State.stallUsers
  try dsimp only
  repeat' first
    | with_reducible first
      | assumption | apply State.dropLeaves_kept | apply State.kept_ite | refine State.kept_foldl (fun _ _ _ => ?_) ?_ _
    | split | with_reducible refine State.kept_snd (by assumption) ?_
    | with_reducible refine State.kept_snd2 (by assumption) ?_ | with_reducible refine State.kept_snd3 (by assumption) ?_
    | fail_if_no_progress with_reducible apply State.kept_mk

theorem State.atsDone_kept (s : State) (fn page host : Nat) (granted : Bool) (hi : s.kept cmds) : (State.atsDone s fn page
    host granted).kept cmds := by
  unfold State.atsDone
  try dsimp only
  repeat' first
    | with_reducible first
      | assumption | apply State.setAts_kept | apply State.progress_kept | apply State.failUsers_kept
      | apply State.stallUsers_kept | apply State.pumpPri_kept | apply State.kept_ite
      | refine State.kept_foldl (fun _ _ _ => ?_) ?_ _
    | with_reducible refine State.kept_snd (by assumption) ?_ | with_reducible refine State.kept_snd2 (by assumption) ?_
    | with_reducible refine State.kept_snd3 (by assumption) ?_ | fail_if_no_progress with_reducible apply State.kept_mk

theorem State.priDone_kept (s : State) (fn page : Nat) (success : Bool) (hi : s.kept cmds) : (State.priDone s fn page
    success).kept cmds := by
  unfold State.priDone
  try dsimp only
  repeat' first
    | with_reducible first
      | assumption | apply State.setAts_kept | apply State.pumpPri_kept | apply State.send_kept | apply State.failUsers_kept
      | apply State.kept_ite
    | with_reducible refine State.kept_snd (by assumption) ?_ | with_reducible refine State.kept_snd2 (by assumption) ?_
    | with_reducible refine State.kept_snd3 (by assumption) ?_ | fail_if_no_progress with_reducible apply State.kept_mk

end Sys2Proof.Machine
end

