-- ==== Sys2Proof/Laws/KeepsWork.lean ====
section
/-! SUPPORT. The canonical form of the state (State.kept) is kept by every operation of the model that gives a state: queues,
launches, contexts and objects.
One lemma for each, to be cited in place of unfolding it. -/

set_option linter.unusedTactic false
set_option linter.unreachableTactic false

namespace Sys2Proof.Machine

open Sys2Proof

variable {cmds : List Instr}

/-! ## The definitions of Machine/Scalar.lean -/

theorem State.kept_scalarSR (x : Slot) (useU : Bool) (g : Bool → U64 → U64 → U64) (s : State) (hi : s.kept cmds) : (scalarSR
    x useU g s).kept cmds := by
  unfold scalarSR
  try dsimp only
  repeat' first
    | with_reducible first
      | assumption | apply State.issue_kept | apply State.kept_ite
    | fail_if_no_progress with_reducible apply State.kept_mk

theorem State.kept_scalarSI (x : Slot) (noA : Bool) (chk : Nat → Bool) (g : U64 → U64 → Nat → U64) (s : State) (hi : s.kept
    cmds) : (scalarSI x noA chk g s).kept cmds := by
  unfold scalarSI
  try dsimp only
  repeat' first
    | with_reducible first
      | assumption | apply State.issue_kept | apply State.kept_ite
    | fail_if_no_progress with_reducible apply State.kept_mk

/-! ## The definitions of Machine/Seq.lean -/

theorem State.keepSlot_kept (s : State) (i : Nat) (spilled : List Nat) (hi : s.kept cmds) : (State.keepSlot s i
    spilled).kept cmds := by
  unfold State.keepSlot
  try dsimp only
  repeat' first
    | with_reducible first
      | assumption | apply State.kept_ite | refine State.kept_foldl (fun _ _ _ => ?_) ?_ _
    | split | with_reducible refine State.kept_snd (by assumption) ?_
    | with_reducible refine State.kept_snd2 (by assumption) ?_ | with_reducible refine State.kept_snd3 (by assumption) ?_
    | fail_if_no_progress with_reducible apply State.kept_mk

theorem State.seqApply_kept {s t : State} {slot fn ctx tokens first : Nat} {pages : List Nat}
    (e : s.seqApply slot fn ctx tokens first pages = .ok t) (h : s.kept cmds) : t.kept cmds := by
  unfold State.seqApply at e
  split at e
  · cases e
    exact h
  · dsimp only at e
    split at e
    · cases e
    · cases e
      refine State.kept_mk (State.kept_foldl (fun u x hu => ?_) (State.keepSlot_kept _ _ _ h) _) ..
      split
      · exact State.writeMem_kept _ _ _ _ hu
      · exact hu

/-! ## The definitions of Machine/Commands.lean -/

theorem State.openQueued_kept (s : State) (fn q sq : Nat) (hi : s.kept cmds) : (State.openQueued s fn q sq).kept cmds := by
  unfold State.openQueued
  try dsimp only
  repeat' first
    | with_reducible first
      | assumption | apply State.updRec_kept | apply State.kept_ite
    | split | with_reducible refine State.kept_snd (by assumption) ?_
    | with_reducible refine State.kept_snd2 (by assumption) ?_ | with_reducible refine State.kept_snd3 (by assumption) ?_
    | fail_if_no_progress with_reducible apply State.kept_mk

theorem State.done_kept (s : State) (k : Cmd) (st : Nat) (hi : s.kept cmds) : (State.done s k st).kept cmds := by
  unfold State.done
  try dsimp only
  repeat' first
    | with_reducible first
      | assumption | apply State.finish_kept | apply State.kept_ite
    | fail_if_no_progress with_reducible apply State.kept_mk

theorem State.failed1_kept (s : State) (k : Cmd) (st source addr : Nat) (hi : s.kept cmds) : (State.failed1 s k st source
    addr).kept cmds := by
  unfold State.failed1
  try dsimp only
  repeat' first
    | with_reducible first
      | assumption | apply State.logErr_kept | apply State.finish_kept | apply State.kept_ite
    | fail_if_no_progress with_reducible apply State.kept_mk

theorem State.failedRead_kept (s : State) (k : Cmd) (kind addr : Nat) (hi : s.kept cmds) : (State.failedRead s k kind
    addr).kept cmds := by
  unfold State.failedRead
  try dsimp only
  repeat' first
    | with_reducible first
      | assumption | apply State.failed1_kept | apply State.kept_ite
    | fail_if_no_progress with_reducible apply State.kept_mk

theorem State.freeCore_kept (s : State) (n : Nat) (hi : s.kept cmds) : (State.freeCore s n).kept cmds := by
  unfold State.freeCore
  try dsimp only
  repeat' first
    | with_reducible first
      | assumption | apply State.setCore_kept | apply State.kept_ite
    | fail_if_no_progress with_reducible apply State.kept_mk

theorem State.stopLaunch_kept (s : State) (l : Launch) (hi : s.kept cmds) : (State.stopLaunch s l).kept cmds := by
  unfold State.stopLaunch
  try dsimp only
  repeat' first
    | with_reducible first
      | assumption | apply State.stopCore_kept | apply State.kept_ite | refine State.kept_foldl (fun _ _ _ => ?_) ?_ _
    | with_reducible refine State.kept_snd (by assumption) ?_ | with_reducible refine State.kept_snd2 (by assumption) ?_
    | with_reducible refine State.kept_snd3 (by assumption) ?_ | fail_if_no_progress with_reducible apply State.kept_mk

theorem State.dropLaunch_kept (s : State) (l : Launch) (hi : s.kept cmds) : (State.dropLaunch s l).kept cmds := by
  unfold State.dropLaunch
  try dsimp only
  repeat' first
    | with_reducible first
      | assumption | apply State.freeCore_kept | apply State.stopLaunch_kept | apply State.kept_ite
      | refine State.kept_foldl (fun _ _ _ => ?_) ?_ _
    | with_reducible refine State.kept_snd (by assumption) ?_ | with_reducible refine State.kept_snd2 (by assumption) ?_
    | with_reducible refine State.kept_snd3 (by assumption) ?_ | fail_if_no_progress with_reducible apply State.kept_mk

theorem State.abandon_kept (s : State) (fn q sq status : Nat) (policy : Bool) (hi : s.kept cmds) : (State.abandon s fn q sq
    status policy).kept cmds := by
  unfold State.abandon
  try dsimp only
  repeat' first
    | with_reducible first
      | assumption | apply State.openQueued_kept | apply State.dropLaunch_kept | apply State.done_kept
      | apply State.releaseVersion_kept | apply State.completeRec_kept | apply State.settled_kept | apply State.kept_ite
      | refine State.kept_foldl (fun _ _ _ => ?_) ?_ _
    | split | with_reducible refine State.kept_snd (by assumption) ?_
    | with_reducible refine State.kept_snd2 (by assumption) ?_ | with_reducible refine State.kept_snd3 (by assumption) ?_
    | fail_if_no_progress with_reducible apply State.kept_mk

theorem State.abandonQueue_kept (s : State) (fn q status : Nat) (hi : s.kept cmds) : (State.abandonQueue s fn q status).kept
    cmds := by
  unfold State.abandonQueue
  try dsimp only
  repeat' first
    | with_reducible first
      | assumption | apply State.abandon_kept | apply State.kept_ite | refine State.kept_foldl (fun _ _ _ => ?_) ?_ _
    | fail_if_no_progress with_reducible apply State.kept_mk

/-! ## The definitions of Machine/Objects.lean -/

theorem State.ctxCreate_kept (s : State) (k : Cmd) (hi : s.kept cmds) : (State.ctxCreate s k).kept cmds := by
  unfold State.ctxCreate
  try dsimp only
  repeat' first
    | with_reducible first
      | assumption | apply State.done_kept | apply State.modAdd_kept | apply State.setFld_kept | apply State.kept_ite
    | with_reducible refine State.kept_snd (by assumption) ?_ | with_reducible refine State.kept_snd2 (by assumption) ?_
    | with_reducible refine State.kept_snd3 (by assumption) ?_ | fail_if_no_progress with_reducible apply State.kept_mk

theorem State.askDestroy_kept (s : State) (k : Cmd) (kind num : Nat) (hi : s.kept cmds) : (State.askDestroy s k kind
    num).kept cmds := by
  unfold State.askDestroy
  try dsimp only
  repeat' first
    | with_reducible first
      | assumption | apply State.kept_ite
    | fail_if_no_progress with_reducible apply State.kept_mk

theorem State.ctxDestroy_kept (s : State) (k : Cmd) (hi : s.kept cmds) : (State.ctxDestroy s k).kept cmds := by
  unfold State.ctxDestroy
  try dsimp only
  repeat' first
    | with_reducible first
      | assumption | apply State.updCtx_kept | apply State.askDestroy_kept | apply State.kept_ite
    | fail_if_no_progress with_reducible apply State.kept_mk

theorem State.latchAlloc_kept (s : State) (k : Cmd) (hi : s.kept cmds) : (State.latchAlloc s k).kept cmds := by
  unfold State.latchAlloc
  try dsimp only
  repeat' first
    | with_reducible first
      | assumption | apply State.done_kept | apply State.kept_ite
    | with_reducible refine State.kept_snd (by assumption) ?_ | with_reducible refine State.kept_snd2 (by assumption) ?_
    | with_reducible refine State.kept_snd3 (by assumption) ?_ | fail_if_no_progress with_reducible apply State.kept_mk

theorem State.freeLatch_kept (s : State) (fn l : Nat) (hi : s.kept cmds) : (State.freeLatch s fn l).kept cmds := by
  unfold State.freeLatch
  try dsimp only
  repeat' first
    | with_reducible first
      | assumption | apply State.finish_kept | apply State.preciseAt_kept | apply State.kept_ite
      | refine State.kept_foldl (fun _ _ _ => ?_) ?_ _
    | split | with_reducible refine State.kept_snd (by assumption) ?_
    | with_reducible refine State.kept_snd2 (by assumption) ?_ | with_reducible refine State.kept_snd3 (by assumption) ?_
    | fail_if_no_progress with_reducible apply State.kept_mk

theorem State.latchFree_kept (s : State) (k : Cmd) (hi : s.kept cmds) : (State.latchFree s k).kept cmds := by
  unfold State.latchFree
  try dsimp only
  repeat' first
    | with_reducible first
      | assumption | apply State.done_kept | apply State.freeLatch_kept | apply State.kept_ite
    | fail_if_no_progress with_reducible apply State.kept_mk

theorem State.latchSignal_kept (s : State) (k : Cmd) (hi : s.kept cmds) : (State.latchSignal s k).kept cmds := by
  unfold State.latchSignal
  try dsimp only
  repeat' first
    | with_reducible first
      | assumption | apply State.done_kept | apply State.sendSignal_kept | apply State.signal_kept | apply State.kept_ite
    | split | with_reducible refine State.kept_snd (by assumption) ?_
    | with_reducible refine State.kept_snd2 (by assumption) ?_ | with_reducible refine State.kept_snd3 (by assumption) ?_
    | fail_if_no_progress with_reducible apply State.kept_mk

theorem State.latchWait_kept (s : State) (k : Cmd) (hi : s.kept cmds) : (State.latchWait s k).kept cmds := by
  unfold State.latchWait
  try dsimp only
  repeat' first
    | with_reducible first
      | assumption | apply State.done_kept | apply State.settled_kept | apply State.kept_ite
    | fail_if_no_progress with_reducible apply State.kept_mk

theorem State.seqBind_kept (s : State) (k : Cmd) (hi : s.kept cmds) : (State.seqBind s k).kept cmds := by
  unfold State.seqBind
  try dsimp only
  repeat' first
    | with_reducible first
      | assumption | apply State.done_kept | apply State.keepSlot_kept | apply State.kept_ite
    | with_reducible refine State.kept_snd (by assumption) ?_ | with_reducible refine State.kept_snd2 (by assumption) ?_
    | with_reducible refine State.kept_snd3 (by assumption) ?_ | fail_if_no_progress with_reducible apply State.kept_mk

theorem State.seqUnbind_kept (s : State) (k : Cmd) (hi : s.kept cmds) : (State.seqUnbind s k).kept cmds := by
  unfold State.seqUnbind
  try dsimp only
  repeat' first
    | with_reducible first
      | assumption | apply State.done_kept | apply State.askDestroy_kept | apply State.kept_ite
    | split | with_reducible refine State.kept_snd (by assumption) ?_
    | with_reducible refine State.kept_snd2 (by assumption) ?_ | with_reducible refine State.kept_snd3 (by assumption) ?_
    | fail_if_no_progress with_reducible apply State.kept_mk

theorem State.seqUpdate_kept (s : State) (k : Cmd) (ext : List Byte) (hi : s.kept cmds) : (State.seqUpdate s k ext).kept
    cmds := by
  unfold State.seqUpdate
  try dsimp only
  repeat' first
    | with_reducible first
      | assumption | apply State.done_kept | apply State.readVa_kept | apply State.failedRead_kept | apply State.kept_ite
    | split | with_reducible refine State.kept_snd (by assumption) ?_
    | with_reducible refine State.kept_snd2 (by assumption) ?_ | with_reducible refine State.kept_snd3 (by assumption) ?_
    | with_reducible refine VaRead.kept_ok (by assumption) ?_ | with_reducible refine VaRead.kept_fail (by assumption) ?_
    | with_reducible refine VaRead.kept_wait (by assumption) ?_ | fail_if_no_progress with_reducible apply State.kept_mk

theorem State.writeLeaves_kept {s t : State} {fn : Nat} {l : List (Nat × Nat × Nat)} {val : Nat → Nat}
    (e : s.writeLeaves fn l val = some t) (h : s.kept cmds) : t.kept cmds := by
  unfold State.writeLeaves at e
  dsimp only at e
  split at e
  · cases e
    refine State.kept_foldl (fun u x hu => ?_) h _
    split
    · exact State.writeMem_kept _ _ _ _ hu
    · exact hu
  · cases e

theorem State.clearLeaves_kept (s : State) (fn : Nat) (l : List (Nat × Nat × Nat)) (hi : s.kept cmds) : (State.clearLeaves s
    fn l).kept cmds := by
  unfold State.clearLeaves
  try dsimp only
  repeat' first
    | with_reducible first
      | assumption | apply State.writeMem_kept | apply State.kept_ite | refine State.kept_foldl (fun _ _ _ => ?_) ?_ _
    | split | fail_if_no_progress with_reducible apply State.kept_mk

theorem State.mapObj_kept (s : State) (k : Cmd) (hi : s.kept cmds) : (State.mapObj s k).kept cmds := by
  unfold State.mapObj
  try dsimp only
  repeat' first
    | with_reducible first
      | assumption | apply State.done_kept | apply State.kept_ite
    | split | with_reducible refine State.kept_snd (by assumption) ?_
    | with_reducible refine State.kept_snd2 (by assumption) ?_ | with_reducible refine State.kept_snd3 (by assumption) ?_
    | with_reducible refine State.writeLeaves_kept (by assumption) ?_
    | fail_if_no_progress with_reducible apply State.kept_mk

theorem State.unmapObj_kept (s : State) (k : Cmd) (hi : s.kept cmds) : (State.unmapObj s k).kept cmds := by
  unfold State.unmapObj
  try dsimp only
  repeat' first
    | with_reducible first
      | assumption | apply State.done_kept | apply State.clearLeaves_kept | apply State.startInval_kept
      | apply State.kept_ite
    | split | with_reducible refine State.kept_snd (by assumption) ?_
    | with_reducible refine State.kept_snd2 (by assumption) ?_ | with_reducible refine State.kept_snd3 (by assumption) ?_
    | fail_if_no_progress with_reducible apply State.kept_mk

theorem State.invalidateCmd_kept (s : State) (k : Cmd) (hi : s.kept cmds) : (State.invalidateCmd s k).kept cmds := by
  unfold State.invalidateCmd
  try dsimp only
  repeat' first
    | with_reducible first
      | assumption | apply State.startInval_kept | apply State.kept_ite
    | fail_if_no_progress with_reducible apply State.kept_mk

theorem State.graphStore_kept (s : State) (k : Cmd) (ext : List Byte) (hi : s.kept cmds) : (State.graphStore s k ext).kept
    cmds := by
  unfold State.graphStore
  try dsimp only
  repeat' first
    | with_reducible first
      | assumption | apply State.done_kept | apply State.readVa_kept | apply State.failedRead_kept | apply State.kept_ite
    | split | with_reducible refine State.kept_snd (by assumption) ?_
    | with_reducible refine State.kept_snd2 (by assumption) ?_ | with_reducible refine State.kept_snd3 (by assumption) ?_
    | with_reducible refine VaRead.kept_ok (by assumption) ?_ | with_reducible refine VaRead.kept_fail (by assumption) ?_
    | with_reducible refine VaRead.kept_wait (by assumption) ?_ | fail_if_no_progress with_reducible apply State.kept_mk

theorem State.graphPatch_kept (s : State) (k : Cmd) (ext : List Byte) (hi : s.kept cmds) : (State.graphPatch s k ext).kept
    cmds := by
  unfold State.graphPatch
  try dsimp only
  repeat' first
    | with_reducible first
      | assumption | apply State.done_kept | apply State.readVa_kept | apply State.failedRead_kept | apply State.kept_ite
    | split | with_reducible refine State.kept_snd (by assumption) ?_
    | with_reducible refine State.kept_snd2 (by assumption) ?_ | with_reducible refine State.kept_snd3 (by assumption) ?_
    | with_reducible refine VaRead.kept_ok (by assumption) ?_ | with_reducible refine VaRead.kept_fail (by assumption) ?_
    | with_reducible refine VaRead.kept_wait (by assumption) ?_ | fail_if_no_progress with_reducible apply State.kept_mk

theorem State.graphDestroy_kept (s : State) (k : Cmd) (hi : s.kept cmds) : (State.graphDestroy s k).kept cmds := by
  unfold State.graphDestroy
  try dsimp only
  repeat' first
    | with_reducible first
      | assumption | apply State.done_kept | apply State.askDestroy_kept | apply State.kept_ite
    | split | with_reducible refine State.kept_snd (by assumption) ?_
    | with_reducible refine State.kept_snd2 (by assumption) ?_ | with_reducible refine State.kept_snd3 (by assumption) ?_
    | fail_if_no_progress with_reducible apply State.kept_mk

theorem State.graphLaunch_kept (s : State) (k : Cmd) (hi : s.kept cmds) : (State.graphLaunch s k).kept cmds := by
  unfold State.graphLaunch
  try dsimp only
  repeat' first
    | with_reducible first
      | assumption | apply State.done_kept | apply State.kept_ite
    | split | with_reducible refine State.kept_snd (by assumption) ?_
    | with_reducible refine State.kept_snd2 (by assumption) ?_ | with_reducible refine State.kept_snd3 (by assumption) ?_
    | fail_if_no_progress with_reducible apply State.kept_mk

theorem State.launchCmd_kept (s : State) (k : Cmd) (argVa : Nat) (hi : s.kept cmds) : (State.launchCmd s k argVa).kept cmds
    := by
  unfold State.launchCmd
  try dsimp only
  repeat' first
    | with_reducible first
      | assumption | apply State.done_kept | apply State.kept_ite
    | split | with_reducible refine State.kept_snd (by assumption) ?_
    | with_reducible refine State.kept_snd2 (by assumption) ?_ | with_reducible refine State.kept_snd3 (by assumption) ?_
    | fail_if_no_progress with_reducible apply State.kept_mk

/-! ## The definitions of Machine/Share.lean -/

theorem State.shareCreate_kept (s : State) (k : Cmd) (ext : List Byte) (hi : s.kept cmds) : (State.shareCreate s k ext).kept
    cmds := by
  unfold State.shareCreate
  try dsimp only
  repeat' first
    | with_reducible first
      | assumption | apply State.done_kept | apply State.readVa_kept | apply State.failedRead_kept
      | apply State.failed1_kept | apply State.wr_kept | apply State.kept_ite
    | split | with_reducible refine State.kept_snd (by assumption) ?_
    | with_reducible refine State.kept_snd2 (by assumption) ?_ | with_reducible refine State.kept_snd3 (by assumption) ?_
    | with_reducible refine VaRead.kept_ok (by assumption) ?_ | with_reducible refine VaRead.kept_fail (by assumption) ?_
    | with_reducible refine VaRead.kept_wait (by assumption) ?_ | fail_if_no_progress with_reducible apply State.kept_mk

theorem State.shareVerify_kept (s : State) (k : Cmd) (hi : s.kept cmds) : (State.shareVerify s k).kept cmds := by
  unfold State.shareVerify
  try dsimp only
  repeat' first
    | with_reducible first
      | assumption | apply State.done_kept | apply State.setFld_kept | apply State.setIntact_kept | apply State.damage_kept
      | apply State.failed1_kept | apply State.kept_ite | refine State.kept_foldl (fun _ _ _ => ?_) ?_ _
    | split | with_reducible refine State.kept_snd (by assumption) ?_
    | with_reducible refine State.kept_snd2 (by assumption) ?_ | with_reducible refine State.kept_snd3 (by assumption) ?_
    | fail_if_no_progress with_reducible apply State.kept_mk

theorem State.setSharedMap_kept (s : State) (fn : Nat) (hi : s.kept cmds) : (State.setSharedMap s fn).kept cmds := by
  unfold State.setSharedMap
  try dsimp only
  repeat' first
    | with_reducible first
      | assumption | apply State.setFld_kept | apply State.setIntact_kept | apply State.kept_ite
    | fail_if_no_progress with_reducible apply State.kept_mk

theorem State.shareMap_kept (s : State) (k : Cmd) (hi : s.kept cmds) : (State.shareMap s k).kept cmds := by
  unfold State.shareMap
  try dsimp only
  repeat' first
    | with_reducible first
      | assumption | apply State.done_kept | apply State.setSharedMap_kept | apply State.kept_ite
    | split | with_reducible refine State.kept_snd (by assumption) ?_
    | with_reducible refine State.kept_snd2 (by assumption) ?_ | with_reducible refine State.kept_snd3 (by assumption) ?_
    | with_reducible refine State.writeLeaves_kept (by assumption) ?_
    | fail_if_no_progress with_reducible apply State.kept_mk

theorem State.shareUnmap_kept (s : State) (k : Cmd) (hi : s.kept cmds) : (State.shareUnmap s k).kept cmds := by
  unfold State.shareUnmap
  try dsimp only
  repeat' first
    | with_reducible first
      | assumption | apply State.done_kept | apply State.clearLeaves_kept | apply State.dropXlat_kept
      | apply State.setSharedMap_kept | apply State.startInval_kept | apply State.kept_ite
      | refine State.kept_foldl (fun _ _ _ => ?_) ?_ _
    | split | with_reducible refine State.kept_snd (by assumption) ?_
    | with_reducible refine State.kept_snd2 (by assumption) ?_ | with_reducible refine State.kept_snd3 (by assumption) ?_
    | fail_if_no_progress with_reducible apply State.kept_mk

theorem State.shareDestroy_kept (s : State) (k : Cmd) (hi : s.kept cmds) : (State.shareDestroy s k).kept cmds := by
  unfold State.shareDestroy
  try dsimp only
  repeat' first
    | with_reducible first
      | assumption | apply State.done_kept | apply State.wr_kept | apply State.kept_ite
    | split | with_reducible refine State.kept_snd (by assumption) ?_
    | with_reducible refine State.kept_snd2 (by assumption) ?_ | with_reducible refine State.kept_snd3 (by assumption) ?_
    | fail_if_no_progress with_reducible apply State.kept_mk

/-! ## The definitions of Machine/Start.lean -/

theorem State.runOp_kept (s : State) (k : Cmd) (argVa : Nat) (ext : List Byte) (hi : s.kept cmds) : (State.runOp s k argVa
    ext).kept cmds := by
  unfold State.runOp
  try dsimp only
  repeat' first
    | with_reducible first
      | assumption | apply State.done_kept | apply State.launchCmd_kept | apply State.graphLaunch_kept
      | apply State.latchSignal_kept | apply State.latchWait_kept | apply State.seqUpdate_kept | apply State.ctxCreate_kept
      | apply State.ctxDestroy_kept | apply State.mapObj_kept | apply State.unmapObj_kept | apply State.invalidateCmd_kept
      | apply State.graphStore_kept | apply State.graphPatch_kept | apply State.graphDestroy_kept
      | apply State.latchAlloc_kept | apply State.latchFree_kept | apply State.seqBind_kept | apply State.seqUnbind_kept
      | apply State.shareCreate_kept | apply State.shareVerify_kept | apply State.shareMap_kept
      | apply State.shareUnmap_kept | apply State.shareDestroy_kept | apply State.kept_ite
    | split | fail_if_no_progress with_reducible apply State.kept_mk

theorem State.runCmd_kept (s : State) (k : Cmd) (argVa : Nat) (ext : Option (List Byte)) (hi : s.kept cmds) : (State.runCmd
    s k argVa ext).kept cmds := by
  unfold State.runCmd
  try dsimp only
  repeat' first
    | with_reducible first
      | assumption | apply State.runOp_kept | apply State.done_kept | apply State.kept_ite
    | split | fail_if_no_progress with_reducible apply State.kept_mk

theorem State.sealFailed_kept (s : State) (fn q sq : Nat) (hi : s.kept cmds) : (State.sealFailed s fn q sq).kept cmds := by
  unfold State.sealFailed
  try dsimp only
  repeat' first
    | with_reducible first
      | assumption | apply State.updRec_kept | apply State.completeRec_kept | apply State.settled_kept
      | apply State.kept_ite
    | fail_if_no_progress with_reducible apply State.kept_mk

theorem State.startRec_kept (s : State) (fn q : Nat) (r : QRec) (ext : Option (List Byte)) (hi : s.kept cmds) :
    (State.startRec s fn q r ext).kept cmds := by
  unfold State.startRec
  try dsimp only
  repeat' first
    | with_reducible first
      | assumption | apply State.sealFailed_kept | apply State.updRec_kept | apply State.failed1_kept
      | apply State.runCmd_kept | apply State.done_kept | apply State.kept_ite
    | split | with_reducible refine State.kept_snd (by assumption) ?_
    | with_reducible refine State.kept_snd2 (by assumption) ?_ | with_reducible refine State.kept_snd3 (by assumption) ?_
    | fail_if_no_progress with_reducible apply State.kept_mk

theorem State.updGrun_kept (s : State) (g : GRun) (f : GRun → GRun) (hi : s.kept cmds) : (State.updGrun s g f).kept cmds := by
  unfold State.updGrun
  try dsimp only
  repeat' first
    | with_reducible first
      | assumption | apply State.kept_ite
    | fail_if_no_progress with_reducible apply State.kept_mk

theorem State.startGraphRec_kept (s : State) (g : GRun) (i : Nat) (ext : Option (List Byte)) (hi : s.kept cmds) :
    (State.startGraphRec s g i ext).kept cmds := by
  unfold State.startGraphRec
  try dsimp only
  repeat' first
    | with_reducible first
      | assumption | apply State.updGrun_kept | apply State.runCmd_kept | apply State.kept_ite
    | with_reducible refine State.kept_snd (by assumption) ?_ | with_reducible refine State.kept_snd2 (by assumption) ?_
    | with_reducible refine State.kept_snd3 (by assumption) ?_ | fail_if_no_progress with_reducible apply State.kept_mk

theorem State.startQueue_kept (n : Nat) (s : State) (fn q : Nat) (h : s.kept cmds) : (State.startQueue n s fn q).kept cmds := by
  induction n generalizing s with
  | zero => exact h
  | succ n ih =>
    rw [State.startQueue]
    split
    · exact h
    · exact ih _ (State.startRec_kept _ _ _ _ _ h)

theorem State.startGraph_kept (n : Nat) (s : State) (fn q sq : Nat) (h : s.kept cmds) : (State.startGraph n s fn q sq).kept
    cmds := by
  induction n generalizing s with
  | zero => exact h
  | succ n ih =>
    rw [State.startGraph]
    split
    · exact h
    · split
      · exact h
      · exact ih _ (State.startGraphRec_kept _ _ _ _ h)

theorem State.startAll_kept (s : State) (hi : s.kept cmds) : (State.startAll s).kept cmds := by
  unfold State.startAll
  try dsimp only
  repeat' first
    | with_reducible first
      | assumption | apply State.startQueue_kept | apply State.startGraph_kept | apply State.kept_ite
      | refine State.kept_foldl (fun _ _ _ => ?_) ?_ _
    | with_reducible refine State.kept_snd (by assumption) ?_ | with_reducible refine State.kept_snd2 (by assumption) ?_
    | with_reducible refine State.kept_snd3 (by assumption) ?_ | fail_if_no_progress with_reducible apply State.kept_mk

theorem State.command_kept (s : State) (fn q op : Nat) (ext : List Byte) (hi : s.kept cmds) : (State.command s fn q op
    ext).kept cmds := by
  unfold State.command
  try dsimp only
  repeat' first
    | with_reducible first
      | assumption | apply State.startRec_kept | apply State.failed1_kept | apply State.runCmd_kept
      | apply State.startGraphRec_kept | apply State.kept_ite
    | split | with_reducible refine State.kept_snd (by assumption) ?_
    | with_reducible refine State.kept_snd2 (by assumption) ?_ | with_reducible refine State.kept_snd3 (by assumption) ?_
    | fail_if_no_progress with_reducible apply State.kept_mk

theorem State.completeLaunch_kept (s : State) (l : Launch) (hi : s.kept cmds) : (State.completeLaunch s l).kept cmds := by
  unfold State.completeLaunch
  try dsimp only
  repeat' first
    | with_reducible first
      | assumption | apply State.finishLaunch_kept | apply State.kept_ite
    | fail_if_no_progress with_reducible apply State.kept_mk

theorem State.completeEnded_kept (s : State) (hi : s.kept cmds) : (State.completeEnded s).kept cmds := by
  unfold State.completeEnded
  try dsimp only
  repeat' first
    | with_reducible first
      | assumption | apply State.completeLaunch_kept | apply State.kept_ite | refine State.kept_foldl (fun _ _ _ => ?_) ?_ _
    | fail_if_no_progress with_reducible apply State.kept_mk

theorem State.sieveChecked_kept (s : State) (fn q : Nat) (image : List Byte) (hi : s.kept cmds) : (State.sieveChecked s fn q
    image).kept cmds := by
  unfold State.sieveChecked
  try dsimp only
  repeat' first
    | with_reducible first
      | assumption | apply State.readVa_kept | apply State.failedRead_kept | apply State.failed1_kept
      | apply State.done_kept | apply State.kept_ite
    | split | with_reducible refine State.kept_snd (by assumption) ?_
    | with_reducible refine State.kept_snd2 (by assumption) ?_ | with_reducible refine State.kept_snd3 (by assumption) ?_
    | with_reducible refine VaRead.kept_ok (by assumption) ?_ | with_reducible refine VaRead.kept_fail (by assumption) ?_
    | with_reducible refine VaRead.kept_wait (by assumption) ?_ | fail_if_no_progress with_reducible apply State.kept_mk

theorem State.setSieve_kept (s : State) (fn t : Nat) (v : Option SieveVer) (hi : s.kept cmds) : (State.setSieve s fn t
    v).kept cmds := by
  unfold State.setSieve
  try dsimp only
  repeat' first
    | with_reducible first
      | assumption | apply State.kept_ite
    | fail_if_no_progress with_reducible apply State.kept_mk

/-! ## The definitions of Machine/Destroy.lean -/

theorem State.haltFirsts_kept (s : State) (fn : Nat) (hi : s.kept cmds) : (State.haltFirsts s fn).kept cmds := by
  unfold State.haltFirsts
  try dsimp only
  repeat' first
    | with_reducible first
      | assumption | apply State.openQueued_kept | apply State.updRec_kept | apply State.kept_ite
      | refine State.kept_foldl (fun _ _ _ => ?_) ?_ _
    | split | with_reducible refine State.kept_snd (by assumption) ?_
    | with_reducible refine State.kept_snd2 (by assumption) ?_ | with_reducible refine State.kept_snd3 (by assumption) ?_
    | fail_if_no_progress with_reducible apply State.kept_mk

theorem State.haltAll_kept (s : State) (fn : Nat) (hi : s.kept cmds) : (State.haltAll s fn).kept cmds := by
  unfold State.haltAll
  try dsimp only
  repeat' first
    | with_reducible first
      | assumption | apply State.haltQueue_kept | apply State.kept_ite | refine State.kept_foldl (fun _ _ _ => ?_) ?_ _
    | fail_if_no_progress with_reducible apply State.kept_mk

theorem State.finishDestroy_kept (s : State) (d : Destroy) (hi : s.kept cmds) : (State.finishDestroy s d).kept cmds := by
  unfold State.finishDestroy
  try dsimp only
  repeat' first
    | with_reducible first
      | assumption | apply State.haltFirsts_kept | apply State.abandon_kept | apply State.freeLatch_kept
      | apply State.dropLaunch_kept | apply State.clearLeaves_kept | apply State.dropXlat_kept | apply State.setFld_kept
      | apply State.haltAll_kept | apply State.finish_kept | apply State.kept_ite
      | refine State.kept_foldl (fun _ _ _ => ?_) ?_ _
    | split | with_reducible refine State.kept_snd (by assumption) ?_
    | with_reducible refine State.kept_snd2 (by assumption) ?_ | with_reducible refine State.kept_snd3 (by assumption) ?_
    | fail_if_no_progress with_reducible apply State.kept_mk

theorem State.startDestroy_kept (s : State) (d : Destroy) (hi : s.kept cmds) : (State.startDestroy s d).kept cmds := by
  unfold State.startDestroy
  try dsimp only
  repeat' first
    | with_reducible first
      | assumption | apply State.setFld_kept | apply State.stopLaunch_kept | apply State.finishDestroy_kept
      | apply State.kept_ite | refine State.kept_foldl (fun _ _ _ => ?_) ?_ _
    | with_reducible refine State.kept_snd (by assumption) ?_ | with_reducible refine State.kept_snd2 (by assumption) ?_
    | with_reducible refine State.kept_snd3 (by assumption) ?_ | fail_if_no_progress with_reducible apply State.kept_mk

theorem State.startDestroys_kept (s : State) (hi : s.kept cmds) : (State.startDestroys s).kept cmds := by
  unfold State.startDestroys
  try dsimp only
  repeat' first
    | with_reducible first
      | assumption | apply State.startDestroy_kept | apply State.kept_ite | refine State.kept_foldl (fun _ _ _ => ?_) ?_ _
    | fail_if_no_progress with_reducible apply State.kept_mk

theorem State.dropFailed_kept (s : State) (hi : s.kept cmds) : (State.dropFailed s).kept cmds := by
  unfold State.dropFailed
  try dsimp only
  repeat' first
    | with_reducible first
      | assumption | apply State.dropLaunch_kept | apply State.kept_ite | refine State.kept_foldl (fun _ _ _ => ?_) ?_ _
    | with_reducible refine State.kept_snd (by assumption) ?_ | with_reducible refine State.kept_snd2 (by assumption) ?_
    | with_reducible refine State.kept_snd3 (by assumption) ?_ | fail_if_no_progress with_reducible apply State.kept_mk

theorem State.askQueueDestroy_kept (s : State) (fn q : Nat) (hi : s.kept cmds) : (State.askQueueDestroy s fn q).kept cmds :=
    by
  unfold State.askQueueDestroy
  try dsimp only
  repeat' first
    | with_reducible first
      | assumption | apply State.kept_ite
    | fail_if_no_progress with_reducible apply State.kept_mk

theorem State.destroyAck_kept (s : State) (id n eng : Nat) (hi : s.kept cmds) : (State.destroyAck s id n eng).kept cmds := by
  unfold State.destroyAck
  try dsimp only
  repeat' first
    | with_reducible first
      | assumption | apply State.finishDestroy_kept | apply State.kept_ite
    | split | with_reducible refine State.kept_snd (by assumption) ?_
    | with_reducible refine State.kept_snd2 (by assumption) ?_ | with_reducible refine State.kept_snd3 (by assumption) ?_
    | fail_if_no_progress with_reducible apply State.kept_mk

theorem State.overdueDestroys_kept (s : State) (hi : s.kept cmds) : (State.overdueDestroys s).kept cmds := by
  unfold State.overdueDestroys
  try dsimp only
  repeat' first
    | with_reducible first
      | assumption | apply State.finishDestroy_kept | apply State.kept_ite | refine State.kept_foldl (fun _ _ _ => ?_) ?_ _
    | with_reducible refine State.kept_snd (by assumption) ?_ | with_reducible refine State.kept_snd2 (by assumption) ?_
    | with_reducible refine State.kept_snd3 (by assumption) ?_ | fail_if_no_progress with_reducible apply State.kept_mk

theorem State.queueOff_kept (s : State) (fn q : Nat) (hi : s.kept cmds) : (State.queueOff s fn q).kept cmds := by
  unfold State.queueOff
  try dsimp only
  repeat' first
    | with_reducible first
      | assumption | apply State.setFld_kept | apply State.setQueue_kept | apply State.intc_kept | apply State.kept_ite
    | with_reducible refine State.kept_snd (by assumption) ?_ | with_reducible refine State.kept_snd2 (by assumption) ?_
    | with_reducible refine State.kept_snd3 (by assumption) ?_ | fail_if_no_progress with_reducible apply State.kept_mk

/-! ## The definitions of Machine/Front.lean -/

theorem State.enableQueue_kept (s : State) (fn q : Nat) (hi : s.kept cmds) : (State.enableQueue s fn q).kept cmds := by
  unfold State.enableQueue
  try dsimp only
  repeat' first
    | with_reducible first
      | assumption | apply State.raise_kept | apply State.setFld_kept | apply State.setQueue_kept | apply State.modAdd_kept
      | apply State.kept_ite
    | with_reducible refine State.kept_snd (by assumption) ?_ | with_reducible refine State.kept_snd2 (by assumption) ?_
    | with_reducible refine State.kept_snd3 (by assumption) ?_ | fail_if_no_progress with_reducible apply State.kept_mk

theorem State.applyQ0_kept (s : State) (fn q v : Nat) (hi : s.kept cmds) : (State.applyQ0 s fn q v).kept cmds := by
  unfold State.applyQ0
  try dsimp only
  repeat' first
    | with_reducible first
      | assumption | apply State.wr_kept | apply State.enableQueue_kept | apply State.setFld_kept
      | apply State.askQueueDestroy_kept | apply State.kept_ite
    | fail_if_no_progress with_reducible apply State.kept_mk

theorem State.applyQ1_kept (s : State) (fn q v : Nat) (hi : s.kept cmds) : (State.applyQ1 s fn q v).kept cmds := by
  unfold State.applyQ1
  try dsimp only
  repeat' first
    | with_reducible first
      | assumption | apply State.wr_kept | apply State.setFld_kept | apply State.kept_ite
    | fail_if_no_progress with_reducible apply State.kept_mk

theorem State.writeQ0_kept (s : State) (fn q v : Nat) (hi : s.kept cmds) : (State.writeQ0 s fn q v).kept cmds := by
  unfold State.writeQ0
  try dsimp only
  repeat' first
    | with_reducible first
      | assumption | apply State.setFld_kept | apply State.kept_ite
    | fail_if_no_progress with_reducible apply State.kept_mk

theorem State.writeQ1_kept (s : State) (fn q v : Nat) (hi : s.kept cmds) : (State.writeQ1 s fn q v).kept cmds := by
  unfold State.writeQ1
  try dsimp only
  repeat' first
    | with_reducible first
      | assumption | apply State.setFld_kept | apply State.kept_ite
    | fail_if_no_progress with_reducible apply State.kept_mk

theorem State.askResume_kept (s : State) (fn q : Nat) (hi : s.kept cmds) : (State.askResume s fn q).kept cmds := by
  unfold State.askResume
  try dsimp only
  repeat' first
    | with_reducible first
      | assumption | apply State.setQueue_kept | apply State.kept_ite
    | fail_if_no_progress with_reducible apply State.kept_mk

theorem State.applyResumes_kept (s : State) (hi : s.kept cmds) : (State.applyResumes s).kept cmds := by
  unfold State.applyResumes
  try dsimp only
  repeat' first
    | with_reducible first
      | assumption | apply State.setQueue_kept | apply State.setFld_kept | apply State.kept_ite
      | refine State.kept_foldl (fun _ _ _ => ?_) ?_ _
    | split | with_reducible refine State.kept_snd (by assumption) ?_
    | with_reducible refine State.kept_snd2 (by assumption) ?_ | with_reducible refine State.kept_snd3 (by assumption) ?_
    | fail_if_no_progress with_reducible apply State.kept_mk

theorem State.haltAgain_kept (s : State) (hi : s.kept cmds) : (State.haltAgain s).kept cmds := by
  unfold State.haltAgain
  try dsimp only
  repeat' first
    | with_reducible first
      | assumption | apply State.setQueue_kept | apply State.haltQueue_kept | apply State.kept_ite
      | refine State.kept_foldl (fun _ _ _ => ?_) ?_ _
    | split | with_reducible refine State.kept_snd (by assumption) ?_
    | with_reducible refine State.kept_snd2 (by assumption) ?_ | with_reducible refine State.kept_snd3 (by assumption) ?_
    | fail_if_no_progress with_reducible apply State.kept_mk

theorem State.newBeatRecords_kept (s : State) (hi : s.kept cmds) : (State.newBeatRecords s).kept cmds := by
  unfold State.newBeatRecords
  try dsimp only
  repeat' first
    | with_reducible first
      | assumption | apply State.kept_ite
    | with_reducible refine State.kept_snd (by assumption) ?_ | with_reducible refine State.kept_snd2 (by assumption) ?_
    | with_reducible refine State.kept_snd3 (by assumption) ?_ | fail_if_no_progress with_reducible apply State.kept_mk

theorem State.sweep_kept (s : State) (hi : s.kept cmds) : (State.sweep s).kept cmds := by
  unfold State.sweep
  try dsimp only
  repeat' first
    | with_reducible first
      | assumption | apply State.newBeatRecords_kept | apply State.haltAgain_kept | apply State.send_kept
      | apply State.kept_ite | refine State.kept_foldl (fun _ _ _ => ?_) ?_ _
    | with_reducible refine State.kept_snd (by assumption) ?_ | with_reducible refine State.kept_snd2 (by assumption) ?_
    | with_reducible refine State.kept_snd3 (by assumption) ?_ | fail_if_no_progress with_reducible apply State.kept_mk

theorem State.askRecords_kept (s : State) (fn q n : Nat) (hi : s.kept cmds) : (State.askRecords s fn q n).kept cmds := by
  unfold State.askRecords
  try dsimp only
  repeat' first
    | with_reducible first
      | assumption | apply State.setQueue_kept | apply State.send_kept | apply State.kept_ite
      | refine State.kept_foldl (fun _ _ _ => ?_) ?_ _
    | with_reducible refine State.kept_snd (by assumption) ?_ | with_reducible refine State.kept_snd2 (by assumption) ?_
    | with_reducible refine State.kept_snd3 (by assumption) ?_ | fail_if_no_progress with_reducible apply State.kept_mk

theorem State.takeTail_kept (s : State) (fn q : Nat) (t : U64) (hi : s.kept cmds) : (State.takeTail s fn q t).kept cmds := by
  unfold State.takeTail
  try dsimp only
  repeat' first
    | with_reducible first
      | assumption | apply State.askRecords_kept | apply State.raise_kept | apply State.haltQueue_kept
      | apply State.kept_ite
    | with_reducible refine State.kept_snd (by assumption) ?_ | with_reducible refine State.kept_snd2 (by assumption) ?_
    | with_reducible refine State.kept_snd3 (by assumption) ?_ | fail_if_no_progress with_reducible apply State.kept_mk

theorem State.tailBlock_kept (s : State) (fn : Nat) (tails : List U64) (err : Bool) (hi : s.kept cmds) : (State.tailBlock s
    fn tails err).kept cmds := by
  unfold State.tailBlock
  try dsimp only
  repeat' first
    | with_reducible first
      | assumption | apply State.raise_kept | apply State.intc_kept | apply State.logCE_kept | apply State.takeTail_kept
      | apply State.kept_ite | refine State.kept_foldl (fun _ _ _ => ?_) ?_ _
    | with_reducible refine State.kept_snd (by assumption) ?_ | with_reducible refine State.kept_snd2 (by assumption) ?_
    | with_reducible refine State.kept_snd3 (by assumption) ?_ | fail_if_no_progress with_reducible apply State.kept_mk

theorem State.takeRecord_kept (s : State) (fn q : Nat) (w : BitVec 512) (err : Bool) (hi : s.kept cmds) : (State.takeRecord
    s fn q w err).kept cmds := by
  unfold State.takeRecord
  try dsimp only
  repeat' first
    | with_reducible first
      | assumption | apply State.raise_kept | apply State.haltQueue_kept | apply State.setQueue_kept
      | apply State.modAdd_kept | apply State.kept_ite
    | with_reducible refine State.kept_snd (by assumption) ?_ | with_reducible refine State.kept_snd2 (by assumption) ?_
    | with_reducible refine State.kept_snd3 (by assumption) ?_ | fail_if_no_progress with_reducible apply State.kept_mk

theorem State.clearQcfg_kept (s : State) (fn : Nat) (h : s.kept cmds) : (s.clearQcfg fn).kept cmds := by
  obtain ⟨h1, h2, h3, h4, h5⟩ := h
  exact ⟨h1, h2, Tab.rising_filter _ h3, Tab.wf_filter _ _ h4, h5⟩

theorem State.latchCounts_kept (s : State) (fn selOff qOff of' c : Nat) (hi : s.kept cmds) : (State.latchCounts s fn selOff
    qOff of' c).kept cmds := by
  unfold State.latchCounts
  try dsimp only
  repeat' first
    | with_reducible first
      | assumption | apply State.closedBeat_kept | apply State.wr_kept | apply State.kept_ite
      | refine State.kept_foldl (fun _ _ _ => ?_) ?_ _
    | split | with_reducible refine State.kept_snd (by assumption) ?_
    | with_reducible refine State.kept_snd2 (by assumption) ?_ | with_reducible refine State.kept_snd3 (by assumption) ?_
    | fail_if_no_progress with_reducible apply State.kept_mk

theorem State.ctxSel_kept (s : State) (fn c : Nat) (hi : s.kept cmds) : (State.ctxSel s fn c).kept cmds := by
  unfold State.ctxSel
  try dsimp only
  repeat' first
    | with_reducible first
      | assumption | apply State.latchCounts_kept | apply State.kept_ite
    | fail_if_no_progress with_reducible apply State.kept_mk

theorem State.bar2Refused_kept (s : State) (fn : Nat) (hi : s.kept cmds) : (State.bar2Refused s fn).kept cmds := by
  unfold State.bar2Refused
  try dsimp only
  repeat' first
    | with_reducible first
      | assumption | apply State.raise_kept | apply State.logCE_kept | apply State.kept_ite
    | fail_if_no_progress with_reducible apply State.kept_mk

theorem State.bar2Read_kept (s : State) (fn off len : Nat) (hi : s.kept cmds) : (State.bar2Read s fn off len).kept cmds := by
  unfold State.bar2Read
  try dsimp only
  repeat' first
    | with_reducible first
      | assumption | apply State.bar2Refused_kept | apply State.send_kept | apply State.verifyRun_kept
      | apply State.readMem_kept | apply State.kept_ite
    | fail_if_no_progress with_reducible apply State.kept_mk

theorem State.bar2Write_kept (s : State) (fn off : Nat) (d : List Byte) (hi : s.kept cmds) : (State.bar2Write s fn off
    d).kept cmds := by
  unfold State.bar2Write
  try dsimp only
  repeat' first
    | with_reducible first
      | assumption | apply State.bar2Refused_kept | apply State.writeMem_kept | apply State.kept_ite
    | fail_if_no_progress with_reducible apply State.kept_mk

/-! ## The definitions of Machine/Preload.lean -/

theorem State.startPreload_kept (s : State) (n : Nat) (hi : s.kept cmds) : (State.startPreload s n).kept cmds := by
  unfold State.startPreload
  try dsimp only
  repeat' first
    | with_reducible first
      | assumption | apply State.setCore_kept | apply State.done_kept | apply State.kept_ite
    | split | with_reducible refine State.kept_snd (by assumption) ?_
    | with_reducible refine State.kept_snd2 (by assumption) ?_ | with_reducible refine State.kept_snd3 (by assumption) ?_
    | fail_if_no_progress with_reducible apply State.kept_mk

theorem State.preRead_kept (s : State) (n : Nat) (l : Launch) (acc : Acc) (va len : Nat) (ext : List Byte)
    (h : s.kept cmds) : (s.preRead n l acc va len ext).state.kept cmds := by
  refine State.vaRead_kept _ _ _ _ _ _ _ _ _ (fun t a ht => ?_) h
  exact State.xlate_kept t n none false l.fn a acc ht

theorem State.measure_kept (s : State) (fn : Nat) (d : List Byte) (hi : s.kept cmds) : (State.measure s fn d).kept cmds := by
  unfold State.measure
  try dsimp only
  repeat' first
    | with_reducible first
      | assumption | apply State.setFld_kept | apply State.kept_ite
    | with_reducible refine State.kept_snd (by assumption) ?_ | with_reducible refine State.kept_snd2 (by assumption) ?_
    | with_reducible refine State.kept_snd3 (by assumption) ?_ | fail_if_no_progress with_reducible apply State.kept_mk

theorem State.preloadFailed_kept (s : State) (n : Nat) (l : Launch) (kind : Nat) (hi : s.kept cmds) : (State.preloadFailed s
    n l kind).kept cmds := by
  unfold State.preloadFailed
  try dsimp only
  repeat' first
    | with_reducible first
      | assumption | apply State.logErr_kept | apply State.finishLaunch_kept | apply State.kept_ite
    | with_reducible refine State.kept_snd (by assumption) ?_ | with_reducible refine State.kept_snd2 (by assumption) ?_
    | with_reducible refine State.kept_snd3 (by assumption) ?_ | fail_if_no_progress with_reducible apply State.kept_mk

theorem State.completePreload_kept (s : State) (n : Nat) (ext : List Byte) (hi : s.kept cmds) : (State.completePreload s n
    ext).kept cmds := by
  unfold State.completePreload
  try dsimp only
  repeat' first
    | with_reducible first
      | assumption | apply State.done_kept | apply State.preRead_kept | apply State.preloadFailed_kept
      | apply State.endReads_kept | apply State.setCore_kept | apply State.updLaunch_kept | apply State.measure_kept
      | apply State.kept_ite
    | split | with_reducible refine State.kept_snd (by assumption) ?_
    | with_reducible refine State.kept_snd2 (by assumption) ?_ | with_reducible refine State.kept_snd3 (by assumption) ?_
    | with_reducible refine VaRead.kept_ok (by assumption) ?_ | with_reducible refine VaRead.kept_fail (by assumption) ?_
    | with_reducible refine VaRead.kept_wait (by assumption) ?_ | fail_if_no_progress with_reducible apply State.kept_mk

theorem State.startLaunch_kept (s : State) (n : Nat) (l : Launch) (half : Nat) (hi : s.kept cmds) : (State.startLaunch s n l
    half).kept cmds := by
  unfold State.startLaunch
  try dsimp only
  repeat' first
    | with_reducible first
      | assumption | apply State.wr_kept | apply State.setCore_kept | apply State.updLaunch_kept | apply State.kept_ite
    | with_reducible refine State.kept_snd (by assumption) ?_ | with_reducible refine State.kept_snd2 (by assumption) ?_
    | with_reducible refine State.kept_snd3 (by assumption) ?_ | fail_if_no_progress with_reducible apply State.kept_mk

theorem State.launchCore_kept (s : State) (n : Nat) (hi : s.kept cmds) : (State.launchCore s n).kept cmds := by
  unfold State.launchCore
  try dsimp only
  repeat' first
    | with_reducible first
      | assumption | apply State.startLaunch_kept | apply State.kept_ite
    | split | fail_if_no_progress with_reducible apply State.kept_mk

end Sys2Proof.Machine
end

