-- ==== Sys2Proof/Laws/KeepsParts.lean ====
section
/-! SUPPORT. The canonical form of the state (State.kept) is kept by every operation of the model that gives a state: ports,
schedules, context switches, changes and resets.
One lemma for each, to be cited in place of unfolding it. -/

set_option linter.unusedTactic false
set_option linter.unreachableTactic false

namespace Sys2Proof.Machine

open Sys2Proof

variable {cmds : List Instr}

/-! ## The definitions of Machine/Ports.lean -/

theorem State.unslot_kept (s : State) (n tag : Nat) (hi : s.kept cmds) : (State.unslot s n tag).kept cmds := by
  unfold State.unslot
  try dsimp only
  repeat' first
    | with_reducible first
      | assumption | apply State.setMove_kept | apply State.progress_kept | apply State.kept_ite
    | split | fail_if_no_progress with_reducible apply State.kept_mk

theorem State.takeOut_kept (s : State) (p : Nat) (hi : s.kept cmds) : (State.takeOut s p).kept cmds := by
  unfold State.takeOut
  try dsimp only
  repeat' first
    | with_reducible first
      | assumption | apply State.suspend_kept | apply State.missHeld_kept | apply State.fallBack_kept
      | apply State.unslot_kept | apply State.kept_ite | refine State.kept_foldl (fun _ _ _ => ?_) ?_ _
    | with_reducible refine State.kept_snd (by assumption) ?_ | with_reducible refine State.kept_snd2 (by assumption) ?_
    | with_reducible refine State.kept_snd3 (by assumption) ?_ | fail_if_no_progress with_reducible apply State.kept_mk

theorem State.pumpWindow_kept (s : State) (p : Nat) (hi : s.kept cmds) : (State.pumpWindow s p).kept cmds := by
  unfold State.pumpWindow
  try dsimp only
  repeat' first
    | with_reducible first
      | assumption | apply State.progress_kept | apply State.pumpHeld_kept | apply State.kept_ite
      | refine State.kept_foldl (fun _ _ _ => ?_) ?_ _
    | with_reducible refine State.kept_snd (by assumption) ?_ | with_reducible refine State.kept_snd2 (by assumption) ?_
    | with_reducible refine State.kept_snd3 (by assumption) ?_ | fail_if_no_progress with_reducible apply State.kept_mk

theorem State.refuseOwn_kept (s : State) (c : Cell) (hi : s.kept cmds) : (State.refuseOwn s c).kept cmds := by
  unfold State.refuseOwn
  try dsimp only
  repeat' first
    | with_reducible first
      | assumption | apply State.answer_kept | apply State.kept_ite
    | fail_if_no_progress with_reducible apply State.kept_mk

theorem State.loseCells_kept (s : State) (p : Nat) (hi : s.kept cmds) : (State.loseCells s p).kept cmds := by
  unfold State.loseCells
  try dsimp only
  repeat' first
    | with_reducible first
      | assumption | apply State.setPort_kept | apply State.refuseLost_kept | apply State.refuseOwn_kept
      | apply State.kept_ite | refine State.kept_foldl (fun _ _ _ => ?_) ?_ _
    | with_reducible refine State.kept_snd (by assumption) ?_ | with_reducible refine State.kept_snd2 (by assumption) ?_
    | with_reducible refine State.kept_snd3 (by assumption) ?_ | fail_if_no_progress with_reducible apply State.kept_mk

theorem State.leaveActive_kept (s : State) (p st step : Nat) (alarm : Bool) (hi : s.kept cmds) : (State.leaveActive s p st
    step alarm).kept cmds := by
  unfold State.leaveActive
  try dsimp only
  repeat' first
    | with_reducible first
      | assumption | apply State.setFld_kept | apply State.takeOut_kept | apply State.raise_kept | apply State.setPort_kept
      | apply State.loseCells_kept | apply State.logErr_kept | apply State.vdAlarm_kept | apply State.kept_ite
    | split | with_reducible refine State.kept_snd (by assumption) ?_
    | with_reducible refine State.kept_snd2 (by assumption) ?_ | with_reducible refine State.kept_snd3 (by assumption) ?_
    | fail_if_no_progress with_reducible apply State.kept_mk

theorem State.dropPort_kept (s : State) (p : Nat) (hi : s.kept cmds) : (State.dropPort s p).kept cmds := by
  unfold State.dropPort
  try dsimp only
  repeat' first
    | with_reducible first
      | assumption | apply State.leaveActive_kept | apply State.kept_ite
    | fail_if_no_progress with_reducible apply State.kept_mk

theorem State.tryTrain_kept (s : State) (p : Nat) (hi : s.kept cmds) : (State.tryTrain s p).kept cmds := by
  unfold State.tryTrain
  try dsimp only
  repeat' first
    | with_reducible first
      | assumption | apply State.setFld_kept | apply State.setPort_kept | apply State.kept_ite
    | fail_if_no_progress with_reducible apply State.kept_mk

theorem State.closeLoop_kept (s : State) (n : Nat) (hi : s.kept cmds) : (State.closeLoop s n).kept cmds := by
  unfold State.closeLoop
  try dsimp only
  repeat' first
    | with_reducible first
      | assumption | apply State.tryTrain_kept | apply State.setFld_kept | apply State.kept_ite
      | refine State.kept_foldl (fun _ _ _ => ?_) ?_ _
    | fail_if_no_progress with_reducible apply State.kept_mk

theorem State.darken_kept (s : State) (p : Nat) (hi : s.kept cmds) : (State.darken s p).kept cmds := by
  unfold State.darken
  try dsimp only
  repeat' first
    | with_reducible first
      | assumption | apply State.leaveActive_kept | apply State.setFld_kept | apply State.setPort_kept
      | apply State.kept_ite
    | fail_if_no_progress with_reducible apply State.kept_mk

theorem State.openLoop_kept (s : State) (n : Nat) (hi : s.kept cmds) : (State.openLoop s n).kept cmds := by
  unfold State.openLoop
  try dsimp only
  repeat' first
    | with_reducible first
      | assumption | apply State.darken_kept | apply State.setFld_kept | apply State.raise_kept | apply State.kept_ite
      | refine State.kept_foldl (fun _ _ _ => ?_) ?_ _
    | fail_if_no_progress with_reducible apply State.kept_mk

theorem State.inletReads_kept (s : State) (n : Nat) (r : InletReading) (hi : s.kept cmds) : (State.inletReads s n r).kept
    cmds := by
  unfold State.inletReads
  try dsimp only
  repeat' first
    | with_reducible first
      | assumption | apply State.setFld_kept | apply State.kept_ite
    | with_reducible refine State.kept_snd (by assumption) ?_ | with_reducible refine State.kept_snd2 (by assumption) ?_
    | with_reducible refine State.kept_snd3 (by assumption) ?_ | fail_if_no_progress with_reducible apply State.kept_mk

theorem State.dimPort_kept (s : State) (p : Nat) (hi : s.kept cmds) : (State.dimPort s p).kept cmds := by
  unfold State.dimPort
  try dsimp only
  repeat' first
    | with_reducible first
      | assumption | apply State.dropPort_kept | apply State.setPort_kept | apply State.kept_ite
    | fail_if_no_progress with_reducible apply State.kept_mk

theorem State.inletFails_kept (s : State) (n : Nat) (opens : Bool) (hi : s.kept cmds) : (State.inletFails s n opens).kept
    cmds := by
  unfold State.inletFails
  try dsimp only
  repeat' first
    | with_reducible first
      | assumption | apply State.raise_kept | apply State.openLoop_kept | apply State.dimPort_kept | apply State.kept_ite
      | refine State.kept_foldl (fun _ _ _ => ?_) ?_ _
    | with_reducible refine State.kept_snd (by assumption) ?_ | with_reducible refine State.kept_snd2 (by assumption) ?_
    | with_reducible refine State.kept_snd3 (by assumption) ?_ | fail_if_no_progress with_reducible apply State.kept_mk

theorem State.sendTrainId_kept (s : State) (p : Nat) (hi : s.kept cmds) : (State.sendTrainId s p).kept cmds := by
  unfold State.sendTrainId
  try dsimp only
  repeat' first
    | with_reducible first
      | assumption | apply State.sendLink_kept | apply State.kept_ite
    | with_reducible refine State.kept_snd (by assumption) ?_ | with_reducible refine State.kept_snd2 (by assumption) ?_
    | with_reducible refine State.kept_snd3 (by assumption) ?_ | fail_if_no_progress with_reducible apply State.kept_mk

theorem State.sendMeasures_kept (s : State) (p : Nat) (hi : s.kept cmds) : (State.sendMeasures s p).kept cmds := by
  unfold State.sendMeasures
  try dsimp only
  repeat' first
    | with_reducible first
      | assumption | apply State.setPort_kept | apply State.draw_kept | apply State.sendLink_kept | apply State.kept_ite
      | refine State.kept_foldl (fun _ _ _ => ?_) ?_ _
    | split | with_reducible refine State.kept_snd (by assumption) ?_
    | with_reducible refine State.kept_snd2 (by assumption) ?_ | with_reducible refine State.kept_snd3 (by assumption) ?_
    | fail_if_no_progress with_reducible apply State.kept_mk

theorem State.enterStep_kept (s : State) (p k : Nat) (hi : s.kept cmds) : (State.enterStep s p k).kept cmds := by
  unfold State.enterStep
  try dsimp only
  repeat' first
    | with_reducible first
      | assumption | apply State.setPort_kept | apply State.sendTrainId_kept | apply State.sendMeasures_kept
      | apply State.kept_ite
    | fail_if_no_progress with_reducible apply State.kept_mk

theorem State.failStep_kept (s : State) (p : Nat) (hi : s.kept cmds) : (State.failStep s p).kept cmds := by
  unfold State.failStep
  try dsimp only
  repeat' first
    | with_reducible first
      | assumption | apply State.setFld_kept | apply State.setPort_kept | apply State.logCE_kept | apply State.kept_ite
    | fail_if_no_progress with_reducible apply State.kept_mk

theorem State.goActive_kept (s : State) (p : Nat) (hi : s.kept cmds) : (State.goActive s p).kept cmds := by
  unfold State.goActive
  try dsimp only
  repeat' first
    | with_reducible first
      | assumption | apply State.setPort_kept | apply State.setFld_kept | apply State.kept_ite
    | with_reducible refine State.kept_snd (by assumption) ?_ | with_reducible refine State.kept_snd2 (by assumption) ?_
    | with_reducible refine State.kept_snd3 (by assumption) ?_ | fail_if_no_progress with_reducible apply State.kept_mk

theorem State.stepDone_kept (s : State) (p lanes : Nat) (hi : s.kept cmds) : (State.stepDone s p lanes).kept cmds := by
  unfold State.stepDone
  try dsimp only
  repeat' first
    | with_reducible first
      | assumption | apply State.tryTrain_kept | apply State.enterStep_kept | apply State.setFld_kept
      | apply State.setPort_kept | apply State.failStep_kept | apply State.goActive_kept | apply State.kept_ite
    | split | fail_if_no_progress with_reducible apply State.kept_mk

theorem State.matchVd_kept (s : State) (p : Nat) (hi : s.kept cmds) : (State.matchVd s p).kept cmds := by
  unfold State.matchVd
  try dsimp only
  repeat' first
    | with_reducible first
      | assumption | apply State.setFld_kept | apply State.kept_ite
    | with_reducible refine State.kept_snd (by assumption) ?_ | with_reducible refine State.kept_snd2 (by assumption) ?_
    | with_reducible refine State.kept_snd3 (by assumption) ?_ | fail_if_no_progress with_reducible apply State.kept_mk

theorem State.takeTrainId_kept (s : State) (p : Nat) (b : List Byte) (hi : s.kept cmds) : (State.takeTrainId s p b).kept
    cmds := by
  unfold State.takeTrainId
  try dsimp only
  repeat' first
    | with_reducible first
      | assumption | apply State.setPort_kept | apply State.setFld_kept | apply State.matchVd_kept | apply State.logCE_kept
      | apply State.kept_ite
    | with_reducible refine State.kept_snd (by assumption) ?_ | with_reducible refine State.kept_snd2 (by assumption) ?_
    | with_reducible refine State.kept_snd3 (by assumption) ?_ | fail_if_no_progress with_reducible apply State.kept_mk

theorem State.measured_kept (s : State) (p : Nat) (hi : s.kept cmds) : (State.measured s p).kept cmds := by
  unfold State.measured
  try dsimp only
  repeat' first
    | with_reducible first
      | assumption | apply State.setPort_kept | apply State.sendMeasures_kept | apply State.setFld_kept
      | apply State.kept_ite | refine State.kept_foldl (fun _ _ _ => ?_) ?_ _
    | with_reducible refine State.kept_snd (by assumption) ?_ | with_reducible refine State.kept_snd2 (by assumption) ?_
    | with_reducible refine State.kept_snd3 (by assumption) ?_ | fail_if_no_progress with_reducible apply State.kept_mk

theorem State.takeLink_kept (s : State) (p : Nat) (c : Cell) (hi : s.kept cmds) : (State.takeLink s p c).2.kept cmds := by
  unfold State.takeLink
  try dsimp only
  repeat' first
    | with_reducible first
      | assumption | apply State.tagFailure_kept | apply State.setPort_kept | apply State.kept_ite | apply State.kept_ite2
    | split | with_reducible refine State.kept_snd (by assumption) ?_
    | with_reducible refine State.kept_snd2 (by assumption) ?_ | with_reducible refine State.kept_snd3 (by assumption) ?_
    | fail_if_no_progress with_reducible apply State.kept_mk

theorem State.resealDue_kept (s : State) (p : Nat) (hi : s.kept cmds) : (State.resealDue s p).kept cmds := by
  unfold State.resealDue
  try dsimp only
  repeat' first
    | with_reducible first
      | assumption | apply State.leaveActive_kept | apply State.enterStep_kept | apply State.kept_ite
    | fail_if_no_progress with_reducible apply State.kept_mk

theorem State.sendReplay_kept (s : State) (p : Nat) (hi : s.kept cmds) : (State.sendReplay s p).kept cmds := by
  unfold State.sendReplay
  try dsimp only
  repeat' first
    | with_reducible first
      | assumption | apply State.setPort_kept | apply State.send_kept | apply State.kept_ite
      | refine State.kept_foldl (fun _ _ _ => ?_) ?_ _
    | with_reducible refine State.kept_snd (by assumption) ?_ | with_reducible refine State.kept_snd2 (by assumption) ?_
    | with_reducible refine State.kept_snd3 (by assumption) ?_ | fail_if_no_progress with_reducible apply State.kept_mk

theorem State.tryReplay_kept (s : State) (p : Nat) (hi : s.kept cmds) : (State.tryReplay s p).kept cmds := by
  unfold State.tryReplay
  try dsimp only
  repeat' first
    | with_reducible first
      | assumption | apply State.setPort_kept | apply State.draw_kept | apply State.sendReplay_kept | apply State.kept_ite
    | split | with_reducible refine State.kept_snd (by assumption) ?_
    | with_reducible refine State.kept_snd2 (by assumption) ?_ | with_reducible refine State.kept_snd3 (by assumption) ?_
    | fail_if_no_progress with_reducible apply State.kept_mk

theorem State.takeCredit_kept (s : State) (p : Nat) (c : Cell) (hi : s.kept cmds) : (State.takeCredit s p c).kept cmds := by
  unfold State.takeCredit
  try dsimp only
  repeat' first
    | with_reducible first
      | assumption | apply State.takeLink_kept | apply State.setPort_kept | apply State.tryReplay_kept
      | apply State.drainWait_kept | apply State.pumpWindow_kept | apply State.resealDue_kept | apply State.kept_ite
      | refine State.kept_foldl (fun _ _ _ => ?_) ?_ _
    | split | with_reducible refine State.kept_snd (by assumption) ?_
    | with_reducible refine State.kept_snd2 (by assumption) ?_ | with_reducible refine State.kept_snd3 (by assumption) ?_
    | fail_if_no_progress with_reducible apply State.kept_mk

theorem State.takeNak_kept (s : State) (p : Nat) (c : Cell) (hi : s.kept cmds) : (State.takeNak s p c).kept cmds := by
  unfold State.takeNak
  try dsimp only
  repeat' first
    | with_reducible first
      | assumption | apply State.takeLink_kept | apply State.setPort_kept | apply State.satAdd_kept
      | apply State.portCE_kept | apply State.tryReplay_kept | apply State.resealDue_kept | apply State.kept_ite
    | split | with_reducible refine State.kept_snd (by assumption) ?_
    | with_reducible refine State.kept_snd2 (by assumption) ?_ | with_reducible refine State.kept_snd3 (by assumption) ?_
    | fail_if_no_progress with_reducible apply State.kept_mk

theorem State.quickRetrain_kept (s : State) (p : Nat) (hi : s.kept cmds) : (State.quickRetrain s p).kept cmds := by
  unfold State.quickRetrain
  try dsimp only
  repeat' first
    | with_reducible first
      | assumption | apply State.setFld_kept | apply State.takeOut_kept | apply State.kept_ite
    | fail_if_no_progress with_reducible apply State.kept_mk

/-! ## The definitions of Machine/Sched.lean -/

theorem State.schedChecked_kept (s : State) (fn q : Nat) (image : List Byte) (hi : s.kept cmds) : (State.schedChecked s fn q
    image).kept cmds := by
  unfold State.schedChecked
  try dsimp only
  repeat' first
    | with_reducible first
      | assumption | apply State.readVa_kept | apply State.failedRead_kept | apply State.failed1_kept
      | apply State.done_kept | apply State.setPort_kept | apply State.setFld_kept | apply State.kept_ite
    | split | with_reducible refine State.kept_snd (by assumption) ?_
    | with_reducible refine State.kept_snd2 (by assumption) ?_ | with_reducible refine State.kept_snd3 (by assumption) ?_
    | with_reducible refine VaRead.kept_ok (by assumption) ?_ | with_reducible refine VaRead.kept_fail (by assumption) ?_
    | with_reducible refine VaRead.kept_wait (by assumption) ?_ | fail_if_no_progress with_reducible apply State.kept_mk

theorem State.checkLength_kept (s : State) (p : Nat) (hi : s.kept cmds) : (State.checkLength s p).kept cmds := by
  unfold State.checkLength
  try dsimp only
  repeat' first
    | with_reducible first
      | assumption | apply State.setPort_kept | apply State.kept_ite
    | split | with_reducible refine State.kept_snd (by assumption) ?_
    | with_reducible refine State.kept_snd2 (by assumption) ?_ | with_reducible refine State.kept_snd3 (by assumption) ?_
    | fail_if_no_progress with_reducible apply State.kept_mk

theorem State.activateTable_kept (s : State) (p : Nat) (hi : s.kept cmds) : (State.activateTable s p).kept cmds := by
  unfold State.activateTable
  try dsimp only
  repeat' first
    | with_reducible first
      | assumption | apply State.setPort_kept | apply State.checkLength_kept | apply State.setFld_kept
      | apply State.schedFlag_kept | apply State.finish_kept | apply State.kept_ite
    | split | with_reducible refine State.kept_snd (by assumption) ?_
    | with_reducible refine State.kept_snd2 (by assumption) ?_ | with_reducible refine State.kept_snd3 (by assumption) ?_
    | fail_if_no_progress with_reducible apply State.kept_mk

theorem State.clearTables_kept (s : State) (p : Nat) (refuse : Bool) (hi : s.kept cmds) : (State.clearTables s p
    refuse).kept cmds := by
  unfold State.clearTables
  try dsimp only
  repeat' first
    | with_reducible first
      | assumption | apply State.setPort_kept | apply State.missHeld_kept | apply State.unslot_kept | apply State.wr_kept
      | apply State.refuse_kept | apply State.finish_kept | apply State.kept_ite
      | refine State.kept_foldl (fun _ _ _ => ?_) ?_ _
    | split | with_reducible refine State.kept_snd (by assumption) ?_
    | with_reducible refine State.kept_snd2 (by assumption) ?_ | with_reducible refine State.kept_snd3 (by assumption) ?_
    | fail_if_no_progress with_reducible apply State.kept_mk

theorem State.openTx_kept (s : State) (p : Nat) (w : Window) (hi : s.kept cmds) : (State.openTx s p w).kept cmds := by
  unfold State.openTx
  try dsimp only
  repeat' first
    | with_reducible first
      | assumption | apply State.satAdd_kept | apply State.setPort_kept | apply State.progress_kept
      | apply State.startMove_kept | apply State.kept_ite
    | split | with_reducible refine State.kept_snd (by assumption) ?_
    | with_reducible refine State.kept_snd2 (by assumption) ?_ | with_reducible refine State.kept_snd3 (by assumption) ?_
    | fail_if_no_progress with_reducible apply State.kept_mk

theorem State.openWindow_kept (s : State) (p i : Nat) (hi : s.kept cmds) : (State.openWindow s p i).kept cmds := by
  unfold State.openWindow
  try dsimp only
  repeat' first
    | with_reducible first
      | assumption | apply State.setPort_kept | apply State.openTx_kept | apply State.pumpFwd_kept | apply State.kept_ite
    | split | with_reducible refine State.kept_snd (by assumption) ?_
    | with_reducible refine State.kept_snd2 (by assumption) ?_ | with_reducible refine State.kept_snd3 (by assumption) ?_
    | fail_if_no_progress with_reducible apply State.kept_mk

theorem State.spill_kept (s : State) (p : Nat) (ms : List (Nat × Nat × Bool)) (hi : s.kept cmds) : (State.spill s p ms).kept
    cmds := by
  unfold State.spill
  try dsimp only
  repeat' first
    | with_reducible first
      | assumption | apply State.schedFlag_kept | apply State.satAdd_kept | apply State.unslot_kept | apply State.kept_ite
      | refine State.kept_foldl (fun _ _ _ => ?_) ?_ _
    | with_reducible refine State.kept_snd (by assumption) ?_ | with_reducible refine State.kept_snd2 (by assumption) ?_
    | with_reducible refine State.kept_snd3 (by assumption) ?_ | fail_if_no_progress with_reducible apply State.kept_mk

theorem State.closeWindow_kept (s : State) (p i : Nat) (hi : s.kept cmds) : (State.closeWindow s p i).kept cmds := by
  unfold State.closeWindow
  try dsimp only
  repeat' first
    | with_reducible first
      | assumption | apply State.setPort_kept | apply State.spill_kept | apply State.pumpFwd_kept | apply State.kept_ite
    | split | with_reducible refine State.kept_snd (by assumption) ?_
    | with_reducible refine State.kept_snd2 (by assumption) ?_ | with_reducible refine State.kept_snd3 (by assumption) ?_
    | fail_if_no_progress with_reducible apply State.kept_mk

theorem State.schedBeatEnd_kept (s : State) (p : Nat) (hi : s.kept cmds) : (State.schedBeatEnd s p).kept cmds := by
  unfold State.schedBeatEnd
  try dsimp only
  repeat' first
    | with_reducible first
      | assumption | apply State.setPort_kept | apply State.missHeld_kept | apply State.spill_kept | apply State.kept_ite
    | with_reducible refine State.kept_snd (by assumption) ?_ | with_reducible refine State.kept_snd2 (by assumption) ?_
    | with_reducible refine State.kept_snd3 (by assumption) ?_ | fail_if_no_progress with_reducible apply State.kept_mk

theorem State.schedEdge_kept (s : State) (p : Nat) (hi : s.kept cmds) : (State.schedEdge s p).kept cmds := by
  unfold State.schedEdge
  try dsimp only
  repeat' first
    | with_reducible first
      | assumption | apply State.setPort_kept | apply State.checkLength_kept | apply State.setFld_kept
      | apply State.activateTable_kept | apply State.kept_ite
    | split | with_reducible refine State.kept_snd (by assumption) ?_
    | with_reducible refine State.kept_snd2 (by assumption) ?_ | with_reducible refine State.kept_snd3 (by assumption) ?_
    | fail_if_no_progress with_reducible apply State.kept_mk

/-! ## The definitions of Machine/Switch.lean -/

theorem State.checkSave_kept (s : State) (fn : Nat) (hi : s.kept cmds) : (State.checkSave s fn).kept cmds := by
  unfold State.checkSave
  try dsimp only
  repeat' first
    | with_reducible first
      | assumption | apply State.raise_kept | apply State.kept_ite
    | fail_if_no_progress with_reducible apply State.kept_mk

theorem State.beginSwitch_kept (s : State) (l : Launch) (hi : s.kept cmds) : (State.beginSwitch s l).kept cmds := by
  unfold State.beginSwitch
  try dsimp only
  repeat' first
    | with_reducible first
      | assumption | apply State.setCore_kept | apply State.updLaunch_kept | apply State.satAdd_kept | apply State.kept_ite
      | refine State.kept_foldl (fun _ _ _ => ?_) ?_ _
    | with_reducible refine State.kept_snd (by assumption) ?_ | with_reducible refine State.kept_snd2 (by assumption) ?_
    | with_reducible refine State.kept_snd3 (by assumption) ?_ | fail_if_no_progress with_reducible apply State.kept_mk

theorem State.startWaiting_kept (s : State) (n : Nat) (hi : s.kept cmds) : (State.startWaiting s n).kept cmds := by
  unfold State.startWaiting
  try dsimp only
  repeat' first
    | with_reducible first
      | assumption | apply State.fallBack_kept | apply State.startMove_kept | apply State.kept_ite
      | refine State.kept_foldl (fun _ _ _ => ?_) ?_ _
    | split | with_reducible refine State.kept_snd (by assumption) ?_
    | with_reducible refine State.kept_snd2 (by assumption) ?_ | with_reducible refine State.kept_snd3 (by assumption) ?_
    | fail_if_no_progress with_reducible apply State.kept_mk

theorem State.drainedSwitch_kept (s : State) (l : Launch) (hi : s.kept cmds) : (State.drainedSwitch s l).kept cmds := by
  unfold State.drainedSwitch
  try dsimp only
  repeat' first
    | with_reducible first
      | assumption | apply State.updLaunch_kept | apply State.kept_ite
    | with_reducible refine State.kept_snd (by assumption) ?_ | with_reducible refine State.kept_snd2 (by assumption) ?_
    | with_reducible refine State.kept_snd3 (by assumption) ?_ | fail_if_no_progress with_reducible apply State.kept_mk

theorem State.writeRun_kept (s : State) (a : Nat) (d : List Byte) (h : s.kept cmds) : (s.writeRun a d).kept cmds :=
    State.writeMem_kept _ _ _ _ h

theorem State.writeImage_kept (s : State) (fn i : Nat) (h : s.kept cmds) : (s.writeImage fn i).kept cmds :=
  State.writeRun_kept _ _ _ (State.kept_mk h ..)

theorem State.savedSwitch_kept (s : State) (l : Launch) (hi : s.kept cmds) : (State.savedSwitch s l).kept cmds := by
  unfold State.savedSwitch
  try dsimp only
  repeat' first
    | with_reducible first
      | assumption | apply State.writeImage_kept | apply State.freeCore_kept | apply State.updLaunch_kept
      | apply State.kept_ite | refine State.kept_foldl (fun _ _ _ => ?_) ?_ _
    | with_reducible refine State.kept_snd (by assumption) ?_ | with_reducible refine State.kept_snd2 (by assumption) ?_
    | with_reducible refine State.kept_snd3 (by assumption) ?_ | fail_if_no_progress with_reducible apply State.kept_mk

theorem State.beginRestore_kept (s : State) (l : Launch) (hi : s.kept cmds) : (State.beginRestore s l).kept cmds := by
  unfold State.beginRestore
  try dsimp only
  repeat' first
    | with_reducible first
      | assumption | apply State.setCore_kept | apply State.updLaunch_kept | apply State.kept_ite
      | refine State.kept_foldl (fun _ _ _ => ?_) ?_ _
    | with_reducible refine State.kept_snd (by assumption) ?_ | with_reducible refine State.kept_snd2 (by assumption) ?_
    | with_reducible refine State.kept_snd3 (by assumption) ?_ | fail_if_no_progress with_reducible apply State.kept_mk

theorem State.restore_kept (s : State) (l : Launch) (hi : s.kept cmds) : (State.restore s l).kept cmds := by
  unfold State.restore
  try dsimp only
  repeat' first
    | with_reducible first
      | assumption | apply State.logErr_kept | apply State.dropLaunch_kept | apply State.finish_kept
      | apply State.setCore_kept | apply State.updLaunch_kept | apply State.kept_ite
      | refine State.kept_foldl (fun _ _ _ => ?_) ?_ _
    | with_reducible refine State.kept_snd (by assumption) ?_ | with_reducible refine State.kept_snd2 (by assumption) ?_
    | with_reducible refine State.kept_snd3 (by assumption) ?_ | fail_if_no_progress with_reducible apply State.kept_mk

theorem State.switchedIn_kept (s : State) (l : Launch) (hi : s.kept cmds) : (State.switchedIn s l).kept cmds := by
  unfold State.switchedIn
  try dsimp only
  repeat' first
    | with_reducible first
      | assumption | apply State.restore_kept | apply State.launchCore_kept | apply State.kept_ite
      | refine State.kept_foldl (fun _ _ _ => ?_) ?_ _
    | split | with_reducible refine State.kept_snd (by assumption) ?_
    | with_reducible refine State.kept_snd2 (by assumption) ?_ | with_reducible refine State.kept_snd3 (by assumption) ?_
    | fail_if_no_progress with_reducible apply State.kept_mk

theorem State.switchEdge_kept (s : State) (hi : s.kept cmds) : (State.switchEdge s).kept cmds := by
  unfold State.switchEdge
  try dsimp only
  repeat' first
    | with_reducible first
      | assumption | apply State.startWaiting_kept | apply State.drainedSwitch_kept | apply State.beginSwitch_kept
      | apply State.beginRestore_kept | apply State.kept_ite | refine State.kept_foldl (fun _ _ _ => ?_) ?_ _
    | split | with_reducible refine State.kept_snd (by assumption) ?_
    | with_reducible refine State.kept_snd2 (by assumption) ?_ | with_reducible refine State.kept_snd3 (by assumption) ?_
    | fail_if_no_progress with_reducible apply State.kept_mk

theorem State.watch_kept (s : State) (closed : Nat) (hi : s.kept cmds) : (State.watch s closed).kept cmds := by
  unfold State.watch
  try dsimp only
  repeat' first
    | with_reducible first
      | assumption | apply State.kept_ite
    | fail_if_no_progress with_reducible apply State.kept_mk

theorem State.logStall_kept (s : State) (fn q sq : Nat) (hi : s.kept cmds) : (State.logStall s fn q sq).kept cmds := by
  unfold State.logStall
  try dsimp only
  repeat' first
    | with_reducible first
      | assumption | apply State.logErr_kept | apply State.kept_ite
    | fail_if_no_progress with_reducible apply State.kept_mk

theorem State.expire_kept (s : State) (fn q sq : Nat) (hi : s.kept cmds) : (State.expire s fn q sq).kept cmds := by
  unfold State.expire
  try dsimp only
  repeat' first
    | with_reducible first
      | assumption | apply State.logStall_kept | apply State.dropLaunch_kept | apply State.finish_kept
      | apply State.abandon_kept | apply State.done_kept | apply State.kept_ite
    | split | with_reducible refine State.kept_snd (by assumption) ?_
    | with_reducible refine State.kept_snd2 (by assumption) ?_ | with_reducible refine State.kept_snd3 (by assumption) ?_
    | fail_if_no_progress with_reducible apply State.kept_mk

theorem State.expireAll_kept (s : State) (hi : s.kept cmds) : (State.expireAll s).kept cmds := by
  unfold State.expireAll
  try dsimp only
  repeat' first
    | with_reducible first
      | assumption | apply State.expire_kept | apply State.failCmd_kept | apply State.kept_ite
      | refine State.kept_foldl (fun _ _ _ => ?_) ?_ _
    | split | with_reducible refine State.kept_snd (by assumption) ?_
    | with_reducible refine State.kept_snd2 (by assumption) ?_ | with_reducible refine State.kept_snd3 (by assumption) ?_
    | fail_if_no_progress with_reducible apply State.kept_mk

theorem State.qosStep_kept (s : State) (q : Nat) (mean : Nat → Nat) (hi : s.kept cmds) : (State.qosStep s q mean).kept cmds
    := by
  unfold State.qosStep
  try dsimp only
  repeat' first
    | with_reducible first
      | assumption | apply State.setFld_kept | apply State.closedBeat_kept | apply State.wr_kept | apply State.satAdd_kept
      | apply State.intc_kept | apply State.kept_ite | refine State.kept_foldl (fun _ _ _ => ?_) ?_ _
    | split | with_reducible refine State.kept_snd (by assumption) ?_
    | with_reducible refine State.kept_snd2 (by assumption) ?_ | with_reducible refine State.kept_snd3 (by assumption) ?_
    | fail_if_no_progress with_reducible apply State.kept_mk

/-! ## The definitions of Machine/Shutter.lean -/

theorem State.notify_kept (s : State) (sess typ : Nat) (body : List Byte) (hi : s.kept cmds) : (State.notify s sess typ
    body).kept cmds := by
  unfold State.notify
  try dsimp only
  repeat' first
    | with_reducible first
      | assumption | apply State.send_kept | apply State.kept_ite
    | fail_if_no_progress with_reducible apply State.kept_mk

/-- The kept notifications with one more: the latest 256. -/
theorem State.length_kept {α : Type} (l : List α) : (l.drop (l.length - 256)).length ≤ 256 := by
  rw [List.length_drop]
  omega

theorem State.notifyDone_kept (s : State) (sess : Option Nat) (body : List Byte) (h : s.kept cmds) : (s.notifyDone sess
    body).kept cmds := by
  have hk : ∀ kept : List (List Byte), kept.length ≤ 256 → State.kept cmds { s with kmc := { s.kmc with kept := kept } } :=
    fun kept hk => State.kept_kmc h (State.kept_sessions h) hk
  unfold State.notifyDone
  exact State.kept_ite (hk _ (State.length_kept _)) (State.kept_foldl (fun _ _ hu => State.notify_kept _ _ _ _ hu) h _)

theorem State.unmove_kept (s : State) (x : Change) (hi : s.kept cmds) : (State.unmove s x).kept cmds := by
  unfold State.unmove
  try dsimp only
  repeat' first
    | with_reducible first
      | assumption | apply State.setFld_kept | apply State.kept_ite
    | fail_if_no_progress with_reducible apply State.kept_mk

theorem State.compDone_kept (s : State) (x : Change) (st : Nat) (hi : s.kept cmds) : (State.compDone s x st).kept cmds := by
  unfold State.compDone
  try dsimp only
  repeat' first
    | with_reducible first
      | assumption | apply State.unmove_kept | apply State.draw_kept | apply State.setFld_kept | apply State.raise_kept
      | apply State.intc_kept | apply State.notifyDone_kept | apply State.kept_ite
    | split | with_reducible refine State.kept_snd (by assumption) ?_
    | with_reducible refine State.kept_snd2 (by assumption) ?_ | with_reducible refine State.kept_snd3 (by assumption) ?_
    | fail_if_no_progress with_reducible apply State.kept_mk

theorem State.fenceChanges_kept (s : State) (hit : List Nat) (hi : s.kept cmds) : (State.fenceChanges s hit).kept cmds := by
  unfold State.fenceChanges
  try dsimp only
  repeat' first
    | with_reducible first
      | assumption | apply State.setFld_kept | apply State.compDone_kept | apply State.kept_ite
      | refine State.kept_foldl (fun _ _ _ => ?_) ?_ _
    | with_reducible refine State.kept_snd (by assumption) ?_ | with_reducible refine State.kept_snd2 (by assumption) ?_
    | with_reducible refine State.kept_snd3 (by assumption) ?_ | fail_if_no_progress with_reducible apply State.kept_mk

theorem State.setReleased_kept (s : State) (q g : Nat) (b : Bool) (hi : s.kept cmds) : (State.setReleased s q g b).kept cmds
    := by
  unfold State.setReleased
  try dsimp only
  repeat' first
    | with_reducible first
      | assumption | apply State.setFld_kept | apply State.kept_ite
    | with_reducible refine State.kept_snd (by assumption) ?_ | with_reducible refine State.kept_snd2 (by assumption) ?_
    | with_reducible refine State.kept_snd3 (by assumption) ?_ | fail_if_no_progress with_reducible apply State.kept_mk

theorem State.wipeCore_kept (s : State) (n : Nat) (hi : s.kept cmds) : (State.wipeCore s n).kept cmds := by
  unfold State.wipeCore
  try dsimp only
  repeat' first
    | with_reducible first
      | assumption | apply State.setCore_kept | apply State.dropEngTlbs_kept | apply State.kept_ite
    | fail_if_no_progress with_reducible apply State.kept_mk

theorem State.fenceCore_kept (s : State) (n : Nat) (policy : Bool) (hi : s.kept cmds) : (State.fenceCore s n policy).kept
    cmds := by
  unfold State.fenceCore
  try dsimp only
  repeat' first
    | with_reducible first
      | assumption | apply State.stopCore_kept | apply State.finishLaunch_kept | apply State.wipeCore_kept
      | apply State.kept_ite
    | split | with_reducible refine State.kept_snd (by assumption) ?_
    | with_reducible refine State.kept_snd2 (by assumption) ?_ | with_reducible refine State.kept_snd3 (by assumption) ?_
    | fail_if_no_progress with_reducible apply State.kept_mk

theorem State.releaseCore_kept (s : State) (n : Nat) (hi : s.kept cmds) : (State.releaseCore s n).kept cmds := by
  unfold State.releaseCore
  try dsimp only
  repeat' first
    | with_reducible first
      | assumption | apply State.fenceCore_kept | apply State.wipeCore_kept | apply State.setFld_kept | apply State.kept_ite
    | fail_if_no_progress with_reducible apply State.kept_mk

theorem State.bindPort_kept (s : State) (p : Nat) (b : Option Nat) (vd : Nat) (hi : s.kept cmds) : (State.bindPort s p b
    vd).kept cmds := by
  unfold State.bindPort
  try dsimp only
  repeat' first
    | with_reducible first
      | assumption | apply State.clearTables_kept | apply State.setFld_kept | apply State.matchVd_kept
      | apply State.kept_ite
    | with_reducible refine State.kept_snd (by assumption) ?_ | with_reducible refine State.kept_snd2 (by assumption) ?_
    | with_reducible refine State.kept_snd3 (by assumption) ?_ | fail_if_no_progress with_reducible apply State.kept_mk

theorem State.releaseAll_kept (s : State) (x : Change) (hi : s.kept cmds) : (State.releaseAll s x).kept cmds := by
  unfold State.releaseAll
  try dsimp only
  repeat' first
    | with_reducible first
      | assumption | apply State.dropGranule_kept | apply State.setReleased_kept | apply State.startWipe_kept
      | apply State.beginWipes_kept | apply State.flushAcks_kept | apply State.bindPort_kept | apply State.releaseCore_kept
      | apply State.setFld_kept | apply State.kept_ite | refine State.kept_foldl (fun _ _ _ => ?_) ?_ _
    | with_reducible refine State.kept_snd (by assumption) ?_ | with_reducible refine State.kept_snd2 (by assumption) ?_
    | with_reducible refine State.kept_snd3 (by assumption) ?_ | fail_if_no_progress with_reducible apply State.kept_mk

theorem State.endDrain_kept (s : State) (q : Nat) (hi : s.kept cmds) : (State.endDrain s q).kept cmds := by
  unfold State.endDrain
  try dsimp only
  repeat' first
    | with_reducible first
      | assumption | apply State.releaseAll_kept | apply State.setFld_kept | apply State.bindPort_kept
      | apply State.kept_ite | refine State.kept_foldl (fun _ _ _ => ?_) ?_ _
    | with_reducible refine State.kept_snd (by assumption) ?_ | with_reducible refine State.kept_snd2 (by assumption) ?_
    | with_reducible refine State.kept_snd3 (by assumption) ?_ | fail_if_no_progress with_reducible apply State.kept_mk

theorem State.drainIfDone_kept (s : State) (q : Nat) (hi : s.kept cmds) : (State.drainIfDone s q).kept cmds := by
  unfold State.drainIfDone
  try dsimp only
  repeat' first
    | with_reducible first
      | assumption | apply State.endDrain_kept | apply State.kept_ite
    | split | fail_if_no_progress with_reducible apply State.kept_mk

theorem State.destroySlot_kept (s : State) (k : Nat) (hi : s.kept cmds) : (State.destroySlot s k).kept cmds := by
  unfold State.destroySlot
  try dsimp only
  repeat' first
    | with_reducible first
      | assumption | apply State.setFld_kept | apply State.modAdd_kept | apply State.kept_ite
    | fail_if_no_progress with_reducible apply State.kept_mk

theorem State.fenceEngine_kept (s : State) (n e : Nat) (hi : s.kept cmds) : (State.fenceEngine s n e).kept cmds := by
  unfold State.fenceEngine
  try dsimp only
  repeat' first
    | with_reducible first
      | assumption | apply State.stopCore_kept | apply State.finishLaunch_kept | apply State.setCore_kept
      | apply State.kept_ite
    | split | with_reducible refine State.kept_snd (by assumption) ?_
    | with_reducible refine State.kept_snd2 (by assumption) ?_ | with_reducible refine State.kept_snd3 (by assumption) ?_
    | fail_if_no_progress with_reducible apply State.kept_mk

theorem State.fenceFn_kept (s : State) (fn st : Nat) (hi : s.kept cmds) : (State.fenceFn s fn st).kept cmds := by
  unfold State.fenceFn
  try dsimp only
  repeat' first
    | with_reducible first
      | assumption | apply State.abandonQueue_kept | apply State.kept_ite | refine State.kept_foldl (fun _ _ _ => ?_) ?_ _
    | with_reducible refine State.kept_snd (by assumption) ?_ | with_reducible refine State.kept_snd2 (by assumption) ?_
    | with_reducible refine State.kept_snd3 (by assumption) ?_ | fail_if_no_progress with_reducible apply State.kept_mk

theorem State.fencePart_kept (s : State) (q : Nat) (hi : s.kept cmds) : (State.fencePart s q).kept cmds := by
  unfold State.fencePart
  try dsimp only
  repeat' first
    | with_reducible first
      | assumption | apply State.fenceFn_kept | apply State.stopCore_kept | apply State.wipeCore_kept
      | apply State.dropInbound_kept | apply State.kept_ite | refine State.kept_foldl (fun _ _ _ => ?_) ?_ _
    | with_reducible refine State.kept_snd (by assumption) ?_ | with_reducible refine State.kept_snd2 (by assumption) ?_
    | with_reducible refine State.kept_snd3 (by assumption) ?_ | fail_if_no_progress with_reducible apply State.kept_mk

theorem State.clearWindows_kept (s : State) (fn : Nat) (h : s.kept cmds) : (s.clearWindows fn).kept cmds := by
  obtain ⟨h1, h2, h3, h4, h5⟩ := h
  exact ⟨h1, h2, Tab.rising_filter _ h3, Tab.wf_filter _ _ h4, h5⟩

theorem State.clearObjects_kept (s : State) (fn : Nat) (hi : s.kept cmds) : (State.clearObjects s fn).kept cmds := by
  unfold State.clearObjects
  try dsimp only
  repeat' first
    | with_reducible first
      | assumption | apply State.setAts_kept | apply State.kept_ite
    | with_reducible refine State.kept_snd (by assumption) ?_ | with_reducible refine State.kept_snd2 (by assumption) ?_
    | with_reducible refine State.kept_snd3 (by assumption) ?_ | fail_if_no_progress with_reducible apply State.kept_mk

theorem State.emptyPart_kept (s : State) (q : Nat) (hi : s.kept cmds) : (State.emptyPart s q).kept cmds := by
  unfold State.emptyPart
  try dsimp only
  repeat' first
    | with_reducible first
      | assumption | apply State.dropXlat_kept | apply State.clearObjects_kept | apply State.clearWindows_kept
      | apply State.setSharedMap_kept | apply State.wr_kept | apply State.clearTables_kept | apply State.setFld_kept
      | apply State.destroySlot_kept | apply State.kept_ite | refine State.kept_foldl (fun _ _ _ => ?_) ?_ _
    | with_reducible refine State.kept_snd (by assumption) ?_ | with_reducible refine State.kept_snd2 (by assumption) ?_
    | with_reducible refine State.kept_snd3 (by assumption) ?_ | fail_if_no_progress with_reducible apply State.kept_mk

theorem State.emptyIfBare_kept (s : State) (q : Nat) (hi : s.kept cmds) : (State.emptyIfBare s q).kept cmds := by
  unfold State.emptyIfBare
  try dsimp only
  repeat' first
    | with_reducible first
      | assumption | apply State.fenceFn_kept | apply State.emptyPart_kept | apply State.wr_kept | apply State.setFld_kept
      | apply State.kept_ite
    | with_reducible refine State.kept_snd (by assumption) ?_ | with_reducible refine State.kept_snd2 (by assumption) ?_
    | with_reducible refine State.kept_snd3 (by assumption) ?_ | fail_if_no_progress with_reducible apply State.kept_mk

/-! ## The definitions of Machine/Resets.lean -/

theorem State.takeHandle_kept (s : State) (h : s.kept cmds) : s.takeHandle.2.kept cmds := State.kept_nextHandle h (Nat.mod_lt
    _ (by decide))

theorem State.replaceCore_kept (s : State) (n : Nat) (hi : s.kept cmds) : (State.replaceCore s n).kept cmds := by
  unfold State.replaceCore
  try dsimp only
  repeat' first
    | with_reducible first
      | assumption | apply State.setFld_kept | apply State.takeHandle_kept | apply State.target_kept | apply State.kept_ite
    | split | with_reducible refine State.kept_snd (by assumption) ?_
    | with_reducible refine State.kept_snd2 (by assumption) ?_ | with_reducible refine State.kept_snd3 (by assumption) ?_
    | fail_if_no_progress with_reducible apply State.kept_mk

theorem State.retryReplace_kept (s : State) (hi : s.kept cmds) : (State.retryReplace s).kept cmds := by
  unfold State.retryReplace
  try dsimp only
  repeat' first
    | with_reducible first
      | assumption | apply State.replaceCore_kept | apply State.kept_ite | refine State.kept_foldl (fun _ _ _ => ?_) ?_ _
    | with_reducible refine State.kept_snd (by assumption) ?_ | with_reducible refine State.kept_snd2 (by assumption) ?_
    | with_reducible refine State.kept_snd3 (by assumption) ?_ | fail_if_no_progress with_reducible apply State.kept_mk

theorem State.coreEvent_kept (s : State) (n : Nat) (hi : s.kept cmds) : (State.coreEvent s n).kept cmds := by
  unfold State.coreEvent
  try dsimp only
  repeat' first
    | with_reducible first
      | assumption | apply State.intc_kept | apply State.kept_ite
    | split | fail_if_no_progress with_reducible apply State.kept_mk

theorem State.failCore_kept (s : State) (n : Nat) (hi : s.kept cmds) : (State.failCore s n).kept cmds := by
  unfold State.failCore
  try dsimp only
  repeat' first
    | with_reducible first
      | assumption | apply State.fenceChanges_kept | apply State.fenceCore_kept | apply State.setFld_kept
      | apply State.logErr_kept | apply State.coreEvent_kept | apply State.replaceCore_kept | apply State.kept_ite
    | with_reducible refine State.kept_snd (by assumption) ?_ | with_reducible refine State.kept_snd2 (by assumption) ?_
    | with_reducible refine State.kept_snd3 (by assumption) ?_ | fail_if_no_progress with_reducible apply State.kept_mk

theorem State.captureDump_kept (s : State) (hi : s.kept cmds) : (State.captureDump s).kept cmds := by
  unfold State.captureDump
  try dsimp only
  repeat' first
    | with_reducible first
      | assumption | apply State.draw_kept | apply State.kept_ite
    | split | with_reducible refine State.kept_snd (by assumption) ?_
    | with_reducible refine State.kept_snd2 (by assumption) ?_ | with_reducible refine State.kept_snd3 (by assumption) ?_
    | fail_if_no_progress with_reducible apply State.kept_mk

theorem State.updReset_kept (s : State) (id : Nat) (f : Reset → Reset) (hi : s.kept cmds) : (State.updReset s id f).kept
    cmds := by
  unfold State.updReset
  try dsimp only
  repeat' first
    | with_reducible first
      | assumption | apply State.kept_ite
    | fail_if_no_progress with_reducible apply State.kept_mk

theorem State.rstState_kept (s : State) (r : Reset) (st : Nat) (hi : s.kept cmds) : (State.rstState s r st).kept cmds := by
  unfold State.rstState
  try dsimp only
  repeat' first
    | with_reducible first
      | assumption | apply State.target_kept | apply State.setFld_kept | apply State.kept_ite
    | fail_if_no_progress with_reducible apply State.kept_mk

theorem State.wipePart_kept (s : State) (q : Nat) (hi : s.kept cmds) : (State.wipePart s q).kept cmds := by
  unfold State.wipePart
  try dsimp only
  repeat' first
    | with_reducible first
      | assumption | apply State.emptyPart_kept | apply State.done_kept | apply State.setOwner_kept
      | apply State.beginWipes_kept | apply State.kept_ite | refine State.kept_foldl (fun _ _ _ => ?_) ?_ _
    | with_reducible refine State.kept_snd (by assumption) ?_ | with_reducible refine State.kept_snd2 (by assumption) ?_
    | with_reducible refine State.kept_snd3 (by assumption) ?_ | fail_if_no_progress with_reducible apply State.kept_mk

theorem State.clearParish_kept (s : State) (hi : s.kept cmds) : (State.clearParish s).kept cmds := by
  unfold State.clearParish
  try dsimp only
  repeat' first
    | with_reducible first
      | assumption | apply State.destroySlot_kept | apply State.wr_kept | apply State.setFld_kept
      | apply State.dropPort_kept | apply State.kept_ite | refine State.kept_foldl (fun _ _ _ => ?_) ?_ _
    | with_reducible refine State.kept_snd (by assumption) ?_ | with_reducible refine State.kept_snd2 (by assumption) ?_
    | with_reducible refine State.kept_snd3 (by assumption) ?_ | fail_if_no_progress with_reducible apply State.kept_mk

theorem State.endParish_kept (s : State) (hi : s.kept cmds) : (State.endParish s).kept cmds := by
  unfold State.endParish
  try dsimp only
  repeat' first
    | with_reducible first
      | assumption | apply State.decideReset_kept | apply State.clearParish_kept | apply State.kept_ite
      | refine State.kept_foldl (fun _ _ _ => ?_) ?_ _
    | with_reducible refine State.kept_snd (by assumption) ?_ | with_reducible refine State.kept_snd2 (by assumption) ?_
    | with_reducible refine State.kept_snd3 (by assumption) ?_ | fail_if_no_progress with_reducible apply State.kept_mk

theorem State.squashReset_kept (s : State) (r : Reset) (hi : s.kept cmds) : (State.squashReset s r).kept cmds := by
  unfold State.squashReset
  try dsimp only
  repeat' first
    | with_reducible first
      | assumption | apply State.captureDump_kept | apply State.fenceEngine_kept | apply State.target_kept
      | apply State.fenceCore_kept | apply State.fencePart_kept | apply State.endDrain_kept | apply State.wipePart_kept
      | apply State.clearParish_kept | apply State.updReset_kept | apply State.rstState_kept | apply State.kept_ite
      | refine State.kept_foldl (fun _ _ _ => ?_) ?_ _
    | with_reducible refine State.kept_snd (by assumption) ?_ | with_reducible refine State.kept_snd2 (by assumption) ?_
    | with_reducible refine State.kept_snd3 (by assumption) ?_ | fail_if_no_progress with_reducible apply State.kept_mk

theorem State.resetDrain_kept (s : State) (id : Nat) (hi : s.kept cmds) : (State.resetDrain s id).kept cmds := by
  unfold State.resetDrain
  try dsimp only
  repeat' first
    | with_reducible first
      | assumption | apply State.updReset_kept | apply State.rstState_kept | apply State.raise_kept
      | apply State.logErr_kept | apply State.squashReset_kept | apply State.kept_ite
    | split | with_reducible refine State.kept_snd (by assumption) ?_
    | with_reducible refine State.kept_snd2 (by assumption) ?_ | with_reducible refine State.kept_snd3 (by assumption) ?_
    | fail_if_no_progress with_reducible apply State.kept_mk

theorem State.shutterReset_kept (s : State) (r : Reset) (hi : s.kept cmds) : (State.shutterReset s r).kept cmds := by
  unfold State.shutterReset
  try dsimp only
  repeat' first
    | with_reducible first
      | assumption | apply State.updReset_kept | apply State.setFld_kept | apply State.target_kept
      | apply State.fenceChanges_kept | apply State.clearQcfg_kept | apply State.closeStalled_kept | apply State.kept_ite
      | refine State.kept_foldl (fun _ _ _ => ?_) ?_ _
    | with_reducible refine State.kept_snd (by assumption) ?_ | with_reducible refine State.kept_snd2 (by assumption) ?_
    | with_reducible refine State.kept_snd3 (by assumption) ?_ | fail_if_no_progress with_reducible apply State.kept_mk

theorem State.failCores_kept (s : State) (hi : s.kept cmds) : (State.failCores s).kept cmds := by
  unfold State.failCores
  try dsimp only
  repeat' first
    | with_reducible first
      | assumption | apply State.failCore_kept | apply State.kept_ite | refine State.kept_foldl (fun _ _ _ => ?_) ?_ _
    | fail_if_no_progress with_reducible apply State.kept_mk

theorem State.shutterAll_kept (s : State) (hi : s.kept cmds) : (State.shutterAll s).kept cmds := by
  unfold State.shutterAll
  try dsimp only
  repeat' first
    | with_reducible first
      | assumption | apply State.shutterReset_kept | apply State.failCores_kept | apply State.kept_ite
      | refine State.kept_foldl (fun _ _ _ => ?_) ?_ _
    | fail_if_no_progress with_reducible apply State.kept_mk

theorem State.forceReset_kept (s : State) (domain target : Nat) (hi : s.kept cmds) : (State.forceReset s domain target).kept
    cmds := by
  unfold State.forceReset
  try dsimp only
  repeat' first
    | with_reducible first
      | assumption | apply State.target_kept | apply State.dropPort_kept | apply State.raise_kept
      | apply State.squashReset_kept | apply State.kept_ite | refine State.kept_foldl (fun _ _ _ => ?_) ?_ _
    | split | with_reducible refine State.kept_snd (by assumption) ?_
    | with_reducible refine State.kept_snd2 (by assumption) ?_ | with_reducible refine State.kept_snd3 (by assumption) ?_
    | fail_if_no_progress with_reducible apply State.kept_mk

theorem State.dueDump_kept (s : State) (cause : Option (Nat × Nat)) (hi : s.kept cmds) : (State.dueDump s cause).kept cmds
    := by
  unfold State.dueDump
  try dsimp only
  repeat' first
    | with_reducible first
      | assumption | apply State.kept_ite
    | with_reducible refine State.kept_snd (by assumption) ?_ | with_reducible refine State.kept_snd2 (by assumption) ?_
    | with_reducible refine State.kept_snd3 (by assumption) ?_ | fail_if_no_progress with_reducible apply State.kept_mk

theorem State.fatal_kept (s : State) (source unit : Nat) (hi : s.kept cmds) : (State.fatal s source unit).kept cmds := by
  unfold State.fatal
  try dsimp only
  repeat' first
    | with_reducible first
      | assumption | apply State.logErr_kept | apply State.raiseAlarm_kept | apply State.decideReset_kept
      | apply State.dueDump_kept | apply State.kept_ite | refine State.kept_foldl (fun _ _ _ => ?_) ?_ _
    | with_reducible refine State.kept_snd (by assumption) ?_ | with_reducible refine State.kept_snd2 (by assumption) ?_
    | with_reducible refine State.kept_snd3 (by assumption) ?_ | fail_if_no_progress with_reducible apply State.kept_mk

theorem State.halt_kept (s : State) (hi : s.kept cmds) : (State.halt s).kept cmds := by
  unfold State.halt
  try dsimp only
  repeat' first
    | with_reducible first
      | assumption | apply State.kept_ite
    | with_reducible refine State.kept_snd (by assumption) ?_ | with_reducible refine State.kept_snd2 (by assumption) ?_
    | with_reducible refine State.kept_snd3 (by assumption) ?_ | fail_if_no_progress with_reducible apply State.kept_mk

theorem State.startAbort_kept (s : State) (a : Abort) (hi : s.kept cmds) : (State.startAbort s a).kept cmds := by
  unfold State.startAbort
  try dsimp only
  repeat' first
    | with_reducible first
      | assumption | apply State.startDestroy_kept | apply State.kept_ite
    | fail_if_no_progress with_reducible apply State.kept_mk

theorem State.startAborts_kept (s : State) (hi : s.kept cmds) : (State.startAborts s).kept cmds := by
  unfold State.startAborts
  try dsimp only
  repeat' first
    | with_reducible first
      | assumption | apply State.startAbort_kept | apply State.kept_ite | refine State.kept_foldl (fun _ _ _ => ?_) ?_ _
    | with_reducible refine State.kept_snd (by assumption) ?_ | with_reducible refine State.kept_snd2 (by assumption) ?_
    | with_reducible refine State.kept_snd3 (by assumption) ?_ | fail_if_no_progress with_reducible apply State.kept_mk

theorem State.expireHold_kept (s : State) (h : FencedHold) (hi : s.kept cmds) : (State.expireHold s h).kept cmds := by
  unfold State.expireHold
  try dsimp only
  repeat' first
    | with_reducible first
      | assumption | apply State.finishLaunch_kept | apply State.kept_ite
    | split | fail_if_no_progress with_reducible apply State.kept_mk

theorem State.flushLog_kept (s : State) (h : s.kept cmds) : s.flushLog.kept cmds :=
  State.kept_log h h.2.2.2.2.2.1 (Nat.zero_le _) h.2.2.2.2.2.2.2.1

theorem State.writeDump_kept (s : State) (hi : s.kept cmds) : (State.writeDump s).kept cmds := by
  unfold State.writeDump
  try dsimp only
  repeat' first
    | with_reducible first
      | assumption | apply State.raise_kept | apply State.setFld_kept | apply State.kept_ite
    | split | with_reducible refine State.kept_snd (by assumption) ?_
    | with_reducible refine State.kept_snd2 (by assumption) ?_ | with_reducible refine State.kept_snd3 (by assumption) ?_
    | fail_if_no_progress with_reducible apply State.kept_mk

end Sys2Proof.Machine
end

