-- ==== Sys2Proof/Laws/KeepsNode.lean ====
section
/-! SUPPORT. The canonical form of the state (State.kept) is kept by every operation of the model that gives a state: the
beat, the node controller, keys, power and the windows of the host.
One lemma for each, to be cited in place of unfolding it. -/

set_option linter.unusedTactic false
set_option linter.unreachableTactic false

namespace Sys2Proof.Machine

open Sys2Proof

variable {cmds : List Instr}

/-! ## The definitions of Machine/Flood.lean -/

theorem State.floodCell_kept (s : State) (p : Nat) (c : Cell) (act : Cell → State → State)
    (ha : ∀ c t, State.kept cmds t → (act c t).kept cmds) (h : s.kept cmds) : (s.floodCell p c act).kept cmds := by
  have h1 := State.receive_kept s p c h
  unfold State.floodCell
  split
  · next e => exact State.kept_snd e h1
  · next c' s' e =>
    have h2 := State.kept_snd e h1
    have h3 := State.recordFlood_kept _ c'.typ (leField c'.payload 0 2) (leField c'.payload 2 2) h2
    exact State.kept_ite h2 (State.kept_ite (State.routeErr_kept _ _ _ _ h2)
      (State.kept_ite h2 (ha _ _ (State.kept_ite (State.sendAll_kept _ _ _ h3) h3))))

theorem State.bellArrives_kept (s : State) (scope target : Nat) (hi : s.kept cmds) : (State.bellArrives s scope target).kept
    cmds := by
  unfold State.bellArrives
  try dsimp only
  repeat' first
    | with_reducible first
      | assumption | apply State.target_kept | apply State.snapFlag_kept | apply State.addBell_kept | apply State.kept_ite
    | fail_if_no_progress with_reducible apply State.kept_mk

theorem State.parishEnded_kept (s : State) (hi : s.kept cmds) : (State.parishEnded s).kept cmds := by
  unfold State.parishEnded
  try dsimp only
  repeat' first
    | with_reducible first
      | assumption | apply State.endParish_kept | apply State.kept_ite
    | fail_if_no_progress with_reducible apply State.kept_mk

theorem State.alarmArrives_kept (s : State) (b : List Byte) (hi : s.kept cmds) : (State.alarmArrives s b).kept cmds := by
  unfold State.alarmArrives
  try dsimp only
  repeat' first
    | with_reducible first
      | assumption | apply State.logErr_kept | apply State.alarmAct_kept | apply State.parishEnded_kept
      | apply State.kept_ite
    | fail_if_no_progress with_reducible apply State.kept_mk

/-! ## The definitions of Machine/Beat.lean -/

theorem State.beatFlag_kept (s : State) (f : Fld) (hi : s.kept cmds) : (State.beatFlag s f).kept cmds := by
  unfold State.beatFlag
  try dsimp only
  repeat' first
    | with_reducible first
      | assumption | apply State.raise_kept | apply State.intc_kept | apply State.kept_ite
    | fail_if_no_progress with_reducible apply State.kept_mk

theorem State.lastCorr_kept (s : State) (d : Int) (hi : s.kept cmds) : (State.lastCorr s d).kept cmds := by
  unfold State.lastCorr
  try dsimp only
  repeat' first
    | with_reducible first
      | assumption | apply State.setFld_kept | apply State.kept_ite
    | fail_if_no_progress with_reducible apply State.kept_mk

theorem State.emitMarker_kept (s : State) (hi : s.kept cmds) : (State.emitMarker s).kept cmds := by
  unfold State.emitMarker
  try dsimp only
  repeat' first
    | with_reducible first
      | assumption | apply State.sendAll_kept | apply State.kept_ite
    | with_reducible refine State.kept_snd (by assumption) ?_ | with_reducible refine State.kept_snd2 (by assumption) ?_
    | with_reducible refine State.kept_snd3 (by assumption) ?_ | fail_if_no_progress with_reducible apply State.kept_mk

theorem State.changePort_kept (s : State) (hi : s.kept cmds) : (State.changePort s).kept cmds := by
  unfold State.changePort
  try dsimp only
  repeat' first
    | with_reducible first
      | assumption | apply State.setFld_kept | apply State.kept_ite
    | split | with_reducible refine State.kept_snd (by assumption) ?_
    | with_reducible refine State.kept_snd2 (by assumption) ?_ | with_reducible refine State.kept_snd3 (by assumption) ?_
    | fail_if_no_progress with_reducible apply State.kept_mk

theorem State.forwardMarker_kept (s : State) (p : Nat) (residence : List (Nat × Nat)) (b : List Byte) (hi : s.kept cmds) :
    (State.forwardMarker s p residence b).kept cmds := by
  unfold State.forwardMarker
  try dsimp only
  repeat' first
    | with_reducible first
      | assumption | apply State.draw_kept | apply State.sendCell_kept | apply State.kept_ite
      | refine State.kept_foldl (fun _ _ _ => ?_) ?_ _
    | split | with_reducible refine State.kept_snd (by assumption) ?_
    | with_reducible refine State.kept_snd2 (by assumption) ?_ | with_reducible refine State.kept_snd3 (by assumption) ?_
    | fail_if_no_progress with_reducible apply State.kept_mk

theorem State.stepTimer_kept (s : State) (edge : Int) (beat : Nat) (hi : s.kept cmds) : (State.stepTimer s edge beat).kept
    cmds := by
  unfold State.stepTimer
  try dsimp only
  repeat' first
    | with_reducible first
      | assumption | apply State.lastCorr_kept | apply State.kept_ite
    | with_reducible refine State.kept_snd (by assumption) ?_ | with_reducible refine State.kept_snd2 (by assumption) ?_
    | with_reducible refine State.kept_snd3 (by assumption) ?_ | fail_if_no_progress with_reducible apply State.kept_mk

theorem State.tryLock_kept (s : State) (edge : Int) (beat code : Nat) (hi : s.kept cmds) : (State.tryLock s edge beat
    code).kept cmds := by
  unfold State.tryLock
  try dsimp only
  repeat' first
    | with_reducible first
      | assumption | apply State.stepTimer_kept | apply State.kept_ite
    | split | with_reducible refine State.kept_snd (by assumption) ?_
    | with_reducible refine State.kept_snd2 (by assumption) ?_ | with_reducible refine State.kept_snd3 (by assumption) ?_
    | fail_if_no_progress with_reducible apply State.kept_mk

theorem State.correct_kept (s : State) (edge : Int) (beat : Nat) (hi : s.kept cmds) : (State.correct s edge beat).kept cmds
    := by
  unfold State.correct
  try dsimp only
  repeat' first
    | with_reducible first
      | assumption | apply State.lastCorr_kept | apply State.stepTimer_kept | apply State.kept_ite
    | with_reducible refine State.kept_snd (by assumption) ?_ | with_reducible refine State.kept_snd2 (by assumption) ?_
    | with_reducible refine State.kept_snd3 (by assumption) ?_ | fail_if_no_progress with_reducible apply State.kept_mk

theorem State.useMarker_kept (s : State) (p arrival : Nat) (residence : List (Nat × Nat)) (b : List Byte) (hi : s.kept cmds)
    : (State.useMarker s p arrival residence b).kept cmds := by
  unfold State.useMarker
  try dsimp only
  repeat' first
    | with_reducible first
      | assumption | apply State.setFld_kept | apply State.forwardMarker_kept | apply State.correct_kept
      | apply State.tryLock_kept | apply State.kept_ite
    | with_reducible refine State.kept_snd (by assumption) ?_ | with_reducible refine State.kept_snd2 (by assumption) ?_
    | with_reducible refine State.kept_snd3 (by assumption) ?_ | fail_if_no_progress with_reducible apply State.kept_mk

theorem State.takeMarker_kept (s : State) (p arrival : Nat) (residence : List (Nat × Nat)) (b : List Byte) (hi : s.kept
    cmds) : (State.takeMarker s p arrival residence b).kept cmds := by
  unfold State.takeMarker
  try dsimp only
  repeat' first
    | with_reducible first
      | assumption | apply State.beatFlag_kept | apply State.changePort_kept | apply State.useMarker_kept
      | apply State.kept_ite
    | with_reducible refine State.kept_snd (by assumption) ?_ | with_reducible refine State.kept_snd2 (by assumption) ?_
    | with_reducible refine State.kept_snd3 (by assumption) ?_ | fail_if_no_progress with_reducible apply State.kept_mk

theorem State.enterHoldover_kept (s : State) (hi : s.kept cmds) : (State.enterHoldover s).kept cmds := by
  unfold State.enterHoldover
  try dsimp only
  repeat' first
    | with_reducible first
      | assumption | apply State.setFld_kept | apply State.beatFlag_kept | apply State.logCE_kept | apply State.takeOut_kept
      | apply State.kept_ite | refine State.kept_foldl (fun _ _ _ => ?_) ?_ _
    | with_reducible refine State.kept_snd (by assumption) ?_ | with_reducible refine State.kept_snd2 (by assumption) ?_
    | with_reducible refine State.kept_snd3 (by assumption) ?_ | fail_if_no_progress with_reducible apply State.kept_mk

theorem State.checkHoldover_kept (s : State) (hi : s.kept cmds) : (State.checkHoldover s).kept cmds := by
  unfold State.checkHoldover
  try dsimp only
  repeat' first
    | with_reducible first
      | assumption | apply State.enterHoldover_kept | apply State.kept_ite
    | fail_if_no_progress with_reducible apply State.kept_mk

theorem State.checkHoldLimit_kept (s : State) (hi : s.kept cmds) : (State.checkHoldLimit s).kept cmds := by
  unfold State.checkHoldLimit
  try dsimp only
  repeat' first
    | with_reducible first
      | assumption | apply State.logErr_kept | apply State.raiseAlarm_kept | apply State.kept_ite
      | refine State.kept_foldl (fun _ _ _ => ?_) ?_ _
    | with_reducible refine State.kept_snd (by assumption) ?_ | with_reducible refine State.kept_snd2 (by assumption) ?_
    | with_reducible refine State.kept_snd3 (by assumption) ?_ | fail_if_no_progress with_reducible apply State.kept_mk

theorem State.applyLength_kept (s : State) (hi : s.kept cmds) : (State.applyLength s).kept cmds := by
  unfold State.applyLength
  try dsimp only
  repeat' first
    | with_reducible first
      | assumption | apply State.setFld_kept | apply State.kept_ite
    | with_reducible refine State.kept_snd (by assumption) ?_ | with_reducible refine State.kept_snd2 (by assumption) ?_
    | with_reducible refine State.kept_snd3 (by assumption) ?_ | fail_if_no_progress with_reducible apply State.kept_mk

theorem State.applyDirect_kept (s : State) (hi : s.kept cmds) : (State.applyDirect s).kept cmds := by
  unfold State.applyDirect
  try dsimp only
  repeat' first
    | with_reducible first
      | assumption | apply State.setFld_kept | apply State.kept_ite | refine State.kept_foldl (fun _ _ _ => ?_) ?_ _
    | split | with_reducible refine State.kept_snd (by assumption) ?_
    | with_reducible refine State.kept_snd2 (by assumption) ?_ | with_reducible refine State.kept_snd3 (by assumption) ?_
    | fail_if_no_progress with_reducible apply State.kept_mk

theorem State.countBeat_kept (s : State) (hi : s.kept cmds) : (State.countBeat s).kept cmds := by
  unfold State.countBeat
  try dsimp only
  repeat' first
    | with_reducible first
      | assumption | apply State.setFld_kept | apply State.beatFlag_kept | apply State.logErr_kept | apply State.kept_ite
    | with_reducible refine State.kept_snd (by assumption) ?_ | with_reducible refine State.kept_snd2 (by assumption) ?_
    | with_reducible refine State.kept_snd3 (by assumption) ?_ | fail_if_no_progress with_reducible apply State.kept_mk

theorem State.lockEdge_kept (s : State) (stepped : Bool) (hi : s.kept cmds) : (State.lockEdge s stepped).kept cmds := by
  unfold State.lockEdge
  try dsimp only
  repeat' first
    | with_reducible first
      | assumption | apply State.setFld_kept | apply State.enterHoldover_kept | apply State.kept_ite
    | split | fail_if_no_progress with_reducible apply State.kept_mk

theorem State.quietEdge_kept (s : State) (hi : s.kept cmds) : (State.quietEdge s).kept cmds := by
  unfold State.quietEdge
  try dsimp only
  repeat' first
    | with_reducible first
      | assumption | apply State.changePort_kept | apply State.kept_ite
    | with_reducible refine State.kept_snd (by assumption) ?_ | with_reducible refine State.kept_snd2 (by assumption) ?_
    | with_reducible refine State.kept_snd3 (by assumption) ?_ | fail_if_no_progress with_reducible apply State.kept_mk

theorem State.turnBeat_kept (s : State) (hi : s.kept cmds) : (State.turnBeat s).kept cmds := by
  unfold State.turnBeat
  try dsimp only
  repeat' first
    | with_reducible first
      | assumption | apply State.setPort_kept | apply State.kept_ite | refine State.kept_foldl (fun _ _ _ => ?_) ?_ _
    | with_reducible refine State.kept_snd (by assumption) ?_ | with_reducible refine State.kept_snd2 (by assumption) ?_
    | with_reducible refine State.kept_snd3 (by assumption) ?_ | fail_if_no_progress with_reducible apply State.kept_mk

theorem State.beatPart_kept (s : State) (hi : s.kept cmds) : (State.beatPart s).kept cmds := by
  unfold State.beatPart
  try dsimp only
  repeat' first
    | with_reducible first
      | assumption | apply State.applyLength_kept | apply State.countBeat_kept | apply State.quietEdge_kept
      | apply State.applyDirect_kept | apply State.lockEdge_kept | apply State.turnBeat_kept
      | apply State.checkHoldLimit_kept | apply State.checkHoldover_kept | apply State.kept_ite
    | with_reducible refine State.kept_snd (by assumption) ?_ | with_reducible refine State.kept_snd2 (by assumption) ?_
    | with_reducible refine State.kept_snd3 (by assumption) ?_ | fail_if_no_progress with_reducible apply State.kept_mk

theorem State.markLate_kept (s : State) (n : Nat) (hi : s.kept cmds) : (State.markLate s n).kept cmds := by
  unfold State.markLate
  try dsimp only
  repeat' first
    | with_reducible first
      | assumption | apply State.setCore_kept | apply State.satAdd_kept | apply State.kept_ite
    | fail_if_no_progress with_reducible apply State.kept_mk

theorem State.lateEvent_kept (s : State) (n : Nat) (hi : s.kept cmds) : (State.lateEvent s n).kept cmds := by
  unfold State.lateEvent
  try dsimp only
  repeat' first
    | with_reducible first
      | assumption | apply State.setCore_kept | apply State.intc_kept | apply State.logCE_kept | apply State.kept_ite
    | split | fail_if_no_progress with_reducible apply State.kept_mk

/-! ## The definitions of Machine/Kmc.lean -/

theorem State.updSession_kept (s : State) (i : Nat) (f : Session → Session) (h : s.kept cmds) : (s.updSession i f).kept cmds :=
  State.kept_kmc h (by rw [List.length_map]; exact State.kept_sessions h) (State.kept_kept h)

theorem State.flushSession_kept (s : State) (i : Nat) (hi : s.kept cmds) : (State.flushSession s i).kept cmds := by
  unfold State.flushSession
  try dsimp only
  repeat' first
    | with_reducible first
      | assumption | apply State.updSession_kept | apply State.send_kept | apply State.kept_ite
      | refine State.kept_foldl (fun _ _ _ => ?_) ?_ _
    | split | with_reducible refine State.kept_snd (by assumption) ?_
    | with_reducible refine State.kept_snd2 (by assumption) ?_ | with_reducible refine State.kept_snd3 (by assumption) ?_
    | fail_if_no_progress with_reducible apply State.kept_mk

theorem State.enterReq_kept (s : State) (i typ req : Nat) (resp : Option (Nat × List Byte)) (hi : s.kept cmds) :
    (State.enterReq s i typ req resp).kept cmds := by
  unfold State.enterReq
  try dsimp only
  repeat' first
    | with_reducible first
      | assumption | apply State.updSession_kept | apply State.flushSession_kept | apply State.kept_ite
    | fail_if_no_progress with_reducible apply State.kept_mk

theorem State.answerReq_kept (s : State) (i typ req st : Nat) (body : List Byte) (hi : s.kept cmds) : (State.answerReq s i
    typ req st body).kept cmds := by
  unfold State.answerReq
  try dsimp only
  repeat' first
    | with_reducible first
      | assumption | apply State.updSession_kept | apply State.flushSession_kept | apply State.kept_ite
    | with_reducible refine State.kept_snd (by assumption) ?_ | with_reducible refine State.kept_snd2 (by assumption) ?_
    | with_reducible refine State.kept_snd3 (by assumption) ?_ | fail_if_no_progress with_reducible apply State.kept_mk

theorem State.kmcRequest_kept (s : State) (i typ req : Nat) (op : State → Nat × List Byte × State)
    (ho : ∀ t, t.kept cmds → (op t).2.2.kept cmds) (h : s.kept cmds) : (s.kmcRequest i typ req op).kept cmds := by
  unfold State.kmcRequest
  split
  · exact h
  · split
    · exact State.enterReq_kept _ _ _ _ _ h
    · split
      · exact State.enterReq_kept _ _ _ _ _ h
      · exact State.enterReq_kept _ _ _ _ _ (ho s h)

/-! ## The definitions of Machine/Cold.lean -/

theorem State.renumber_kept (s : State) (keep : Bool) (hi : s.kept cmds) : (State.renumber s keep).kept cmds := by
  unfold State.renumber
  try dsimp only
  repeat' first
    | with_reducible first
      | assumption | apply State.wr_kept | apply State.setFld_kept | apply State.kept_ite
      | refine State.kept_foldl (fun _ _ _ => ?_) ?_ _
    | with_reducible refine State.kept_snd (by assumption) ?_ | with_reducible refine State.kept_snd2 (by assumption) ?_
    | with_reducible refine State.kept_snd3 (by assumption) ?_ | fail_if_no_progress with_reducible apply State.kept_mk

theorem State.reset_kept : State.reset.kept [] := by
  refine ⟨rfl, rfl, rfl, rfl, ?_, ?_, ?_, ?_, ?_, ?_, ?_, ?_, ?_, ?_⟩ <;> decide

theorem State.coldStart_kept (s : State) (from_ : Nat) (h : s.kept cmds) : (s.coldStart from_).kept cmds := by
  unfold State.coldStart
  dsimp only
  apply State.setFld_kept
  refine State.kept_foldl (fun _ _ hu => State.wr_kept _ _ _ _ hu) ?_ _
  refine State.kept_foldl (fun _ _ hu => State.setFld_kept _ _ _ _ _ hu) ?_ _
  apply State.wr_kept
  apply State.wr_kept
  obtain ⟨h1, h2, h3, h4, h5, -, -, -, -, -, h11⟩ := State.reset_kept
  exact ⟨h1, h2, h3, h4, h5, Nat.zero_le _, Nat.zero_le _, h.2.2.2.2.2.2.2.1, Nat.zero_le _, Nat.zero_le _, h11.1,
    h11.2.1, h11.2.2.1, h.2.2.2.2.2.2.2.2.2.2.2.2.2⟩

theorem State.setFault_kept (s : State) (code : Nat) (hi : s.kept cmds) : (State.setFault s code).kept cmds := by
  unfold State.setFault
  try dsimp only
  repeat' first
    | with_reducible first
      | assumption | apply State.send_kept | apply State.kept_ite
    | fail_if_no_progress with_reducible apply State.kept_mk

theorem State.railsDown_kept (s : State) (hi : s.kept cmds) : (State.railsDown s).kept cmds := by
  unfold State.railsDown
  try dsimp only
  repeat' first
    | with_reducible first
      | assumption | apply State.openLoop_kept | apply State.send_kept | apply State.coldStart_kept
      | apply State.setFld_kept | apply State.kept_ite | refine State.kept_foldl (fun _ _ _ => ?_) ?_ _
    | with_reducible refine State.kept_snd (by assumption) ?_ | with_reducible refine State.kept_snd2 (by assumption) ?_
    | with_reducible refine State.kept_snd3 (by assumption) ?_ | fail_if_no_progress with_reducible apply State.kept_mk

theorem State.setLife_kept (s : State) (code : Nat) (hi : s.kept cmds) : (State.setLife s code).kept cmds := by
  unfold State.setLife
  try dsimp only
  repeat' first
    | with_reducible first
      | assumption | apply State.setFld_kept | apply State.kept_ite
    | with_reducible refine State.kept_snd (by assumption) ?_ | with_reducible refine State.kept_snd2 (by assumption) ?_
    | with_reducible refine State.kept_snd3 (by assumption) ?_ | fail_if_no_progress with_reducible apply State.kept_mk

theorem State.finishLife_kept (s : State) (h : s.kept cmds) : s.finishLife.kept cmds := by
  unfold State.finishLife
  split
  · exact h
  · dsimp only
    apply State.answerReq_kept
    apply State.kept_mk
    refine State.kept_foldl (fun _ _ hu => State.destroySlot_kept _ _ hu) ?_ _
    have h1 : ∀ t : State, t.kept cmds → State.kept cmds { t with
        log := { t.log with stored := [] }, dump := { t.dump with slots := [], ages := [] } } := fun t ht => ht
    repeat' first
      | with_reducible first
        | assumption | apply State.setFld_kept | apply State.setLife_kept | apply State.wr_kept | apply h1
        | apply State.resealStore_kept
      | split
      | fail_if_no_progress with_reducible apply State.kept_mk

theorem State.setRot_kept (s : State) (d : Nat) (t : Rot) (hi : s.kept cmds) : (State.setRot s d t).kept cmds := by
  unfold State.setRot
  try dsimp only
  repeat' first
    | with_reducible first
      | assumption | apply State.kept_ite
    | fail_if_no_progress with_reducible apply State.kept_mk

theorem State.abandonSlice_kept (s : State) (d : Nat) (hi : s.kept cmds) : (State.abandonSlice s d).kept cmds := by
  unfold State.abandonSlice
  try dsimp only
  repeat' first
    | with_reducible first
      | assumption | apply State.setFld_kept | apply State.raise_kept | apply State.kept_ite
    | fail_if_no_progress with_reducible apply State.kept_mk

theorem State.wiped_kept (s : State) (id : Nat) (hi : s.kept cmds) : (State.wiped s id).kept cmds := by
  unfold State.wiped
  try dsimp only
  repeat' first
    | with_reducible first
      | assumption | apply State.updReset_kept | apply State.kept_ite
    | split | with_reducible refine State.kept_snd (by assumption) ?_
    | with_reducible refine State.kept_snd2 (by assumption) ?_ | with_reducible refine State.kept_snd3 (by assumption) ?_
    | fail_if_no_progress with_reducible apply State.kept_mk

theorem State.reportKmc_kept (s : State) (r : KReport) (h : s.kept cmds) : (s.reportKmc r).kept cmds :=
  State.kept_kmc h h.2.2.2.2.2.2.2.2.1 h.2.2.2.2.2.2.2.2.2.1

theorem State.reportReset_kept (s : State) (r : Reset) (hi : s.kept cmds) : (State.reportReset s r).kept cmds := by
  unfold State.reportReset
  try dsimp only
  repeat' first
    | with_reducible first
      | assumption | apply State.reportKmc_kept | apply State.target_kept | apply State.rstState_kept
      | apply State.setFld_kept | apply State.raise_kept | apply State.logErr_kept | apply State.kept_ite
    | with_reducible refine State.kept_snd (by assumption) ?_ | with_reducible refine State.kept_snd2 (by assumption) ?_
    | with_reducible refine State.kept_snd3 (by assumption) ?_ | fail_if_no_progress with_reducible apply State.kept_mk

theorem State.zeroRegs_kept (s : State) (off stride n : Nat) (hi : s.kept cmds) : (State.zeroRegs s off stride n).kept cmds
    := by
  unfold State.zeroRegs
  try dsimp only
  repeat' first
    | with_reducible first
      | assumption | apply State.wr_kept | apply State.kept_ite | refine State.kept_foldl (fun _ _ _ => ?_) ?_ _
    | with_reducible refine State.kept_snd (by assumption) ?_ | with_reducible refine State.kept_snd2 (by assumption) ?_
    | with_reducible refine State.kept_snd3 (by assumption) ?_ | fail_if_no_progress with_reducible apply State.kept_mk

theorem State.writeBackAll_kept (s : State) (hi : s.kept cmds) : (State.writeBackAll s).kept cmds := by
  unfold State.writeBackAll
  try dsimp only
  repeat' first
    | with_reducible first
      | assumption | apply State.writeBack_kept | apply State.kept_ite | refine State.kept_foldl (fun _ _ _ => ?_) ?_ _
    | with_reducible refine State.kept_snd (by assumption) ?_ | with_reducible refine State.kept_snd2 (by assumption) ?_
    | with_reducible refine State.kept_snd3 (by assumption) ?_ | fail_if_no_progress with_reducible apply State.kept_mk

theorem State.resetErrl_kept (s : State) (fn : Nat) (h : s.kept cmds) : (s.resetErrl fn).kept cmds := by
  obtain ⟨h1, h2, h3, h4, h5⟩ := h
  exact ⟨h1, h2, Tab.rising_filter _ h3, Tab.wf_filter _ _ h4, h5⟩

theorem State.fenceMoveCores_kept (s : State) (hi : s.kept cmds) : (State.fenceMoveCores s).kept cmds := by
  unfold State.fenceMoveCores
  try dsimp only
  repeat' first
    | with_reducible first
      | assumption | apply State.compDone_kept | apply State.kept_ite | refine State.kept_foldl (fun _ _ _ => ?_) ?_ _
    | with_reducible refine State.kept_snd (by assumption) ?_ | with_reducible refine State.kept_snd2 (by assumption) ?_
    | with_reducible refine State.kept_snd3 (by assumption) ?_ | fail_if_no_progress with_reducible apply State.kept_mk

theorem State.warmEnd_kept (s : State) (hi : s.kept cmds) : (State.warmEnd s).kept cmds := by
  unfold State.warmEnd
  try dsimp only
  repeat' first
    | with_reducible first
      | assumption | apply State.fenceMoveCores_kept | apply State.writeBackAll_kept | apply State.flushLog_kept
      | apply State.setFld_kept | apply State.zeroRegs_kept | apply State.resetErrl_kept | apply State.abandonSlice_kept
      | apply State.renumber_kept | apply State.reportKmc_kept | apply State.intc_kept | apply State.kept_ite
      | refine State.kept_foldl (fun _ _ _ => ?_) ?_ _
    | with_reducible refine State.kept_snd (by assumption) ?_ | with_reducible refine State.kept_snd2 (by assumption) ?_
    | with_reducible refine State.kept_snd3 (by assumption) ?_ | fail_if_no_progress with_reducible apply State.kept_mk

theorem State.endReset_kept (s : State) (r : Reset) (hi : s.kept cmds) : (State.endReset s r).kept cmds := by
  unfold State.endReset
  try dsimp only
  repeat' first
    | with_reducible first
      | assumption | apply State.finishLife_kept | apply State.flushLog_kept | apply State.railsDown_kept
      | apply State.coldStart_kept | apply State.warmEnd_kept | apply State.target_kept | apply State.dropPort_kept
      | apply State.reportReset_kept | apply State.kept_ite | refine State.kept_foldl (fun _ _ _ => ?_) ?_ _
    | fail_if_no_progress with_reducible apply State.kept_mk

theorem State.endResets_kept (s : State) (hi : s.kept cmds) : (State.endResets s).kept cmds := by
  unfold State.endResets
  try dsimp only
  repeat' first
    | with_reducible first
      | assumption | apply State.endReset_kept | apply State.kept_ite | refine State.kept_foldl (fun _ _ _ => ?_) ?_ _
    | fail_if_no_progress with_reducible apply State.kept_mk

/-! ## The definitions of Machine/Compose.lean -/

theorem State.acceptChange_kept (s : State) (sess : Option Nat) (c : Compose) (rotate : Option Nat) (hi : s.kept cmds) :
    (State.acceptChange s sess c rotate).2.kept cmds := by
  unfold State.acceptChange
  try dsimp only
  repeat' first
    | with_reducible first
      | assumption | apply State.takeHandle_kept | apply State.compDone_kept | apply State.setFld_kept
      | apply State.kept_ite | apply State.kept_ite2
    | split | with_reducible refine State.kept_snd (by assumption) ?_
    | with_reducible refine State.kept_snd2 (by assumption) ?_ | with_reducible refine State.kept_snd3 (by assumption) ?_
    | fail_if_no_progress with_reducible apply State.kept_mk

theorem State.compose_kept (s : State) (op sess req : Nat) (body : BitVec 896) (h : s.kept cmds) : (s.compose op sess req
    body).kept cmds := by
  refine State.kmcRequest_kept _ _ _ _ _ (fun t ht => ?_) h
  split
  · exact ht
  · split
    · exact State.acceptChange_kept _ _ _ _ ht
    · exact ht

theorem State.setQos_kept (s : State) (fn : Nat) (d : List Byte) (hi : s.kept cmds) : (State.setQos s fn d).kept cmds := by
  unfold State.setQos
  try dsimp only
  repeat' first
    | with_reducible first
      | assumption | apply State.setFld_kept | apply State.wr_kept | apply State.kept_ite
      | refine State.kept_foldl (fun _ _ _ => ?_) ?_ _
    | with_reducible refine State.kept_snd (by assumption) ?_ | with_reducible refine State.kept_snd2 (by assumption) ?_
    | with_reducible refine State.kept_snd3 (by assumption) ?_ | fail_if_no_progress with_reducible apply State.kept_mk

theorem State.openEpoch_kept (s : State) (q : Nat) (hi : s.kept cmds) : (State.openEpoch s q).kept cmds := by
  unfold State.openEpoch
  try dsimp only
  repeat' first
    | with_reducible first
      | assumption | apply State.setFld_kept | apply State.raise_kept | apply State.intc_kept | apply State.kept_ite
    | with_reducible refine State.kept_snd (by assumption) ?_ | with_reducible refine State.kept_snd2 (by assumption) ?_
    | with_reducible refine State.kept_snd3 (by assumption) ?_ | fail_if_no_progress with_reducible apply State.kept_mk

theorem State.setChange_kept (s : State) (x : Change) (hi : s.kept cmds) : (State.setChange s x).kept cmds := by
  unfold State.setChange
  try dsimp only
  repeat' first
    | with_reducible first
      | assumption | apply State.kept_ite
    | fail_if_no_progress with_reducible apply State.kept_mk

theorem State.setMember_kept (s : State) (q vd member members : Nat) (hi : s.kept cmds) : (State.setMember s q vd member
    members).kept cmds := by
  unfold State.setMember
  try dsimp only
  repeat' first
    | with_reducible first
      | assumption | apply State.setFld_kept | apply State.kept_ite
    | fail_if_no_progress with_reducible apply State.kept_mk

theorem State.giveCore_kept (s : State) (q n : Nat) (hi : s.kept cmds) : (State.giveCore s q n).kept cmds := by
  unfold State.giveCore
  try dsimp only
  repeat' first
    | with_reducible first
      | assumption | apply State.wipeCore_kept | apply State.wr_kept | apply State.setFld_kept | apply State.kept_ite
    | with_reducible refine State.kept_snd (by assumption) ?_ | with_reducible refine State.kept_snd2 (by assumption) ?_
    | with_reducible refine State.kept_snd3 (by assumption) ?_ | fail_if_no_progress with_reducible apply State.kept_mk

theorem State.bindAll_kept (s : State) (c : Compose) (hi : s.kept cmds) : (State.bindAll s c).kept cmds := by
  unfold State.bindAll
  try dsimp only
  repeat' first
    | with_reducible first
      | assumption | apply State.setMember_kept | apply State.setFld_kept | apply State.setReleased_kept
      | apply State.setOwner_kept | apply State.giveCore_kept | apply State.bindPort_kept | apply State.kept_ite
      | refine State.kept_foldl (fun _ _ _ => ?_) ?_ _
    | with_reducible refine State.kept_snd (by assumption) ?_ | with_reducible refine State.kept_snd2 (by assumption) ?_
    | with_reducible refine State.kept_snd3 (by assumption) ?_ | fail_if_no_progress with_reducible apply State.kept_mk

theorem State.shutterNow_kept (s : State) (domain target : Nat) (hi : s.kept cmds) : (State.shutterNow s domain target).kept
    cmds := by
  unfold State.shutterNow
  try dsimp only
  repeat' first
    | with_reducible first
      | assumption | apply State.decideReset_kept | apply State.target_kept | apply State.shutterReset_kept
      | apply State.resetDrain_kept | apply State.kept_ite
    | split | fail_if_no_progress with_reducible apply State.kept_mk

theorem State.shutterUnbind_kept (s : State) (x : Change) (hi : s.kept cmds) : (State.shutterUnbind s x).kept cmds := by
  unfold State.shutterUnbind
  try dsimp only
  repeat' first
    | with_reducible first
      | assumption | apply State.setChange_kept | apply State.shutterNow_kept | apply State.finishLaunch_kept
      | apply State.kept_ite | refine State.kept_foldl (fun _ _ _ => ?_) ?_ _
    | with_reducible refine State.kept_snd (by assumption) ?_ | with_reducible refine State.kept_snd2 (by assumption) ?_
    | with_reducible refine State.kept_snd3 (by assumption) ?_ | fail_if_no_progress with_reducible apply State.kept_mk

theorem State.shutterDue_kept (s : State) (hi : s.kept cmds) : (State.shutterDue s).kept cmds := by
  unfold State.shutterDue
  try dsimp only
  repeat' first
    | with_reducible first
      | assumption | apply State.shutterUnbind_kept | apply State.kept_ite | refine State.kept_foldl (fun _ _ _ => ?_) ?_ _
    | split | with_reducible refine State.kept_snd (by assumption) ?_
    | with_reducible refine State.kept_snd2 (by assumption) ?_ | with_reducible refine State.kept_snd3 (by assumption) ?_
    | fail_if_no_progress with_reducible apply State.kept_mk

theorem State.openUnbind_kept (s : State) (x : Change) (hi : s.kept cmds) : (State.openUnbind s x).kept cmds := by
  unfold State.openUnbind
  try dsimp only
  repeat' first
    | with_reducible first
      | assumption | apply State.setChange_kept | apply State.setOwner_kept | apply State.clearTables_kept
      | apply State.setMember_kept | apply State.kept_ite | refine State.kept_foldl (fun _ _ _ => ?_) ?_ _
    | with_reducible refine State.kept_snd (by assumption) ?_ | with_reducible refine State.kept_snd2 (by assumption) ?_
    | with_reducible refine State.kept_snd3 (by assumption) ?_ | fail_if_no_progress with_reducible apply State.kept_mk

theorem State.openMove_kept (s : State) (x : Change) (k : Nat) (hi : s.kept cmds) : (State.openMove s x k).kept cmds := by
  unfold State.openMove
  try dsimp only
  repeat' first
    | with_reducible first
      | assumption | apply State.setFld_kept | apply State.dropEngTlbs_kept | apply State.setChange_kept
      | apply State.compDone_kept | apply State.kept_ite
    | with_reducible refine State.kept_snd (by assumption) ?_ | with_reducible refine State.kept_snd2 (by assumption) ?_
    | with_reducible refine State.kept_snd3 (by assumption) ?_ | fail_if_no_progress with_reducible apply State.kept_mk

theorem State.qosUnread_kept (s : State) (x : Change) (kind : Nat) (hi : s.kept cmds) : (State.qosUnread s x kind).kept cmds
    := by
  unfold State.qosUnread
  try dsimp only
  repeat' first
    | with_reducible first
      | assumption | apply State.logErr_kept | apply State.kept_ite
    | fail_if_no_progress with_reducible apply State.kept_mk

theorem State.openChange_kept (s : State) (x : Change) (ext : List Byte) (h : s.kept cmds) : (s.openChange x ext).2.kept cmds
    := by
  have hs : ∀ t : State, t.kept cmds → (match t.changePart x with
      | some q => t.openEpoch q
      | none => t).kept cmds := by
    intro t ht
    split
    · exact State.openEpoch_kept _ _ ht
    · exact ht
  have he : ∀ (y : Change) (t : State), t.kept cmds → (match t.changePart y with
      | some q => t.drainIfDone q
      | none => t).kept cmds := by
    intro y t ht
    split
    · exact State.drainIfDone_kept _ _ ht
    · exact ht
  unfold State.openChange
  dsimp only
  split
  · exact State.compDone_kept _ _ _ h
  · split
    · exact h
    · have h0 : (if x.toShut = true then s.shutterUnbind x else s).kept cmds := State.kept_ite (State.shutterUnbind_kept _ _ h) h
      split
      · have h2 := State.readVa_kept (if x.toShut = true then s.shutterUnbind x else s) [2, x.handle] (vf x.c.part) x.c.qosVa 128
          .rd ext h0
        split
        · next e => exact VaRead.kept_wait e h2
        · next e => exact State.compDone_kept _ _ _ (State.qosUnread_kept _ _ _ (VaRead.kept_fail e h2))
        · next e =>
          have h3 := VaRead.kept_ok e h2
          split
          · exact he { x with shut := x.shut || x.toShut } _ (State.compDone_kept _ _ _ (State.setQos_kept _ _ _ (hs _ h3)))
          · exact State.compDone_kept _ _ _ h3
      · apply he { x with shut := x.shut || x.toShut }
        have h1 := hs _ h0
        split
        · exact State.compDone_kept _ _ _ (State.bindAll_kept _ _ h1)
        · split
          · exact State.openUnbind_kept _ _ h1
          · split
            · exact State.openMove_kept _ _ _ h1
            · exact h1

theorem State.considerChange_kept (s : State) (handle : Nat) (ext : List Byte) (hi : s.kept cmds) : (State.considerChange s
    handle ext).2.kept cmds := by
  unfold State.considerChange
  try dsimp only
  repeat' first
    | with_reducible first
      | assumption | apply State.openChange_kept | apply State.kept_ite | apply State.kept_ite2
    | split | with_reducible refine State.kept_snd (by assumption) ?_
    | with_reducible refine State.kept_snd2 (by assumption) ?_ | with_reducible refine State.kept_snd3 (by assumption) ?_
    | fail_if_no_progress with_reducible apply State.kept_mk

theorem State.stallChange_kept (s : State) (handle : Nat) (hi : s.kept cmds) : (State.stallChange s handle).kept cmds := by
  unfold State.stallChange
  try dsimp only
  repeat' first
    | with_reducible first
      | assumption | apply State.compDone_kept | apply State.kept_ite
    | split | with_reducible refine State.kept_snd (by assumption) ?_
    | with_reducible refine State.kept_snd2 (by assumption) ?_ | with_reducible refine State.kept_snd3 (by assumption) ?_
    | fail_if_no_progress with_reducible apply State.kept_mk

theorem State.considerAll_kept (s : State) (ext : List Byte) (h : s.kept cmds) : (s.considerAll ext).2.kept cmds := by
  unfold State.considerAll
  have key : ∀ (l : List Nat) (a : List Byte × State), a.2.kept cmds →
      (l.foldl (fun (a : List Byte × State) h =>
        let (e, s) := a.2.considerChange h a.1
        (e, s.stallChange h)) a).2.kept cmds := by
    intro l
    induction l with
    | nil => exact fun _ ha => ha
    | cons x l ih => exact fun a ha => ih _ (State.stallChange_kept _ _ (State.considerChange_kept _ _ _ ha))
  exact key _ _ h

theorem State.fenceMoves_kept (s : State) (n : Nat) (hi : s.kept cmds) : (State.fenceMoves s n).kept cmds := by
  unfold State.fenceMoves
  try dsimp only
  repeat' first
    | with_reducible first
      | assumption | apply State.stopCore_kept | apply State.finishLaunch_kept | apply State.kept_ite
    | split | with_reducible refine State.kept_snd (by assumption) ?_
    | with_reducible refine State.kept_snd2 (by assumption) ?_ | with_reducible refine State.kept_snd3 (by assumption) ?_
    | fail_if_no_progress with_reducible apply State.kept_mk

theorem State.limitDrain_kept (s : State) (q : Nat) (hi : s.kept cmds) : (State.limitDrain s q).kept cmds := by
  unfold State.limitDrain
  try dsimp only
  repeat' first
    | with_reducible first
      | assumption | apply State.fenceMoves_kept | apply State.dropInbound_kept | apply State.logCE_kept
      | apply State.raise_kept | apply State.endDrain_kept | apply State.kept_ite
      | refine State.kept_foldl (fun _ _ _ => ?_) ?_ _
    | split | with_reducible refine State.kept_snd (by assumption) ?_
    | with_reducible refine State.kept_snd2 (by assumption) ?_ | with_reducible refine State.kept_snd3 (by assumption) ?_
    | fail_if_no_progress with_reducible apply State.kept_mk

theorem State.endMove_kept (s : State) (x : Change) (hi : s.kept cmds) : (State.endMove s x).kept cmds := by
  unfold State.endMove
  try dsimp only
  repeat' first
    | with_reducible first
      | assumption | apply State.setFld_kept | apply State.compDone_kept | apply State.kept_ite
    | fail_if_no_progress with_reducible apply State.kept_mk

theorem State.endChanges_kept (s : State) (hi : s.kept cmds) : (State.endChanges s).kept cmds := by
  unfold State.endChanges
  try dsimp only
  repeat' first
    | with_reducible first
      | assumption | apply State.endMove_kept | apply State.compDone_kept | apply State.emptyIfBare_kept
      | apply State.kept_ite | refine State.kept_foldl (fun _ _ _ => ?_) ?_ _
    | with_reducible refine State.kept_snd (by assumption) ?_ | with_reducible refine State.kept_snd2 (by assumption) ?_
    | with_reducible refine State.kept_snd3 (by assumption) ?_ | fail_if_no_progress with_reducible apply State.kept_mk

/-! ## The definitions of Machine/Secure.lean -/

theorem State.loadKey_kept (s : State) (k attr : Nat) (m : List Byte) (hi : s.kept cmds) : (State.loadKey s k attr m).kept
    cmds := by
  unfold State.loadKey
  try dsimp only
  repeat' first
    | with_reducible first
      | assumption | apply State.wr_kept | apply State.kept_ite
    | fail_if_no_progress with_reducible apply State.kept_mk

theorem State.latchSections_kept (s : State) (hi : s.kept cmds) : (State.latchSections s).kept cmds := by
  unfold State.latchSections
  try dsimp only
  repeat' first
    | with_reducible first
      | assumption | apply State.kept_ite
    | with_reducible refine State.kept_snd (by assumption) ?_ | with_reducible refine State.kept_snd2 (by assumption) ?_
    | with_reducible refine State.kept_snd3 (by assumption) ?_ | fail_if_no_progress with_reducible apply State.kept_mk

theorem State.report_kept (s : State) (scope : Nat) (only : Option Nat) (nonce : List Byte) (hi : s.kept cmds) :
    (State.report s scope only nonce).2.kept cmds := by
  unfold State.report
  try dsimp only
  repeat' first
    | with_reducible first
      | assumption | apply State.closedBeat_kept | apply State.kept_ite | apply State.kept_ite2
    | split | with_reducible refine State.kept_snd (by assumption) ?_
    | with_reducible refine State.kept_snd2 (by assumption) ?_ | with_reducible refine State.kept_snd3 (by assumption) ?_
    | fail_if_no_progress with_reducible apply State.kept_mk

theorem State.writeAttest_kept (s : State) (fn v : Nat) (hi : s.kept cmds) : (State.writeAttest s fn v).kept cmds := by
  unfold State.writeAttest
  try dsimp only
  repeat' first
    | with_reducible first
      | assumption | apply State.setFld_kept | apply State.kept_ite
    | with_reducible refine State.kept_snd (by assumption) ?_ | with_reducible refine State.kept_snd2 (by assumption) ?_
    | with_reducible refine State.kept_snd3 (by assumption) ?_ | fail_if_no_progress with_reducible apply State.kept_mk

theorem State.startLife_kept (s : State) (hi : s.kept cmds) : (State.startLife s).kept cmds := by
  unfold State.startLife
  try dsimp only
  repeat' first
    | with_reducible first
      | assumption | apply State.decideReset_kept | apply State.coldStart_kept | apply State.flushLog_kept
      | apply State.finishLife_kept | apply State.kept_ite
    | fail_if_no_progress with_reducible apply State.kept_mk

theorem State.dropEnrol_kept (s : State) (hi : s.kept cmds) : (State.dropEnrol s).kept cmds := by
  unfold State.dropEnrol
  try dsimp only
  repeat' first
    | with_reducible first
      | assumption | apply State.destroySlot_kept | apply State.setFld_kept | apply State.kept_ite
      | refine State.kept_foldl (fun _ _ _ => ?_) ?_ _
    | fail_if_no_progress with_reducible apply State.kept_mk

theorem State.installKeys_kept (s : State) (e : Enrol) (pms : List Byte) (hi : s.kept cmds) : (State.installKeys s e
    pms).kept cmds := by
  unfold State.installKeys
  try dsimp only
  repeat' first
    | with_reducible first
      | assumption | apply State.loadKey_kept | apply State.destroySlot_kept | apply State.setPort_kept
      | apply State.kept_ite | refine State.kept_foldl (fun _ _ _ => ?_) ?_ _
    | with_reducible refine State.kept_snd (by assumption) ?_ | with_reducible refine State.kept_snd2 (by assumption) ?_
    | with_reducible refine State.kept_snd3 (by assumption) ?_ | fail_if_no_progress with_reducible apply State.kept_mk

theorem State.enterParish_kept (s : State) (q : Nat) (hi : s.kept cmds) : (State.enterParish s q).kept cmds := by
  unfold State.enterParish
  try dsimp only
  repeat' first
    | with_reducible first
      | assumption | apply State.setFld_kept | apply State.kept_ite | refine State.kept_foldl (fun _ _ _ => ?_) ?_ _
    | with_reducible refine State.kept_snd (by assumption) ?_ | with_reducible refine State.kept_snd2 (by assumption) ?_
    | with_reducible refine State.kept_snd3 (by assumption) ?_ | fail_if_no_progress with_reducible apply State.kept_mk

theorem State.sealPort_kept (s : State) (p : Nat) (hi : s.kept cmds) : (State.sealPort s p).kept cmds := by
  unfold State.sealPort
  try dsimp only
  repeat' first
    | with_reducible first
      | assumption | apply State.setFld_kept | apply State.setPort_kept | apply State.resealDue_kept | apply State.kept_ite
    | fail_if_no_progress with_reducible apply State.kept_mk

theorem State.parishStart_kept (s : State) (hi : s.kept cmds) : (State.parishStart s).kept cmds := by
  unfold State.parishStart
  try dsimp only
  repeat' first
    | with_reducible first
      | assumption | apply State.dropEnrol_kept | apply State.wr_kept | apply State.setFld_kept
      | apply State.enterParish_kept | apply State.sealPort_kept | apply State.kept_ite
      | refine State.kept_foldl (fun _ _ _ => ?_) ?_ _
    | split | with_reducible refine State.kept_snd (by assumption) ?_
    | with_reducible refine State.kept_snd2 (by assumption) ?_ | with_reducible refine State.kept_snd3 (by assumption) ?_
    | fail_if_no_progress with_reducible apply State.kept_mk

/-! ## The definitions of Machine/Power.lean -/

theorem State.askPower_kept (s : State) (st : Nat) (hi : s.kept cmds) : (State.askPower s st).kept cmds := by
  unfold State.askPower
  try dsimp only
  repeat' first
    | with_reducible first
      | assumption | apply State.kept_ite
    | split | fail_if_no_progress with_reducible apply State.kept_mk

theorem State.goOff_kept (s : State) (error : Bool) (hi : s.kept cmds) : (State.goOff s error).kept cmds := by
  unfold State.goOff
  try dsimp only
  repeat' first
    | with_reducible first
      | assumption | apply State.decideReset_kept | apply State.kept_ite
    | fail_if_no_progress with_reducible apply State.kept_mk

theorem State.applyPower_kept (s : State) (hi : s.kept cmds) : (State.applyPower s).kept cmds := by
  unfold State.applyPower
  try dsimp only
  repeat' first
    | with_reducible first
      | assumption | apply State.setFld_kept | apply State.kept_ite
    | split | with_reducible refine State.kept_snd (by assumption) ?_
    | with_reducible refine State.kept_snd2 (by assumption) ?_ | with_reducible refine State.kept_snd3 (by assumption) ?_
    | fail_if_no_progress with_reducible apply State.kept_mk

theorem State.gateDomain_kept (s : State) (i : Nat) (hi : s.kept cmds) : (State.gateDomain s i).kept cmds := by
  unfold State.gateDomain
  try dsimp only
  repeat' first
    | with_reducible first
      | assumption | apply State.setFld_kept | apply State.openLoop_kept | apply State.kept_ite
    | with_reducible refine State.kept_snd (by assumption) ?_ | with_reducible refine State.kept_snd2 (by assumption) ?_
    | with_reducible refine State.kept_snd3 (by assumption) ?_ | fail_if_no_progress with_reducible apply State.kept_mk

theorem State.ungateDomain_kept (s : State) (i : Nat) (hi : s.kept cmds) : (State.ungateDomain s i).kept cmds := by
  unfold State.ungateDomain
  try dsimp only
  repeat' first
    | with_reducible first
      | assumption | apply State.setFld_kept | apply State.closeLoop_kept | apply State.kept_ite
    | with_reducible refine State.kept_snd (by assumption) ?_ | with_reducible refine State.kept_snd2 (by assumption) ?_
    | with_reducible refine State.kept_snd3 (by assumption) ?_ | fail_if_no_progress with_reducible apply State.kept_mk

theorem State.applyGates_kept (s : State) (v : U64) (hi : s.kept cmds) : (State.applyGates s v).kept cmds := by
  unfold State.applyGates
  try dsimp only
  repeat' first
    | with_reducible first
      | assumption | apply State.raise_kept | apply State.gateDomain_kept | apply State.ungateDomain_kept
      | apply State.wr_kept | apply State.kept_ite | refine State.kept_foldl (fun _ _ _ => ?_) ?_ _
    | with_reducible refine State.kept_snd (by assumption) ?_ | with_reducible refine State.kept_snd2 (by assumption) ?_
    | with_reducible refine State.kept_snd3 (by assumption) ?_ | fail_if_no_progress with_reducible apply State.kept_mk

theorem State.orderVolts_kept (s : State) (step : Nat) (hi : s.kept cmds) : (State.orderVolts s step).kept cmds := by
  unfold State.orderVolts
  try dsimp only
  repeat' first
    | with_reducible first
      | assumption | apply State.send_kept | apply State.kept_ite
    | fail_if_no_progress with_reducible apply State.kept_mk

theorem State.setClock_kept (s : State) (step : Nat) (hi : s.kept cmds) : (State.setClock s step).kept cmds := by
  unfold State.setClock
  try dsimp only
  repeat' first
    | with_reducible first
      | assumption | apply State.setFld_kept | apply State.abandonSlice_kept | apply State.raise_kept
      | apply State.orderVolts_kept | apply State.kept_ite | refine State.kept_foldl (fun _ _ _ => ?_) ?_ _
    | with_reducible refine State.kept_snd (by assumption) ?_ | with_reducible refine State.kept_snd2 (by assumption) ?_
    | with_reducible refine State.kept_snd3 (by assumption) ?_ | fail_if_no_progress with_reducible apply State.kept_mk

theorem State.droopEdge_kept (s : State) (hi : s.kept cmds) : (State.droopEdge s).kept cmds := by
  unfold State.droopEdge
  try dsimp only
  repeat' first
    | with_reducible first
      | assumption | apply State.logCE_kept | apply State.raise_kept | apply State.kept_ite
      | refine State.kept_foldl (fun _ _ _ => ?_) ?_ _
    | with_reducible refine State.kept_snd (by assumption) ?_ | with_reducible refine State.kept_snd2 (by assumption) ?_
    | with_reducible refine State.kept_snd3 (by assumption) ?_ | fail_if_no_progress with_reducible apply State.kept_mk

theorem State.hintEdge_kept (s : State) (p : Nat) (hi : s.kept cmds) : (State.hintEdge s p).kept cmds := by
  unfold State.hintEdge
  try dsimp only
  repeat' first
    | with_reducible first
      | assumption | apply State.target_kept | apply State.send_kept | apply State.kept_ite
      | refine State.kept_foldl (fun _ _ _ => ?_) ?_ _
    | split | with_reducible refine State.kept_snd (by assumption) ?_
    | with_reducible refine State.kept_snd2 (by assumption) ?_ | with_reducible refine State.kept_snd3 (by assumption) ?_
    | fail_if_no_progress with_reducible apply State.kept_mk

theorem State.decideDeg_kept (s : State) (taken : Bool) (hi : s.kept cmds) : (State.decideDeg s taken).kept cmds := by
  unfold State.decideDeg
  try dsimp only
  repeat' first
    | with_reducible first
      | assumption | apply State.raise_kept | apply State.intc_kept | apply State.setFld_kept | apply State.kept_ite
      | refine State.kept_foldl (fun _ _ _ => ?_) ?_ _
    | with_reducible refine State.kept_snd (by assumption) ?_ | with_reducible refine State.kept_snd2 (by assumption) ?_
    | with_reducible refine State.kept_snd3 (by assumption) ?_ | fail_if_no_progress with_reducible apply State.kept_mk

theorem State.reducePower_kept (s : State) (p allow : Nat) (hi : s.kept cmds) : (State.reducePower s p allow).kept cmds := by
  unfold State.reducePower
  try dsimp only
  repeat' first
    | with_reducible first
      | assumption | apply State.setClock_kept | apply State.decideDeg_kept | apply State.raise_kept
      | apply State.setFld_kept | apply State.kept_ite
    | with_reducible refine State.kept_snd (by assumption) ?_ | with_reducible refine State.kept_snd2 (by assumption) ?_
    | with_reducible refine State.kept_snd3 (by assumption) ?_ | fail_if_no_progress with_reducible apply State.kept_mk

theorem State.releasePower_kept (s : State) (p allow : Nat) (cool : Bool) (hi : s.kept cmds) : (State.releasePower s p allow
    cool).kept cmds := by
  unfold State.releasePower
  try dsimp only
  repeat' first
    | with_reducible first
      | assumption | apply State.setClock_kept | apply State.decideDeg_kept | apply State.setFld_kept
      | apply State.orderVolts_kept | apply State.kept_ite
    | split | fail_if_no_progress with_reducible apply State.kept_mk

theorem State.powerEdge_kept (s : State) (p hottest : Nat) (hi : s.kept cmds) : (State.powerEdge s p hottest).kept cmds := by
  unfold State.powerEdge
  try dsimp only
  repeat' first
    | with_reducible first
      | assumption | apply State.applyPower_kept | apply State.setFld_kept | apply State.decideDeg_kept
      | apply State.reducePower_kept | apply State.releasePower_kept | apply State.hintEdge_kept
      | apply State.droopEdge_kept | apply State.kept_ite
    | with_reducible refine State.kept_snd (by assumption) ?_ | with_reducible refine State.kept_snd2 (by assumption) ?_
    | with_reducible refine State.kept_snd3 (by assumption) ?_ | fail_if_no_progress with_reducible apply State.kept_mk

theorem State.takeTemps_kept (s : State) (temps : List Nat) (hi : s.kept cmds) : (State.takeTemps s temps).kept cmds := by
  unfold State.takeTemps
  try dsimp only
  repeat' first
    | with_reducible first
      | assumption | apply State.setFld_kept | apply State.leaveActive_kept | apply State.kept_ite
      | refine State.kept_foldl (fun _ _ _ => ?_) ?_ _
    | with_reducible refine State.kept_snd (by assumption) ?_ | with_reducible refine State.kept_snd2 (by assumption) ?_
    | with_reducible refine State.kept_snd3 (by assumption) ?_ | fail_if_no_progress with_reducible apply State.kept_mk

theorem State.addEnergy_kept (s : State) (k off uj : Nat) (hi : s.kept cmds) : (State.addEnergy s k off uj).kept cmds := by
  unfold State.addEnergy
  try dsimp only
  repeat' first
    | with_reducible first
      | assumption | apply State.wr_kept | apply State.kept_ite
    | with_reducible refine State.kept_snd (by assumption) ?_ | with_reducible refine State.kept_snd2 (by assumption) ?_
    | with_reducible refine State.kept_snd3 (by assumption) ?_ | fail_if_no_progress with_reducible apply State.kept_mk

theorem State.charge_kept (s : State) (fn c uj : Nat) (hi : s.kept cmds) : (State.charge s fn c uj).kept cmds := by
  unfold State.charge
  try dsimp only
  repeat' first
    | with_reducible first
      | assumption | apply State.updCtx_kept | apply State.addEnergy_kept | apply State.kept_ite
    | with_reducible refine State.kept_snd (by assumption) ?_ | with_reducible refine State.kept_snd2 (by assumption) ?_
    | with_reducible refine State.kept_snd3 (by assumption) ?_ | fail_if_no_progress with_reducible apply State.kept_mk

theorem State.sample_kept (s : State) (e : EdgeIn) (hi : s.kept cmds) : (State.sample s e).kept cmds := by
  unfold State.sample
  try dsimp only
  repeat' first
    | with_reducible first
      | assumption | apply State.updCtx_kept | apply State.charge_kept | apply State.addEnergy_kept
      | apply State.satAdd_kept | apply State.setCore_kept | apply State.kept_ite
      | refine State.kept_foldl (fun _ _ _ => ?_) ?_ _
    | split | with_reducible refine State.kept_snd (by assumption) ?_
    | with_reducible refine State.kept_snd2 (by assumption) ?_ | with_reducible refine State.kept_snd3 (by assumption) ?_
    | fail_if_no_progress with_reducible apply State.kept_mk

/-! ## The definitions of Machine/Rotation.lean -/

theorem State.tryStep_kept (s : State) (d : Nat) (hi : s.kept cmds) : (State.tryStep s d).kept cmds := by
  unfold State.tryStep
  try dsimp only
  repeat' first
    | with_reducible first
      | assumption | apply State.setRot_kept | apply State.setFld_kept | apply State.acceptChange_kept
      | apply State.target_kept | apply State.satAdd_kept | apply State.kept_ite
    | split | with_reducible refine State.kept_snd (by assumption) ?_
    | with_reducible refine State.kept_snd2 (by assumption) ?_ | with_reducible refine State.kept_snd3 (by assumption) ?_
    | fail_if_no_progress with_reducible apply State.kept_mk

theorem State.moveOver_kept (s : State) (d : Nat) (hi : s.kept cmds) : (State.moveOver s d).kept cmds := by
  unfold State.moveOver
  try dsimp only
  repeat' first
    | with_reducible first
      | assumption | apply State.setFld_kept | apply State.kept_ite
    | fail_if_no_progress with_reducible apply State.kept_mk

theorem State.rotStep_kept (s : State) (d : Nat) (hi : s.kept cmds) : (State.rotStep s d).kept cmds := by
  unfold State.rotStep
  try dsimp only
  repeat' first
    | with_reducible first
      | assumption | apply State.moveOver_kept | apply State.abandonSlice_kept | apply State.tryStep_kept
      | apply State.kept_ite
    | fail_if_no_progress with_reducible apply State.kept_mk

theorem State.rotEdge_kept (s : State) (hi : s.kept cmds) : (State.rotEdge s).kept cmds := by
  unfold State.rotEdge
  try dsimp only
  repeat' first
    | with_reducible first
      | assumption | apply State.setRot_kept | apply State.rotStep_kept | apply State.kept_ite
      | refine State.kept_foldl (fun _ _ _ => ?_) ?_ _
    | with_reducible refine State.kept_snd (by assumption) ?_ | with_reducible refine State.kept_snd2 (by assumption) ?_
    | with_reducible refine State.kept_snd3 (by assumption) ?_ | fail_if_no_progress with_reducible apply State.kept_mk

theorem State.sliceFailed_kept (s : State) (d : Nat) (hi : s.kept cmds) : (State.sliceFailed s d).kept cmds := by
  unfold State.sliceFailed
  try dsimp only
  repeat' first
    | with_reducible first
      | assumption | apply State.setFld_kept | apply State.satAdd_kept | apply State.raise_kept | apply State.logCE_kept
      | apply State.kept_ite
    | with_reducible refine State.kept_snd (by assumption) ?_ | with_reducible refine State.kept_snd2 (by assumption) ?_
    | with_reducible refine State.kept_snd3 (by assumption) ?_ | fail_if_no_progress with_reducible apply State.kept_mk

/-! ## The definitions of Machine/Windows.lean -/

theorem State.clearFlags_kept (s : State) (fn x : Nat) (fs : List Nat) (h : s.kept cmds) : (s.clearFlags fn x fs).kept cmds := by
  refine State.kept_cnts h ?_
  have key : ∀ (l : List Nat) (t : Tab Byte), t.wf 0 = true →
      Tab.wf 0 (l.foldl (fun (t : Tab Byte) b => t.set 0 (cntKey fn x b) 0) t) = true := by
    intro l
    induction l with
    | nil => exact fun _ ht => ht
    | cons b l ih => exact fun t ht => ih _ (Tab.wf_set _ _ _ ht)
  exact key _ _ h.2.2.2.1

theorem State.clearCounters_kept (s : State) (fn off k n : Nat) (h : s.kept cmds) : (s.clearCounters fn off k n).kept cmds :=
  State.clearFlags_kept _ _ _ _ h

theorem State.unsupported_kept (s : State) (fn off : Nat) (hi : s.kept cmds) : (State.unsupported s fn off).kept cmds := by
  unfold State.unsupported
  try dsimp only
  repeat' first
    | with_reducible first
      | assumption | apply State.send_kept | apply State.kept_ite
    | fail_if_no_progress with_reducible apply State.kept_mk

theorem State.capture_kept (s closed : State) (origin : Nat) (h : s.kept cmds) : (s.capture closed origin).kept cmds := by
  unfold State.capture
  dsimp only
  refine State.snapFlag_kept _ _ (State.kept_foldl (fun _ _ hu => ?_) (State.kept_mk h ..) _)
  exact State.setFld_kept _ _ _ _ _ (State.setFld_kept _ _ _ _ _ (State.setFld_kept _ _ _ _ _ (State.setFld_kept _ _ _ _ _ hu)))

theorem State.ringBells_kept (s closed : State) (h : s.kept cmds) : (s.ringBells closed).kept cmds := by
  unfold State.ringBells
  split
  · exact h
  · have h1 := State.kept_bells h (Nat.le_trans (List.length_filter_le (fun b => !decide (b.target ≤ s.now)) s.bells) h.2.2.2.2.1)
    exact State.kept_ite (State.snapFlag_kept _ _ h1) (State.capture_kept _ _ _ h1)

theorem State.writeSnapCtl_kept (s : State) (fn v : Nat) (hi : s.kept cmds) : (State.writeSnapCtl s fn v).kept cmds := by
  unfold State.writeSnapCtl
  try dsimp only
  repeat' first
    | with_reducible first
      | assumption | apply State.setFld_kept | apply State.partBell_kept | apply State.kept_ite
    | with_reducible refine State.kept_snd (by assumption) ?_ | with_reducible refine State.kept_snd2 (by assumption) ?_
    | with_reducible refine State.kept_snd3 (by assumption) ?_ | fail_if_no_progress with_reducible apply State.kept_mk

/-! ## The definitions of Machine/KeyRoll.lean -/

theorem State.startRoll_kept (s : State) (hi : s.kept cmds) : (State.startRoll s).kept cmds := by
  unfold State.startRoll
  try dsimp only
  repeat' first
    | with_reducible first
      | assumption | apply State.loadKey_kept | apply State.setFld_kept | apply State.kept_ite
      | refine State.kept_foldl (fun _ _ _ => ?_) ?_ _
    | with_reducible refine State.kept_snd (by assumption) ?_ | with_reducible refine State.kept_snd2 (by assumption) ?_
    | with_reducible refine State.kept_snd3 (by assumption) ?_ | fail_if_no_progress with_reducible apply State.kept_mk

theorem State.rollGroup_kept (s : State) (m : Nat) (hi : s.kept cmds) : (State.rollGroup s m).kept cmds := by
  unfold State.rollGroup
  try dsimp only
  repeat' first
    | with_reducible first
      | assumption | apply State.nodeLookup_kept | apply State.writeBack_kept | apply State.setFld_kept
      | apply State.kept_ite
    | with_reducible refine State.kept_snd (by assumption) ?_ | with_reducible refine State.kept_snd2 (by assumption) ?_
    | with_reducible refine State.kept_snd3 (by assumption) ?_ | fail_if_no_progress with_reducible apply State.kept_mk

theorem State.endRoll_kept (s : State) (hi : s.kept cmds) : (State.endRoll s).kept cmds := by
  unfold State.endRoll
  try dsimp only
  repeat' first
    | with_reducible first
      | assumption | apply State.writeBack_kept | apply State.destroySlot_kept | apply State.loadKey_kept
      | apply State.setFld_kept | apply State.modAdd_kept | apply State.raise_kept | apply State.kept_ite
      | refine State.kept_foldl (fun _ _ _ => ?_) ?_ _
    | with_reducible refine State.kept_snd (by assumption) ?_ | with_reducible refine State.kept_snd2 (by assumption) ?_
    | with_reducible refine State.kept_snd3 (by assumption) ?_ | fail_if_no_progress with_reducible apply State.kept_mk

/-! ## The definitions of Machine/RegWrite.lean -/

theorem State.deferReg_kept (s : State) (fn off : Nat) (v mask : U64) (hi : s.kept cmds) : (State.deferReg s fn off v
    mask).kept cmds := by
  unfold State.deferReg
  try dsimp only
  repeat' first
    | with_reducible first
      | assumption | apply State.kept_ite
    | fail_if_no_progress with_reducible apply State.kept_mk

theorem State.applyReg_kept (s : State) (fn off : Nat) (v : U64) (hi : s.kept cmds) : (State.applyReg s fn off v).kept cmds
    := by
  unfold State.applyReg
  try dsimp only
  repeat' first
    | with_reducible first
      | assumption | apply State.applyQ0_kept | apply State.applyQ1_kept | apply State.applyGates_kept | apply State.wr_kept
      | apply State.dropXlat_kept | apply State.drainFaults_kept | apply State.leaveActive_kept | apply State.enterStep_kept
      | apply State.kept_ite | refine State.kept_foldl (fun _ _ _ => ?_) ?_ _
    | with_reducible refine State.kept_snd (by assumption) ?_ | with_reducible refine State.kept_snd2 (by assumption) ?_
    | with_reducible refine State.kept_snd3 (by assumption) ?_ | fail_if_no_progress with_reducible apply State.kept_mk

theorem State.writeRstCtl_kept (s : State) (v : Nat) (hi : s.kept cmds) : (State.writeRstCtl s v).kept cmds := by
  unfold State.writeRstCtl
  try dsimp only
  repeat' first
    | with_reducible first
      | assumption | apply State.forceReset_kept | apply State.decideReset_kept | apply State.kept_ite
    | fail_if_no_progress with_reducible apply State.kept_mk

theorem State.writePwrCtl_kept (s : State) (v : Nat) (hi : s.kept cmds) : (State.writePwrCtl s v).kept cmds := by
  unfold State.writePwrCtl
  try dsimp only
  repeat' first
    | with_reducible first
      | assumption | apply State.goOff_kept | apply State.askPower_kept | apply State.kept_ite
    | fail_if_no_progress with_reducible apply State.kept_mk

theorem State.writeHint_kept (s : State) (v : Nat) (hi : s.kept cmds) : (State.writeHint s v).kept cmds := by
  unfold State.writeHint
  try dsimp only
  repeat' first
    | with_reducible first
      | assumption | apply State.hint_kept | apply State.kept_ite
    | fail_if_no_progress with_reducible apply State.kept_mk

theorem State.writeResume_kept (s : State) (fn v : Nat) (hi : s.kept cmds) : (State.writeResume s fn v).kept cmds := by
  unfold State.writeResume
  try dsimp only
  repeat' first
    | with_reducible first
      | assumption | apply State.retryFault_kept | apply State.abortFault_kept | apply State.kept_ite
    | fail_if_no_progress with_reducible apply State.kept_mk

theorem State.writeView_kept (s : State) (v : Nat) (hi : s.kept cmds) : (State.writeView s v).kept cmds := by
  unfold State.writeView
  try dsimp only
  repeat' first
    | with_reducible first
      | assumption | apply State.latchCounts_kept | apply State.kept_ite
    | fail_if_no_progress with_reducible apply State.kept_mk

theorem State.writeWhole_kept (s : State) (fn off v : Nat) (hi : s.kept cmds) : (State.writeWhole s fn off v).kept cmds := by
  unfold State.writeWhole
  try dsimp only
  repeat' first
    | with_reducible first
      | assumption | apply State.askResume_kept | apply State.writeResume_kept | apply State.fquery_kept
      | apply State.ctxSel_kept | apply State.writeSnapCtl_kept | apply State.writeAttest_kept
      | apply State.writePwrCtl_kept | apply State.writeHint_kept | apply State.xlatInv_kept | apply State.writeRstCtl_kept
      | apply State.setFld_kept | apply State.requestRoll_kept | apply State.kept_ite
    | fail_if_no_progress with_reducible apply State.kept_mk

theorem State.writePlain_kept (s : State) (fn off : Nat) (v mask : U64) (r : RegDef) (hi : s.kept cmds) : (State.writePlain
    s fn off v mask r).kept cmds := by
  unfold State.writePlain
  try dsimp only
  repeat' first
    | with_reducible first
      | assumption | apply State.wr_kept | apply State.writeQ0_kept | apply State.writeQ1_kept | apply State.msiFlush_kept
      | apply State.drainFaults_kept | apply State.kept_ite
    | with_reducible refine State.kept_snd (by assumption) ?_ | with_reducible refine State.kept_snd2 (by assumption) ?_
    | with_reducible refine State.kept_snd3 (by assumption) ?_ | fail_if_no_progress with_reducible apply State.kept_mk

theorem State.writeReg_kept (s : State) (fn off : Nat) (wide : Bool) (v : U64) (hi : s.kept cmds) : (State.writeReg s fn off
    wide v).kept cmds := by
  unfold State.writeReg
  try dsimp only
  repeat' first
    | with_reducible first
      | assumption | apply State.writeView_kept | apply State.writeWhole_kept | apply State.writePlain_kept
      | apply State.kept_ite
    | split | with_reducible refine State.kept_snd (by assumption) ?_
    | with_reducible refine State.kept_snd2 (by assumption) ?_ | with_reducible refine State.kept_snd3 (by assumption) ?_
    | fail_if_no_progress with_reducible apply State.kept_mk

theorem State.writeBeatCfg_kept (s : State) (v : Nat) (hi : s.kept cmds) : (State.writeBeatCfg s v).kept cmds := by
  unfold State.writeBeatCfg
  try dsimp only
  repeat' first
    | with_reducible first
      | assumption | apply State.setFld_kept | apply State.kept_ite
    | with_reducible refine State.kept_snd (by assumption) ?_ | with_reducible refine State.kept_snd2 (by assumption) ?_
    | with_reducible refine State.kept_snd3 (by assumption) ?_ | fail_if_no_progress with_reducible apply State.kept_mk

theorem State.writePcfg_kept (s : State) (p v : Nat) (hi : s.kept cmds) : (State.writePcfg s p v).kept cmds := by
  unfold State.writePcfg
  try dsimp only
  repeat' first
    | with_reducible first
      | assumption | apply State.setFld_kept | apply State.dropPort_kept | apply State.setPort_kept
      | apply State.tryTrain_kept | apply State.kept_ite
    | with_reducible refine State.kept_snd (by assumption) ?_ | with_reducible refine State.kept_snd2 (by assumption) ?_
    | with_reducible refine State.kept_snd3 (by assumption) ?_ | fail_if_no_progress with_reducible apply State.kept_mk

theorem State.writeInlet_kept (s : State) (n v : Nat) (hi : s.kept cmds) : (State.writeInlet s n v).kept cmds := by
  unfold State.writeInlet
  try dsimp only
  repeat' first
    | with_reducible first
      | assumption | apply State.setFld_kept | apply State.closeLoop_kept | apply State.openLoop_kept | apply State.kept_ite
    | with_reducible refine State.kept_snd (by assumption) ?_ | with_reducible refine State.kept_snd2 (by assumption) ?_
    | with_reducible refine State.kept_snd3 (by assumption) ?_ | fail_if_no_progress with_reducible apply State.kept_mk

theorem State.writeConfig_kept (s : State) (off : Nat) (v : U64) (hi : s.kept cmds) : (State.writeConfig s off v).kept cmds
    := by
  unfold State.writeConfig
  try dsimp only
  repeat' first
    | with_reducible first
      | assumption | apply State.writeBeatCfg_kept | apply State.wr_kept | apply State.writePcfg_kept
      | apply State.writeInlet_kept | apply State.deferReg_kept | apply State.kept_ite
    | split | with_reducible refine State.kept_snd (by assumption) ?_
    | with_reducible refine State.kept_snd2 (by assumption) ?_ | with_reducible refine State.kept_snd3 (by assumption) ?_
    | fail_if_no_progress with_reducible apply State.kept_mk

/-! ## The definitions of Machine/Boot.lean -/

theorem State.clearBit_kept (s : State) (off b : Nat) (hi : s.kept cmds) : (State.clearBit s off b).kept cmds := by
  unfold State.clearBit
  try dsimp only
  repeat' first
    | with_reducible first
      | assumption | apply State.setFld_kept | apply State.kept_ite
    | with_reducible refine State.kept_snd (by assumption) ?_ | with_reducible refine State.kept_snd2 (by assumption) ?_
    | with_reducible refine State.kept_snd3 (by assumption) ?_ | fail_if_no_progress with_reducible apply State.kept_mk

theorem State.markUnit_kept (s : State) (u : Nat) (hi : s.kept cmds) : (State.markUnit s u).kept cmds := by
  unfold State.markUnit
  try dsimp only
  repeat' first
    | with_reducible first
      | assumption | apply State.setFld_kept | apply State.clearBit_kept | apply State.kept_ite
      | refine State.kept_foldl (fun _ _ _ => ?_) ?_ _
    | with_reducible refine State.kept_snd (by assumption) ?_ | with_reducible refine State.kept_snd2 (by assumption) ?_
    | with_reducible refine State.kept_snd3 (by assumption) ?_ | fail_if_no_progress with_reducible apply State.kept_mk

theorem State.recordFail_kept (s : State) (step u : Nat) (hi : s.kept cmds) : (State.recordFail s step u).kept cmds := by
  unfold State.recordFail
  try dsimp only
  repeat' first
    | with_reducible first
      | assumption | apply State.setFld_kept | apply State.kept_ite
    | fail_if_no_progress with_reducible apply State.kept_mk

theorem State.logMarks_kept (s : State) (hi : s.kept cmds) : (State.logMarks s).kept cmds := by
  unfold State.logMarks
  try dsimp only
  repeat' first
    | with_reducible first
      | assumption | apply State.logErr_kept | apply State.kept_ite | refine State.kept_foldl (fun _ _ _ => ?_) ?_ _
    | with_reducible refine State.kept_snd (by assumption) ?_ | with_reducible refine State.kept_snd2 (by assumption) ?_
    | with_reducible refine State.kept_snd3 (by assumption) ?_ | fail_if_no_progress with_reducible apply State.kept_mk

theorem State.bootDone_kept (s : State) (step : Nat) (hi : s.kept cmds) : (State.bootDone s step).kept cmds := by
  unfold State.bootDone
  try dsimp only
  repeat' first
    | with_reducible first
      | assumption | apply State.done_kept | apply State.setFld_kept | apply State.kept_ite
    | fail_if_no_progress with_reducible apply State.kept_mk

theorem State.bootStop_kept (s : State) (stop : Nat) (hi : s.kept cmds) : (State.bootStop s stop).kept cmds := by
  unfold State.bootStop
  try dsimp only
  repeat' first
    | with_reducible first
      | assumption | apply State.logMarks_kept | apply State.flushLog_kept | apply State.kept_ite
    | fail_if_no_progress with_reducible apply State.kept_mk

theorem State.bootConfig_kept (s : State) (off : Nat) (v : U64) (hi : s.kept cmds) : (State.bootConfig s off v).kept cmds :=
    by
  unfold State.bootConfig
  try dsimp only
  repeat' first
    | with_reducible first
      | assumption | apply State.wr_kept | apply State.kept_ite
    | with_reducible refine State.kept_snd (by assumption) ?_ | with_reducible refine State.kept_snd2 (by assumption) ?_
    | with_reducible refine State.kept_snd3 (by assumption) ?_ | fail_if_no_progress with_reducible apply State.kept_mk

theorem State.enableOptics_kept (s : State) (hi : s.kept cmds) : (State.enableOptics s).kept cmds := by
  unfold State.enableOptics
  try dsimp only
  repeat' first
    | with_reducible first
      | assumption | apply State.done_kept | apply State.closeLoop_kept | apply State.kept_ite
      | refine State.kept_foldl (fun _ _ _ => ?_) ?_ _
    | fail_if_no_progress with_reducible apply State.kept_mk

theorem State.bootRom_kept (s : State) (hi : s.kept cmds) : (State.bootRom s).kept cmds := by
  unfold State.bootRom
  try dsimp only
  repeat' first
    | with_reducible first
      | assumption | apply State.satAdd_kept | apply State.setFault_kept | apply State.bootStop_kept | apply State.kept_ite
    | fail_if_no_progress with_reducible apply State.kept_mk

theorem State.bootImages_kept (s : State) (r : BootResult) (hi : s.kept cmds) : (State.bootImages s r).kept cmds := by
  unfold State.bootImages
  try dsimp only
  repeat' first
    | with_reducible first
      | assumption | apply State.setFld_kept | apply State.kept_ite
    | with_reducible refine State.kept_snd (by assumption) ?_ | with_reducible refine State.kept_snd2 (by assumption) ?_
    | with_reducible refine State.kept_snd3 (by assumption) ?_ | fail_if_no_progress with_reducible apply State.kept_mk

theorem State.train_kept (s : State) (tier2 : Bool) (best : List Nat) (hi : s.kept cmds) : (State.train s tier2 best).kept
    cmds := by
  unfold State.train
  try dsimp only
  repeat' first
    | with_reducible first
      | assumption | apply State.recordFail_kept | apply State.markUnit_kept | apply State.setFld_kept
      | apply State.kept_ite | refine State.kept_foldl (fun _ _ _ => ?_) ?_ _
    | split | with_reducible refine State.kept_snd (by assumption) ?_
    | with_reducible refine State.kept_snd2 (by assumption) ?_ | with_reducible refine State.kept_snd3 (by assumption) ?_
    | fail_if_no_progress with_reducible apply State.kept_mk

theorem State.bootEffect_kept (s : State) (step : Nat) (r : BootResult) (hi : s.kept cmds) : (State.bootEffect s step
    r).kept cmds := by
  unfold State.bootEffect
  try dsimp only
  repeat' first
    | with_reducible first
      | assumption | apply State.send_kept | apply State.bootRom_kept | apply State.bootImages_kept
      | apply State.bootConfig_kept | apply State.enableOptics_kept | apply State.wr_kept | apply State.setFld_kept
      | apply State.setRot_kept | apply State.train_kept | apply State.loadKey_kept | apply State.kept_ite
      | refine State.kept_foldl (fun _ _ _ => ?_) ?_ _
    | with_reducible refine State.kept_snd (by assumption) ?_ | with_reducible refine State.kept_snd2 (by assumption) ?_
    | with_reducible refine State.kept_snd3 (by assumption) ?_ | fail_if_no_progress with_reducible apply State.kept_mk

theorem State.release_kept (s : State) (hi : s.kept cmds) : (State.release s).kept cmds := by
  unfold State.release
  try dsimp only
  repeat' first
    | with_reducible first
      | assumption | apply State.renumber_kept | apply State.setFld_kept | apply State.setRot_kept | apply State.send_kept
      | apply State.logMarks_kept | apply State.startLife_kept | apply State.kept_ite
      | refine State.kept_foldl (fun _ _ _ => ?_) ?_ _
    | with_reducible refine State.kept_snd (by assumption) ?_ | with_reducible refine State.kept_snd2 (by assumption) ?_
    | with_reducible refine State.kept_snd3 (by assumption) ?_ | fail_if_no_progress with_reducible apply State.kept_mk

theorem State.reachRelease_kept (s : State) (ms : Nat) (hi : s.kept cmds) : (State.reachRelease s ms).kept cmds := by
  unfold State.reachRelease
  try dsimp only
  repeat' first
    | with_reducible first
      | assumption | apply State.setFld_kept | apply State.release_kept | apply State.kept_ite
    | with_reducible refine State.kept_snd (by assumption) ?_ | with_reducible refine State.kept_snd2 (by assumption) ?_
    | with_reducible refine State.kept_snd3 (by assumption) ?_ | fail_if_no_progress with_reducible apply State.kept_mk

theorem State.imagesFailed_kept (s : State) (bad : BitVec 8) (hi : s.kept cmds) : (State.imagesFailed s bad).kept cmds := by
  unfold State.imagesFailed
  try dsimp only
  repeat' first
    | with_reducible first
      | assumption | apply State.recordFail_kept | apply State.setFault_kept | apply State.bootStop_kept
      | apply State.bootDone_kept | apply State.bootConfig_kept | apply State.kept_ite
      | refine State.kept_foldl (fun _ _ _ => ?_) ?_ _
    | with_reducible refine State.kept_snd (by assumption) ?_ | with_reducible refine State.kept_snd2 (by assumption) ?_
    | with_reducible refine State.kept_snd3 (by assumption) ?_ | fail_if_no_progress with_reducible apply State.kept_mk

theorem State.flr_kept (s : State) (fn : Nat) (hi : s.kept cmds) : (State.flr s fn).kept cmds := by
  unfold State.flr
  try dsimp only
  repeat' first
    | with_reducible first
      | assumption | apply State.setAts_kept | apply State.resetErrl_kept | apply State.decideReset_kept
      | apply State.kept_ite
    | fail_if_no_progress with_reducible apply State.kept_mk

theorem State.configure_kept (s : State) (fn : Nat) (r : CfgReq) (hi : s.kept cmds) : (State.configure s fn r).kept cmds := by
  unfold State.configure
  try dsimp only
  repeat' first
    | with_reducible first
      | assumption | apply State.send_kept | apply State.setCfg_kept | apply State.setAts_kept | apply State.msiFlush_kept
      | apply State.flr_kept | apply State.kept_ite
    | split | with_reducible refine State.kept_snd (by assumption) ?_
    | with_reducible refine State.kept_snd2 (by assumption) ?_ | with_reducible refine State.kept_snd3 (by assumption) ?_
    | fail_if_no_progress with_reducible apply State.kept_mk

theorem State.releaseFault_kept (s : State) (hi : s.kept cmds) : (State.releaseFault s).kept cmds := by
  unfold State.releaseFault
  try dsimp only
  repeat' first
    | with_reducible first
      | assumption | apply State.send_kept | apply State.kept_ite
    | fail_if_no_progress with_reducible apply State.kept_mk

theorem State.pmStatus_kept (s : State) (b : Nat) (hi : s.kept cmds) : (State.pmStatus s b).kept cmds := by
  unfold State.pmStatus
  try dsimp only
  repeat' first
    | with_reducible first
      | assumption | apply State.send_kept | apply State.kept_ite
    | fail_if_no_progress with_reducible apply State.kept_mk

theorem State.pmAnswer_kept (s : State) (code v : Nat) (hi : s.kept cmds) : (State.pmAnswer s code v).kept cmds := by
  unfold State.pmAnswer
  try dsimp only
  repeat' first
    | with_reducible first
      | assumption | apply State.send_kept | apply State.kept_ite
    | fail_if_no_progress with_reducible apply State.kept_mk

theorem State.modEdge_kept (s : State) (e : EdgeIn) (hi : s.kept cmds) : (State.modEdge s e).kept cmds := by
  unfold State.modEdge
  try dsimp only
  repeat' first
    | with_reducible first
      | assumption | apply State.setFld_kept | apply State.raise_kept | apply State.logCE_kept | apply State.pmStatus_kept
      | apply State.kept_ite
    | with_reducible refine State.kept_snd (by assumption) ?_ | with_reducible refine State.kept_snd2 (by assumption) ?_
    | with_reducible refine State.kept_snd3 (by assumption) ?_ | fail_if_no_progress with_reducible apply State.kept_mk

/-! ## The definitions of Machine/Manage.lean -/

theorem State.spdm_kept (s : State) (code : Nat) (body : Option (List Byte)) (hi : s.kept cmds) : (State.spdm s code
    body).kept cmds := by
  unfold State.spdm
  try dsimp only
  repeat' first
    | with_reducible first
      | assumption | apply State.send_kept | apply State.kept_ite
    | split | fail_if_no_progress with_reducible apply State.kept_mk

theorem State.telemetry_kept (s : State) (i : Nat) (hi : s.kept cmds) : (State.telemetry s i).kept cmds := by
  unfold State.telemetry
  try dsimp only
  repeat' first
    | with_reducible first
      | assumption | apply State.updSession_kept | apply State.send_kept | apply State.kept_ite
    | split | with_reducible refine State.kept_snd (by assumption) ?_
    | with_reducible refine State.kept_snd2 (by assumption) ?_ | with_reducible refine State.kept_snd3 (by assumption) ?_
    | fail_if_no_progress with_reducible apply State.kept_mk

theorem State.telemetryAll_kept (s : State) (hi : s.kept cmds) : (State.telemetryAll s).kept cmds := by
  unfold State.telemetryAll
  try dsimp only
  repeat' first
    | with_reducible first
      | assumption | apply State.telemetry_kept | apply State.kept_ite | refine State.kept_foldl (fun _ _ _ => ?_) ?_ _
    | fail_if_no_progress with_reducible apply State.kept_mk

end Sys2Proof.Machine
end

