-- ==== Sys2Proof/Laws/KeepsEdge.lean ====
section
/-! SUPPORT. The canonical form of the state (State.kept) is kept by every operation of the model that gives a state: the beat
edge and the rest.
One lemma for each, to be cited in place of unfolding it. -/

set_option linter.unusedTactic false
set_option linter.unreachableTactic false

namespace Sys2Proof.Machine

open Sys2Proof

variable {cmds : List Instr}

/-! ## The definitions of Machine/Edge.lean -/

theorem State.each_kept (s : State) (n : Nat) (f : State → Nat → State) (hi : s.kept cmds) (hf_f : ∀ t a, State.kept cmds t
    → State.kept cmds (f t a)) : (State.each s n f).kept cmds := by
  unfold State.each
  try dsimp only
  repeat' first
    | with_reducible first
      | assumption | apply hf_f | apply State.kept_ite | refine State.kept_foldl (fun _ _ _ => ?_) ?_ _
    | fail_if_no_progress with_reducible apply State.kept_mk

theorem State.kept_each {f : State → Nat → State} (hf : ∀ s x, s.kept cmds → (f s x).kept cmds) {s : State} (h : s.kept cmds)
    (n : Nat) :
    (s.each n f).kept cmds :=
  State.kept_foldl hf h _

theorem State.newVersion_kept (s : State) (fn g : Nat) (hi : s.kept cmds) : (State.newVersion s fn g).kept cmds := by
  unfold State.newVersion
  try dsimp only
  repeat' first
    | with_reducible first
      | assumption | apply State.kept_ite
    | split | with_reducible refine State.kept_snd (by assumption) ?_
    | with_reducible refine State.kept_snd2 (by assumption) ?_ | with_reducible refine State.kept_snd3 (by assumption) ?_
    | fail_if_no_progress with_reducible apply State.kept_mk

theorem State.applyOne_kept (s : State) (d : Deferred) (h : s.kept cmds) : (s.applyOne d).kept cmds := by
  cases d with
  | reg fn off v => exact State.applyReg_kept _ _ _ _ h
  | seq slot fn ctx tokens first pages q sq g =>
    unfold State.applyOne
    dsimp only
    split
    · next e => exact State.finish_kept _ _ _ _ _ _ _ _ (State.seqApply_kept e h)
    · exact State.failedRead_kept _ _ _ _ h
  | graph fn g q sq => exact State.finish_kept _ _ _ _ _ _ _ _ (State.newVersion_kept _ _ _ h)
  | queueOff fn q => exact State.queueOff_kept _ _ _ h
  | sieve fn t v => exact State.setSieve_kept _ _ _ _ h
  | done fn q sq g st => exact State.finish_kept _ _ _ _ _ _ _ _ h
  | power n => exact h
  | beatLen len => exact State.setFld_kept _ _ _ _ _ h
  | halt => exact State.halt_kept _ h

theorem State.applyDeferred_kept (s : State) (hi : s.kept cmds) : (State.applyDeferred s).kept cmds := by
  unfold State.applyDeferred
  try dsimp only
  repeat' first
    | with_reducible first
      | assumption | apply State.applyOne_kept | apply State.kept_ite | refine State.kept_foldl (fun _ _ _ => ?_) ?_ _
    | fail_if_no_progress with_reducible apply State.kept_mk

theorem State.applyLate_kept (s : State) (hi : s.kept cmds) : (State.applyLate s).kept cmds := by
  unfold State.applyLate
  try dsimp only
  repeat' first
    | with_reducible first
      | assumption | apply State.applyOne_kept | apply State.kept_ite | refine State.kept_foldl (fun _ _ _ => ?_) ?_ _
    | split | with_reducible refine State.kept_snd (by assumption) ?_
    | with_reducible refine State.kept_snd2 (by assumption) ?_ | with_reducible refine State.kept_snd3 (by assumption) ?_
    | fail_if_no_progress with_reducible apply State.kept_mk

theorem State.takeOptics_kept (s : State) (l : List (Nat × U64)) (hi : s.kept cmds) : (State.takeOptics s l).kept cmds := by
  unfold State.takeOptics
  try dsimp only
  repeat' first
    | with_reducible first
      | assumption | apply State.wr_kept | apply State.kept_ite | refine State.kept_foldl (fun _ _ _ => ?_) ?_ _
    | with_reducible refine State.kept_snd (by assumption) ?_ | with_reducible refine State.kept_snd2 (by assumption) ?_
    | with_reducible refine State.kept_snd3 (by assumption) ?_ | fail_if_no_progress with_reducible apply State.kept_mk

theorem State.edgeSample_kept (s : State) (e : EdgeIn) (hi : s.kept cmds) : (State.edgeSample s e).kept cmds := by
  unfold State.edgeSample
  try dsimp only
  repeat' first
    | with_reducible first
      | assumption | apply State.sample_kept | apply State.takeTemps_kept | apply State.each_kept
      | apply State.noteTemp_kept | apply State.qosStep_kept | apply State.takeOptics_kept | apply State.modEdge_kept
      | apply State.telemetryAll_kept | apply State.kept_ite | refine State.kept_each (fun _ _ _ => ?_) ?_ _
    | with_reducible refine State.kept_snd (by assumption) ?_ | with_reducible refine State.kept_snd2 (by assumption) ?_
    | with_reducible refine State.kept_snd3 (by assumption) ?_ | exact fun _ h => h | intro _ _ _ | intro _ _
    | fail_if_no_progress with_reducible apply State.kept_mk

theorem State.progEdge_kept (s : State) (closed n : Nat) (hi : s.kept cmds) : (State.progEdge s closed n).kept cmds := by
  unfold State.progEdge
  try dsimp only
  repeat' first
    | with_reducible first
      | assumption | apply State.setFld_kept | apply State.setCore_kept | apply State.kept_ite
    | with_reducible refine State.kept_snd (by assumption) ?_ | with_reducible refine State.kept_snd2 (by assumption) ?_
    | with_reducible refine State.kept_snd3 (by assumption) ?_ | fail_if_no_progress with_reducible apply State.kept_mk

theorem State.edgeWatch_kept (s closed : State) (hi0 : s.kept cmds) (hi1 : closed.kept cmds) : (State.edgeWatch s
    closed).kept cmds := by
  unfold State.edgeWatch
  try dsimp only
  repeat' first
    | with_reducible first
      | assumption | apply State.watch_kept | apply State.expireAll_kept | apply State.each_kept | apply State.progEdge_kept
      | apply State.kept_ite | refine State.kept_each (fun _ _ _ => ?_) ?_ _
    | exact fun _ h => h | intro _ _ _ | intro _ _ | fail_if_no_progress with_reducible apply State.kept_mk

theorem State.drainResets_kept (s : State) (hi : s.kept cmds) : (State.drainResets s).kept cmds := by
  unfold State.drainResets
  try dsimp only
  repeat' first
    | with_reducible first
      | assumption | apply State.resetDrain_kept | apply State.kept_ite | refine State.kept_foldl (fun _ _ _ => ?_) ?_ _
    | fail_if_no_progress with_reducible apply State.kept_mk

theorem State.edgeResets_kept (s : State) (hi : s.kept cmds) : (State.edgeResets s).kept cmds := by
  unfold State.edgeResets
  try dsimp only
  repeat' first
    | with_reducible first
      | assumption | apply State.applyResumes_kept | apply State.applyDeferred_kept | apply State.parishEnded_kept
      | apply State.shutterAll_kept | apply State.endResets_kept | apply State.drainResets_kept
      | apply State.startAborts_kept | apply State.expireHold_kept | apply State.overdueDestroys_kept
      | apply State.startDestroys_kept | apply State.dropFailed_kept | apply State.each_kept | apply State.limitDrain_kept
      | apply State.retryReplace_kept | apply State.drainIfDone_kept | apply State.shutterDue_kept | apply State.kept_ite
      | refine State.kept_foldl (fun _ _ _ => ?_) ?_ _ | refine State.kept_each (fun _ _ _ => ?_) ?_ _
    | with_reducible refine State.kept_snd (by assumption) ?_ | with_reducible refine State.kept_snd2 (by assumption) ?_
    | with_reducible refine State.kept_snd3 (by assumption) ?_ | exact fun _ h => h | intro _ _ _ | intro _ _
    | fail_if_no_progress with_reducible apply State.kept_mk

theorem State.edgeUnits_kept (s : State) (hi : s.kept cmds) : (State.edgeUnits s).kept cmds := by
  unfold State.edgeUnits
  try dsimp only
  repeat' first
    | with_reducible first
      | assumption | apply State.each_kept | apply State.throttle_kept | apply State.restartUnit_kept | apply State.kept_ite
      | refine State.kept_each (fun _ _ _ => ?_) ?_ _
    | exact fun _ h => h | intro _ _ _ | intro _ _ | fail_if_no_progress with_reducible apply State.kept_mk

theorem State.edgePower_kept (s : State) (e : EdgeIn) (hi : s.kept cmds) : (State.edgePower s e).kept cmds := by
  unfold State.edgePower
  try dsimp only
  repeat' first
    | with_reducible first
      | assumption | apply State.edgeUnits_kept | apply State.applyLate_kept | apply State.powerEdge_kept
      | apply State.kept_ite | refine State.kept_foldl (fun _ _ _ => ?_) ?_ _
    | with_reducible refine State.kept_snd (by assumption) ?_ | with_reducible refine State.kept_snd2 (by assumption) ?_
    | with_reducible refine State.kept_snd3 (by assumption) ?_ | fail_if_no_progress with_reducible apply State.kept_mk

theorem State.edgeCompose_kept (s : State) (e : EdgeIn) (hi : s.kept cmds) : (State.edgeCompose s e).kept cmds := by
  unfold State.edgeCompose
  try dsimp only
  repeat' first
    | with_reducible first
      | assumption | apply State.each_kept | apply State.freeWiped_kept | apply State.drainIfDone_kept
      | apply State.endChanges_kept | apply State.considerAll_kept | apply State.parishStart_kept | apply State.rotEdge_kept
      | apply State.startRoll_kept | apply State.kept_ite | refine State.kept_each (fun _ _ _ => ?_) ?_ _
    | with_reducible refine State.kept_snd (by assumption) ?_ | with_reducible refine State.kept_snd2 (by assumption) ?_
    | with_reducible refine State.kept_snd3 (by assumption) ?_ | exact fun _ h => h | intro _ _ _ | intro _ _
    | fail_if_no_progress with_reducible apply State.kept_mk

theorem State.startBlock_kept (s : State) (n : Nat) (hi : s.kept cmds) : (State.startBlock s n).kept cmds := by
  unfold State.startBlock
  try dsimp only
  repeat' first
    | with_reducible first
      | assumption | apply State.setCore_kept | apply State.kept_ite
    | fail_if_no_progress with_reducible apply State.kept_mk

theorem State.edgeBlocks_kept (s : State) (hi : s.kept cmds) : (State.edgeBlocks s).kept cmds := by
  unfold State.edgeBlocks
  try dsimp only
  repeat' first
    | with_reducible first
      | assumption | apply State.each_kept | apply State.startBlock_kept | apply State.launchCore_kept
      | apply State.startPreload_kept | apply State.kept_ite | refine State.kept_each (fun _ _ _ => ?_) ?_ _
    | exact fun _ h => h | intro _ _ _ | intro _ _ | fail_if_no_progress with_reducible apply State.kept_mk

theorem State.forgetLeft_kept (s : State) (hi : s.kept cmds) : (State.forgetLeft s).kept cmds := by
  unfold State.forgetLeft
  try dsimp only
  repeat' first
    | with_reducible first
      | assumption | apply State.kept_ite
    | with_reducible refine State.kept_snd (by assumption) ?_ | with_reducible refine State.kept_snd2 (by assumption) ?_
    | with_reducible refine State.kept_snd3 (by assumption) ?_ | fail_if_no_progress with_reducible apply State.kept_mk

theorem State.edgeStarts_kept (s : State) (hi : s.kept cmds) : (State.edgeStarts s).kept cmds := by
  unfold State.edgeStarts
  try dsimp only
  repeat' first
    | with_reducible first
      | assumption | apply State.each_kept | apply State.schedBeatEnd_kept | apply State.schedEdge_kept
      | apply State.switchEdge_kept | apply State.checkSave_kept | apply State.startAll_kept | apply State.edgeBlocks_kept
      | apply State.sweep_kept | apply State.completeEnded_kept | apply State.kept_ite
      | refine State.kept_each (fun _ _ _ => ?_) ?_ _
    | with_reducible refine State.kept_snd (by assumption) ?_ | with_reducible refine State.kept_snd2 (by assumption) ?_
    | with_reducible refine State.kept_snd3 (by assumption) ?_ | exact fun _ h => h | intro _ _ _ | intro _ _
    | fail_if_no_progress with_reducible apply State.kept_mk

theorem State.reapReads_kept (s : State) (hi : s.kept cmds) : (State.reapReads s).kept cmds := by
  unfold State.reapReads
  try dsimp only
  repeat' first
    | with_reducible first
      | assumption | apply State.answer_kept | apply State.kept_ite
    | fail_if_no_progress with_reducible apply State.kept_mk

theorem State.edge_kept (s : State) (e : EdgeIn) (hi : s.kept cmds) : (State.edge s e).kept cmds := by
  unfold State.edge
  try dsimp only
  repeat' first
    | with_reducible first
      | assumption | apply State.flushUnits_kept | apply State.noteRoutes_kept | apply State.beatPart_kept
      | apply State.latchSections_kept | apply State.ringBells_kept | apply State.edgeSample_kept
      | apply State.edgeWatch_kept | apply State.each_kept | apply State.markLate_kept | apply State.lateEvent_kept
      | apply State.edgeResets_kept | apply State.edgePower_kept | apply State.edgeCompose_kept
      | apply State.edgeStarts_kept | apply State.reapReads_kept | apply State.forgetLeft_kept | apply State.kept_ite
      | refine State.kept_each (fun _ _ _ => ?_) ?_ _
    | with_reducible refine State.kept_snd (by assumption) ?_ | with_reducible refine State.kept_snd2 (by assumption) ?_
    | with_reducible refine State.kept_snd3 (by assumption) ?_ | exact fun _ h => h | intro _ _ _ | intro _ _
    | fail_if_no_progress with_reducible apply State.kept_mk

/-! ## The definitions of Machine/Vector.lean -/

theorem State.kept_vIssue (x : Slot) (op : Nat) (ok : Bool) (s : State) (hi : s.kept cmds) : (vIssue x op ok s).kept cmds :=
    by
  unfold vIssue
  try dsimp only
  repeat' first
    | with_reducible first
      | assumption | apply State.issue_kept | apply State.kept_ite
    | fail_if_no_progress with_reducible apply State.kept_mk

theorem State.kept_vMemIssue (x : Slot) (op : Nat) (store : Bool) (s : State) (hi : s.kept cmds) : (vMemIssue x op store
    s).kept cmds := by
  unfold vMemIssue
  try dsimp only
  repeat' first
    | with_reducible first
      | assumption | apply State.issue_kept | apply State.kept_ite
    | split | with_reducible refine State.kept_snd (by assumption) ?_
    | with_reducible refine State.kept_snd2 (by assumption) ?_ | with_reducible refine State.kept_snd3 (by assumption) ?_
    | fail_if_no_progress with_reducible apply State.kept_mk

end Sys2Proof.Machine
end

