-- ==== Sys2Proof/Laws/Registers.lean ====
section
/-! SUPPORT. What a field of a register reads as after a field of the same function is written. -/

namespace Sys2Proof.Machine

open Sys2Proof

theorem bits_mod {n lo w k : Nat} (h : lo + w ≤ k) : bits (n % 2 ^ k) lo w = bits n lo w := by
  unfold bits
  rw [← Nat.add_sub_cancel' (Nat.le_trans (Nat.le_add_right lo w) h), Nat.pow_add, Nat.mod_mul_right_div_self]
  exact Nat.mod_mod_of_dvd _ (Nat.pow_dvd_pow 2 (by omega))

/-- A field that was put reads as its value's low bits. -/
theorem bits_putBits (n lo w v : Nat) : bits (putBits n lo w v) lo w = v % 2 ^ w := by
  unfold bits putBits
  have h0 : n % 2 ^ lo < 2 ^ lo := Nat.mod_lt _ (Nat.two_pow_pos lo)
  have : n % 2 ^ lo + v % 2 ^ w * 2 ^ lo + n / 2 ^ (lo + w) * 2 ^ (lo + w) =
      n % 2 ^ lo + (v % 2 ^ w + n / 2 ^ (lo + w) * 2 ^ w) * 2 ^ lo := by rw [Nat.pow_add]; ring
  rw [this, Nat.add_mul_div_right _ _ (Nat.two_pow_pos lo), Nat.div_eq_of_lt h0, Nat.zero_add, Nat.add_mul_mod_self_right,
    Nat.mod_mod]

/-- A field below or above the one that was put reads as before. -/
theorem bits_putBits_other {n lo w v lo' w' : Nat} (h : lo' + w' ≤ lo ∨ lo + w ≤ lo') :
    bits (putBits n lo w v) lo' w' = bits n lo' w' := by
  rcases h with h | h
  · rw [← bits_mod h, ← bits_mod (n := n) h]
    congr 1
    unfold putBits
    have : n % 2 ^ lo + v % 2 ^ w * 2 ^ lo + n / 2 ^ (lo + w) * 2 ^ (lo + w) =
        n % 2 ^ lo + (v % 2 ^ w + n / 2 ^ (lo + w) * 2 ^ w) * 2 ^ lo := by rw [Nat.pow_add]; ring
    rw [this, Nat.add_mul_mod_self_right, Nat.mod_mod]
  · unfold bits
    obtain ⟨d, rfl⟩ := Nat.exists_eq_add_of_le h
    rw [Nat.pow_add, ← Nat.div_div_eq_div_mul, ← Nat.div_div_eq_div_mul]
    congr 2
    unfold putBits
    have h1 : n % 2 ^ lo + v % 2 ^ w * 2 ^ lo < 2 ^ (lo + w) := by
      have h2 : n % 2 ^ lo < 2 ^ lo := Nat.mod_lt _ (Nat.two_pow_pos lo)
      have h3 : v % 2 ^ w < 2 ^ w := Nat.mod_lt _ (Nat.two_pow_pos w)
      calc n % 2 ^ lo + v % 2 ^ w * 2 ^ lo < 2 ^ lo + v % 2 ^ w * 2 ^ lo := by omega
        _ = (v % 2 ^ w + 1) * 2 ^ lo := by ring
        _ ≤ 2 ^ w * 2 ^ lo := Nat.mul_le_mul_right _ h3
        _ = 2 ^ (lo + w) := by rw [Nat.pow_add]; ring
    rw [Nat.add_mul_div_right _ _ (Nat.two_pow_pos _), Nat.div_eq_of_lt h1, Nat.zero_add]

theorem State.wr_rising {s : State} (fn off : Nat) (v : U64) (h : s.regs.rising = true) : (s.wr fn off v).regs.rising = true :=
  Tab.rising_set _ _ _ h

theorem State.setFld_rising {s : State} (fn i : Nat) (f : Fld) (v : Nat) (h : s.regs.rising = true) :
    (s.setFld fn i f v).regs.rising = true := State.wr_rising _ _ _ h

/-- A register that was written reads as the value, and another of the function as before. -/
theorem State.rd_wr {s : State} (h : s.regs.rising = true) (fn off o : Nat) (v : U64) :
    (s.wr fn off v).rd fn o = if o = off then v else s.rd fn o := by
  unfold State.wr State.rd
  by_cases ho : o = off
  · subst ho
    rw [Tab.get_set _ h]
    simp
  · have hk : regKey fn o ≠ regKey fn off := by unfold regKey; omega
    unfold Tab.get Tab.set
    rw [if_neg ho]
    split
    · rw [Tab.find?_del h, if_neg hk]
    · rw [Tab.find?_put, if_neg hk]

/-- A field that was set reads as the value, truncated to its width. -/
theorem State.fld_setFld {s : State} (h : s.regs.rising = true) (fn i : Nat) (f : Fld) (v : Nat) (hf : f.lo + f.w ≤ 64) :
    (s.setFld fn i f v).fld fn i f = v % 2 ^ f.w := by
  unfold State.setFld State.fld
  rw [State.rd_wr h, if_pos rfl, BitVec.toNat_ofNat, bits_mod hf, bits_putBits]

/-- A field of another register of the function, or of other bits of the same one, reads as before. -/
theorem State.fld_setFld_other {s : State} (h : s.regs.rising = true) (fn i j : Nat) (f g : Fld) (v : Nat)
    (hg : g.lo + g.w ≤ 64)
    (ho : g.off + g.stride * j ≠ f.off + f.stride * i ∨ g.lo + g.w ≤ f.lo ∨ f.lo + f.w ≤ g.lo) :
    (s.setFld fn i f v).fld fn j g = s.fld fn j g := by
  unfold State.setFld State.fld
  rw [State.rd_wr h]
  split
  · next he =>
    rw [BitVec.toNat_ofNat, bits_mod hg, bits_putBits_other (ho.resolve_left (fun hn => hn he)), he]
  · rfl

/-- A field that was raised reads as the sum, or as its largest value. -/
theorem State.fld_satAdd {s : State} (h : s.regs.rising = true) (fn i : Nat) (f : Fld) (n : Nat) (hf : f.lo + f.w ≤ 64) :
    (s.satAdd fn i f n).fld fn i f = min (s.fld fn i f + n) (2 ^ f.w - 1) := by
  unfold State.satAdd
  rw [State.fld_setFld h _ _ _ _ hf, Nat.mod_eq_of_lt]
  have := Nat.two_pow_pos f.w
  omega

end Sys2Proof.Machine
end

