-- ==== Sys2Proof/Laws/Slots.lean ====
section
/-! SUPPORT. What the issue of a slot does, once and for all slots. -/

namespace Sys2Proof.Machine

open Sys2Proof

/-- A slot that can issue joins its bundle with what it gives, and nothing waits or has faulted (R64, R65). -/
theorem issue_runs {s : State} {x : Slot} {q : SlotReq} {ready : CoreState → Bool}
    {run : CoreState → CoreState → SlotRun} {after : State → State} {cur : CoreState} {br : Option Nat}
    (h : slotGoes s x q.cls q.regs q.dests) (hok : q.ok = true) (hready : ready (slotBase s x) = true)
    (hrun : run (slotBase s x) (slotCur s x) = .ok (cur, br)) :
    s.issueWith x q ready run after = s.slotIn x q.cls
      { (s.core x.core).open with
        work := cur, slots := (s.core x.core).open.slots + 2 ^ q.cls, dests := (s.core x.core).open.dests ++ q.dests
        branch := if br.isSome then br else (s.core x.core).open.branch } after := by
  obtain ⟨hop, htakes, -, hpc, hpred, hpend, hdests⟩ := h
  have hd : q.dests.any (s.core x.core).open.dests.contains = false := by
    simpa [List.any_eq_false, List.contains_iff_mem] using hdests
  have hpc' : ¬ (s.core x.core).len ≤ (s.core x.core).open.base.pc := Nat.not_le.mpr hpc
  have hnop : slotNop x q.always (s.core x.core).open.base.p = false := by
    simp only [slotBase] at hpred
    simp [slotNop, hop, hpred]
  simp only [slotBase, slotCur] at hpend hrun hready
  simp [State.issueWith, htakes, hpc', hnop, OpenBundle.take, hop, hok, hpend, hready, hd, hrun]

/-- A bundle in which nothing waits and nothing has faulted issues whole when it closes (R64). -/
theorem closeBundle_issues {s : State} {n : Nat} {b : OpenBundle} {after : State → State} (hw : b.wait = false)
    (hf : b.faults = []) (hc : (s.core n).cur = b.base) :
    s.closeBundle n b after = ((after s).setCore n { s.core n with
      cur := b.work.advance b.branch, bundle := none, issuedBeat := true }).pump n := by
  have ho : b.inOrder = [] := by simp [OpenBundle.inOrder, hf]
  simp [State.closeBundle, hw, hc, ho]

/-- A slot that can issue and completes its bundle: the bundle issues. -/
theorem issue_afterWith {s : State} {x : Slot} {q : SlotReq} {ready : CoreState → Bool}
    {run : CoreState → CoreState → SlotRun} {after : State → State} {cur : CoreState} {br : Option Nat}
    (hlast : x.more = false ∨ q.cls = 0) (h : slotGoes s x q.cls q.regs q.dests) (hok : q.ok = true)
    (hready : ready (slotBase s x) = true) (hrun : run (slotBase s x) (slotCur s x) = .ok (cur, br)) :
    s.issueWith x q ready run after = afterWith s x cur br after := by
  rw [issue_runs h hok hready hrun]
  obtain ⟨-, -, ⟨hw, hf, hc⟩, -⟩ := h
  have hm : (x.more && q.cls != 0) = false := by
    rcases hlast with h | h <;> simp [h]
  simp only [State.slotIn, hm, Bool.false_eq_true, if_false]
  refine (closeBundle_issues ?_ ?_ ?_).trans rfl
  · exact hw
  · exact hf
  · exact hc

/-- An S slot that can issue closes its bundle. -/
theorem issue_afterS {s : State} {x : Slot} {q : SlotReq} {ready : CoreState → Bool}
    {run : CoreState → CoreState → SlotRun} {cur : CoreState} {br : Option Nat} (hc : q.cls = 0)
    (h : slotGoes s x 0 q.regs q.dests) (hok : q.ok = true) (hready : ready (slotBase s x) = true)
    (hrun : run (slotBase s x) (slotCur s x) = .ok (cur, br)) :
    s.issue x q ready run = afterS s x cur br :=
  issue_afterWith (Or.inr hc) (hc ▸ h) hok hready hrun

/-- An M, V or X slot that can issue leaves its bundle open where a further slot follows, and closes it otherwise. -/
theorem issue_afterSlot {s : State} {x : Slot} {q : SlotReq} {ready : CoreState → Bool}
    {run : CoreState → CoreState → SlotRun} {cur : CoreState} (hc : q.cls ≠ 0)
    (h : slotGoes s x q.cls q.regs q.dests) (hok : q.ok = true) (hready : ready (slotBase s x) = true)
    (hrun : run (slotBase s x) (slotCur s x) = .ok (cur, none)) :
    s.issue x q ready run = afterSlot s x q.cls q.dests cur := by
  cases hm : x.more
  · rw [State.issue, issue_afterWith (Or.inl hm) h hok hready hrun]
    simp [afterSlot, afterS, hm]
  · rw [State.issue, issue_runs h hok hready hrun]
    simp [State.slotIn, hm, hc, afterSlot]

end Sys2Proof.Machine
end

