-- ==== Sys2Proof/Laws/State.lean ====
section
/-! SUPPORT. What the updates of one field of the state leave of each field. -/

namespace Sys2Proof.Machine

open Sys2Proof

/-! ## A register is written whole. -/

@[simp] theorem State.wr_pending (s : State) (fn off : Nat) (v : U64) : (s.wr fn off v).pending = s.pending := rfl
@[simp] theorem State.wr_free (s : State) (fn off : Nat) (v : U64) : (s.wr fn off v).free = s.free := rfl
@[simp] theorem State.wr_out (s : State) (fn off : Nat) (v : U64) : (s.wr fn off v).out = s.out := rfl
@[simp] theorem State.wr_deferred (s : State) (fn off : Nat) (v : U64) : (s.wr fn off v).deferred = s.deferred := rfl
@[simp] theorem State.wr_regs (s : State) (fn off : Nat) (v : U64) :
    (s.wr fn off v).regs = s.regs.set (regReset fn off) (regKey fn off) v := rfl
@[simp] theorem State.wr_cnts (s : State) (fn off : Nat) (v : U64) : (s.wr fn off v).cnts = s.cnts := rfl
@[simp] theorem State.wr_mem (s : State) (fn off : Nat) (v : U64) : (s.wr fn off v).mem = s.mem := rfl
@[simp] theorem State.wr_poison (s : State) (fn off : Nat) (v : U64) : (s.wr fn off v).poison = s.poison := rfl
@[simp] theorem State.wr_bad (s : State) (fn off : Nat) (v : U64) : (s.wr fn off v).bad = s.bad := rfl
@[simp] theorem State.wr_dead (s : State) (fn off : Nat) (v : U64) : (s.wr fn off v).dead = s.dead := rfl
@[simp] theorem State.wr_chunks (s : State) (fn off : Nat) (v : U64) : (s.wr fn off v).chunks = s.chunks := rfl
@[simp] theorem State.wr_ledgers (s : State) (fn off : Nat) (v : U64) : (s.wr fn off v).ledgers = s.ledgers := rfl
@[simp] theorem State.wr_shared (s : State) (fn off : Nat) (v : U64) : (s.wr fn off v).shared = s.shared := rfl
@[simp] theorem State.wr_verified (s : State) (fn off : Nat) (v : U64) : (s.wr fn off v).verified = s.verified := rfl
@[simp] theorem State.wr_wipes (s : State) (fn off : Nat) (v : U64) : (s.wr fn off v).wipes = s.wipes := rfl
@[simp] theorem State.wr_contribs (s : State) (fn off : Nat) (v : U64) : (s.wr fn off v).contribs = s.contribs := rfl
@[simp] theorem State.wr_owing (s : State) (fn off : Nat) (v : U64) : (s.wr fn off v).owing = s.owing := rfl
@[simp] theorem State.wr_nextOwed (s : State) (fn off : Nat) (v : U64) : (s.wr fn off v).nextOwed = s.nextOwed := rfl
@[simp] theorem State.wr_reads (s : State) (fn off : Nat) (v : U64) : (s.wr fn off v).reads = s.reads := rfl
@[simp] theorem State.wr_mended (s : State) (fn off : Nat) (v : U64) : (s.wr fn off v).mended = s.mended := rfl
@[simp] theorem State.wr_hot (s : State) (fn off : Nat) (v : U64) : (s.wr fn off v).hot = s.hot := rfl
@[simp] theorem State.wr_t2ctr (s : State) (fn off : Nat) (v : U64) : (s.wr fn off v).t2ctr = s.t2ctr := rfl
@[simp] theorem State.wr_t2base (s : State) (fn off : Nat) (v : U64) : (s.wr fn off v).t2base = s.t2base := rfl
@[simp] theorem State.wr_t2node (s : State) (fn off : Nat) (v : U64) : (s.wr fn off v).t2node = s.t2node := rfl
@[simp] theorem State.wr_t2cache (s : State) (fn off : Nat) (v : U64) : (s.wr fn off v).t2cache = s.t2cache := rfl
@[simp] theorem State.wr_rollWant (s : State) (fn off : Nat) (v : U64) : (s.wr fn off v).rollWant = s.rollWant := rfl
@[simp] theorem State.wr_tlbs (s : State) (fn off : Nat) (v : U64) : (s.wr fn off v).tlbs = s.tlbs := rfl
@[simp] theorem State.wr_ctlbs (s : State) (fn off : Nat) (v : U64) : (s.wr fn off v).ctlbs = s.ctlbs := rfl
@[simp] theorem State.wr_ptrs (s : State) (fn off : Nat) (v : U64) : (s.wr fn off v).ptrs = s.ptrs := rfl
@[simp] theorem State.wr_faults (s : State) (fn off : Nat) (v : U64) : (s.wr fn off v).faults = s.faults := rfl
@[simp] theorem State.wr_nextFault (s : State) (fn off : Nat) (v : U64) : (s.wr fn off v).nextFault = s.nextFault := rfl
@[simp] theorem State.wr_invals (s : State) (fn off : Nat) (v : U64) : (s.wr fn off v).invals = s.invals := rfl
@[simp] theorem State.wr_nextInval (s : State) (fn off : Nat) (v : U64) : (s.wr fn off v).nextInval = s.nextInval := rfl
@[simp] theorem State.wr_ats (s : State) (fn off : Nat) (v : U64) : (s.wr fn off v).ats = s.ats := rfl
@[simp] theorem State.wr_sieve (s : State) (fn off : Nat) (v : U64) : (s.wr fn off v).sieve = s.sieve := rfl
@[simp] theorem State.wr_cfgs (s : State) (fn off : Nat) (v : U64) : (s.wr fn off v).cfgs = s.cfgs := rfl
@[simp] theorem State.wr_progs (s : State) (fn off : Nat) (v : U64) : (s.wr fn off v).progs = s.progs := rfl
@[simp] theorem State.wr_beat (s : State) (fn off : Nat) (v : U64) : (s.wr fn off v).beat = s.beat := rfl
@[simp] theorem State.wr_cores (s : State) (fn off : Nat) (v : U64) : (s.wr fn off v).cores = s.cores := rfl
@[simp] theorem State.wr_queues (s : State) (fn off : Nat) (v : U64) : (s.wr fn off v).queues = s.queues := rfl
@[simp] theorem State.wr_fetched (s : State) (fn off : Nat) (v : U64) : (s.wr fn off v).fetched = s.fetched := rfl
@[simp] theorem State.wr_turn (s : State) (fn off : Nat) (v : U64) : (s.wr fn off v).turn = s.turn := rfl
@[simp] theorem State.wr_launches (s : State) (fn off : Nat) (v : U64) : (s.wr fn off v).launches = s.launches := rfl
@[simp] theorem State.wr_nextLaunch (s : State) (fn off : Nat) (v : U64) : (s.wr fn off v).nextLaunch = s.nextLaunch := rfl
@[simp] theorem State.wr_gruns (s : State) (fn off : Nat) (v : U64) : (s.wr fn off v).gruns = s.gruns := rfl
@[simp] theorem State.wr_ctxs (s : State) (fn off : Nat) (v : U64) : (s.wr fn off v).ctxs = s.ctxs := rfl
@[simp] theorem State.wr_mobjs (s : State) (fn off : Nat) (v : U64) : (s.wr fn off v).mobjs = s.mobjs := rfl
@[simp] theorem State.wr_graphs (s : State) (fn off : Nat) (v : U64) : (s.wr fn off v).graphs = s.graphs := rfl
@[simp] theorem State.wr_latches (s : State) (fn off : Nat) (v : U64) : (s.wr fn off v).latches = s.latches := rfl
@[simp] theorem State.wr_slots (s : State) (fn off : Nat) (v : U64) : (s.wr fn off v).slots = s.slots := rfl
@[simp] theorem State.wr_destroys (s : State) (fn off : Nat) (v : U64) : (s.wr fn off v).destroys = s.destroys := rfl
@[simp] theorem State.wr_log (s : State) (fn off : Nat) (v : U64) : (s.wr fn off v).log = s.log := rfl
@[simp] theorem State.wr_ports (s : State) (fn off : Nat) (v : U64) : (s.wr fn off v).ports = s.ports := rfl
@[simp] theorem State.wr_sigs (s : State) (fn off : Nat) (v : U64) : (s.wr fn off v).sigs = s.sigs := rfl
@[simp] theorem State.wr_nextSig (s : State) (fn off : Nat) (v : U64) : (s.wr fn off v).nextSig = s.nextSig := rfl
@[simp] theorem State.wr_inbound (s : State) (fn off : Nat) (v : U64) : (s.wr fn off v).inbound = s.inbound := rfl
@[simp] theorem State.wr_changes (s : State) (fn off : Nat) (v : U64) : (s.wr fn off v).changes = s.changes := rfl
@[simp] theorem State.wr_nextHandle (s : State) (fn off : Nat) (v : U64) : (s.wr fn off v).nextHandle = s.nextHandle := rfl
@[simp] theorem State.wr_failed (s : State) (fn off : Nat) (v : U64) : (s.wr fn off v).failed = s.failed := rfl
@[simp] theorem State.wr_awaitSpare (s : State) (fn off : Nat) (v : U64) : (s.wr fn off v).awaitSpare = s.awaitSpare := rfl
@[simp] theorem State.wr_halted (s : State) (fn off : Nat) (v : U64) : (s.wr fn off v).halted = s.halted := rfl
@[simp] theorem State.wr_kmc (s : State) (fn off : Nat) (v : U64) : (s.wr fn off v).kmc = s.kmc := rfl
@[simp] theorem State.wr_flood (s : State) (fn off : Nat) (v : U64) : (s.wr fn off v).flood = s.flood := rfl
@[simp] theorem State.wr_alarmId (s : State) (fn off : Nat) (v : U64) : (s.wr fn off v).alarmId = s.alarmId := rfl
@[simp] theorem State.wr_bellId (s : State) (fn off : Nat) (v : U64) : (s.wr fn off v).bellId = s.bellId := rfl
@[simp] theorem State.wr_resets (s : State) (fn off : Nat) (v : U64) : (s.wr fn off v).resets = s.resets := rfl
@[simp] theorem State.wr_nextReset (s : State) (fn off : Nat) (v : U64) : (s.wr fn off v).nextReset = s.nextReset := rfl
@[simp] theorem State.wr_aborts (s : State) (fn off : Nat) (v : U64) : (s.wr fn off v).aborts = s.aborts := rfl
@[simp] theorem State.wr_fenced (s : State) (fn off : Nat) (v : U64) : (s.wr fn off v).fenced = s.fenced := rfl
@[simp] theorem State.wr_parishEnd (s : State) (fn off : Nat) (v : U64) : (s.wr fn off v).parishEnd = s.parishEnd := rfl
@[simp] theorem State.wr_keys (s : State) (fn off : Nat) (v : U64) : (s.wr fn off v).keys = s.keys := rfl
@[simp] theorem State.wr_bells (s : State) (fn off : Nat) (v : U64) : (s.wr fn off v).bells = s.bells := rfl
@[simp] theorem State.wr_pview (s : State) (fn off : Nat) (v : U64) : (s.wr fn off v).pview = s.pview := rfl
@[simp] theorem State.wr_snap (s : State) (fn off : Nat) (v : U64) : (s.wr fn off v).snap = s.snap := rfl
@[simp] theorem State.wr_hints (s : State) (fn off : Nat) (v : U64) : (s.wr fn off v).hints = s.hints := rfl
@[simp] theorem State.wr_dump (s : State) (fn off : Nat) (v : U64) : (s.wr fn off v).dump = s.dump := rfl
@[simp] theorem State.wr_sec (s : State) (fn off : Nat) (v : U64) : (s.wr fn off v).sec = s.sec := rfl
@[simp] theorem State.wr_pow (s : State) (fn off : Nat) (v : U64) : (s.wr fn off v).pow = s.pow := rfl
@[simp] theorem State.wr_rots (s : State) (fn off : Nat) (v : U64) : (s.wr fn off v).rots = s.rots := rfl
@[simp] theorem State.wr_boot (s : State) (fn off : Nat) (v : U64) : (s.wr fn off v).boot = s.boot := rfl
@[simp] theorem State.wr_mod (s : State) (fn off : Nat) (v : U64) : (s.wr fn off v).mod = s.mod := rfl
@[simp] theorem State.wr_bridge (s : State) (fn off : Nat) (v : U64) : (s.wr fn off v).bridge = s.bridge := rfl

/-! ## Something is given out. -/

@[simp] theorem State.send_pending (s : State) (o : Out) : (s.send o).pending = s.pending := rfl
@[simp] theorem State.send_free (s : State) (o : Out) : (s.send o).free = s.free := rfl
@[simp] theorem State.send_out (s : State) (o : Out) : (s.send o).out = s.out ++ [o] := rfl
@[simp] theorem State.send_deferred (s : State) (o : Out) : (s.send o).deferred = s.deferred := rfl
@[simp] theorem State.send_regs (s : State) (o : Out) : (s.send o).regs = s.regs := rfl
@[simp] theorem State.send_cnts (s : State) (o : Out) : (s.send o).cnts = s.cnts := rfl
@[simp] theorem State.send_mem (s : State) (o : Out) : (s.send o).mem = s.mem := rfl
@[simp] theorem State.send_poison (s : State) (o : Out) : (s.send o).poison = s.poison := rfl
@[simp] theorem State.send_bad (s : State) (o : Out) : (s.send o).bad = s.bad := rfl
@[simp] theorem State.send_dead (s : State) (o : Out) : (s.send o).dead = s.dead := rfl
@[simp] theorem State.send_chunks (s : State) (o : Out) : (s.send o).chunks = s.chunks := rfl
@[simp] theorem State.send_ledgers (s : State) (o : Out) : (s.send o).ledgers = s.ledgers := rfl
@[simp] theorem State.send_shared (s : State) (o : Out) : (s.send o).shared = s.shared := rfl
@[simp] theorem State.send_verified (s : State) (o : Out) : (s.send o).verified = s.verified := rfl
@[simp] theorem State.send_wipes (s : State) (o : Out) : (s.send o).wipes = s.wipes := rfl
@[simp] theorem State.send_contribs (s : State) (o : Out) : (s.send o).contribs = s.contribs := rfl
@[simp] theorem State.send_owing (s : State) (o : Out) : (s.send o).owing = s.owing := rfl
@[simp] theorem State.send_nextOwed (s : State) (o : Out) : (s.send o).nextOwed = s.nextOwed := rfl
@[simp] theorem State.send_reads (s : State) (o : Out) : (s.send o).reads = s.reads := rfl
@[simp] theorem State.send_mended (s : State) (o : Out) : (s.send o).mended = s.mended := rfl
@[simp] theorem State.send_hot (s : State) (o : Out) : (s.send o).hot = s.hot := rfl
@[simp] theorem State.send_t2ctr (s : State) (o : Out) : (s.send o).t2ctr = s.t2ctr := rfl
@[simp] theorem State.send_t2base (s : State) (o : Out) : (s.send o).t2base = s.t2base := rfl
@[simp] theorem State.send_t2node (s : State) (o : Out) : (s.send o).t2node = s.t2node := rfl
@[simp] theorem State.send_t2cache (s : State) (o : Out) : (s.send o).t2cache = s.t2cache := rfl
@[simp] theorem State.send_rollWant (s : State) (o : Out) : (s.send o).rollWant = s.rollWant := rfl
@[simp] theorem State.send_tlbs (s : State) (o : Out) : (s.send o).tlbs = s.tlbs := rfl
@[simp] theorem State.send_ctlbs (s : State) (o : Out) : (s.send o).ctlbs = s.ctlbs := rfl
@[simp] theorem State.send_ptrs (s : State) (o : Out) : (s.send o).ptrs = s.ptrs := rfl
@[simp] theorem State.send_faults (s : State) (o : Out) : (s.send o).faults = s.faults := rfl
@[simp] theorem State.send_nextFault (s : State) (o : Out) : (s.send o).nextFault = s.nextFault := rfl
@[simp] theorem State.send_invals (s : State) (o : Out) : (s.send o).invals = s.invals := rfl
@[simp] theorem State.send_nextInval (s : State) (o : Out) : (s.send o).nextInval = s.nextInval := rfl
@[simp] theorem State.send_ats (s : State) (o : Out) : (s.send o).ats = s.ats := rfl
@[simp] theorem State.send_sieve (s : State) (o : Out) : (s.send o).sieve = s.sieve := rfl
@[simp] theorem State.send_cfgs (s : State) (o : Out) : (s.send o).cfgs = s.cfgs := rfl
@[simp] theorem State.send_progs (s : State) (o : Out) : (s.send o).progs = s.progs := rfl
@[simp] theorem State.send_beat (s : State) (o : Out) : (s.send o).beat = s.beat := rfl
@[simp] theorem State.send_cores (s : State) (o : Out) : (s.send o).cores = s.cores := rfl
@[simp] theorem State.send_queues (s : State) (o : Out) : (s.send o).queues = s.queues := rfl
@[simp] theorem State.send_fetched (s : State) (o : Out) : (s.send o).fetched = s.fetched := rfl
@[simp] theorem State.send_turn (s : State) (o : Out) : (s.send o).turn = s.turn := rfl
@[simp] theorem State.send_launches (s : State) (o : Out) : (s.send o).launches = s.launches := rfl
@[simp] theorem State.send_nextLaunch (s : State) (o : Out) : (s.send o).nextLaunch = s.nextLaunch := rfl
@[simp] theorem State.send_gruns (s : State) (o : Out) : (s.send o).gruns = s.gruns := rfl
@[simp] theorem State.send_ctxs (s : State) (o : Out) : (s.send o).ctxs = s.ctxs := rfl
@[simp] theorem State.send_mobjs (s : State) (o : Out) : (s.send o).mobjs = s.mobjs := rfl
@[simp] theorem State.send_graphs (s : State) (o : Out) : (s.send o).graphs = s.graphs := rfl
@[simp] theorem State.send_latches (s : State) (o : Out) : (s.send o).latches = s.latches := rfl
@[simp] theorem State.send_slots (s : State) (o : Out) : (s.send o).slots = s.slots := rfl
@[simp] theorem State.send_destroys (s : State) (o : Out) : (s.send o).destroys = s.destroys := rfl
@[simp] theorem State.send_log (s : State) (o : Out) : (s.send o).log = s.log := rfl
@[simp] theorem State.send_ports (s : State) (o : Out) : (s.send o).ports = s.ports := rfl
@[simp] theorem State.send_sigs (s : State) (o : Out) : (s.send o).sigs = s.sigs := rfl
@[simp] theorem State.send_nextSig (s : State) (o : Out) : (s.send o).nextSig = s.nextSig := rfl
@[simp] theorem State.send_inbound (s : State) (o : Out) : (s.send o).inbound = s.inbound := rfl
@[simp] theorem State.send_changes (s : State) (o : Out) : (s.send o).changes = s.changes := rfl
@[simp] theorem State.send_nextHandle (s : State) (o : Out) : (s.send o).nextHandle = s.nextHandle := rfl
@[simp] theorem State.send_failed (s : State) (o : Out) : (s.send o).failed = s.failed := rfl
@[simp] theorem State.send_awaitSpare (s : State) (o : Out) : (s.send o).awaitSpare = s.awaitSpare := rfl
@[simp] theorem State.send_halted (s : State) (o : Out) : (s.send o).halted = s.halted := rfl
@[simp] theorem State.send_kmc (s : State) (o : Out) : (s.send o).kmc = s.kmc := rfl
@[simp] theorem State.send_flood (s : State) (o : Out) : (s.send o).flood = s.flood := rfl
@[simp] theorem State.send_alarmId (s : State) (o : Out) : (s.send o).alarmId = s.alarmId := rfl
@[simp] theorem State.send_bellId (s : State) (o : Out) : (s.send o).bellId = s.bellId := rfl
@[simp] theorem State.send_resets (s : State) (o : Out) : (s.send o).resets = s.resets := rfl
@[simp] theorem State.send_nextReset (s : State) (o : Out) : (s.send o).nextReset = s.nextReset := rfl
@[simp] theorem State.send_aborts (s : State) (o : Out) : (s.send o).aborts = s.aborts := rfl
@[simp] theorem State.send_fenced (s : State) (o : Out) : (s.send o).fenced = s.fenced := rfl
@[simp] theorem State.send_parishEnd (s : State) (o : Out) : (s.send o).parishEnd = s.parishEnd := rfl
@[simp] theorem State.send_keys (s : State) (o : Out) : (s.send o).keys = s.keys := rfl
@[simp] theorem State.send_bells (s : State) (o : Out) : (s.send o).bells = s.bells := rfl
@[simp] theorem State.send_pview (s : State) (o : Out) : (s.send o).pview = s.pview := rfl
@[simp] theorem State.send_snap (s : State) (o : Out) : (s.send o).snap = s.snap := rfl
@[simp] theorem State.send_hints (s : State) (o : Out) : (s.send o).hints = s.hints := rfl
@[simp] theorem State.send_dump (s : State) (o : Out) : (s.send o).dump = s.dump := rfl
@[simp] theorem State.send_sec (s : State) (o : Out) : (s.send o).sec = s.sec := rfl
@[simp] theorem State.send_pow (s : State) (o : Out) : (s.send o).pow = s.pow := rfl
@[simp] theorem State.send_rots (s : State) (o : Out) : (s.send o).rots = s.rots := rfl
@[simp] theorem State.send_boot (s : State) (o : Out) : (s.send o).boot = s.boot := rfl
@[simp] theorem State.send_mod (s : State) (o : Out) : (s.send o).mod = s.mod := rfl
@[simp] theorem State.send_bridge (s : State) (o : Out) : (s.send o).bridge = s.bridge := rfl

/-! ## A core is replaced. -/

@[simp] theorem State.setCore_pending (s : State) (n : Nat) (c : Core) : (s.setCore n c).pending = s.pending := rfl
@[simp] theorem State.setCore_free (s : State) (n : Nat) (c : Core) : (s.setCore n c).free = s.free := rfl
@[simp] theorem State.setCore_out (s : State) (n : Nat) (c : Core) : (s.setCore n c).out = s.out := rfl
@[simp] theorem State.setCore_deferred (s : State) (n : Nat) (c : Core) : (s.setCore n c).deferred = s.deferred := rfl
@[simp] theorem State.setCore_regs (s : State) (n : Nat) (c : Core) : (s.setCore n c).regs = s.regs := rfl
@[simp] theorem State.setCore_cnts (s : State) (n : Nat) (c : Core) : (s.setCore n c).cnts = s.cnts := rfl
@[simp] theorem State.setCore_mem (s : State) (n : Nat) (c : Core) : (s.setCore n c).mem = s.mem := rfl
@[simp] theorem State.setCore_poison (s : State) (n : Nat) (c : Core) : (s.setCore n c).poison = s.poison := rfl
@[simp] theorem State.setCore_bad (s : State) (n : Nat) (c : Core) : (s.setCore n c).bad = s.bad := rfl
@[simp] theorem State.setCore_dead (s : State) (n : Nat) (c : Core) : (s.setCore n c).dead = s.dead := rfl
@[simp] theorem State.setCore_chunks (s : State) (n : Nat) (c : Core) : (s.setCore n c).chunks = s.chunks := rfl
@[simp] theorem State.setCore_ledgers (s : State) (n : Nat) (c : Core) : (s.setCore n c).ledgers = s.ledgers := rfl
@[simp] theorem State.setCore_shared (s : State) (n : Nat) (c : Core) : (s.setCore n c).shared = s.shared := rfl
@[simp] theorem State.setCore_verified (s : State) (n : Nat) (c : Core) : (s.setCore n c).verified = s.verified := rfl
@[simp] theorem State.setCore_wipes (s : State) (n : Nat) (c : Core) : (s.setCore n c).wipes = s.wipes := rfl
@[simp] theorem State.setCore_contribs (s : State) (n : Nat) (c : Core) : (s.setCore n c).contribs = s.contribs := rfl
@[simp] theorem State.setCore_owing (s : State) (n : Nat) (c : Core) : (s.setCore n c).owing = s.owing := rfl
@[simp] theorem State.setCore_nextOwed (s : State) (n : Nat) (c : Core) : (s.setCore n c).nextOwed = s.nextOwed := rfl
@[simp] theorem State.setCore_reads (s : State) (n : Nat) (c : Core) : (s.setCore n c).reads = s.reads := rfl
@[simp] theorem State.setCore_mended (s : State) (n : Nat) (c : Core) : (s.setCore n c).mended = s.mended := rfl
@[simp] theorem State.setCore_hot (s : State) (n : Nat) (c : Core) : (s.setCore n c).hot = s.hot := rfl
@[simp] theorem State.setCore_t2ctr (s : State) (n : Nat) (c : Core) : (s.setCore n c).t2ctr = s.t2ctr := rfl
@[simp] theorem State.setCore_t2base (s : State) (n : Nat) (c : Core) : (s.setCore n c).t2base = s.t2base := rfl
@[simp] theorem State.setCore_t2node (s : State) (n : Nat) (c : Core) : (s.setCore n c).t2node = s.t2node := rfl
@[simp] theorem State.setCore_t2cache (s : State) (n : Nat) (c : Core) : (s.setCore n c).t2cache = s.t2cache := rfl
@[simp] theorem State.setCore_rollWant (s : State) (n : Nat) (c : Core) : (s.setCore n c).rollWant = s.rollWant := rfl
@[simp] theorem State.setCore_tlbs (s : State) (n : Nat) (c : Core) : (s.setCore n c).tlbs = s.tlbs := rfl
@[simp] theorem State.setCore_ctlbs (s : State) (n : Nat) (c : Core) : (s.setCore n c).ctlbs = s.ctlbs := rfl
@[simp] theorem State.setCore_ptrs (s : State) (n : Nat) (c : Core) : (s.setCore n c).ptrs = s.ptrs := rfl
@[simp] theorem State.setCore_faults (s : State) (n : Nat) (c : Core) : (s.setCore n c).faults = s.faults := rfl
@[simp] theorem State.setCore_nextFault (s : State) (n : Nat) (c : Core) : (s.setCore n c).nextFault = s.nextFault := rfl
@[simp] theorem State.setCore_invals (s : State) (n : Nat) (c : Core) : (s.setCore n c).invals = s.invals := rfl
@[simp] theorem State.setCore_nextInval (s : State) (n : Nat) (c : Core) : (s.setCore n c).nextInval = s.nextInval := rfl
@[simp] theorem State.setCore_ats (s : State) (n : Nat) (c : Core) : (s.setCore n c).ats = s.ats := rfl
@[simp] theorem State.setCore_sieve (s : State) (n : Nat) (c : Core) : (s.setCore n c).sieve = s.sieve := rfl
@[simp] theorem State.setCore_cfgs (s : State) (n : Nat) (c : Core) : (s.setCore n c).cfgs = s.cfgs := rfl
@[simp] theorem State.setCore_progs (s : State) (n : Nat) (c : Core) : (s.setCore n c).progs = s.progs := rfl
@[simp] theorem State.setCore_beat (s : State) (n : Nat) (c : Core) : (s.setCore n c).beat = s.beat := rfl
@[simp] theorem State.setCore_cores (s : State) (n : Nat) (c : Core) : (s.setCore n c).cores = s.cores.set Core.idle n c := rfl
@[simp] theorem State.setCore_queues (s : State) (n : Nat) (c : Core) : (s.setCore n c).queues = s.queues := rfl
@[simp] theorem State.setCore_fetched (s : State) (n : Nat) (c : Core) : (s.setCore n c).fetched = s.fetched := rfl
@[simp] theorem State.setCore_turn (s : State) (n : Nat) (c : Core) : (s.setCore n c).turn = s.turn := rfl
@[simp] theorem State.setCore_launches (s : State) (n : Nat) (c : Core) : (s.setCore n c).launches = s.launches := rfl
@[simp] theorem State.setCore_nextLaunch (s : State) (n : Nat) (c : Core) : (s.setCore n c).nextLaunch = s.nextLaunch := rfl
@[simp] theorem State.setCore_gruns (s : State) (n : Nat) (c : Core) : (s.setCore n c).gruns = s.gruns := rfl
@[simp] theorem State.setCore_ctxs (s : State) (n : Nat) (c : Core) : (s.setCore n c).ctxs = s.ctxs := rfl
@[simp] theorem State.setCore_mobjs (s : State) (n : Nat) (c : Core) : (s.setCore n c).mobjs = s.mobjs := rfl
@[simp] theorem State.setCore_graphs (s : State) (n : Nat) (c : Core) : (s.setCore n c).graphs = s.graphs := rfl
@[simp] theorem State.setCore_latches (s : State) (n : Nat) (c : Core) : (s.setCore n c).latches = s.latches := rfl
@[simp] theorem State.setCore_slots (s : State) (n : Nat) (c : Core) : (s.setCore n c).slots = s.slots := rfl
@[simp] theorem State.setCore_destroys (s : State) (n : Nat) (c : Core) : (s.setCore n c).destroys = s.destroys := rfl
@[simp] theorem State.setCore_log (s : State) (n : Nat) (c : Core) : (s.setCore n c).log = s.log := rfl
@[simp] theorem State.setCore_ports (s : State) (n : Nat) (c : Core) : (s.setCore n c).ports = s.ports := rfl
@[simp] theorem State.setCore_sigs (s : State) (n : Nat) (c : Core) : (s.setCore n c).sigs = s.sigs := rfl
@[simp] theorem State.setCore_nextSig (s : State) (n : Nat) (c : Core) : (s.setCore n c).nextSig = s.nextSig := rfl
@[simp] theorem State.setCore_inbound (s : State) (n : Nat) (c : Core) : (s.setCore n c).inbound = s.inbound := rfl
@[simp] theorem State.setCore_changes (s : State) (n : Nat) (c : Core) : (s.setCore n c).changes = s.changes := rfl
@[simp] theorem State.setCore_nextHandle (s : State) (n : Nat) (c : Core) : (s.setCore n c).nextHandle = s.nextHandle := rfl
@[simp] theorem State.setCore_failed (s : State) (n : Nat) (c : Core) : (s.setCore n c).failed = s.failed := rfl
@[simp] theorem State.setCore_awaitSpare (s : State) (n : Nat) (c : Core) : (s.setCore n c).awaitSpare = s.awaitSpare := rfl
@[simp] theorem State.setCore_halted (s : State) (n : Nat) (c : Core) : (s.setCore n c).halted = s.halted := rfl
@[simp] theorem State.setCore_kmc (s : State) (n : Nat) (c : Core) : (s.setCore n c).kmc = s.kmc := rfl
@[simp] theorem State.setCore_flood (s : State) (n : Nat) (c : Core) : (s.setCore n c).flood = s.flood := rfl
@[simp] theorem State.setCore_alarmId (s : State) (n : Nat) (c : Core) : (s.setCore n c).alarmId = s.alarmId := rfl
@[simp] theorem State.setCore_bellId (s : State) (n : Nat) (c : Core) : (s.setCore n c).bellId = s.bellId := rfl
@[simp] theorem State.setCore_resets (s : State) (n : Nat) (c : Core) : (s.setCore n c).resets = s.resets := rfl
@[simp] theorem State.setCore_nextReset (s : State) (n : Nat) (c : Core) : (s.setCore n c).nextReset = s.nextReset := rfl
@[simp] theorem State.setCore_aborts (s : State) (n : Nat) (c : Core) : (s.setCore n c).aborts = s.aborts := rfl
@[simp] theorem State.setCore_fenced (s : State) (n : Nat) (c : Core) : (s.setCore n c).fenced = s.fenced := rfl
@[simp] theorem State.setCore_parishEnd (s : State) (n : Nat) (c : Core) : (s.setCore n c).parishEnd = s.parishEnd := rfl
@[simp] theorem State.setCore_keys (s : State) (n : Nat) (c : Core) : (s.setCore n c).keys = s.keys := rfl
@[simp] theorem State.setCore_bells (s : State) (n : Nat) (c : Core) : (s.setCore n c).bells = s.bells := rfl
@[simp] theorem State.setCore_pview (s : State) (n : Nat) (c : Core) : (s.setCore n c).pview = s.pview := rfl
@[simp] theorem State.setCore_snap (s : State) (n : Nat) (c : Core) : (s.setCore n c).snap = s.snap := rfl
@[simp] theorem State.setCore_hints (s : State) (n : Nat) (c : Core) : (s.setCore n c).hints = s.hints := rfl
@[simp] theorem State.setCore_dump (s : State) (n : Nat) (c : Core) : (s.setCore n c).dump = s.dump := rfl
@[simp] theorem State.setCore_sec (s : State) (n : Nat) (c : Core) : (s.setCore n c).sec = s.sec := rfl
@[simp] theorem State.setCore_pow (s : State) (n : Nat) (c : Core) : (s.setCore n c).pow = s.pow := rfl
@[simp] theorem State.setCore_rots (s : State) (n : Nat) (c : Core) : (s.setCore n c).rots = s.rots := rfl
@[simp] theorem State.setCore_boot (s : State) (n : Nat) (c : Core) : (s.setCore n c).boot = s.boot := rfl
@[simp] theorem State.setCore_mod (s : State) (n : Nat) (c : Core) : (s.setCore n c).mod = s.mod := rfl
@[simp] theorem State.setCore_bridge (s : State) (n : Nat) (c : Core) : (s.setCore n c).bridge = s.bridge := rfl

/-! ## A queue is replaced. -/

@[simp] theorem State.setQueue_pending (s : State) (fn q : Nat) (v : Queue) : (s.setQueue fn q v).pending = s.pending := rfl
@[simp] theorem State.setQueue_free (s : State) (fn q : Nat) (v : Queue) : (s.setQueue fn q v).free = s.free := rfl
@[simp] theorem State.setQueue_out (s : State) (fn q : Nat) (v : Queue) : (s.setQueue fn q v).out = s.out := rfl
@[simp] theorem State.setQueue_deferred (s : State) (fn q : Nat) (v : Queue) : (s.setQueue fn q v).deferred = s.deferred := rfl
@[simp] theorem State.setQueue_regs (s : State) (fn q : Nat) (v : Queue) : (s.setQueue fn q v).regs = s.regs := rfl
@[simp] theorem State.setQueue_cnts (s : State) (fn q : Nat) (v : Queue) : (s.setQueue fn q v).cnts = s.cnts := rfl
@[simp] theorem State.setQueue_mem (s : State) (fn q : Nat) (v : Queue) : (s.setQueue fn q v).mem = s.mem := rfl
@[simp] theorem State.setQueue_poison (s : State) (fn q : Nat) (v : Queue) : (s.setQueue fn q v).poison = s.poison := rfl
@[simp] theorem State.setQueue_bad (s : State) (fn q : Nat) (v : Queue) : (s.setQueue fn q v).bad = s.bad := rfl
@[simp] theorem State.setQueue_dead (s : State) (fn q : Nat) (v : Queue) : (s.setQueue fn q v).dead = s.dead := rfl
@[simp] theorem State.setQueue_chunks (s : State) (fn q : Nat) (v : Queue) : (s.setQueue fn q v).chunks = s.chunks := rfl
@[simp] theorem State.setQueue_ledgers (s : State) (fn q : Nat) (v : Queue) : (s.setQueue fn q v).ledgers = s.ledgers := rfl
@[simp] theorem State.setQueue_shared (s : State) (fn q : Nat) (v : Queue) : (s.setQueue fn q v).shared = s.shared := rfl
@[simp] theorem State.setQueue_verified (s : State) (fn q : Nat) (v : Queue) : (s.setQueue fn q v).verified = s.verified := rfl
@[simp] theorem State.setQueue_wipes (s : State) (fn q : Nat) (v : Queue) : (s.setQueue fn q v).wipes = s.wipes := rfl
@[simp] theorem State.setQueue_contribs (s : State) (fn q : Nat) (v : Queue) : (s.setQueue fn q v).contribs = s.contribs := rfl
@[simp] theorem State.setQueue_owing (s : State) (fn q : Nat) (v : Queue) : (s.setQueue fn q v).owing = s.owing := rfl
@[simp] theorem State.setQueue_nextOwed (s : State) (fn q : Nat) (v : Queue) : (s.setQueue fn q v).nextOwed = s.nextOwed := rfl
@[simp] theorem State.setQueue_reads (s : State) (fn q : Nat) (v : Queue) : (s.setQueue fn q v).reads = s.reads := rfl
@[simp] theorem State.setQueue_mended (s : State) (fn q : Nat) (v : Queue) : (s.setQueue fn q v).mended = s.mended := rfl
@[simp] theorem State.setQueue_hot (s : State) (fn q : Nat) (v : Queue) : (s.setQueue fn q v).hot = s.hot := rfl
@[simp] theorem State.setQueue_t2ctr (s : State) (fn q : Nat) (v : Queue) : (s.setQueue fn q v).t2ctr = s.t2ctr := rfl
@[simp] theorem State.setQueue_t2base (s : State) (fn q : Nat) (v : Queue) : (s.setQueue fn q v).t2base = s.t2base := rfl
@[simp] theorem State.setQueue_t2node (s : State) (fn q : Nat) (v : Queue) : (s.setQueue fn q v).t2node = s.t2node := rfl
@[simp] theorem State.setQueue_t2cache (s : State) (fn q : Nat) (v : Queue) : (s.setQueue fn q v).t2cache = s.t2cache := rfl
@[simp] theorem State.setQueue_rollWant (s : State) (fn q : Nat) (v : Queue) : (s.setQueue fn q v).rollWant = s.rollWant := rfl
@[simp] theorem State.setQueue_tlbs (s : State) (fn q : Nat) (v : Queue) : (s.setQueue fn q v).tlbs = s.tlbs := rfl
@[simp] theorem State.setQueue_ctlbs (s : State) (fn q : Nat) (v : Queue) : (s.setQueue fn q v).ctlbs = s.ctlbs := rfl
@[simp] theorem State.setQueue_ptrs (s : State) (fn q : Nat) (v : Queue) : (s.setQueue fn q v).ptrs = s.ptrs := rfl
@[simp] theorem State.setQueue_faults (s : State) (fn q : Nat) (v : Queue) : (s.setQueue fn q v).faults = s.faults := rfl
@[simp] theorem State.setQueue_nextFault (s : State) (fn q : Nat) (v : Queue) : (s.setQueue fn q v).nextFault = s.nextFault := rfl
@[simp] theorem State.setQueue_invals (s : State) (fn q : Nat) (v : Queue) : (s.setQueue fn q v).invals = s.invals := rfl
@[simp] theorem State.setQueue_nextInval (s : State) (fn q : Nat) (v : Queue) : (s.setQueue fn q v).nextInval = s.nextInval := rfl
@[simp] theorem State.setQueue_ats (s : State) (fn q : Nat) (v : Queue) : (s.setQueue fn q v).ats = s.ats := rfl
@[simp] theorem State.setQueue_sieve (s : State) (fn q : Nat) (v : Queue) : (s.setQueue fn q v).sieve = s.sieve := rfl
@[simp] theorem State.setQueue_cfgs (s : State) (fn q : Nat) (v : Queue) : (s.setQueue fn q v).cfgs = s.cfgs := rfl
@[simp] theorem State.setQueue_progs (s : State) (fn q : Nat) (v : Queue) : (s.setQueue fn q v).progs = s.progs := rfl
@[simp] theorem State.setQueue_beat (s : State) (fn q : Nat) (v : Queue) : (s.setQueue fn q v).beat = s.beat := rfl
@[simp] theorem State.setQueue_cores (s : State) (fn q : Nat) (v : Queue) : (s.setQueue fn q v).cores = s.cores := rfl
@[simp] theorem State.setQueue_queues (s : State) (fn q : Nat) (v : Queue) :
    (s.setQueue fn q v).queues = s.queues.set Queue.fresh (key2 fn q) v := rfl
@[simp] theorem State.setQueue_launches (s : State) (fn q : Nat) (v : Queue) : (s.setQueue fn q v).launches = s.launches := rfl
@[simp] theorem State.setQueue_nextLaunch (s : State) (fn q : Nat) (v : Queue) :
    (s.setQueue fn q v).nextLaunch = s.nextLaunch := rfl
@[simp] theorem State.setQueue_gruns (s : State) (fn q : Nat) (v : Queue) : (s.setQueue fn q v).gruns = s.gruns := rfl
@[simp] theorem State.setQueue_ctxs (s : State) (fn q : Nat) (v : Queue) : (s.setQueue fn q v).ctxs = s.ctxs := rfl
@[simp] theorem State.setQueue_mobjs (s : State) (fn q : Nat) (v : Queue) : (s.setQueue fn q v).mobjs = s.mobjs := rfl
@[simp] theorem State.setQueue_graphs (s : State) (fn q : Nat) (v : Queue) : (s.setQueue fn q v).graphs = s.graphs := rfl
@[simp] theorem State.setQueue_latches (s : State) (fn q : Nat) (v : Queue) : (s.setQueue fn q v).latches = s.latches := rfl
@[simp] theorem State.setQueue_slots (s : State) (fn q : Nat) (v : Queue) : (s.setQueue fn q v).slots = s.slots := rfl
@[simp] theorem State.setQueue_destroys (s : State) (fn q : Nat) (v : Queue) : (s.setQueue fn q v).destroys = s.destroys := rfl
@[simp] theorem State.setQueue_log (s : State) (fn q : Nat) (v : Queue) : (s.setQueue fn q v).log = s.log := rfl
@[simp] theorem State.setQueue_ports (s : State) (fn q : Nat) (v : Queue) : (s.setQueue fn q v).ports = s.ports := rfl
@[simp] theorem State.setQueue_sigs (s : State) (fn q : Nat) (v : Queue) : (s.setQueue fn q v).sigs = s.sigs := rfl
@[simp] theorem State.setQueue_nextSig (s : State) (fn q : Nat) (v : Queue) : (s.setQueue fn q v).nextSig = s.nextSig := rfl
@[simp] theorem State.setQueue_inbound (s : State) (fn q : Nat) (v : Queue) : (s.setQueue fn q v).inbound = s.inbound := rfl
@[simp] theorem State.setQueue_changes (s : State) (fn q : Nat) (v : Queue) : (s.setQueue fn q v).changes = s.changes := rfl
@[simp] theorem State.setQueue_nextHandle (s : State) (fn q : Nat) (v : Queue) :
    (s.setQueue fn q v).nextHandle = s.nextHandle := rfl
@[simp] theorem State.setQueue_failed (s : State) (fn q : Nat) (v : Queue) : (s.setQueue fn q v).failed = s.failed := rfl
@[simp] theorem State.setQueue_awaitSpare (s : State) (fn q : Nat) (v : Queue) :
    (s.setQueue fn q v).awaitSpare = s.awaitSpare := rfl
@[simp] theorem State.setQueue_halted (s : State) (fn q : Nat) (v : Queue) : (s.setQueue fn q v).halted = s.halted := rfl
@[simp] theorem State.setQueue_kmc (s : State) (fn q : Nat) (v : Queue) : (s.setQueue fn q v).kmc = s.kmc := rfl
@[simp] theorem State.setQueue_flood (s : State) (fn q : Nat) (v : Queue) : (s.setQueue fn q v).flood = s.flood := rfl
@[simp] theorem State.setQueue_alarmId (s : State) (fn q : Nat) (v : Queue) : (s.setQueue fn q v).alarmId = s.alarmId := rfl
@[simp] theorem State.setQueue_bellId (s : State) (fn q : Nat) (v : Queue) : (s.setQueue fn q v).bellId = s.bellId := rfl
@[simp] theorem State.setQueue_resets (s : State) (fn q : Nat) (v : Queue) : (s.setQueue fn q v).resets = s.resets := rfl
@[simp] theorem State.setQueue_nextReset (s : State) (fn q : Nat) (v : Queue) : (s.setQueue fn q v).nextReset = s.nextReset := rfl
@[simp] theorem State.setQueue_aborts (s : State) (fn q : Nat) (v : Queue) : (s.setQueue fn q v).aborts = s.aborts := rfl
@[simp] theorem State.setQueue_fenced (s : State) (fn q : Nat) (v : Queue) : (s.setQueue fn q v).fenced = s.fenced := rfl
@[simp] theorem State.setQueue_parishEnd (s : State) (fn q : Nat) (v : Queue) : (s.setQueue fn q v).parishEnd = s.parishEnd := rfl
@[simp] theorem State.setQueue_keys (s : State) (fn q : Nat) (v : Queue) : (s.setQueue fn q v).keys = s.keys := rfl
@[simp] theorem State.setQueue_bells (s : State) (fn q : Nat) (v : Queue) : (s.setQueue fn q v).bells = s.bells := rfl
@[simp] theorem State.setQueue_pview (s : State) (fn q : Nat) (v : Queue) : (s.setQueue fn q v).pview = s.pview := rfl
@[simp] theorem State.setQueue_snap (s : State) (fn q : Nat) (v : Queue) : (s.setQueue fn q v).snap = s.snap := rfl
@[simp] theorem State.setQueue_hints (s : State) (fn q : Nat) (v : Queue) : (s.setQueue fn q v).hints = s.hints := rfl
@[simp] theorem State.setQueue_dump (s : State) (fn q : Nat) (v : Queue) : (s.setQueue fn q v).dump = s.dump := rfl
@[simp] theorem State.setQueue_sec (s : State) (fn q : Nat) (v : Queue) : (s.setQueue fn q v).sec = s.sec := rfl
@[simp] theorem State.setQueue_pow (s : State) (fn q : Nat) (v : Queue) : (s.setQueue fn q v).pow = s.pow := rfl
@[simp] theorem State.setQueue_rots (s : State) (fn q : Nat) (v : Queue) : (s.setQueue fn q v).rots = s.rots := rfl
@[simp] theorem State.setQueue_boot (s : State) (fn q : Nat) (v : Queue) : (s.setQueue fn q v).boot = s.boot := rfl
@[simp] theorem State.setQueue_mod (s : State) (fn q : Nat) (v : Queue) : (s.setQueue fn q v).mod = s.mod := rfl
@[simp] theorem State.setQueue_bridge (s : State) (fn q : Nat) (v : Queue) : (s.setQueue fn q v).bridge = s.bridge := rfl
@[simp] theorem State.setQueue_fetched (s : State) (fn q : Nat) (v : Queue) : (s.setQueue fn q v).fetched = s.fetched := rfl
@[simp] theorem State.setQueue_turn (s : State) (fn q : Nat) (v : Queue) : (s.setQueue fn q v).turn = s.turn := rfl

/-! ## A port is replaced. -/

@[simp] theorem State.setPort_pending (s : State) (p : Nat) (v : Port) : (s.setPort p v).pending = s.pending := rfl
@[simp] theorem State.setPort_free (s : State) (p : Nat) (v : Port) : (s.setPort p v).free = s.free := rfl
@[simp] theorem State.setPort_out (s : State) (p : Nat) (v : Port) : (s.setPort p v).out = s.out := rfl
@[simp] theorem State.setPort_deferred (s : State) (p : Nat) (v : Port) : (s.setPort p v).deferred = s.deferred := rfl
@[simp] theorem State.setPort_regs (s : State) (p : Nat) (v : Port) : (s.setPort p v).regs = s.regs := rfl
@[simp] theorem State.setPort_cnts (s : State) (p : Nat) (v : Port) : (s.setPort p v).cnts = s.cnts := rfl
@[simp] theorem State.setPort_mem (s : State) (p : Nat) (v : Port) : (s.setPort p v).mem = s.mem := rfl
@[simp] theorem State.setPort_poison (s : State) (p : Nat) (v : Port) : (s.setPort p v).poison = s.poison := rfl
@[simp] theorem State.setPort_bad (s : State) (p : Nat) (v : Port) : (s.setPort p v).bad = s.bad := rfl
@[simp] theorem State.setPort_dead (s : State) (p : Nat) (v : Port) : (s.setPort p v).dead = s.dead := rfl
@[simp] theorem State.setPort_chunks (s : State) (p : Nat) (v : Port) : (s.setPort p v).chunks = s.chunks := rfl
@[simp] theorem State.setPort_ledgers (s : State) (p : Nat) (v : Port) : (s.setPort p v).ledgers = s.ledgers := rfl
@[simp] theorem State.setPort_shared (s : State) (p : Nat) (v : Port) : (s.setPort p v).shared = s.shared := rfl
@[simp] theorem State.setPort_verified (s : State) (p : Nat) (v : Port) : (s.setPort p v).verified = s.verified := rfl
@[simp] theorem State.setPort_wipes (s : State) (p : Nat) (v : Port) : (s.setPort p v).wipes = s.wipes := rfl
@[simp] theorem State.setPort_contribs (s : State) (p : Nat) (v : Port) : (s.setPort p v).contribs = s.contribs := rfl
@[simp] theorem State.setPort_owing (s : State) (p : Nat) (v : Port) : (s.setPort p v).owing = s.owing := rfl
@[simp] theorem State.setPort_nextOwed (s : State) (p : Nat) (v : Port) : (s.setPort p v).nextOwed = s.nextOwed := rfl
@[simp] theorem State.setPort_reads (s : State) (p : Nat) (v : Port) : (s.setPort p v).reads = s.reads := rfl
@[simp] theorem State.setPort_mended (s : State) (p : Nat) (v : Port) : (s.setPort p v).mended = s.mended := rfl
@[simp] theorem State.setPort_hot (s : State) (p : Nat) (v : Port) : (s.setPort p v).hot = s.hot := rfl
@[simp] theorem State.setPort_t2ctr (s : State) (p : Nat) (v : Port) : (s.setPort p v).t2ctr = s.t2ctr := rfl
@[simp] theorem State.setPort_t2base (s : State) (p : Nat) (v : Port) : (s.setPort p v).t2base = s.t2base := rfl
@[simp] theorem State.setPort_t2node (s : State) (p : Nat) (v : Port) : (s.setPort p v).t2node = s.t2node := rfl
@[simp] theorem State.setPort_t2cache (s : State) (p : Nat) (v : Port) : (s.setPort p v).t2cache = s.t2cache := rfl
@[simp] theorem State.setPort_rollWant (s : State) (p : Nat) (v : Port) : (s.setPort p v).rollWant = s.rollWant := rfl
@[simp] theorem State.setPort_tlbs (s : State) (p : Nat) (v : Port) : (s.setPort p v).tlbs = s.tlbs := rfl
@[simp] theorem State.setPort_ctlbs (s : State) (p : Nat) (v : Port) : (s.setPort p v).ctlbs = s.ctlbs := rfl
@[simp] theorem State.setPort_ptrs (s : State) (p : Nat) (v : Port) : (s.setPort p v).ptrs = s.ptrs := rfl
@[simp] theorem State.setPort_faults (s : State) (p : Nat) (v : Port) : (s.setPort p v).faults = s.faults := rfl
@[simp] theorem State.setPort_nextFault (s : State) (p : Nat) (v : Port) : (s.setPort p v).nextFault = s.nextFault := rfl
@[simp] theorem State.setPort_invals (s : State) (p : Nat) (v : Port) : (s.setPort p v).invals = s.invals := rfl
@[simp] theorem State.setPort_nextInval (s : State) (p : Nat) (v : Port) : (s.setPort p v).nextInval = s.nextInval := rfl
@[simp] theorem State.setPort_ats (s : State) (p : Nat) (v : Port) : (s.setPort p v).ats = s.ats := rfl
@[simp] theorem State.setPort_sieve (s : State) (p : Nat) (v : Port) : (s.setPort p v).sieve = s.sieve := rfl
@[simp] theorem State.setPort_cfgs (s : State) (p : Nat) (v : Port) : (s.setPort p v).cfgs = s.cfgs := rfl
@[simp] theorem State.setPort_progs (s : State) (p : Nat) (v : Port) : (s.setPort p v).progs = s.progs := rfl
@[simp] theorem State.setPort_beat (s : State) (p : Nat) (v : Port) : (s.setPort p v).beat = s.beat := rfl
@[simp] theorem State.setPort_cores (s : State) (p : Nat) (v : Port) : (s.setPort p v).cores = s.cores := rfl
@[simp] theorem State.setPort_queues (s : State) (p : Nat) (v : Port) : (s.setPort p v).queues = s.queues := rfl
@[simp] theorem State.setPort_fetched (s : State) (p : Nat) (v : Port) : (s.setPort p v).fetched = s.fetched := rfl
@[simp] theorem State.setPort_turn (s : State) (p : Nat) (v : Port) : (s.setPort p v).turn = s.turn := rfl
@[simp] theorem State.setPort_launches (s : State) (p : Nat) (v : Port) : (s.setPort p v).launches = s.launches := rfl
@[simp] theorem State.setPort_nextLaunch (s : State) (p : Nat) (v : Port) : (s.setPort p v).nextLaunch = s.nextLaunch := rfl
@[simp] theorem State.setPort_gruns (s : State) (p : Nat) (v : Port) : (s.setPort p v).gruns = s.gruns := rfl
@[simp] theorem State.setPort_ctxs (s : State) (p : Nat) (v : Port) : (s.setPort p v).ctxs = s.ctxs := rfl
@[simp] theorem State.setPort_mobjs (s : State) (p : Nat) (v : Port) : (s.setPort p v).mobjs = s.mobjs := rfl
@[simp] theorem State.setPort_graphs (s : State) (p : Nat) (v : Port) : (s.setPort p v).graphs = s.graphs := rfl
@[simp] theorem State.setPort_latches (s : State) (p : Nat) (v : Port) : (s.setPort p v).latches = s.latches := rfl
@[simp] theorem State.setPort_slots (s : State) (p : Nat) (v : Port) : (s.setPort p v).slots = s.slots := rfl
@[simp] theorem State.setPort_destroys (s : State) (p : Nat) (v : Port) : (s.setPort p v).destroys = s.destroys := rfl
@[simp] theorem State.setPort_log (s : State) (p : Nat) (v : Port) : (s.setPort p v).log = s.log := rfl
@[simp] theorem State.setPort_ports (s : State) (p : Nat) (v : Port) : (s.setPort p v).ports = s.ports.set Port.fresh p v := rfl
@[simp] theorem State.setPort_sigs (s : State) (p : Nat) (v : Port) : (s.setPort p v).sigs = s.sigs := rfl
@[simp] theorem State.setPort_nextSig (s : State) (p : Nat) (v : Port) : (s.setPort p v).nextSig = s.nextSig := rfl
@[simp] theorem State.setPort_inbound (s : State) (p : Nat) (v : Port) : (s.setPort p v).inbound = s.inbound := rfl
@[simp] theorem State.setPort_changes (s : State) (p : Nat) (v : Port) : (s.setPort p v).changes = s.changes := rfl
@[simp] theorem State.setPort_nextHandle (s : State) (p : Nat) (v : Port) : (s.setPort p v).nextHandle = s.nextHandle := rfl
@[simp] theorem State.setPort_failed (s : State) (p : Nat) (v : Port) : (s.setPort p v).failed = s.failed := rfl
@[simp] theorem State.setPort_awaitSpare (s : State) (p : Nat) (v : Port) : (s.setPort p v).awaitSpare = s.awaitSpare := rfl
@[simp] theorem State.setPort_halted (s : State) (p : Nat) (v : Port) : (s.setPort p v).halted = s.halted := rfl
@[simp] theorem State.setPort_kmc (s : State) (p : Nat) (v : Port) : (s.setPort p v).kmc = s.kmc := rfl
@[simp] theorem State.setPort_flood (s : State) (p : Nat) (v : Port) : (s.setPort p v).flood = s.flood := rfl
@[simp] theorem State.setPort_alarmId (s : State) (p : Nat) (v : Port) : (s.setPort p v).alarmId = s.alarmId := rfl
@[simp] theorem State.setPort_bellId (s : State) (p : Nat) (v : Port) : (s.setPort p v).bellId = s.bellId := rfl
@[simp] theorem State.setPort_resets (s : State) (p : Nat) (v : Port) : (s.setPort p v).resets = s.resets := rfl
@[simp] theorem State.setPort_nextReset (s : State) (p : Nat) (v : Port) : (s.setPort p v).nextReset = s.nextReset := rfl
@[simp] theorem State.setPort_aborts (s : State) (p : Nat) (v : Port) : (s.setPort p v).aborts = s.aborts := rfl
@[simp] theorem State.setPort_fenced (s : State) (p : Nat) (v : Port) : (s.setPort p v).fenced = s.fenced := rfl
@[simp] theorem State.setPort_parishEnd (s : State) (p : Nat) (v : Port) : (s.setPort p v).parishEnd = s.parishEnd := rfl
@[simp] theorem State.setPort_keys (s : State) (p : Nat) (v : Port) : (s.setPort p v).keys = s.keys := rfl
@[simp] theorem State.setPort_bells (s : State) (p : Nat) (v : Port) : (s.setPort p v).bells = s.bells := rfl
@[simp] theorem State.setPort_pview (s : State) (p : Nat) (v : Port) : (s.setPort p v).pview = s.pview := rfl
@[simp] theorem State.setPort_snap (s : State) (p : Nat) (v : Port) : (s.setPort p v).snap = s.snap := rfl
@[simp] theorem State.setPort_hints (s : State) (p : Nat) (v : Port) : (s.setPort p v).hints = s.hints := rfl
@[simp] theorem State.setPort_dump (s : State) (p : Nat) (v : Port) : (s.setPort p v).dump = s.dump := rfl
@[simp] theorem State.setPort_sec (s : State) (p : Nat) (v : Port) : (s.setPort p v).sec = s.sec := rfl
@[simp] theorem State.setPort_pow (s : State) (p : Nat) (v : Port) : (s.setPort p v).pow = s.pow := rfl
@[simp] theorem State.setPort_rots (s : State) (p : Nat) (v : Port) : (s.setPort p v).rots = s.rots := rfl
@[simp] theorem State.setPort_boot (s : State) (p : Nat) (v : Port) : (s.setPort p v).boot = s.boot := rfl
@[simp] theorem State.setPort_mod (s : State) (p : Nat) (v : Port) : (s.setPort p v).mod = s.mod := rfl
@[simp] theorem State.setPort_bridge (s : State) (p : Nat) (v : Port) : (s.setPort p v).bridge = s.bridge := rfl

/-! ## A launch is updated. -/

@[simp] theorem State.updLaunch_pending (s : State) (id : Nat) (f : Launch → Launch) :
    (s.updLaunch id f).pending = s.pending := rfl
@[simp] theorem State.updLaunch_free (s : State) (id : Nat) (f : Launch → Launch) : (s.updLaunch id f).free = s.free := rfl
@[simp] theorem State.updLaunch_out (s : State) (id : Nat) (f : Launch → Launch) : (s.updLaunch id f).out = s.out := rfl
@[simp] theorem State.updLaunch_deferred (s : State) (id : Nat) (f : Launch → Launch) :
    (s.updLaunch id f).deferred = s.deferred := rfl
@[simp] theorem State.updLaunch_regs (s : State) (id : Nat) (f : Launch → Launch) : (s.updLaunch id f).regs = s.regs := rfl
@[simp] theorem State.updLaunch_cnts (s : State) (id : Nat) (f : Launch → Launch) : (s.updLaunch id f).cnts = s.cnts := rfl
@[simp] theorem State.updLaunch_mem (s : State) (id : Nat) (f : Launch → Launch) : (s.updLaunch id f).mem = s.mem := rfl
@[simp] theorem State.updLaunch_poison (s : State) (id : Nat) (f : Launch → Launch) : (s.updLaunch id f).poison = s.poison := rfl
@[simp] theorem State.updLaunch_bad (s : State) (id : Nat) (f : Launch → Launch) : (s.updLaunch id f).bad = s.bad := rfl
@[simp] theorem State.updLaunch_dead (s : State) (id : Nat) (f : Launch → Launch) : (s.updLaunch id f).dead = s.dead := rfl
@[simp] theorem State.updLaunch_chunks (s : State) (id : Nat) (f : Launch → Launch) : (s.updLaunch id f).chunks = s.chunks := rfl
@[simp] theorem State.updLaunch_ledgers (s : State) (id : Nat) (f : Launch → Launch) :
    (s.updLaunch id f).ledgers = s.ledgers := rfl
@[simp] theorem State.updLaunch_shared (s : State) (id : Nat) (f : Launch → Launch) : (s.updLaunch id f).shared = s.shared := rfl
@[simp] theorem State.updLaunch_verified (s : State) (id : Nat) (f : Launch → Launch) :
    (s.updLaunch id f).verified = s.verified := rfl
@[simp] theorem State.updLaunch_wipes (s : State) (id : Nat) (f : Launch → Launch) : (s.updLaunch id f).wipes = s.wipes := rfl
@[simp] theorem State.updLaunch_contribs (s : State) (id : Nat) (f : Launch → Launch) : (s.updLaunch id f).contribs = s.contribs := rfl
@[simp] theorem State.updLaunch_owing (s : State) (id : Nat) (f : Launch → Launch) : (s.updLaunch id f).owing = s.owing := rfl
@[simp] theorem State.updLaunch_nextOwed (s : State) (id : Nat) (f : Launch → Launch) : (s.updLaunch id f).nextOwed = s.nextOwed := rfl
@[simp] theorem State.updLaunch_reads (s : State) (id : Nat) (f : Launch → Launch) : (s.updLaunch id f).reads = s.reads := rfl
@[simp] theorem State.updLaunch_mended (s : State) (id : Nat) (f : Launch → Launch) : (s.updLaunch id f).mended = s.mended := rfl
@[simp] theorem State.updLaunch_hot (s : State) (id : Nat) (f : Launch → Launch) : (s.updLaunch id f).hot = s.hot := rfl
@[simp] theorem State.updLaunch_t2ctr (s : State) (id : Nat) (f : Launch → Launch) : (s.updLaunch id f).t2ctr = s.t2ctr := rfl
@[simp] theorem State.updLaunch_t2base (s : State) (id : Nat) (f : Launch → Launch) : (s.updLaunch id f).t2base = s.t2base := rfl
@[simp] theorem State.updLaunch_t2node (s : State) (id : Nat) (f : Launch → Launch) : (s.updLaunch id f).t2node = s.t2node := rfl
@[simp] theorem State.updLaunch_t2cache (s : State) (id : Nat) (f : Launch → Launch) :
    (s.updLaunch id f).t2cache = s.t2cache := rfl
@[simp] theorem State.updLaunch_rollWant (s : State) (id : Nat) (f : Launch → Launch) :
    (s.updLaunch id f).rollWant = s.rollWant := rfl
@[simp] theorem State.updLaunch_tlbs (s : State) (id : Nat) (f : Launch → Launch) : (s.updLaunch id f).tlbs = s.tlbs := rfl
@[simp] theorem State.updLaunch_ctlbs (s : State) (id : Nat) (f : Launch → Launch) : (s.updLaunch id f).ctlbs = s.ctlbs := rfl
@[simp] theorem State.updLaunch_ptrs (s : State) (id : Nat) (f : Launch → Launch) : (s.updLaunch id f).ptrs = s.ptrs := rfl
@[simp] theorem State.updLaunch_faults (s : State) (id : Nat) (f : Launch → Launch) : (s.updLaunch id f).faults = s.faults := rfl
@[simp] theorem State.updLaunch_nextFault (s : State) (id : Nat) (f : Launch → Launch) :
    (s.updLaunch id f).nextFault = s.nextFault := rfl
@[simp] theorem State.updLaunch_invals (s : State) (id : Nat) (f : Launch → Launch) : (s.updLaunch id f).invals = s.invals := rfl
@[simp] theorem State.updLaunch_nextInval (s : State) (id : Nat) (f : Launch → Launch) :
    (s.updLaunch id f).nextInval = s.nextInval := rfl
@[simp] theorem State.updLaunch_ats (s : State) (id : Nat) (f : Launch → Launch) : (s.updLaunch id f).ats = s.ats := rfl
@[simp] theorem State.updLaunch_sieve (s : State) (id : Nat) (f : Launch → Launch) : (s.updLaunch id f).sieve = s.sieve := rfl
@[simp] theorem State.updLaunch_cfgs (s : State) (id : Nat) (f : Launch → Launch) : (s.updLaunch id f).cfgs = s.cfgs := rfl
@[simp] theorem State.updLaunch_progs (s : State) (id : Nat) (f : Launch → Launch) : (s.updLaunch id f).progs = s.progs := rfl
@[simp] theorem State.updLaunch_beat (s : State) (id : Nat) (f : Launch → Launch) : (s.updLaunch id f).beat = s.beat := rfl
@[simp] theorem State.updLaunch_cores (s : State) (id : Nat) (f : Launch → Launch) : (s.updLaunch id f).cores = s.cores := rfl
@[simp] theorem State.updLaunch_queues (s : State) (id : Nat) (f : Launch → Launch) : (s.updLaunch id f).queues = s.queues := rfl
@[simp] theorem State.updLaunch_fetched (s : State) (id : Nat) (f : Launch → Launch) : (s.updLaunch id f).fetched = s.fetched := rfl
@[simp] theorem State.updLaunch_turn (s : State) (id : Nat) (f : Launch → Launch) : (s.updLaunch id f).turn = s.turn := rfl
@[simp] theorem State.updLaunch_launches (s : State) (id : Nat) (f : Launch → Launch) :
    (s.updLaunch id f).launches = s.launches.map fun l => if l.id == id then f l else l := rfl
@[simp] theorem State.updLaunch_nextLaunch (s : State) (id : Nat) (f : Launch → Launch) :
    (s.updLaunch id f).nextLaunch = s.nextLaunch := rfl
@[simp] theorem State.updLaunch_gruns (s : State) (id : Nat) (f : Launch → Launch) : (s.updLaunch id f).gruns = s.gruns := rfl
@[simp] theorem State.updLaunch_ctxs (s : State) (id : Nat) (f : Launch → Launch) : (s.updLaunch id f).ctxs = s.ctxs := rfl
@[simp] theorem State.updLaunch_mobjs (s : State) (id : Nat) (f : Launch → Launch) : (s.updLaunch id f).mobjs = s.mobjs := rfl
@[simp] theorem State.updLaunch_graphs (s : State) (id : Nat) (f : Launch → Launch) : (s.updLaunch id f).graphs = s.graphs := rfl
@[simp] theorem State.updLaunch_latches (s : State) (id : Nat) (f : Launch → Launch) :
    (s.updLaunch id f).latches = s.latches := rfl
@[simp] theorem State.updLaunch_slots (s : State) (id : Nat) (f : Launch → Launch) : (s.updLaunch id f).slots = s.slots := rfl
@[simp] theorem State.updLaunch_destroys (s : State) (id : Nat) (f : Launch → Launch) :
    (s.updLaunch id f).destroys = s.destroys := rfl
@[simp] theorem State.updLaunch_log (s : State) (id : Nat) (f : Launch → Launch) : (s.updLaunch id f).log = s.log := rfl
@[simp] theorem State.updLaunch_ports (s : State) (id : Nat) (f : Launch → Launch) : (s.updLaunch id f).ports = s.ports := rfl
@[simp] theorem State.updLaunch_sigs (s : State) (id : Nat) (f : Launch → Launch) : (s.updLaunch id f).sigs = s.sigs := rfl
@[simp] theorem State.updLaunch_nextSig (s : State) (id : Nat) (f : Launch → Launch) :
    (s.updLaunch id f).nextSig = s.nextSig := rfl
@[simp] theorem State.updLaunch_inbound (s : State) (id : Nat) (f : Launch → Launch) :
    (s.updLaunch id f).inbound = s.inbound := rfl
@[simp] theorem State.updLaunch_changes (s : State) (id : Nat) (f : Launch → Launch) :
    (s.updLaunch id f).changes = s.changes := rfl
@[simp] theorem State.updLaunch_nextHandle (s : State) (id : Nat) (f : Launch → Launch) :
    (s.updLaunch id f).nextHandle = s.nextHandle := rfl
@[simp] theorem State.updLaunch_failed (s : State) (id : Nat) (f : Launch → Launch) : (s.updLaunch id f).failed = s.failed := rfl
@[simp] theorem State.updLaunch_awaitSpare (s : State) (id : Nat) (f : Launch → Launch) :
    (s.updLaunch id f).awaitSpare = s.awaitSpare := rfl
@[simp] theorem State.updLaunch_halted (s : State) (id : Nat) (f : Launch → Launch) : (s.updLaunch id f).halted = s.halted := rfl
@[simp] theorem State.updLaunch_kmc (s : State) (id : Nat) (f : Launch → Launch) : (s.updLaunch id f).kmc = s.kmc := rfl
@[simp] theorem State.updLaunch_flood (s : State) (id : Nat) (f : Launch → Launch) : (s.updLaunch id f).flood = s.flood := rfl
@[simp] theorem State.updLaunch_alarmId (s : State) (id : Nat) (f : Launch → Launch) :
    (s.updLaunch id f).alarmId = s.alarmId := rfl
@[simp] theorem State.updLaunch_bellId (s : State) (id : Nat) (f : Launch → Launch) : (s.updLaunch id f).bellId = s.bellId := rfl
@[simp] theorem State.updLaunch_resets (s : State) (id : Nat) (f : Launch → Launch) : (s.updLaunch id f).resets = s.resets := rfl
@[simp] theorem State.updLaunch_nextReset (s : State) (id : Nat) (f : Launch → Launch) :
    (s.updLaunch id f).nextReset = s.nextReset := rfl
@[simp] theorem State.updLaunch_aborts (s : State) (id : Nat) (f : Launch → Launch) : (s.updLaunch id f).aborts = s.aborts := rfl
@[simp] theorem State.updLaunch_fenced (s : State) (id : Nat) (f : Launch → Launch) : (s.updLaunch id f).fenced = s.fenced := rfl
@[simp] theorem State.updLaunch_parishEnd (s : State) (id : Nat) (f : Launch → Launch) :
    (s.updLaunch id f).parishEnd = s.parishEnd := rfl
@[simp] theorem State.updLaunch_keys (s : State) (id : Nat) (f : Launch → Launch) : (s.updLaunch id f).keys = s.keys := rfl
@[simp] theorem State.updLaunch_bells (s : State) (id : Nat) (f : Launch → Launch) : (s.updLaunch id f).bells = s.bells := rfl
@[simp] theorem State.updLaunch_pview (s : State) (id : Nat) (f : Launch → Launch) : (s.updLaunch id f).pview = s.pview := rfl
@[simp] theorem State.updLaunch_snap (s : State) (id : Nat) (f : Launch → Launch) : (s.updLaunch id f).snap = s.snap := rfl
@[simp] theorem State.updLaunch_hints (s : State) (id : Nat) (f : Launch → Launch) : (s.updLaunch id f).hints = s.hints := rfl
@[simp] theorem State.updLaunch_dump (s : State) (id : Nat) (f : Launch → Launch) : (s.updLaunch id f).dump = s.dump := rfl
@[simp] theorem State.updLaunch_sec (s : State) (id : Nat) (f : Launch → Launch) : (s.updLaunch id f).sec = s.sec := rfl
@[simp] theorem State.updLaunch_pow (s : State) (id : Nat) (f : Launch → Launch) : (s.updLaunch id f).pow = s.pow := rfl
@[simp] theorem State.updLaunch_rots (s : State) (id : Nat) (f : Launch → Launch) : (s.updLaunch id f).rots = s.rots := rfl
@[simp] theorem State.updLaunch_boot (s : State) (id : Nat) (f : Launch → Launch) : (s.updLaunch id f).boot = s.boot := rfl
@[simp] theorem State.updLaunch_mod (s : State) (id : Nat) (f : Launch → Launch) : (s.updLaunch id f).mod = s.mod := rfl
@[simp] theorem State.updLaunch_bridge (s : State) (id : Nat) (f : Launch → Launch) : (s.updLaunch id f).bridge = s.bridge := rfl

/-! ## A change is replaced. -/

@[simp] theorem State.setChange_pending (s : State) (x : Change) : (s.setChange x).pending = s.pending := rfl
@[simp] theorem State.setChange_free (s : State) (x : Change) : (s.setChange x).free = s.free := rfl
@[simp] theorem State.setChange_out (s : State) (x : Change) : (s.setChange x).out = s.out := rfl
@[simp] theorem State.setChange_deferred (s : State) (x : Change) : (s.setChange x).deferred = s.deferred := rfl
@[simp] theorem State.setChange_regs (s : State) (x : Change) : (s.setChange x).regs = s.regs := rfl
@[simp] theorem State.setChange_cnts (s : State) (x : Change) : (s.setChange x).cnts = s.cnts := rfl
@[simp] theorem State.setChange_mem (s : State) (x : Change) : (s.setChange x).mem = s.mem := rfl
@[simp] theorem State.setChange_poison (s : State) (x : Change) : (s.setChange x).poison = s.poison := rfl
@[simp] theorem State.setChange_bad (s : State) (x : Change) : (s.setChange x).bad = s.bad := rfl
@[simp] theorem State.setChange_dead (s : State) (x : Change) : (s.setChange x).dead = s.dead := rfl
@[simp] theorem State.setChange_chunks (s : State) (x : Change) : (s.setChange x).chunks = s.chunks := rfl
@[simp] theorem State.setChange_ledgers (s : State) (x : Change) : (s.setChange x).ledgers = s.ledgers := rfl
@[simp] theorem State.setChange_shared (s : State) (x : Change) : (s.setChange x).shared = s.shared := rfl
@[simp] theorem State.setChange_verified (s : State) (x : Change) : (s.setChange x).verified = s.verified := rfl
@[simp] theorem State.setChange_wipes (s : State) (x : Change) : (s.setChange x).wipes = s.wipes := rfl
@[simp] theorem State.setChange_contribs (s : State) (x : Change) : (s.setChange x).contribs = s.contribs := rfl
@[simp] theorem State.setChange_owing (s : State) (x : Change) : (s.setChange x).owing = s.owing := rfl
@[simp] theorem State.setChange_nextOwed (s : State) (x : Change) : (s.setChange x).nextOwed = s.nextOwed := rfl
@[simp] theorem State.setChange_reads (s : State) (x : Change) : (s.setChange x).reads = s.reads := rfl
@[simp] theorem State.setChange_mended (s : State) (x : Change) : (s.setChange x).mended = s.mended := rfl
@[simp] theorem State.setChange_hot (s : State) (x : Change) : (s.setChange x).hot = s.hot := rfl
@[simp] theorem State.setChange_t2ctr (s : State) (x : Change) : (s.setChange x).t2ctr = s.t2ctr := rfl
@[simp] theorem State.setChange_t2base (s : State) (x : Change) : (s.setChange x).t2base = s.t2base := rfl
@[simp] theorem State.setChange_t2node (s : State) (x : Change) : (s.setChange x).t2node = s.t2node := rfl
@[simp] theorem State.setChange_t2cache (s : State) (x : Change) : (s.setChange x).t2cache = s.t2cache := rfl
@[simp] theorem State.setChange_rollWant (s : State) (x : Change) : (s.setChange x).rollWant = s.rollWant := rfl
@[simp] theorem State.setChange_tlbs (s : State) (x : Change) : (s.setChange x).tlbs = s.tlbs := rfl
@[simp] theorem State.setChange_ctlbs (s : State) (x : Change) : (s.setChange x).ctlbs = s.ctlbs := rfl
@[simp] theorem State.setChange_ptrs (s : State) (x : Change) : (s.setChange x).ptrs = s.ptrs := rfl
@[simp] theorem State.setChange_faults (s : State) (x : Change) : (s.setChange x).faults = s.faults := rfl
@[simp] theorem State.setChange_nextFault (s : State) (x : Change) : (s.setChange x).nextFault = s.nextFault := rfl
@[simp] theorem State.setChange_invals (s : State) (x : Change) : (s.setChange x).invals = s.invals := rfl
@[simp] theorem State.setChange_nextInval (s : State) (x : Change) : (s.setChange x).nextInval = s.nextInval := rfl
@[simp] theorem State.setChange_ats (s : State) (x : Change) : (s.setChange x).ats = s.ats := rfl
@[simp] theorem State.setChange_sieve (s : State) (x : Change) : (s.setChange x).sieve = s.sieve := rfl
@[simp] theorem State.setChange_cfgs (s : State) (x : Change) : (s.setChange x).cfgs = s.cfgs := rfl
@[simp] theorem State.setChange_progs (s : State) (x : Change) : (s.setChange x).progs = s.progs := rfl
@[simp] theorem State.setChange_beat (s : State) (x : Change) : (s.setChange x).beat = s.beat := rfl
@[simp] theorem State.setChange_cores (s : State) (x : Change) : (s.setChange x).cores = s.cores := rfl
@[simp] theorem State.setChange_queues (s : State) (x : Change) : (s.setChange x).queues = s.queues := rfl
@[simp] theorem State.setChange_fetched (s : State) (x : Change) : (s.setChange x).fetched = s.fetched := rfl
@[simp] theorem State.setChange_turn (s : State) (x : Change) : (s.setChange x).turn = s.turn := rfl
@[simp] theorem State.setChange_launches (s : State) (x : Change) : (s.setChange x).launches = s.launches := rfl
@[simp] theorem State.setChange_nextLaunch (s : State) (x : Change) : (s.setChange x).nextLaunch = s.nextLaunch := rfl
@[simp] theorem State.setChange_gruns (s : State) (x : Change) : (s.setChange x).gruns = s.gruns := rfl
@[simp] theorem State.setChange_ctxs (s : State) (x : Change) : (s.setChange x).ctxs = s.ctxs := rfl
@[simp] theorem State.setChange_mobjs (s : State) (x : Change) : (s.setChange x).mobjs = s.mobjs := rfl
@[simp] theorem State.setChange_graphs (s : State) (x : Change) : (s.setChange x).graphs = s.graphs := rfl
@[simp] theorem State.setChange_latches (s : State) (x : Change) : (s.setChange x).latches = s.latches := rfl
@[simp] theorem State.setChange_slots (s : State) (x : Change) : (s.setChange x).slots = s.slots := rfl
@[simp] theorem State.setChange_destroys (s : State) (x : Change) : (s.setChange x).destroys = s.destroys := rfl
@[simp] theorem State.setChange_log (s : State) (x : Change) : (s.setChange x).log = s.log := rfl
@[simp] theorem State.setChange_ports (s : State) (x : Change) : (s.setChange x).ports = s.ports := rfl
@[simp] theorem State.setChange_sigs (s : State) (x : Change) : (s.setChange x).sigs = s.sigs := rfl
@[simp] theorem State.setChange_nextSig (s : State) (x : Change) : (s.setChange x).nextSig = s.nextSig := rfl
@[simp] theorem State.setChange_inbound (s : State) (x : Change) : (s.setChange x).inbound = s.inbound := rfl
@[simp] theorem State.setChange_changes (s : State) (x : Change) :
    (s.setChange x).changes = s.changes.map fun y => if y.handle = x.handle then x else y := rfl
@[simp] theorem State.setChange_nextHandle (s : State) (x : Change) : (s.setChange x).nextHandle = s.nextHandle := rfl
@[simp] theorem State.setChange_failed (s : State) (x : Change) : (s.setChange x).failed = s.failed := rfl
@[simp] theorem State.setChange_awaitSpare (s : State) (x : Change) : (s.setChange x).awaitSpare = s.awaitSpare := rfl
@[simp] theorem State.setChange_halted (s : State) (x : Change) : (s.setChange x).halted = s.halted := rfl
@[simp] theorem State.setChange_kmc (s : State) (x : Change) : (s.setChange x).kmc = s.kmc := rfl
@[simp] theorem State.setChange_flood (s : State) (x : Change) : (s.setChange x).flood = s.flood := rfl
@[simp] theorem State.setChange_alarmId (s : State) (x : Change) : (s.setChange x).alarmId = s.alarmId := rfl
@[simp] theorem State.setChange_bellId (s : State) (x : Change) : (s.setChange x).bellId = s.bellId := rfl
@[simp] theorem State.setChange_resets (s : State) (x : Change) : (s.setChange x).resets = s.resets := rfl
@[simp] theorem State.setChange_nextReset (s : State) (x : Change) : (s.setChange x).nextReset = s.nextReset := rfl
@[simp] theorem State.setChange_aborts (s : State) (x : Change) : (s.setChange x).aborts = s.aborts := rfl
@[simp] theorem State.setChange_fenced (s : State) (x : Change) : (s.setChange x).fenced = s.fenced := rfl
@[simp] theorem State.setChange_parishEnd (s : State) (x : Change) : (s.setChange x).parishEnd = s.parishEnd := rfl
@[simp] theorem State.setChange_keys (s : State) (x : Change) : (s.setChange x).keys = s.keys := rfl
@[simp] theorem State.setChange_bells (s : State) (x : Change) : (s.setChange x).bells = s.bells := rfl
@[simp] theorem State.setChange_pview (s : State) (x : Change) : (s.setChange x).pview = s.pview := rfl
@[simp] theorem State.setChange_snap (s : State) (x : Change) : (s.setChange x).snap = s.snap := rfl
@[simp] theorem State.setChange_hints (s : State) (x : Change) : (s.setChange x).hints = s.hints := rfl
@[simp] theorem State.setChange_dump (s : State) (x : Change) : (s.setChange x).dump = s.dump := rfl
@[simp] theorem State.setChange_sec (s : State) (x : Change) : (s.setChange x).sec = s.sec := rfl
@[simp] theorem State.setChange_pow (s : State) (x : Change) : (s.setChange x).pow = s.pow := rfl
@[simp] theorem State.setChange_rots (s : State) (x : Change) : (s.setChange x).rots = s.rots := rfl
@[simp] theorem State.setChange_boot (s : State) (x : Change) : (s.setChange x).boot = s.boot := rfl
@[simp] theorem State.setChange_mod (s : State) (x : Change) : (s.setChange x).mod = s.mod := rfl
@[simp] theorem State.setChange_bridge (s : State) (x : Change) : (s.setChange x).bridge = s.bridge := rfl

/-! ## A reset is updated. -/

@[simp] theorem State.updReset_pending (s : State) (id : Nat) (f : Reset → Reset) : (s.updReset id f).pending = s.pending := rfl
@[simp] theorem State.updReset_free (s : State) (id : Nat) (f : Reset → Reset) : (s.updReset id f).free = s.free := rfl
@[simp] theorem State.updReset_out (s : State) (id : Nat) (f : Reset → Reset) : (s.updReset id f).out = s.out := rfl
@[simp] theorem State.updReset_deferred (s : State) (id : Nat) (f : Reset → Reset) :
    (s.updReset id f).deferred = s.deferred := rfl
@[simp] theorem State.updReset_regs (s : State) (id : Nat) (f : Reset → Reset) : (s.updReset id f).regs = s.regs := rfl
@[simp] theorem State.updReset_cnts (s : State) (id : Nat) (f : Reset → Reset) : (s.updReset id f).cnts = s.cnts := rfl
@[simp] theorem State.updReset_mem (s : State) (id : Nat) (f : Reset → Reset) : (s.updReset id f).mem = s.mem := rfl
@[simp] theorem State.updReset_poison (s : State) (id : Nat) (f : Reset → Reset) : (s.updReset id f).poison = s.poison := rfl
@[simp] theorem State.updReset_bad (s : State) (id : Nat) (f : Reset → Reset) : (s.updReset id f).bad = s.bad := rfl
@[simp] theorem State.updReset_dead (s : State) (id : Nat) (f : Reset → Reset) : (s.updReset id f).dead = s.dead := rfl
@[simp] theorem State.updReset_chunks (s : State) (id : Nat) (f : Reset → Reset) : (s.updReset id f).chunks = s.chunks := rfl
@[simp] theorem State.updReset_ledgers (s : State) (id : Nat) (f : Reset → Reset) : (s.updReset id f).ledgers = s.ledgers := rfl
@[simp] theorem State.updReset_shared (s : State) (id : Nat) (f : Reset → Reset) : (s.updReset id f).shared = s.shared := rfl
@[simp] theorem State.updReset_verified (s : State) (id : Nat) (f : Reset → Reset) :
    (s.updReset id f).verified = s.verified := rfl
@[simp] theorem State.updReset_wipes (s : State) (id : Nat) (f : Reset → Reset) : (s.updReset id f).wipes = s.wipes := rfl
@[simp] theorem State.updReset_contribs (s : State) (id : Nat) (f : Reset → Reset) : (s.updReset id f).contribs = s.contribs := rfl
@[simp] theorem State.updReset_owing (s : State) (id : Nat) (f : Reset → Reset) : (s.updReset id f).owing = s.owing := rfl
@[simp] theorem State.updReset_nextOwed (s : State) (id : Nat) (f : Reset → Reset) : (s.updReset id f).nextOwed = s.nextOwed := rfl
@[simp] theorem State.updReset_reads (s : State) (id : Nat) (f : Reset → Reset) : (s.updReset id f).reads = s.reads := rfl
@[simp] theorem State.updReset_mended (s : State) (id : Nat) (f : Reset → Reset) : (s.updReset id f).mended = s.mended := rfl
@[simp] theorem State.updReset_hot (s : State) (id : Nat) (f : Reset → Reset) : (s.updReset id f).hot = s.hot := rfl
@[simp] theorem State.updReset_t2ctr (s : State) (id : Nat) (f : Reset → Reset) : (s.updReset id f).t2ctr = s.t2ctr := rfl
@[simp] theorem State.updReset_t2base (s : State) (id : Nat) (f : Reset → Reset) : (s.updReset id f).t2base = s.t2base := rfl
@[simp] theorem State.updReset_t2node (s : State) (id : Nat) (f : Reset → Reset) : (s.updReset id f).t2node = s.t2node := rfl
@[simp] theorem State.updReset_t2cache (s : State) (id : Nat) (f : Reset → Reset) : (s.updReset id f).t2cache = s.t2cache := rfl
@[simp] theorem State.updReset_rollWant (s : State) (id : Nat) (f : Reset → Reset) :
    (s.updReset id f).rollWant = s.rollWant := rfl
@[simp] theorem State.updReset_tlbs (s : State) (id : Nat) (f : Reset → Reset) : (s.updReset id f).tlbs = s.tlbs := rfl
@[simp] theorem State.updReset_ctlbs (s : State) (id : Nat) (f : Reset → Reset) : (s.updReset id f).ctlbs = s.ctlbs := rfl
@[simp] theorem State.updReset_ptrs (s : State) (id : Nat) (f : Reset → Reset) : (s.updReset id f).ptrs = s.ptrs := rfl
@[simp] theorem State.updReset_faults (s : State) (id : Nat) (f : Reset → Reset) : (s.updReset id f).faults = s.faults := rfl
@[simp] theorem State.updReset_nextFault (s : State) (id : Nat) (f : Reset → Reset) :
    (s.updReset id f).nextFault = s.nextFault := rfl
@[simp] theorem State.updReset_invals (s : State) (id : Nat) (f : Reset → Reset) : (s.updReset id f).invals = s.invals := rfl
@[simp] theorem State.updReset_nextInval (s : State) (id : Nat) (f : Reset → Reset) :
    (s.updReset id f).nextInval = s.nextInval := rfl
@[simp] theorem State.updReset_ats (s : State) (id : Nat) (f : Reset → Reset) : (s.updReset id f).ats = s.ats := rfl
@[simp] theorem State.updReset_sieve (s : State) (id : Nat) (f : Reset → Reset) : (s.updReset id f).sieve = s.sieve := rfl
@[simp] theorem State.updReset_cfgs (s : State) (id : Nat) (f : Reset → Reset) : (s.updReset id f).cfgs = s.cfgs := rfl
@[simp] theorem State.updReset_progs (s : State) (id : Nat) (f : Reset → Reset) : (s.updReset id f).progs = s.progs := rfl
@[simp] theorem State.updReset_beat (s : State) (id : Nat) (f : Reset → Reset) : (s.updReset id f).beat = s.beat := rfl
@[simp] theorem State.updReset_cores (s : State) (id : Nat) (f : Reset → Reset) : (s.updReset id f).cores = s.cores := rfl
@[simp] theorem State.updReset_queues (s : State) (id : Nat) (f : Reset → Reset) : (s.updReset id f).queues = s.queues := rfl
@[simp] theorem State.updReset_fetched (s : State) (id : Nat) (f : Reset → Reset) : (s.updReset id f).fetched = s.fetched := rfl
@[simp] theorem State.updReset_turn (s : State) (id : Nat) (f : Reset → Reset) : (s.updReset id f).turn = s.turn := rfl
@[simp] theorem State.updReset_launches (s : State) (id : Nat) (f : Reset → Reset) :
    (s.updReset id f).launches = s.launches := rfl
@[simp] theorem State.updReset_nextLaunch (s : State) (id : Nat) (f : Reset → Reset) :
    (s.updReset id f).nextLaunch = s.nextLaunch := rfl
@[simp] theorem State.updReset_gruns (s : State) (id : Nat) (f : Reset → Reset) : (s.updReset id f).gruns = s.gruns := rfl
@[simp] theorem State.updReset_ctxs (s : State) (id : Nat) (f : Reset → Reset) : (s.updReset id f).ctxs = s.ctxs := rfl
@[simp] theorem State.updReset_mobjs (s : State) (id : Nat) (f : Reset → Reset) : (s.updReset id f).mobjs = s.mobjs := rfl
@[simp] theorem State.updReset_graphs (s : State) (id : Nat) (f : Reset → Reset) : (s.updReset id f).graphs = s.graphs := rfl
@[simp] theorem State.updReset_latches (s : State) (id : Nat) (f : Reset → Reset) : (s.updReset id f).latches = s.latches := rfl
@[simp] theorem State.updReset_slots (s : State) (id : Nat) (f : Reset → Reset) : (s.updReset id f).slots = s.slots := rfl
@[simp] theorem State.updReset_destroys (s : State) (id : Nat) (f : Reset → Reset) :
    (s.updReset id f).destroys = s.destroys := rfl
@[simp] theorem State.updReset_log (s : State) (id : Nat) (f : Reset → Reset) : (s.updReset id f).log = s.log := rfl
@[simp] theorem State.updReset_ports (s : State) (id : Nat) (f : Reset → Reset) : (s.updReset id f).ports = s.ports := rfl
@[simp] theorem State.updReset_sigs (s : State) (id : Nat) (f : Reset → Reset) : (s.updReset id f).sigs = s.sigs := rfl
@[simp] theorem State.updReset_nextSig (s : State) (id : Nat) (f : Reset → Reset) : (s.updReset id f).nextSig = s.nextSig := rfl
@[simp] theorem State.updReset_inbound (s : State) (id : Nat) (f : Reset → Reset) : (s.updReset id f).inbound = s.inbound := rfl
@[simp] theorem State.updReset_changes (s : State) (id : Nat) (f : Reset → Reset) : (s.updReset id f).changes = s.changes := rfl
@[simp] theorem State.updReset_nextHandle (s : State) (id : Nat) (f : Reset → Reset) :
    (s.updReset id f).nextHandle = s.nextHandle := rfl
@[simp] theorem State.updReset_failed (s : State) (id : Nat) (f : Reset → Reset) : (s.updReset id f).failed = s.failed := rfl
@[simp] theorem State.updReset_awaitSpare (s : State) (id : Nat) (f : Reset → Reset) :
    (s.updReset id f).awaitSpare = s.awaitSpare := rfl
@[simp] theorem State.updReset_halted (s : State) (id : Nat) (f : Reset → Reset) : (s.updReset id f).halted = s.halted := rfl
@[simp] theorem State.updReset_kmc (s : State) (id : Nat) (f : Reset → Reset) : (s.updReset id f).kmc = s.kmc := rfl
@[simp] theorem State.updReset_flood (s : State) (id : Nat) (f : Reset → Reset) : (s.updReset id f).flood = s.flood := rfl
@[simp] theorem State.updReset_alarmId (s : State) (id : Nat) (f : Reset → Reset) : (s.updReset id f).alarmId = s.alarmId := rfl
@[simp] theorem State.updReset_bellId (s : State) (id : Nat) (f : Reset → Reset) : (s.updReset id f).bellId = s.bellId := rfl
@[simp] theorem State.updReset_resets (s : State) (id : Nat) (f : Reset → Reset) :
    (s.updReset id f).resets = s.resets.map fun r => if r.id = id then f r else r := rfl
@[simp] theorem State.updReset_nextReset (s : State) (id : Nat) (f : Reset → Reset) :
    (s.updReset id f).nextReset = s.nextReset := rfl
@[simp] theorem State.updReset_aborts (s : State) (id : Nat) (f : Reset → Reset) : (s.updReset id f).aborts = s.aborts := rfl
@[simp] theorem State.updReset_fenced (s : State) (id : Nat) (f : Reset → Reset) : (s.updReset id f).fenced = s.fenced := rfl
@[simp] theorem State.updReset_parishEnd (s : State) (id : Nat) (f : Reset → Reset) :
    (s.updReset id f).parishEnd = s.parishEnd := rfl
@[simp] theorem State.updReset_keys (s : State) (id : Nat) (f : Reset → Reset) : (s.updReset id f).keys = s.keys := rfl
@[simp] theorem State.updReset_bells (s : State) (id : Nat) (f : Reset → Reset) : (s.updReset id f).bells = s.bells := rfl
@[simp] theorem State.updReset_pview (s : State) (id : Nat) (f : Reset → Reset) : (s.updReset id f).pview = s.pview := rfl
@[simp] theorem State.updReset_snap (s : State) (id : Nat) (f : Reset → Reset) : (s.updReset id f).snap = s.snap := rfl
@[simp] theorem State.updReset_hints (s : State) (id : Nat) (f : Reset → Reset) : (s.updReset id f).hints = s.hints := rfl
@[simp] theorem State.updReset_dump (s : State) (id : Nat) (f : Reset → Reset) : (s.updReset id f).dump = s.dump := rfl
@[simp] theorem State.updReset_sec (s : State) (id : Nat) (f : Reset → Reset) : (s.updReset id f).sec = s.sec := rfl
@[simp] theorem State.updReset_pow (s : State) (id : Nat) (f : Reset → Reset) : (s.updReset id f).pow = s.pow := rfl
@[simp] theorem State.updReset_rots (s : State) (id : Nat) (f : Reset → Reset) : (s.updReset id f).rots = s.rots := rfl
@[simp] theorem State.updReset_boot (s : State) (id : Nat) (f : Reset → Reset) : (s.updReset id f).boot = s.boot := rfl
@[simp] theorem State.updReset_mod (s : State) (id : Nat) (f : Reset → Reset) : (s.updReset id f).mod = s.mod := rfl
@[simp] theorem State.updReset_bridge (s : State) (id : Nat) (f : Reset → Reset) : (s.updReset id f).bridge = s.bridge := rfl

/-! ## A function's translation service is replaced. -/

@[simp] theorem State.setAts_pending (s : State) (fn : Nat) (a : Ats) : (s.setAts fn a).pending = s.pending := rfl
@[simp] theorem State.setAts_free (s : State) (fn : Nat) (a : Ats) : (s.setAts fn a).free = s.free := rfl
@[simp] theorem State.setAts_out (s : State) (fn : Nat) (a : Ats) : (s.setAts fn a).out = s.out := rfl
@[simp] theorem State.setAts_deferred (s : State) (fn : Nat) (a : Ats) : (s.setAts fn a).deferred = s.deferred := rfl
@[simp] theorem State.setAts_regs (s : State) (fn : Nat) (a : Ats) : (s.setAts fn a).regs = s.regs := rfl
@[simp] theorem State.setAts_cnts (s : State) (fn : Nat) (a : Ats) : (s.setAts fn a).cnts = s.cnts := rfl
@[simp] theorem State.setAts_mem (s : State) (fn : Nat) (a : Ats) : (s.setAts fn a).mem = s.mem := rfl
@[simp] theorem State.setAts_poison (s : State) (fn : Nat) (a : Ats) : (s.setAts fn a).poison = s.poison := rfl
@[simp] theorem State.setAts_bad (s : State) (fn : Nat) (a : Ats) : (s.setAts fn a).bad = s.bad := rfl
@[simp] theorem State.setAts_dead (s : State) (fn : Nat) (a : Ats) : (s.setAts fn a).dead = s.dead := rfl
@[simp] theorem State.setAts_chunks (s : State) (fn : Nat) (a : Ats) : (s.setAts fn a).chunks = s.chunks := rfl
@[simp] theorem State.setAts_ledgers (s : State) (fn : Nat) (a : Ats) : (s.setAts fn a).ledgers = s.ledgers := rfl
@[simp] theorem State.setAts_shared (s : State) (fn : Nat) (a : Ats) : (s.setAts fn a).shared = s.shared := rfl
@[simp] theorem State.setAts_verified (s : State) (fn : Nat) (a : Ats) : (s.setAts fn a).verified = s.verified := rfl
@[simp] theorem State.setAts_wipes (s : State) (fn : Nat) (a : Ats) : (s.setAts fn a).wipes = s.wipes := rfl
@[simp] theorem State.setAts_contribs (s : State) (fn : Nat) (a : Ats) : (s.setAts fn a).contribs = s.contribs := rfl
@[simp] theorem State.setAts_owing (s : State) (fn : Nat) (a : Ats) : (s.setAts fn a).owing = s.owing := rfl
@[simp] theorem State.setAts_nextOwed (s : State) (fn : Nat) (a : Ats) : (s.setAts fn a).nextOwed = s.nextOwed := rfl
@[simp] theorem State.setAts_reads (s : State) (fn : Nat) (a : Ats) : (s.setAts fn a).reads = s.reads := rfl
@[simp] theorem State.setAts_mended (s : State) (fn : Nat) (a : Ats) : (s.setAts fn a).mended = s.mended := rfl
@[simp] theorem State.setAts_hot (s : State) (fn : Nat) (a : Ats) : (s.setAts fn a).hot = s.hot := rfl
@[simp] theorem State.setAts_t2ctr (s : State) (fn : Nat) (a : Ats) : (s.setAts fn a).t2ctr = s.t2ctr := rfl
@[simp] theorem State.setAts_t2base (s : State) (fn : Nat) (a : Ats) : (s.setAts fn a).t2base = s.t2base := rfl
@[simp] theorem State.setAts_t2node (s : State) (fn : Nat) (a : Ats) : (s.setAts fn a).t2node = s.t2node := rfl
@[simp] theorem State.setAts_t2cache (s : State) (fn : Nat) (a : Ats) : (s.setAts fn a).t2cache = s.t2cache := rfl
@[simp] theorem State.setAts_rollWant (s : State) (fn : Nat) (a : Ats) : (s.setAts fn a).rollWant = s.rollWant := rfl
@[simp] theorem State.setAts_tlbs (s : State) (fn : Nat) (a : Ats) : (s.setAts fn a).tlbs = s.tlbs := rfl
@[simp] theorem State.setAts_ctlbs (s : State) (fn : Nat) (a : Ats) : (s.setAts fn a).ctlbs = s.ctlbs := rfl
@[simp] theorem State.setAts_ptrs (s : State) (fn : Nat) (a : Ats) : (s.setAts fn a).ptrs = s.ptrs := rfl
@[simp] theorem State.setAts_faults (s : State) (fn : Nat) (a : Ats) : (s.setAts fn a).faults = s.faults := rfl
@[simp] theorem State.setAts_nextFault (s : State) (fn : Nat) (a : Ats) : (s.setAts fn a).nextFault = s.nextFault := rfl
@[simp] theorem State.setAts_invals (s : State) (fn : Nat) (a : Ats) : (s.setAts fn a).invals = s.invals := rfl
@[simp] theorem State.setAts_nextInval (s : State) (fn : Nat) (a : Ats) : (s.setAts fn a).nextInval = s.nextInval := rfl
@[simp] theorem State.setAts_ats (s : State) (fn : Nat) (a : Ats) : (s.setAts fn a).ats = s.ats.set Ats.fresh fn a := rfl
@[simp] theorem State.setAts_sieve (s : State) (fn : Nat) (a : Ats) : (s.setAts fn a).sieve = s.sieve := rfl
@[simp] theorem State.setAts_cfgs (s : State) (fn : Nat) (a : Ats) : (s.setAts fn a).cfgs = s.cfgs := rfl
@[simp] theorem State.setAts_progs (s : State) (fn : Nat) (a : Ats) : (s.setAts fn a).progs = s.progs := rfl
@[simp] theorem State.setAts_beat (s : State) (fn : Nat) (a : Ats) : (s.setAts fn a).beat = s.beat := rfl
@[simp] theorem State.setAts_cores (s : State) (fn : Nat) (a : Ats) : (s.setAts fn a).cores = s.cores := rfl
@[simp] theorem State.setAts_queues (s : State) (fn : Nat) (a : Ats) : (s.setAts fn a).queues = s.queues := rfl
@[simp] theorem State.setAts_fetched (s : State) (fn : Nat) (a : Ats) : (s.setAts fn a).fetched = s.fetched := rfl
@[simp] theorem State.setAts_turn (s : State) (fn : Nat) (a : Ats) : (s.setAts fn a).turn = s.turn := rfl
@[simp] theorem State.setAts_launches (s : State) (fn : Nat) (a : Ats) : (s.setAts fn a).launches = s.launches := rfl
@[simp] theorem State.setAts_nextLaunch (s : State) (fn : Nat) (a : Ats) : (s.setAts fn a).nextLaunch = s.nextLaunch := rfl
@[simp] theorem State.setAts_gruns (s : State) (fn : Nat) (a : Ats) : (s.setAts fn a).gruns = s.gruns := rfl
@[simp] theorem State.setAts_ctxs (s : State) (fn : Nat) (a : Ats) : (s.setAts fn a).ctxs = s.ctxs := rfl
@[simp] theorem State.setAts_mobjs (s : State) (fn : Nat) (a : Ats) : (s.setAts fn a).mobjs = s.mobjs := rfl
@[simp] theorem State.setAts_graphs (s : State) (fn : Nat) (a : Ats) : (s.setAts fn a).graphs = s.graphs := rfl
@[simp] theorem State.setAts_latches (s : State) (fn : Nat) (a : Ats) : (s.setAts fn a).latches = s.latches := rfl
@[simp] theorem State.setAts_slots (s : State) (fn : Nat) (a : Ats) : (s.setAts fn a).slots = s.slots := rfl
@[simp] theorem State.setAts_destroys (s : State) (fn : Nat) (a : Ats) : (s.setAts fn a).destroys = s.destroys := rfl
@[simp] theorem State.setAts_log (s : State) (fn : Nat) (a : Ats) : (s.setAts fn a).log = s.log := rfl
@[simp] theorem State.setAts_ports (s : State) (fn : Nat) (a : Ats) : (s.setAts fn a).ports = s.ports := rfl
@[simp] theorem State.setAts_sigs (s : State) (fn : Nat) (a : Ats) : (s.setAts fn a).sigs = s.sigs := rfl
@[simp] theorem State.setAts_nextSig (s : State) (fn : Nat) (a : Ats) : (s.setAts fn a).nextSig = s.nextSig := rfl
@[simp] theorem State.setAts_inbound (s : State) (fn : Nat) (a : Ats) : (s.setAts fn a).inbound = s.inbound := rfl
@[simp] theorem State.setAts_changes (s : State) (fn : Nat) (a : Ats) : (s.setAts fn a).changes = s.changes := rfl
@[simp] theorem State.setAts_nextHandle (s : State) (fn : Nat) (a : Ats) : (s.setAts fn a).nextHandle = s.nextHandle := rfl
@[simp] theorem State.setAts_failed (s : State) (fn : Nat) (a : Ats) : (s.setAts fn a).failed = s.failed := rfl
@[simp] theorem State.setAts_awaitSpare (s : State) (fn : Nat) (a : Ats) : (s.setAts fn a).awaitSpare = s.awaitSpare := rfl
@[simp] theorem State.setAts_halted (s : State) (fn : Nat) (a : Ats) : (s.setAts fn a).halted = s.halted := rfl
@[simp] theorem State.setAts_kmc (s : State) (fn : Nat) (a : Ats) : (s.setAts fn a).kmc = s.kmc := rfl
@[simp] theorem State.setAts_flood (s : State) (fn : Nat) (a : Ats) : (s.setAts fn a).flood = s.flood := rfl
@[simp] theorem State.setAts_alarmId (s : State) (fn : Nat) (a : Ats) : (s.setAts fn a).alarmId = s.alarmId := rfl
@[simp] theorem State.setAts_bellId (s : State) (fn : Nat) (a : Ats) : (s.setAts fn a).bellId = s.bellId := rfl
@[simp] theorem State.setAts_resets (s : State) (fn : Nat) (a : Ats) : (s.setAts fn a).resets = s.resets := rfl
@[simp] theorem State.setAts_nextReset (s : State) (fn : Nat) (a : Ats) : (s.setAts fn a).nextReset = s.nextReset := rfl
@[simp] theorem State.setAts_aborts (s : State) (fn : Nat) (a : Ats) : (s.setAts fn a).aborts = s.aborts := rfl
@[simp] theorem State.setAts_fenced (s : State) (fn : Nat) (a : Ats) : (s.setAts fn a).fenced = s.fenced := rfl
@[simp] theorem State.setAts_parishEnd (s : State) (fn : Nat) (a : Ats) : (s.setAts fn a).parishEnd = s.parishEnd := rfl
@[simp] theorem State.setAts_keys (s : State) (fn : Nat) (a : Ats) : (s.setAts fn a).keys = s.keys := rfl
@[simp] theorem State.setAts_bells (s : State) (fn : Nat) (a : Ats) : (s.setAts fn a).bells = s.bells := rfl
@[simp] theorem State.setAts_pview (s : State) (fn : Nat) (a : Ats) : (s.setAts fn a).pview = s.pview := rfl
@[simp] theorem State.setAts_snap (s : State) (fn : Nat) (a : Ats) : (s.setAts fn a).snap = s.snap := rfl
@[simp] theorem State.setAts_hints (s : State) (fn : Nat) (a : Ats) : (s.setAts fn a).hints = s.hints := rfl
@[simp] theorem State.setAts_dump (s : State) (fn : Nat) (a : Ats) : (s.setAts fn a).dump = s.dump := rfl
@[simp] theorem State.setAts_sec (s : State) (fn : Nat) (a : Ats) : (s.setAts fn a).sec = s.sec := rfl
@[simp] theorem State.setAts_pow (s : State) (fn : Nat) (a : Ats) : (s.setAts fn a).pow = s.pow := rfl
@[simp] theorem State.setAts_rots (s : State) (fn : Nat) (a : Ats) : (s.setAts fn a).rots = s.rots := rfl
@[simp] theorem State.setAts_boot (s : State) (fn : Nat) (a : Ats) : (s.setAts fn a).boot = s.boot := rfl
@[simp] theorem State.setAts_mod (s : State) (fn : Nat) (a : Ats) : (s.setAts fn a).mod = s.mod := rfl
@[simp] theorem State.setAts_bridge (s : State) (fn : Nat) (a : Ats) : (s.setAts fn a).bridge = s.bridge := rfl

/-! ## A die's rotation is replaced. -/

@[simp] theorem State.setRot_pending (s : State) (d : Nat) (t : Rot) : (s.setRot d t).pending = s.pending := rfl
@[simp] theorem State.setRot_free (s : State) (d : Nat) (t : Rot) : (s.setRot d t).free = s.free := rfl
@[simp] theorem State.setRot_out (s : State) (d : Nat) (t : Rot) : (s.setRot d t).out = s.out := rfl
@[simp] theorem State.setRot_deferred (s : State) (d : Nat) (t : Rot) : (s.setRot d t).deferred = s.deferred := rfl
@[simp] theorem State.setRot_regs (s : State) (d : Nat) (t : Rot) : (s.setRot d t).regs = s.regs := rfl
@[simp] theorem State.setRot_cnts (s : State) (d : Nat) (t : Rot) : (s.setRot d t).cnts = s.cnts := rfl
@[simp] theorem State.setRot_mem (s : State) (d : Nat) (t : Rot) : (s.setRot d t).mem = s.mem := rfl
@[simp] theorem State.setRot_poison (s : State) (d : Nat) (t : Rot) : (s.setRot d t).poison = s.poison := rfl
@[simp] theorem State.setRot_bad (s : State) (d : Nat) (t : Rot) : (s.setRot d t).bad = s.bad := rfl
@[simp] theorem State.setRot_dead (s : State) (d : Nat) (t : Rot) : (s.setRot d t).dead = s.dead := rfl
@[simp] theorem State.setRot_chunks (s : State) (d : Nat) (t : Rot) : (s.setRot d t).chunks = s.chunks := rfl
@[simp] theorem State.setRot_ledgers (s : State) (d : Nat) (t : Rot) : (s.setRot d t).ledgers = s.ledgers := rfl
@[simp] theorem State.setRot_shared (s : State) (d : Nat) (t : Rot) : (s.setRot d t).shared = s.shared := rfl
@[simp] theorem State.setRot_verified (s : State) (d : Nat) (t : Rot) : (s.setRot d t).verified = s.verified := rfl
@[simp] theorem State.setRot_wipes (s : State) (d : Nat) (t : Rot) : (s.setRot d t).wipes = s.wipes := rfl
@[simp] theorem State.setRot_contribs (s : State) (d : Nat) (t : Rot) : (s.setRot d t).contribs = s.contribs := rfl
@[simp] theorem State.setRot_owing (s : State) (d : Nat) (t : Rot) : (s.setRot d t).owing = s.owing := rfl
@[simp] theorem State.setRot_nextOwed (s : State) (d : Nat) (t : Rot) : (s.setRot d t).nextOwed = s.nextOwed := rfl
@[simp] theorem State.setRot_reads (s : State) (d : Nat) (t : Rot) : (s.setRot d t).reads = s.reads := rfl
@[simp] theorem State.setRot_mended (s : State) (d : Nat) (t : Rot) : (s.setRot d t).mended = s.mended := rfl
@[simp] theorem State.setRot_hot (s : State) (d : Nat) (t : Rot) : (s.setRot d t).hot = s.hot := rfl
@[simp] theorem State.setRot_t2ctr (s : State) (d : Nat) (t : Rot) : (s.setRot d t).t2ctr = s.t2ctr := rfl
@[simp] theorem State.setRot_t2base (s : State) (d : Nat) (t : Rot) : (s.setRot d t).t2base = s.t2base := rfl
@[simp] theorem State.setRot_t2node (s : State) (d : Nat) (t : Rot) : (s.setRot d t).t2node = s.t2node := rfl
@[simp] theorem State.setRot_t2cache (s : State) (d : Nat) (t : Rot) : (s.setRot d t).t2cache = s.t2cache := rfl
@[simp] theorem State.setRot_rollWant (s : State) (d : Nat) (t : Rot) : (s.setRot d t).rollWant = s.rollWant := rfl
@[simp] theorem State.setRot_tlbs (s : State) (d : Nat) (t : Rot) : (s.setRot d t).tlbs = s.tlbs := rfl
@[simp] theorem State.setRot_ctlbs (s : State) (d : Nat) (t : Rot) : (s.setRot d t).ctlbs = s.ctlbs := rfl
@[simp] theorem State.setRot_ptrs (s : State) (d : Nat) (t : Rot) : (s.setRot d t).ptrs = s.ptrs := rfl
@[simp] theorem State.setRot_faults (s : State) (d : Nat) (t : Rot) : (s.setRot d t).faults = s.faults := rfl
@[simp] theorem State.setRot_nextFault (s : State) (d : Nat) (t : Rot) : (s.setRot d t).nextFault = s.nextFault := rfl
@[simp] theorem State.setRot_invals (s : State) (d : Nat) (t : Rot) : (s.setRot d t).invals = s.invals := rfl
@[simp] theorem State.setRot_nextInval (s : State) (d : Nat) (t : Rot) : (s.setRot d t).nextInval = s.nextInval := rfl
@[simp] theorem State.setRot_ats (s : State) (d : Nat) (t : Rot) : (s.setRot d t).ats = s.ats := rfl
@[simp] theorem State.setRot_sieve (s : State) (d : Nat) (t : Rot) : (s.setRot d t).sieve = s.sieve := rfl
@[simp] theorem State.setRot_cfgs (s : State) (d : Nat) (t : Rot) : (s.setRot d t).cfgs = s.cfgs := rfl
@[simp] theorem State.setRot_progs (s : State) (d : Nat) (t : Rot) : (s.setRot d t).progs = s.progs := rfl
@[simp] theorem State.setRot_beat (s : State) (d : Nat) (t : Rot) : (s.setRot d t).beat = s.beat := rfl
@[simp] theorem State.setRot_cores (s : State) (d : Nat) (t : Rot) : (s.setRot d t).cores = s.cores := rfl
@[simp] theorem State.setRot_queues (s : State) (d : Nat) (t : Rot) : (s.setRot d t).queues = s.queues := rfl
@[simp] theorem State.setRot_fetched (s : State) (d : Nat) (t : Rot) : (s.setRot d t).fetched = s.fetched := rfl
@[simp] theorem State.setRot_turn (s : State) (d : Nat) (t : Rot) : (s.setRot d t).turn = s.turn := rfl
@[simp] theorem State.setRot_launches (s : State) (d : Nat) (t : Rot) : (s.setRot d t).launches = s.launches := rfl
@[simp] theorem State.setRot_nextLaunch (s : State) (d : Nat) (t : Rot) : (s.setRot d t).nextLaunch = s.nextLaunch := rfl
@[simp] theorem State.setRot_gruns (s : State) (d : Nat) (t : Rot) : (s.setRot d t).gruns = s.gruns := rfl
@[simp] theorem State.setRot_ctxs (s : State) (d : Nat) (t : Rot) : (s.setRot d t).ctxs = s.ctxs := rfl
@[simp] theorem State.setRot_mobjs (s : State) (d : Nat) (t : Rot) : (s.setRot d t).mobjs = s.mobjs := rfl
@[simp] theorem State.setRot_graphs (s : State) (d : Nat) (t : Rot) : (s.setRot d t).graphs = s.graphs := rfl
@[simp] theorem State.setRot_latches (s : State) (d : Nat) (t : Rot) : (s.setRot d t).latches = s.latches := rfl
@[simp] theorem State.setRot_slots (s : State) (d : Nat) (t : Rot) : (s.setRot d t).slots = s.slots := rfl
@[simp] theorem State.setRot_destroys (s : State) (d : Nat) (t : Rot) : (s.setRot d t).destroys = s.destroys := rfl
@[simp] theorem State.setRot_log (s : State) (d : Nat) (t : Rot) : (s.setRot d t).log = s.log := rfl
@[simp] theorem State.setRot_ports (s : State) (d : Nat) (t : Rot) : (s.setRot d t).ports = s.ports := rfl
@[simp] theorem State.setRot_sigs (s : State) (d : Nat) (t : Rot) : (s.setRot d t).sigs = s.sigs := rfl
@[simp] theorem State.setRot_nextSig (s : State) (d : Nat) (t : Rot) : (s.setRot d t).nextSig = s.nextSig := rfl
@[simp] theorem State.setRot_inbound (s : State) (d : Nat) (t : Rot) : (s.setRot d t).inbound = s.inbound := rfl
@[simp] theorem State.setRot_changes (s : State) (d : Nat) (t : Rot) : (s.setRot d t).changes = s.changes := rfl
@[simp] theorem State.setRot_nextHandle (s : State) (d : Nat) (t : Rot) : (s.setRot d t).nextHandle = s.nextHandle := rfl
@[simp] theorem State.setRot_failed (s : State) (d : Nat) (t : Rot) : (s.setRot d t).failed = s.failed := rfl
@[simp] theorem State.setRot_awaitSpare (s : State) (d : Nat) (t : Rot) : (s.setRot d t).awaitSpare = s.awaitSpare := rfl
@[simp] theorem State.setRot_halted (s : State) (d : Nat) (t : Rot) : (s.setRot d t).halted = s.halted := rfl
@[simp] theorem State.setRot_kmc (s : State) (d : Nat) (t : Rot) : (s.setRot d t).kmc = s.kmc := rfl
@[simp] theorem State.setRot_flood (s : State) (d : Nat) (t : Rot) : (s.setRot d t).flood = s.flood := rfl
@[simp] theorem State.setRot_alarmId (s : State) (d : Nat) (t : Rot) : (s.setRot d t).alarmId = s.alarmId := rfl
@[simp] theorem State.setRot_bellId (s : State) (d : Nat) (t : Rot) : (s.setRot d t).bellId = s.bellId := rfl
@[simp] theorem State.setRot_resets (s : State) (d : Nat) (t : Rot) : (s.setRot d t).resets = s.resets := rfl
@[simp] theorem State.setRot_nextReset (s : State) (d : Nat) (t : Rot) : (s.setRot d t).nextReset = s.nextReset := rfl
@[simp] theorem State.setRot_aborts (s : State) (d : Nat) (t : Rot) : (s.setRot d t).aborts = s.aborts := rfl
@[simp] theorem State.setRot_fenced (s : State) (d : Nat) (t : Rot) : (s.setRot d t).fenced = s.fenced := rfl
@[simp] theorem State.setRot_parishEnd (s : State) (d : Nat) (t : Rot) : (s.setRot d t).parishEnd = s.parishEnd := rfl
@[simp] theorem State.setRot_keys (s : State) (d : Nat) (t : Rot) : (s.setRot d t).keys = s.keys := rfl
@[simp] theorem State.setRot_bells (s : State) (d : Nat) (t : Rot) : (s.setRot d t).bells = s.bells := rfl
@[simp] theorem State.setRot_pview (s : State) (d : Nat) (t : Rot) : (s.setRot d t).pview = s.pview := rfl
@[simp] theorem State.setRot_snap (s : State) (d : Nat) (t : Rot) : (s.setRot d t).snap = s.snap := rfl
@[simp] theorem State.setRot_hints (s : State) (d : Nat) (t : Rot) : (s.setRot d t).hints = s.hints := rfl
@[simp] theorem State.setRot_dump (s : State) (d : Nat) (t : Rot) : (s.setRot d t).dump = s.dump := rfl
@[simp] theorem State.setRot_sec (s : State) (d : Nat) (t : Rot) : (s.setRot d t).sec = s.sec := rfl
@[simp] theorem State.setRot_pow (s : State) (d : Nat) (t : Rot) : (s.setRot d t).pow = s.pow := rfl
@[simp] theorem State.setRot_rots (s : State) (d : Nat) (t : Rot) : (s.setRot d t).rots = s.rots.set Rot.fresh d t := rfl
@[simp] theorem State.setRot_boot (s : State) (d : Nat) (t : Rot) : (s.setRot d t).boot = s.boot := rfl
@[simp] theorem State.setRot_mod (s : State) (d : Nat) (t : Rot) : (s.setRot d t).mod = s.mod := rfl
@[simp] theorem State.setRot_bridge (s : State) (d : Nat) (t : Rot) : (s.setRot d t).bridge = s.bridge := rfl

/-! ## A function's configuration is replaced. -/

@[simp] theorem State.setCfg_pending (s : State) (fn : Nat) (c : FnCfg) : (s.setCfg fn c).pending = s.pending := rfl
@[simp] theorem State.setCfg_free (s : State) (fn : Nat) (c : FnCfg) : (s.setCfg fn c).free = s.free := rfl
@[simp] theorem State.setCfg_out (s : State) (fn : Nat) (c : FnCfg) : (s.setCfg fn c).out = s.out := rfl
@[simp] theorem State.setCfg_deferred (s : State) (fn : Nat) (c : FnCfg) : (s.setCfg fn c).deferred = s.deferred := rfl
@[simp] theorem State.setCfg_regs (s : State) (fn : Nat) (c : FnCfg) : (s.setCfg fn c).regs = s.regs := rfl
@[simp] theorem State.setCfg_cnts (s : State) (fn : Nat) (c : FnCfg) : (s.setCfg fn c).cnts = s.cnts := rfl
@[simp] theorem State.setCfg_mem (s : State) (fn : Nat) (c : FnCfg) : (s.setCfg fn c).mem = s.mem := rfl
@[simp] theorem State.setCfg_poison (s : State) (fn : Nat) (c : FnCfg) : (s.setCfg fn c).poison = s.poison := rfl
@[simp] theorem State.setCfg_bad (s : State) (fn : Nat) (c : FnCfg) : (s.setCfg fn c).bad = s.bad := rfl
@[simp] theorem State.setCfg_dead (s : State) (fn : Nat) (c : FnCfg) : (s.setCfg fn c).dead = s.dead := rfl
@[simp] theorem State.setCfg_chunks (s : State) (fn : Nat) (c : FnCfg) : (s.setCfg fn c).chunks = s.chunks := rfl
@[simp] theorem State.setCfg_ledgers (s : State) (fn : Nat) (c : FnCfg) : (s.setCfg fn c).ledgers = s.ledgers := rfl
@[simp] theorem State.setCfg_shared (s : State) (fn : Nat) (c : FnCfg) : (s.setCfg fn c).shared = s.shared := rfl
@[simp] theorem State.setCfg_verified (s : State) (fn : Nat) (c : FnCfg) : (s.setCfg fn c).verified = s.verified := rfl
@[simp] theorem State.setCfg_wipes (s : State) (fn : Nat) (c : FnCfg) : (s.setCfg fn c).wipes = s.wipes := rfl
@[simp] theorem State.setCfg_contribs (s : State) (fn : Nat) (c : FnCfg) : (s.setCfg fn c).contribs = s.contribs := rfl
@[simp] theorem State.setCfg_owing (s : State) (fn : Nat) (c : FnCfg) : (s.setCfg fn c).owing = s.owing := rfl
@[simp] theorem State.setCfg_nextOwed (s : State) (fn : Nat) (c : FnCfg) : (s.setCfg fn c).nextOwed = s.nextOwed := rfl
@[simp] theorem State.setCfg_reads (s : State) (fn : Nat) (c : FnCfg) : (s.setCfg fn c).reads = s.reads := rfl
@[simp] theorem State.setCfg_mended (s : State) (fn : Nat) (c : FnCfg) : (s.setCfg fn c).mended = s.mended := rfl
@[simp] theorem State.setCfg_hot (s : State) (fn : Nat) (c : FnCfg) : (s.setCfg fn c).hot = s.hot := rfl
@[simp] theorem State.setCfg_t2ctr (s : State) (fn : Nat) (c : FnCfg) : (s.setCfg fn c).t2ctr = s.t2ctr := rfl
@[simp] theorem State.setCfg_t2base (s : State) (fn : Nat) (c : FnCfg) : (s.setCfg fn c).t2base = s.t2base := rfl
@[simp] theorem State.setCfg_t2node (s : State) (fn : Nat) (c : FnCfg) : (s.setCfg fn c).t2node = s.t2node := rfl
@[simp] theorem State.setCfg_t2cache (s : State) (fn : Nat) (c : FnCfg) : (s.setCfg fn c).t2cache = s.t2cache := rfl
@[simp] theorem State.setCfg_rollWant (s : State) (fn : Nat) (c : FnCfg) : (s.setCfg fn c).rollWant = s.rollWant := rfl
@[simp] theorem State.setCfg_tlbs (s : State) (fn : Nat) (c : FnCfg) : (s.setCfg fn c).tlbs = s.tlbs := rfl
@[simp] theorem State.setCfg_ctlbs (s : State) (fn : Nat) (c : FnCfg) : (s.setCfg fn c).ctlbs = s.ctlbs := rfl
@[simp] theorem State.setCfg_ptrs (s : State) (fn : Nat) (c : FnCfg) : (s.setCfg fn c).ptrs = s.ptrs := rfl
@[simp] theorem State.setCfg_faults (s : State) (fn : Nat) (c : FnCfg) : (s.setCfg fn c).faults = s.faults := rfl
@[simp] theorem State.setCfg_nextFault (s : State) (fn : Nat) (c : FnCfg) : (s.setCfg fn c).nextFault = s.nextFault := rfl
@[simp] theorem State.setCfg_invals (s : State) (fn : Nat) (c : FnCfg) : (s.setCfg fn c).invals = s.invals := rfl
@[simp] theorem State.setCfg_nextInval (s : State) (fn : Nat) (c : FnCfg) : (s.setCfg fn c).nextInval = s.nextInval := rfl
@[simp] theorem State.setCfg_ats (s : State) (fn : Nat) (c : FnCfg) : (s.setCfg fn c).ats = s.ats := rfl
@[simp] theorem State.setCfg_sieve (s : State) (fn : Nat) (c : FnCfg) : (s.setCfg fn c).sieve = s.sieve := rfl
@[simp] theorem State.setCfg_cfgs (s : State) (fn : Nat) (c : FnCfg) :
    (s.setCfg fn c).cfgs = s.cfgs.set FnCfg.fresh fn c := rfl
@[simp] theorem State.setCfg_progs (s : State) (fn : Nat) (c : FnCfg) : (s.setCfg fn c).progs = s.progs := rfl
@[simp] theorem State.setCfg_beat (s : State) (fn : Nat) (c : FnCfg) : (s.setCfg fn c).beat = s.beat := rfl
@[simp] theorem State.setCfg_cores (s : State) (fn : Nat) (c : FnCfg) : (s.setCfg fn c).cores = s.cores := rfl
@[simp] theorem State.setCfg_queues (s : State) (fn : Nat) (c : FnCfg) : (s.setCfg fn c).queues = s.queues := rfl
@[simp] theorem State.setCfg_fetched (s : State) (fn : Nat) (c : FnCfg) : (s.setCfg fn c).fetched = s.fetched := rfl
@[simp] theorem State.setCfg_turn (s : State) (fn : Nat) (c : FnCfg) : (s.setCfg fn c).turn = s.turn := rfl
@[simp] theorem State.setCfg_launches (s : State) (fn : Nat) (c : FnCfg) : (s.setCfg fn c).launches = s.launches := rfl
@[simp] theorem State.setCfg_nextLaunch (s : State) (fn : Nat) (c : FnCfg) : (s.setCfg fn c).nextLaunch = s.nextLaunch := rfl
@[simp] theorem State.setCfg_gruns (s : State) (fn : Nat) (c : FnCfg) : (s.setCfg fn c).gruns = s.gruns := rfl
@[simp] theorem State.setCfg_ctxs (s : State) (fn : Nat) (c : FnCfg) : (s.setCfg fn c).ctxs = s.ctxs := rfl
@[simp] theorem State.setCfg_mobjs (s : State) (fn : Nat) (c : FnCfg) : (s.setCfg fn c).mobjs = s.mobjs := rfl
@[simp] theorem State.setCfg_graphs (s : State) (fn : Nat) (c : FnCfg) : (s.setCfg fn c).graphs = s.graphs := rfl
@[simp] theorem State.setCfg_latches (s : State) (fn : Nat) (c : FnCfg) : (s.setCfg fn c).latches = s.latches := rfl
@[simp] theorem State.setCfg_slots (s : State) (fn : Nat) (c : FnCfg) : (s.setCfg fn c).slots = s.slots := rfl
@[simp] theorem State.setCfg_destroys (s : State) (fn : Nat) (c : FnCfg) : (s.setCfg fn c).destroys = s.destroys := rfl
@[simp] theorem State.setCfg_log (s : State) (fn : Nat) (c : FnCfg) : (s.setCfg fn c).log = s.log := rfl
@[simp] theorem State.setCfg_ports (s : State) (fn : Nat) (c : FnCfg) : (s.setCfg fn c).ports = s.ports := rfl
@[simp] theorem State.setCfg_sigs (s : State) (fn : Nat) (c : FnCfg) : (s.setCfg fn c).sigs = s.sigs := rfl
@[simp] theorem State.setCfg_nextSig (s : State) (fn : Nat) (c : FnCfg) : (s.setCfg fn c).nextSig = s.nextSig := rfl
@[simp] theorem State.setCfg_inbound (s : State) (fn : Nat) (c : FnCfg) : (s.setCfg fn c).inbound = s.inbound := rfl
@[simp] theorem State.setCfg_changes (s : State) (fn : Nat) (c : FnCfg) : (s.setCfg fn c).changes = s.changes := rfl
@[simp] theorem State.setCfg_nextHandle (s : State) (fn : Nat) (c : FnCfg) : (s.setCfg fn c).nextHandle = s.nextHandle := rfl
@[simp] theorem State.setCfg_failed (s : State) (fn : Nat) (c : FnCfg) : (s.setCfg fn c).failed = s.failed := rfl
@[simp] theorem State.setCfg_awaitSpare (s : State) (fn : Nat) (c : FnCfg) : (s.setCfg fn c).awaitSpare = s.awaitSpare := rfl
@[simp] theorem State.setCfg_halted (s : State) (fn : Nat) (c : FnCfg) : (s.setCfg fn c).halted = s.halted := rfl
@[simp] theorem State.setCfg_kmc (s : State) (fn : Nat) (c : FnCfg) : (s.setCfg fn c).kmc = s.kmc := rfl
@[simp] theorem State.setCfg_flood (s : State) (fn : Nat) (c : FnCfg) : (s.setCfg fn c).flood = s.flood := rfl
@[simp] theorem State.setCfg_alarmId (s : State) (fn : Nat) (c : FnCfg) : (s.setCfg fn c).alarmId = s.alarmId := rfl
@[simp] theorem State.setCfg_bellId (s : State) (fn : Nat) (c : FnCfg) : (s.setCfg fn c).bellId = s.bellId := rfl
@[simp] theorem State.setCfg_resets (s : State) (fn : Nat) (c : FnCfg) : (s.setCfg fn c).resets = s.resets := rfl
@[simp] theorem State.setCfg_nextReset (s : State) (fn : Nat) (c : FnCfg) : (s.setCfg fn c).nextReset = s.nextReset := rfl
@[simp] theorem State.setCfg_aborts (s : State) (fn : Nat) (c : FnCfg) : (s.setCfg fn c).aborts = s.aborts := rfl
@[simp] theorem State.setCfg_fenced (s : State) (fn : Nat) (c : FnCfg) : (s.setCfg fn c).fenced = s.fenced := rfl
@[simp] theorem State.setCfg_parishEnd (s : State) (fn : Nat) (c : FnCfg) : (s.setCfg fn c).parishEnd = s.parishEnd := rfl
@[simp] theorem State.setCfg_keys (s : State) (fn : Nat) (c : FnCfg) : (s.setCfg fn c).keys = s.keys := rfl
@[simp] theorem State.setCfg_bells (s : State) (fn : Nat) (c : FnCfg) : (s.setCfg fn c).bells = s.bells := rfl
@[simp] theorem State.setCfg_pview (s : State) (fn : Nat) (c : FnCfg) : (s.setCfg fn c).pview = s.pview := rfl
@[simp] theorem State.setCfg_snap (s : State) (fn : Nat) (c : FnCfg) : (s.setCfg fn c).snap = s.snap := rfl
@[simp] theorem State.setCfg_hints (s : State) (fn : Nat) (c : FnCfg) : (s.setCfg fn c).hints = s.hints := rfl
@[simp] theorem State.setCfg_dump (s : State) (fn : Nat) (c : FnCfg) : (s.setCfg fn c).dump = s.dump := rfl
@[simp] theorem State.setCfg_sec (s : State) (fn : Nat) (c : FnCfg) : (s.setCfg fn c).sec = s.sec := rfl
@[simp] theorem State.setCfg_pow (s : State) (fn : Nat) (c : FnCfg) : (s.setCfg fn c).pow = s.pow := rfl
@[simp] theorem State.setCfg_rots (s : State) (fn : Nat) (c : FnCfg) : (s.setCfg fn c).rots = s.rots := rfl
@[simp] theorem State.setCfg_boot (s : State) (fn : Nat) (c : FnCfg) : (s.setCfg fn c).boot = s.boot := rfl
@[simp] theorem State.setCfg_mod (s : State) (fn : Nat) (c : FnCfg) : (s.setCfg fn c).mod = s.mod := rfl
@[simp] theorem State.setCfg_bridge (s : State) (fn : Nat) (c : FnCfg) : (s.setCfg fn c).bridge = s.bridge := rfl

/-! ## A unit is marked poisoned or not. -/

@[simp] theorem State.setPoison_pending (s : State) (pa : Nat) (b : Bool) : (s.setPoison pa b).pending = s.pending := rfl
@[simp] theorem State.setPoison_free (s : State) (pa : Nat) (b : Bool) : (s.setPoison pa b).free = s.free := rfl
@[simp] theorem State.setPoison_out (s : State) (pa : Nat) (b : Bool) : (s.setPoison pa b).out = s.out := rfl
@[simp] theorem State.setPoison_deferred (s : State) (pa : Nat) (b : Bool) : (s.setPoison pa b).deferred = s.deferred := rfl
@[simp] theorem State.setPoison_regs (s : State) (pa : Nat) (b : Bool) : (s.setPoison pa b).regs = s.regs := rfl
@[simp] theorem State.setPoison_cnts (s : State) (pa : Nat) (b : Bool) : (s.setPoison pa b).cnts = s.cnts := rfl
@[simp] theorem State.setPoison_mem (s : State) (pa : Nat) (b : Bool) : (s.setPoison pa b).mem = s.mem := rfl
@[simp] theorem State.setPoison_poison (s : State) (pa : Nat) (b : Bool) :
    (s.setPoison pa b).poison = s.poison.set false (pa / 256) b := rfl
@[simp] theorem State.setPoison_bad (s : State) (pa : Nat) (b : Bool) : (s.setPoison pa b).bad = s.bad := rfl
@[simp] theorem State.setPoison_dead (s : State) (pa : Nat) (b : Bool) : (s.setPoison pa b).dead = s.dead := rfl
@[simp] theorem State.setPoison_chunks (s : State) (pa : Nat) (b : Bool) : (s.setPoison pa b).chunks = s.chunks := rfl
@[simp] theorem State.setPoison_ledgers (s : State) (pa : Nat) (b : Bool) : (s.setPoison pa b).ledgers = s.ledgers := rfl
@[simp] theorem State.setPoison_shared (s : State) (pa : Nat) (b : Bool) : (s.setPoison pa b).shared = s.shared := rfl
@[simp] theorem State.setPoison_verified (s : State) (pa : Nat) (b : Bool) : (s.setPoison pa b).verified = s.verified := rfl
@[simp] theorem State.setPoison_wipes (s : State) (pa : Nat) (b : Bool) : (s.setPoison pa b).wipes = s.wipes := rfl
@[simp] theorem State.setPoison_contribs (s : State) (pa : Nat) (b : Bool) : (s.setPoison pa b).contribs = s.contribs := rfl
@[simp] theorem State.setPoison_owing (s : State) (pa : Nat) (b : Bool) : (s.setPoison pa b).owing = s.owing := rfl
@[simp] theorem State.setPoison_nextOwed (s : State) (pa : Nat) (b : Bool) : (s.setPoison pa b).nextOwed = s.nextOwed := rfl
@[simp] theorem State.setPoison_reads (s : State) (pa : Nat) (b : Bool) : (s.setPoison pa b).reads = s.reads := rfl
@[simp] theorem State.setPoison_mended (s : State) (pa : Nat) (b : Bool) : (s.setPoison pa b).mended = s.mended := rfl
@[simp] theorem State.setPoison_hot (s : State) (pa : Nat) (b : Bool) : (s.setPoison pa b).hot = s.hot := rfl
@[simp] theorem State.setPoison_t2ctr (s : State) (pa : Nat) (b : Bool) : (s.setPoison pa b).t2ctr = s.t2ctr := rfl
@[simp] theorem State.setPoison_t2base (s : State) (pa : Nat) (b : Bool) : (s.setPoison pa b).t2base = s.t2base := rfl
@[simp] theorem State.setPoison_t2node (s : State) (pa : Nat) (b : Bool) : (s.setPoison pa b).t2node = s.t2node := rfl
@[simp] theorem State.setPoison_t2cache (s : State) (pa : Nat) (b : Bool) : (s.setPoison pa b).t2cache = s.t2cache := rfl
@[simp] theorem State.setPoison_rollWant (s : State) (pa : Nat) (b : Bool) : (s.setPoison pa b).rollWant = s.rollWant := rfl
@[simp] theorem State.setPoison_tlbs (s : State) (pa : Nat) (b : Bool) : (s.setPoison pa b).tlbs = s.tlbs := rfl
@[simp] theorem State.setPoison_ctlbs (s : State) (pa : Nat) (b : Bool) : (s.setPoison pa b).ctlbs = s.ctlbs := rfl
@[simp] theorem State.setPoison_ptrs (s : State) (pa : Nat) (b : Bool) : (s.setPoison pa b).ptrs = s.ptrs := rfl
@[simp] theorem State.setPoison_faults (s : State) (pa : Nat) (b : Bool) : (s.setPoison pa b).faults = s.faults := rfl
@[simp] theorem State.setPoison_nextFault (s : State) (pa : Nat) (b : Bool) : (s.setPoison pa b).nextFault = s.nextFault := rfl
@[simp] theorem State.setPoison_invals (s : State) (pa : Nat) (b : Bool) : (s.setPoison pa b).invals = s.invals := rfl
@[simp] theorem State.setPoison_nextInval (s : State) (pa : Nat) (b : Bool) : (s.setPoison pa b).nextInval = s.nextInval := rfl
@[simp] theorem State.setPoison_ats (s : State) (pa : Nat) (b : Bool) : (s.setPoison pa b).ats = s.ats := rfl
@[simp] theorem State.setPoison_sieve (s : State) (pa : Nat) (b : Bool) : (s.setPoison pa b).sieve = s.sieve := rfl
@[simp] theorem State.setPoison_cfgs (s : State) (pa : Nat) (b : Bool) : (s.setPoison pa b).cfgs = s.cfgs := rfl
@[simp] theorem State.setPoison_progs (s : State) (pa : Nat) (b : Bool) : (s.setPoison pa b).progs = s.progs := rfl
@[simp] theorem State.setPoison_beat (s : State) (pa : Nat) (b : Bool) : (s.setPoison pa b).beat = s.beat := rfl
@[simp] theorem State.setPoison_cores (s : State) (pa : Nat) (b : Bool) : (s.setPoison pa b).cores = s.cores := rfl
@[simp] theorem State.setPoison_queues (s : State) (pa : Nat) (b : Bool) : (s.setPoison pa b).queues = s.queues := rfl
@[simp] theorem State.setPoison_fetched (s : State) (pa : Nat) (b : Bool) : (s.setPoison pa b).fetched = s.fetched := rfl
@[simp] theorem State.setPoison_turn (s : State) (pa : Nat) (b : Bool) : (s.setPoison pa b).turn = s.turn := rfl
@[simp] theorem State.setPoison_launches (s : State) (pa : Nat) (b : Bool) : (s.setPoison pa b).launches = s.launches := rfl
@[simp] theorem State.setPoison_nextLaunch (s : State) (pa : Nat) (b : Bool) : (s.setPoison pa b).nextLaunch = s.nextLaunch := rfl
@[simp] theorem State.setPoison_gruns (s : State) (pa : Nat) (b : Bool) : (s.setPoison pa b).gruns = s.gruns := rfl
@[simp] theorem State.setPoison_ctxs (s : State) (pa : Nat) (b : Bool) : (s.setPoison pa b).ctxs = s.ctxs := rfl
@[simp] theorem State.setPoison_mobjs (s : State) (pa : Nat) (b : Bool) : (s.setPoison pa b).mobjs = s.mobjs := rfl
@[simp] theorem State.setPoison_graphs (s : State) (pa : Nat) (b : Bool) : (s.setPoison pa b).graphs = s.graphs := rfl
@[simp] theorem State.setPoison_latches (s : State) (pa : Nat) (b : Bool) : (s.setPoison pa b).latches = s.latches := rfl
@[simp] theorem State.setPoison_slots (s : State) (pa : Nat) (b : Bool) : (s.setPoison pa b).slots = s.slots := rfl
@[simp] theorem State.setPoison_destroys (s : State) (pa : Nat) (b : Bool) : (s.setPoison pa b).destroys = s.destroys := rfl
@[simp] theorem State.setPoison_log (s : State) (pa : Nat) (b : Bool) : (s.setPoison pa b).log = s.log := rfl
@[simp] theorem State.setPoison_ports (s : State) (pa : Nat) (b : Bool) : (s.setPoison pa b).ports = s.ports := rfl
@[simp] theorem State.setPoison_sigs (s : State) (pa : Nat) (b : Bool) : (s.setPoison pa b).sigs = s.sigs := rfl
@[simp] theorem State.setPoison_nextSig (s : State) (pa : Nat) (b : Bool) : (s.setPoison pa b).nextSig = s.nextSig := rfl
@[simp] theorem State.setPoison_inbound (s : State) (pa : Nat) (b : Bool) : (s.setPoison pa b).inbound = s.inbound := rfl
@[simp] theorem State.setPoison_changes (s : State) (pa : Nat) (b : Bool) : (s.setPoison pa b).changes = s.changes := rfl
@[simp] theorem State.setPoison_nextHandle (s : State) (pa : Nat) (b : Bool) : (s.setPoison pa b).nextHandle = s.nextHandle := rfl
@[simp] theorem State.setPoison_failed (s : State) (pa : Nat) (b : Bool) : (s.setPoison pa b).failed = s.failed := rfl
@[simp] theorem State.setPoison_awaitSpare (s : State) (pa : Nat) (b : Bool) : (s.setPoison pa b).awaitSpare = s.awaitSpare := rfl
@[simp] theorem State.setPoison_halted (s : State) (pa : Nat) (b : Bool) : (s.setPoison pa b).halted = s.halted := rfl
@[simp] theorem State.setPoison_kmc (s : State) (pa : Nat) (b : Bool) : (s.setPoison pa b).kmc = s.kmc := rfl
@[simp] theorem State.setPoison_flood (s : State) (pa : Nat) (b : Bool) : (s.setPoison pa b).flood = s.flood := rfl
@[simp] theorem State.setPoison_alarmId (s : State) (pa : Nat) (b : Bool) : (s.setPoison pa b).alarmId = s.alarmId := rfl
@[simp] theorem State.setPoison_bellId (s : State) (pa : Nat) (b : Bool) : (s.setPoison pa b).bellId = s.bellId := rfl
@[simp] theorem State.setPoison_resets (s : State) (pa : Nat) (b : Bool) : (s.setPoison pa b).resets = s.resets := rfl
@[simp] theorem State.setPoison_nextReset (s : State) (pa : Nat) (b : Bool) : (s.setPoison pa b).nextReset = s.nextReset := rfl
@[simp] theorem State.setPoison_aborts (s : State) (pa : Nat) (b : Bool) : (s.setPoison pa b).aborts = s.aborts := rfl
@[simp] theorem State.setPoison_fenced (s : State) (pa : Nat) (b : Bool) : (s.setPoison pa b).fenced = s.fenced := rfl
@[simp] theorem State.setPoison_parishEnd (s : State) (pa : Nat) (b : Bool) : (s.setPoison pa b).parishEnd = s.parishEnd := rfl
@[simp] theorem State.setPoison_keys (s : State) (pa : Nat) (b : Bool) : (s.setPoison pa b).keys = s.keys := rfl
@[simp] theorem State.setPoison_bells (s : State) (pa : Nat) (b : Bool) : (s.setPoison pa b).bells = s.bells := rfl
@[simp] theorem State.setPoison_pview (s : State) (pa : Nat) (b : Bool) : (s.setPoison pa b).pview = s.pview := rfl
@[simp] theorem State.setPoison_snap (s : State) (pa : Nat) (b : Bool) : (s.setPoison pa b).snap = s.snap := rfl
@[simp] theorem State.setPoison_hints (s : State) (pa : Nat) (b : Bool) : (s.setPoison pa b).hints = s.hints := rfl
@[simp] theorem State.setPoison_dump (s : State) (pa : Nat) (b : Bool) : (s.setPoison pa b).dump = s.dump := rfl
@[simp] theorem State.setPoison_sec (s : State) (pa : Nat) (b : Bool) : (s.setPoison pa b).sec = s.sec := rfl
@[simp] theorem State.setPoison_pow (s : State) (pa : Nat) (b : Bool) : (s.setPoison pa b).pow = s.pow := rfl
@[simp] theorem State.setPoison_rots (s : State) (pa : Nat) (b : Bool) : (s.setPoison pa b).rots = s.rots := rfl
@[simp] theorem State.setPoison_boot (s : State) (pa : Nat) (b : Bool) : (s.setPoison pa b).boot = s.boot := rfl
@[simp] theorem State.setPoison_mod (s : State) (pa : Nat) (b : Bool) : (s.setPoison pa b).mod = s.mod := rfl
@[simp] theorem State.setPoison_bridge (s : State) (pa : Nat) (b : Bool) : (s.setPoison pa b).bridge = s.bridge := rfl

end Sys2Proof.Machine
end

