-- ==== Sys2Proof/WellFormed.lean ====
section
/-! DEFINITION. Well-formed commands: the numbers that a command carries name things that the hardware has. -/

namespace Sys2Proof

/-- A slot names a logical core (R5, R63). -/
def slotOk (x : Slot) : Bool := decide (x.core < 512)

/-- A cell carries at most 512 payload bytes, and a header whose numbers fit their fields (R259, R260). -/
def cellOk (c : Cell) : Bool :=
  decide (c.payload.length ≤ 512) && decide (c.typ < 16 ∧ c.vc < 8 ∧ c.nhop < 8 ∧ c.hop < 8 ∧ c.src < 65536 ∧ c.vd < 65536)
    && decide (c.route.length ≤ 6) && c.route.all fun p => decide (p < 32)

/-- Whether the numbers of a command lie in range: functions below 33 (R297), queues below 64 (R325), logical cores below 512
(R56), ports below 32 (R245), dies below 2, and the like. -/
def Instr.wf : Instr → Bool
  | .beatEdge _ | .dctlXlatInvWrite _ | .invalidateComplete _ | .changeStall _ | .contextSwitchStart _
  | .switchDrainEnd _ | .switchSaveComplete _ | .switchInComplete _ | .deviceWarmReset _ | .deviceColdReset _
  | .resetShutter _ | .resetDrainEnd _ | .resetWipeDone _ | .light _ | .regulatorReport _ | .pwrEnRise _
  | .rstNAssert _ | .inputUndervoltage _ | .inputOvervoltage _ | .inputOvercurrent _ | .kmcSessionClose _
  | .getMeasurements _ | .telemetry _ => true
  | .edgeDeferredApply | .beatMarkerEmit | .markerPortChange | .holdoverEntry | .holdoverLimit | .beatLengthChange
  | .bridgeLaneFail | .parishStart | .rollReq | .rollTimer | .keyRollStart | .rollComplete | .logFlush | .dumpCapture
  | .dumpWritten | .run | .parked | .off | .pwrEnFall | .rstNDeassert | .perstDeassert | .pcieLinkDown
  | .bootLockTimeout | .readVin | .readIin | .readPin | .readTemperature1 | .readTemperature2 | .statusWord
  | .getVersion | .getCapabilities | .getDigests | .pcieLinkTrained | .vinSagEvent => true
  | .latenessEvent core | .coreUncorrectedError core | .preloadStart core | .launchCoreStart core
  | .coreStateCopyDone core => decide (core < 512)
  | .tailBlockArrival fn _ _ | .atsInvalidation fn _ _ | .priResponse fn _ _ | .bar2Read fn _ _ | .bar2Write fn _ _
  | .counterRead fn _ _ => decide (fn < 33)
  | .commandRecordArrival fn q _ _ => decide (fn < 33) && decide (q < 64)
  | .commandComplete fn q _ | .sieveTableChecked fn q _ | .schedImageChecked fn q _ | .queueEnable fn q _
  | .latchWaitTimeout fn q _ | .seqUpdate fn q _ | .graphStore fn q _ | .graphPatch fn q _ | .shareCreate fn q _
  | .stallBudgetExpiry fn q _ | .fencedHoldExpiry fn q _ => decide (fn < 33) && decide (q < 64)
  | .beat port _ _ c | .measure port _ _ c => decide (port < 32) && cellOk c
  | .networkPacketError die _ | .tHot die _ | .tTrip die _ | .rotationSliceEnd die _ => decide (die < 2)
  | .add x | .sub x | .mul x | .mulhu x | .div x | .divu x | .rem x | .remu x | .and x | .or x | .xor x | .shl x
  | .shr x | .sra x | .min x | .max x | .addi x | .andi x | .ori x | .xori x | .shli x | .shri x | .srai x | .li x
  | .lih x | .cmp x | .cmpi x | .pset x | .pmov x | .ld x | .st x | .br x | .bri x | .call x | .loop x | .loopI x
  | .endProg x | .beatEnd x | .tdSet x | .tdGet x | .tdFld x | .waitTag x | .engWait x | .latchSig x
  | .acsinLatchWait x | .latchTest x | .seqGet x | .seqPage x | .phaseHeavy x | .phaseLight x | .snapBell x | .mma x
  | .accDrain x | .accLoad x | .accZero x | .accScale x | .vld x | .vst x | .vadd x | .vsub x | .vmul x | .vfma x
  | .vmax x | .vmin x | .vand x | .vor x | .vxor x | .vshl x | .vshr x | .vsra x | .vabs x | .vneg x | .vcmp x
  | .vsel x | .vmov x | .vbcast x | .viota x | .vext x | .vred x | .vexp2 x | .vlog2 x | .vrcp x | .vrsq x | .vtanh x
  | .vcvt x | .vmx x | .vidx x | .move x | .moveD x | .gather x | .scatter x | .moveAdd x | .moveMax x | .moveMin x
  | .atomSwap x | .atomCas x | .atomClaim x => slotOk x
  | .rdsr x _ => slotOk x
  | .moveStart core eng => decide (core < 512) && decide (eng < 2)
  | .moveComplete core tag _ | .translationWalk core tag _ | .replayableFault core tag _ => decide (core < 512) && decide (tag < 64)
  | .engineException core _ | .preloadComplete core _ => decide (core < 512)
  | .retry fn _ | .abort fn _ | .xlatFqueryWrite fn _ | .attestGo fn _ | .attestReportDone fn _ | .snapRing fn _
  | .pcieConfigRequest fn _ => decide (fn < 33)
  | .sieveBlockDecode core tag _ _ => decide (core < 512) && decide (tag < 64)
  | .memoryRead pa _ | .patrolScrub pa _ => decide (pa < 2 ^ 48)
  | .memoryWrite pa _ _ _ fn | .memorySideCas pa _ _ _ fn => decide (pa < 2 ^ 48) && decide (fn < 33)
  | .verifyScrub tw _ _ => decide (tw < 64)
  | .ledgerChunkCheck tw _ => decide (tw < 64)
  | .criticalTemperature unit _ => decide (unit < 30)
  | .memoryUnitRestart unit => decide (unit < 30)
  | .wipeComplete granule => decide (granule < 80)
  | .memorySideAdd pa _ _ _ _ fn | .memorySideMax pa _ _ _ _ fn | .memorySideMin pa _ _ _ _ fn
  | .memorySideClaim pa _ _ _ _ fn => decide (pa < 2 ^ 48) && decide (fn < 33)
  | .memorySideSwap pa _ _ fn => decide (pa < 2 ^ 48) && decide (fn < 33)
  | .codewordReceive port lane _ => decide (port < 32) && decide (lane < 16)
  | .trainId port c | .creditAck port c | .nak port c | .rdReq port c | .rdResp port c | .wr port c | .wrAck port c
  | .mso port c | .atom port c | .atomResp port c | .latch port c | .bell port c | .alarm port c => decide (port < 32) && cellOk c
  | .measureReply port _ c => decide (port < 32) && cellOk c
  | .ackGatherTimeout port | .creditReturnTimer port | .replayLimit port | .tagLimit port | .trainingStepFail port
  | .trainingRetryTimer port | .laneLockLoss port | .quickRetrainTimeout port | .portDown port
  | .schedTableActivate port => decide (port < 32)
  | .trainingStepComplete port _ | .quickRetrainSuccess port _ => decide (port < 32)
  | .inletFault inlet _ => decide (inlet < 8)
  | .windowOpen port window | .windowClose port window => decide (port < 32) && decide (window < 256)
  | .bind _ req _ | .unbind _ req _ | .moveCore _ req _ | .retuneQos _ req _ | .lifeAuth _ req _
  | .parishEnrol _ req _ | .parishKeys _ req _ | .report _ req _ | .configWrite _ req _ | .fwCommit _ req _
  | .dumpAck _ req _ | .testReq _ req _ => decide (req < 2 ^ 32)
  | .epochOpen _ _ | .engineReset _ _ | .coreReset _ _ | .clusterReset _ _ | .partitionReset _ _ | .dieReset _ _
  | .heavy _ _ | .kmcSessionOpen _ _ | .negotiateAlgorithms _ _ | .challenge _ _ => true
  | .drainEnd part | .drainLimit part | .alarmAbort part => decide (part < 32)
  | .registerWrite fn _ _ _ | .atsTranslationCompletion fn _ _ _ => decide (fn < 33)
  | .queueDestroy fn q | .resume fn q | .nop fn q | .launch fn q | .graphLaunch fn q | .latchSignal fn q
  | .latchWait fn q | .ctxCreate fn q | .ctxDestroy fn q | .map fn q | .unmap fn q | .release fn q | .invalidate fn q
  | .graphDestroy fn q | .latchAlloc fn q | .latchFree fn q | .seqBind fn q | .seqUnbind fn q | .sieveTable fn q
  | .schedLoad fn q | .shareVerify fn q | .shareMap fn q | .shareUnmap fn q | .shareDestroy fn q => decide (fn < 33) && decide (q < 64)
  | .ctxSelLatch fn ctx => decide (fn < 33) && decide (ctx < 256)
  | .destroyAck _ core eng => decide (core < 512) && decide (eng < 8)
  | .lifeChallenge _ req | .parishLeave _ req | .getInfo _ req | .dumpList _ req => decide (req < 2 ^ 32)
  | .parishAdd _ req _ _ | .mgmtRoot _ req _ _ | .fwBegin _ req _ _ | .fwChunk _ req _ _ | .logRead _ req _ _
  | .teleSub _ req _ _ => decide (req < 2 ^ 32)
  | .rollGroup ctl _ => decide (ctl < 16)
  | .resetForce domain _ => decide (domain < 9)
  | .ucePError part _ => decide (part < 32)
  | .fatalError _ _ _ | .getCertificate _ _ _ => true
  | .domainWakeComplete domain => decide (domain < 48)
  | .droopDetect cluster | .droopRecover cluster => decide (cluster < 32)
  | .rotationStep die | .sliceAbandon die => decide (die < 2)
  | .bootStepComplete step _ _ => decide (1 ≤ step ∧ step ≤ 13)
  | .bootStepFail step _ => decide (1 ≤ step ∧ step ≤ 13)
  | .routeWrite _ req _ _ _ | .bellRaise _ req _ _ _ | .dumpRead _ req _ _ _ => decide (req < 2 ^ 32)
  | .alarmRaise _ req _ _ _ _ => decide (req < 2 ^ 32)
  | .engineInstructionComplete core eng => decide (core < 512) && decide (eng < 6)
  | .laserModuleSeated inlet => decide (inlet < 8)

end Sys2Proof
end

