-- ==== Sys2Proof/Tests/Slice0.lean ====
section
/-! SUPPORT. The model's own tests: terms that the well-formedness check refuses, one step of some commands, and for each
statement states and operands that meet the hypotheses of its clauses. -/

set_option Elab.async false

namespace Sys2Proof.Tests

open Sys2Proof Sys2Proof.Machine

/-! ## States -/

/-- A slot word with values placed at bits. -/
def word (l : List (Nat × Nat)) : BitVec 54 := BitVec.ofNat 54 (l.map fun e => e.2 * 2 ^ e.1).sum

/-- A slot of core 0 that closes its bundle. -/
def slot (l : List (Nat × Nat)) : Slot := ⟨0, .row, word l, false⟩

/-- A core that runs a program of eight bundles with a register state of its own. -/
def running (c : CoreState) : State := State.reset.setCore 0 { Core.idle with cur := c, running := true, len := 8 }

/-- The same with idle registers. -/
def run0 : State := running CoreState.idle

/-- A core whose s1 holds a value. -/
def withS1 (v : U64) : State := running { CoreState.idle with s := [(1, v)] }

/-! ## Witnesses of the statements on scalar slots -/

theorem test_w_ScalarResults :
    (slotGoes run0 (slot []) 0 (scalars [(false, 0), (false, 0), (false, 0)]) [dstNo false 0] ∧ srU (word []) = false) ∧
    (slotGoes run0 (slot [(47, 1), (46, 1), (45, 1), (44, 1), (38, 15), (32, 15), (26, 15)]) 0
      (scalars [(true, 15), (true, 15), (true, 15)]) [dstNo true 15] ∧
      opf (word [(47, 1), (46, 1), (45, 1), (44, 1), (38, 15), (32, 15), (26, 15)]) 25 0 = 0) ∧
    slotGoes run0 (slot [(38, 63), (0, 63)]) 0 (scalars [(false, 63), (false, 0)]) [dstNo false 63] ∧
    (word [(38, 63), (0, 63)]).extractLsb' 0 32 < 64#32 ∧ srA (word [(38, 63), (0, 63)]) = 0 ∧
    srAB (word [(38, 63), (0, 63)]) = false ∧ srU (word [(38, 63), (0, 63)]) = false := by
  simp only [slotGoes]
  repeat' apply And.intro
  all_goals decide +kernel

theorem test_w_PredicateResults :
    (slotGoes run0 (slot [(44, 6), (41, 7)]) 0 [0, 0] [dP 7] ∧ sMod (word [(44, 6), (41, 7)]) = 6) ∧
    (slotGoes run0 (slot [(44, 6), (41, 7), (0, 2 ^ 32 - 1)]) 0 [0] [dP 7] ∧
      opf (word [(44, 6), (41, 7), (0, 2 ^ 32 - 1)]) 40 38 = 0) ∧
    (slotGoes run0 (slot [(44, 5), (41, 1), (38, 7), (35, 7)]) 0 [] [dP 1] ∧
      opf (word [(44, 5), (41, 1), (38, 7), (35, 7)]) 34 0 = 0) ∧
    (slotGoes run0 (slot [(38, 63)]) 0 [63] [dS 63] ∧ bitOf (word [(38, 63)]).toNat 44 = false) ∧
    (slotGoes run0 (slot [(44, 1)]) 0 [0] ((List.range 7).map fun i => dP (i + 1)) ∧
      opf (word [(44, 1)]) 47 45 = 0 ∧ bitOf (word [(44, 1)]).toNat 44 = true) := by
  simp only [slotGoes]
  repeat' apply And.intro
  all_goals decide +kernel

theorem test_w_CoreStoreAccess :
    slotGoes run0 (slot [(44, 3)]) 0 [0] [dS 0] ∧ slotGoes run0 (slot [(44, 3)]) 0 [0] [] ∧
    (((slotBase run0 (slot [(44, 3), (0, 1)])).ra 0).toNat + ((word [(44, 3), (0, 1)]).extractLsb' 0 24).toInt) % 8 ≠ 0 ∧
    (((slotBase run0 (slot [(44, 3), (0, 2 ^ 24 - 8)])).ra 0).toNat + ((word [(44, 3), (0, 2 ^ 24 - 8)]).extractLsb' 0 24).toInt : Int) = -8 ∧
    (((slotBase run0 (slot [(44, 3), (0, 0x1EFFF8)])).ra 0).toNat + ((word [(44, 3), (0, 0x1EFFF8)]).extractLsb' 0 24).toInt : Int) + 8 =
      0x1F0000 ∧
    (((slotBase run0 (slot [(44, 3), (0, 0x1F0000)])).ra 0).toNat + ((word [(44, 3), (0, 0x1F0000)]).extractLsb' 0 24).toInt : Int) + 8 >
      0x1F0000 := by
  simp only [slotGoes]
  repeat' apply And.intro
  all_goals decide +kernel

theorem test_w_BranchesAndLoops :
    (slotGoes run0 (slot [(0, 7)]) 0 [] [] ∧ opf (word [(0, 7)]) 10 0 < (run0.core 0).len) ∧
    (slotGoes run0 (slot [(32, 63)]) 0 [63] [] ∧ ((slotBase run0 (slot [(32, 63)])).rs 63).toNat % 2048 < (run0.core 0).len) ∧
    slotGoes run0 (slot [(38, 63), (0, 7)]) 0 [63] [dS 63] ∧
    (slotGoes run0 (slot [(42, 3), (32, 1), (0, 2047)]) 0 [1] [dL 3] ∧
      (slotBase run0 (slot [(42, 3), (32, 1), (0, 2047)])).loops = []) ∧
    slotGoes run0 (slot [(42, 3), (12, 2 ^ 20 - 1), (0, 1)]) 0 [] [dL 3] := by
  simp only [slotGoes]
  repeat' apply And.intro
  all_goals decide +kernel

/-- An open bundle whose slots gave faults, X before S, or wait. -/
def opened (es : List ExcSrc) (wait : Bool) : OpenBundle := { run0.core 0 |>.open with faults := es, wait := wait }

theorem test_w_EndsHintsBellAndBundles_end :
    (run0.core 0).takes 0 = true ∧ (slotBase run0 (slot [])).pc < (run0.core 0).len ∧ (slotBase run0 (slot [])).pendingReg [] = false ∧
    (slot []).f = 0 ∧ (slot []).op = .row ∧ (run0.core 0).open.slots = 0 ∧ (slot [(48, 1)]).f ≠ 0 ∧
    (run0.core 0).open.wait = false ∧ (run0.core 0).cur = slotBase run0 (slot [(48, 1)]) ∧ (run0.core 0).open.faults = [] ∧
    (opened [] true).wait = true ∧ (run0.core 0).cur = (opened [] false).base ∧ (opened [] false).faults = [] ∧
    (∀ e ∈ (opened [{ excOf 4 with slot := 3 }, excOf 1] false).faults, e.slot < 4) ∧
    (opened [{ excOf 4 with slot := 3 }, excOf 1] false).faults ≠ [] := by
  repeat' apply And.intro
  all_goals decide +kernel

theorem test_w_SpecialRegisterRead :
    (∀ e ∈ [0, 1, 2, 3, 4, 5, 6, 7, 8, 9, 0x10, 0x13],
      slotGoes run0 (slot [(38, 63), (0, e)]) 0 [63] [dS 63] ∧ opf (word [(38, 63), (0, e)]) 7 0 = e ∧
      opf (word [(38, 63), (0, e)]) 37 8 = 0) := by
  simp only [slotGoes]
  decide +kernel

theorem test_w_DescriptorInstructions :
    slotGoes run0 (slot [(39, 31), (32, 63), (26, 63)]) 0 [63, 63] [dT 31] ∧
    slotGoes run0 (slot [(38, 63), (32, 62), (27, 31)]) 0 [63, 62] [dS 63, dS 62] ∧
    (∀ e ∈ [0, 1, 2, 3, 4, 5], slotGoes run0 (slot [(47, 1), (44, e), (39, 31), (32, 63)]) 0 [63] [dT 31] ∧
      opf (word [(47, 1), (44, e), (39, 31), (32, 63)]) 46 44 = e) := by
  simp only [slotGoes]
  repeat' apply And.intro
  all_goals decide +kernel

/-- A core with a latch of its context allocated at number 4,095, and a sequence slot bound at number 255. -/
def latched : State :=
  { run0 with
    latches := [(key2 0 4095, { ctx := 0, isMax := true, val := 5, held := 0 })]
    slots := [(255, { SeqSlot.fresh with tokens := 100, pageTokens := 16 })] }

theorem test_w_WaitsAndLatches :
    slotGoes run0 (slot [(32, 63)]) 0 [63] [] ∧ slotGoes run0 (slot [(0, 255)]) 0 [] [] ∧
    (∃ t, latched.latch? (latched.coreFn 0).1 (opf (word [(32, 4095)]) 43 32) = some t ∧ t.ctx = (latched.coreFn 0).2.1) ∧
    slotGoes latched (slot [(32, 4095)]) 0 [0] [] ∧ slotGoes latched (slot [(32, 4095), (23, 7)]) 0 [0] [dP 7] ∧
    bitOf (word [(32, 4095)]).toNat 25 = false := by
  simp only [slotGoes]
  refine ⟨?_, ?_, ⟨{ ctx := 0, isMax := true, val := 5, held := 0 }, ?_⟩, ?_⟩ <;> decide +kernel

/-! ## Witnesses of the statements on engines and moves -/

/-- A tile of one row and one column at the start of the core store, of a format. -/
def tile (fmt : Nat) : BitVec 128 := BitVec.ofNat 128 (2 ^ 57 + 2 ^ 71 + 2 ^ 84 + fmt * 2 ^ 100)

/-- A core whose td0 is BF16, td1 FP32 and td2 MX, with s1 = 1. -/
def tiled : State := running { CoreState.idle with s := [(1, 1)], td := [(0, tile 1), (1, tile 0), (2, tile 5)] }

theorem test_w_MatrixIssue :
    slotGoes tiled (slot []) 1 [0] [2000, 2001, 2002, 2003] ∧ tdOk (tile 1) = true ∧
    slotGoes tiled (slot [(26, 3), (28, 1)]) 1 [1] [2003] ∧ bits ((slotBase tiled (slot [])).rs 1).toNat 32 8 + 1 + 32 * 3 ≤ 128 ∧
    slotGoes tiled (slot [(26, 3)]) 1 [0] [] ∧ slotGoes tiled (slot [(39, 1), (24, 3)]) 1 [0] [2000, 2001, 2002, 2003] ∧
    tdOk (tile 0) = true ∧ tdFmt (tile 0) = 0 ∧ slotGoes tiled (slot [(0, 15)]) 1 [] [2000, 2001, 2002, 2003] ∧
    opf (word [(0, 15)]) 47 4 = 0 := by
  simp only [slotGoes]
  repeat' apply And.intro
  all_goals decide +kernel

theorem test_w_VectorIssue :
    (slotGoes tiled (slot [(52, 1), (39, 31)]) 2 [] [3063] ∧ slotGoes tiled (slot [(47, 1), (20, 0xD)]) 2 [0] [3000] ∧
      opf (word [(47, 1), (20, 0xD)]) 23 20 = 0xD ∧ bitOf (word [(47, 1), (20, 0xD)]).toNat 47 = true) ∧
    (opf (word [(10, 8), (20, 0xB)]) 13 10 = 8 ∧ opf (word [(10, 8), (20, 0xB)]) 23 20 = 0xB) ∧
    (cvtPOk 0 1 4 = true ∧ opf (word [(10, 1), (7, 4)]) 9 7 = 4) ∧
    (slotGoes tiled (slot [(4, 255), (14, 63)]) 2 [63] [63] ∧ opf (word [(4, 255), (14, 63)]) 13 4 < 8192 / fmtBits 0) ∧
    (slotGoes tiled (slot [(10, 5), (24, 1)]) 2 [] [3000, 3001] ∧ fmtMx 5 = true ∧
      128 * opf (word [(10, 5), (24, 1)]) 9 7 + 32 * fmtBits 5 ≤ 1024) ∧
    (slotGoes tiled (slot []) 2 [0] [3000] ∧ slotGoes tiled (slot []) 2 [0] [] ∧ tdBase (tile 1) + 1024 ≤ 0x1B0000) := by
  simp only [slotGoes]
  repeat' apply And.intro
  all_goals decide +kernel

/-- A core store with the smallest MOVE.D record at 0: one byte from memory to memory. -/
def recorded : State := running { CoreState.idle with store := [(16, 1), (18, 1), (20, 1), (30, 1)] }

theorem test_w_MoveIssue :
    (tiled.core 0).cur.moveDepth 0 < 32 ∧ (tiled.core 0).cur.tagBusy 31 = false ∧ tiled.hasSieve = true ∧
    slotGoes tiled (slot [(38, 31)]) 3 [0] [] ∧ tileEnd (tile 1) ≤ 0x1B0000 ∧
    (slotGoes tiled (slot [(52, 1), (38, 63)]) 3 [0] [] ∧ opf (word [(52, 1), (38, 63)]) 43 38 / 32 = sEng (word [(52, 1), (38, 63)])) ∧
    (slotGoes tiled (slot [(44, 2), (13, 5), (33, 1)]) 3 [0] [] ∧ tiled.fld 0 0 Reg.IDC_CAP1.FP_ADD = 1 ∧
      tdRows (tile 0) * rowBytes (tile 0) % efmtSize 2 = 0) ∧
    (slotGoes recorded (slot []) 3 [] [] ∧
      mdrOk ((slotBase recorded (slot [])).store.getRun 0 64) true true = true ∧
      mdrSide (mdrSrcCore ((slotBase recorded (slot [])).store.getRun 0 64)) 0 1 [] 0x1F0000 = none) ∧
    (slotGoes tiled (slot [(28, 1), (22, 1), (16, 1)]) 3 [1, 1] [] ∧ ((slotBase tiled (slot [])).rs 1).toNat = 1) ∧
    (∀ p < 3, slotGoes tiled (slot [(44, p)]) 3 [] [] ∧ opf (word [(44, p)]) 45 44 = p) := by
  simp only [slotGoes]
  repeat' apply And.intro
  all_goals decide +kernel

/-- An instruction of matrix engine 0 that has started, and one of vector engine 1. -/
def busy : State :=
  let o : EngOp := { seq := 0, bundle := 0, eng := 0, op := 4, f := 1, tds := [], vals := [], rd := [], wr := [], dst := none
                     started := true, degraded := false }
  running { CoreState.idle with engq := [o, { o with eng := 5, seq := 1, op := 0x28 }] }

theorem test_w_EngineCompletion :
    (((busy.core 0).cur.engq.find? (·.eng == 0)).map (·.started)) = some true ∧
    (((busy.core 0).cur.engq.find? (·.eng == 5)).map (·.started)) = some true := by
  repeat' apply And.intro
  all_goals decide +kernel

/-- A physical address on the first HBM4 stack. -/
def stack0 : Nat := 2 ^ 40

/-- A launch of VF1 on core 0 that waits for it. -/
def aLaunch : Launch :=
  { id := 0, fn := 1, q := 0, sq := 0, ctx := 0, lc := true, floor := 0, prog := 0, argVa := 0, constVa := 2 ^ 20, bundles := 1
    constKib := 0, cores := [0], ended := [], status := 0, excCore := 0, degraded := false, measured := true, phase := 0
    startBeat := 0, since := 0, heldFrom := 0, lowBeats := 0, saved := [], slots := [], phaseEdge := 0, g := none }

/-- With core 0 at work on that launch. -/
def asVf (s : State) : State :=
  { s.setCore 0 { s.core 0 with launch := some 0 } with launches := [{ aLaunch with phase := 1 }] }

/-- Tables of VF1 in the first stack, whose first granule is its partition's: the first 64 GiB map to it, the next to node 5,
the third to the host. -/
def paged (s : State) : State :=
  let m := (((s.mem.setRun stack0 (leBytes 8 (stack0 + 8192 + 1))).setRun (stack0 + 8192) (leBytes 8 (0x8F + stack0 / 16))).setRun
    (stack0 + 8200) (leBytes 8 (0x8F + 0x100 + 5 * 2 ^ 48))).setRun (stack0 + 8208) (leBytes 8 (0x8F + 0x300))
  ((({ s with mem := m } : State).setOwner 16 0x40).setFld 1 0 Reg.XLAT_ROOT.ROOT (stack0 / 8192)).setFld 1 0 Reg.XLAT_ROOT.VALID 1

/-- A move of one tile row from a virtual address into td0. -/
def aMove (va : Nat) (f : BitVec 54) : MoveOp :=
  { moveOf CoreState.idle CoreState.idle 1 f 0 with tds := [(0, tile 1)], vals := [BitVec.ofNat 64 va, 0], wr := [0] }

/-- A core of VF1 with a move in its queue, under the tables of VF1. -/
def moving (m : MoveOp) : State := paged (asVf (running { CoreState.idle with moves := [m] }))

/-- The same with port 0 active, bound and scheduled, and a route to node 5 by it. -/
def ported (s : State) : State :=
  let s := ((s.setFld 0 0 Reg.DCTL_LYS_PSTAT.STATE 2).setFld 0 0 Reg.DCTL_LYS_PSTAT.LANES 0xFFFF).setFld 0 0
    Reg.DCTL_LYS_SCHED.STATE 1
  ((s.setFld 0 0 Reg.DCTL_LYS_RT.VALID 1).setFld 0 0 Reg.DCTL_LYS_RT.NODE 5).setFld 0 0 Reg.DCTL_LYS_RT.NHOP 1

/-- With a window of core 0 and tag 0 open on port 0. -/
def inWindow (s : State) : State :=
  s.setPort 0 { Port.fresh with
    active := some { act := 0, beatLen := 5, fn := 1, q := 0, sq := 0, g := none, fresh := false, off := false
                     windows := [⟨2 ^ 29, 0⟩] }
    openWin := some 0
    winLeft := 1 }

/-- A move with SLOT to node 5. -/
def slotted : MoveOp := aMove (2 ^ 36) (word [(46, 1)])

theorem test_w_MoveProgress_start :
    ((moving (aMove 0 0)).core 0).cur.moves.find? (fun m => m.eng == 0 && !m.started) = some (aMove 0 0) ∧
    (moving (aMove 0 0)).coreShut 0 = false ∧ ((moving (aMove 0 0)).core 0).cur.moveReady (aMove 0 0) = true ∧ (aMove 0 0).sched = false ∧
    slotted.sched = true ∧ (inWindow (ported (moving slotted))).slotPort 0 slotted = some 0 ∧
    (inWindow (ported (moving slotted))).winServes 0 0 0 = true ∧
    (moving slotted).slotPort 0 slotted = none ∧ (inWindow (ported (moving slotted))).slotsLost 0 = false ∧
    (let s := moving slotted; slotted.issued < ({ s with beat := { s.beat with edges := 1 } } : State).tick) ∧
    ((ported (moving slotted)).setFld 0 0 Reg.DCTL_LYS_SCHED.STATE 0).winServes 0 0 0 = false ∧
    ((ported (moving slotted)).setFld 0 0 Reg.DCTL_LYS_SCHED.STATE 0).slotStart 0 slotted = some (some 0) := by
  repeat' apply And.intro
  all_goals decide +kernel

theorem test_w_MoveProgress_end :
    (let m := { aMove 0 0 with started := true, f := word [(45, 1)], outAt := 2 };
      (moving m).move? 0 0 = some m ∧ m.fid = none ∧ m.applied = false ∧ m.isSieve = true ∧ m.outAt = m.total) ∧
    { aMove 0 0 with started := true, applied := true }.applied = true ∧
    (let m := { aMove 0 0 with started := true };
      let r := (moving m).progress 0 0;
      m.isSieve = false ∧ m.applied = false ∧ r.1.isSome = true ∧ ((r.2.move? 0 0).map fun m1 => m1.hostSrc (r.1.getD [])) = some [] ∧
        ((r.2.move? 0 0).bind fun m1 =>
          let s2 := (r.2.setMove 0 m1).pumpMove 0 0 (r.1.getD []);
          (s2.move? 0 0).map fun m2 =>
            let s3 := s2.moveVerify m2 (r.1.getD []);
            let p := s3.putPieces 0 1 m2 (r.1.getD []) m2.dstPieces;
            (m2.reqs, m2.op == 6, s3.moveUnits m2 (r.1.getD []), p.1, p.2.owing)) = some ([], false, true, none, [])) ∧
    (let m := { aMove (2 ^ 37) 0 with started := true };
      let r := (moving m).progress 0 0;
      ((r.2.move? 0 0).map fun m1 => (m1.hostSrc (r.1.getD []), hasRun m1.buf 0 1, r.2.hostNeed 1 0 (m1.hostSrc (r.1.getD [])))) =
        some ([(0, 2, 0)], false, 2) ∧ r.2.inParish 1 0 = false) := by
  repeat' apply And.intro
  all_goals decide +kernel

theorem test_w_MoveProgress_atom :
    (let m := { aMove 0 0 with op := 6, vals := [0, 0], tds := [], wr := [], started := true };
      let r := (moving m).progress 0 0;
      r.1.isSome = true ∧ (r.1.getD []).look m.target .mso = .loc stack0 false ∧ (moving m).paStopped stack0 = false ∧
        (moving m).countersRoom stack0 16 = true) := by
  repeat' apply And.intro
  all_goals decide +kernel

/-! ## Witnesses of the statements on translation, launches and memory -/

/-- A move that has started. -/
def started (va : Nat) : MoveOp := { aMove va 0 with started := true }

/-- An open fault of PF0 that the move of core 0 waits for. -/
def faulted : State :=
  let o : OpenFault := { id := 7, fn := 1, page := 0, core := 0, tag := 0, moves := [(0, 0)], written := true, entry := true, coalesced := 0, va := 0
                         cause := 1, access := 1, beat := 0, pte := 0xA0, ctx := 0 }
  { moving { started 0 with fid := some 7 } with faults := [o], nextFault := 8 }

theorem test_w_MoveTranslation :
    (moving (started 0)).move? 0 0 = some (started 0) ∧
    (started 0).accesses.find? (fun a => a.1 / 65536 == 0 / 65536) = some (0, .rd) ∧
    ((moving (started 0)).xlateFor 0 (started 0) 0 .rd).1.good = true ∧
    ((moving (started (2 ^ 46))).xlateFor 0 (started (2 ^ 46)) (2 ^ 46) .rd).1.good = false ∧
    (let s := moving (started 0);
      let s : State := { s with mem := s.mem.setRun (stack0 + 8192) (leBytes 8 (stack0 + 16384 + 1)) };
      let s : State := { s with mem := (s.mem.setRun (stack0 + 16384) (leBytes 8 (stack0 + 24576 + 1))).setRun (stack0 + 24576) [0xA0] };
      s.replays 0 0 0 = true ∧ (s.xlateFor 0 (started 0) 0 .rd).1.good = false) ∧
    faulted.faults.find? (fun o => o.fn == 1 && o.entry && o.id == 8) = none ∧
    (faulted.faults.find? (fun o => o.fn == 1 && o.entry && o.id == 7)).isSome = true := by
  repeat' apply And.intro
  all_goals decide +kernel

/-- A YEB block of one chunk of 32 zero bytes, stored raw. -/
def block (crc : Nat) : List Byte := [0x1F, 0] ++ leBytes 2 32 ++ leBytes 2 48 ++ [0, 0] ++ leBytes 4 crc ++ leBytes 36 0

/-- A sieve move of a tile row of 32 bytes whose block stands in the first stack. -/
def sieved (crc : Nat) : State :=
  let t : BitVec 128 := BitVec.ofNat 128 (16 * 2 ^ 57 + 2 ^ 71 + 2 ^ 84 + 2 ^ 100)
  let m : MoveOp := { aMove (2 ^ 20) (word [(45, 1)]) with tds := [(0, t)], started := true }
  let s := moving m
  { s with mem := s.mem.setRun (stack0 + 2 ^ 20) (block crc) }

theorem test_w_EngineExceptionsAndBlocks :
    (busy.core 0).running = true ∧ (busy.core 0).cur.hasWork ⟨6, 1, 0, 0, 0, 0, 0⟩ = true ∧ (busy.core 0).cur.hasWork ⟨0xB, 2, 1, 0, 0, 0, 0⟩ = true ∧
    (let s := sieved (crc32c (List.replicate 32 0));
      let b := block (crc32c (List.replicate 32 0));
      let m := (s.move? 0 0).getD (aMove 0 0);
      m.isSieve = true ∧ m.outAt < m.total ∧ yebHeader b = true ∧ (yebCheck b none false 32).1 = [] ∧
        (match s.sieveBytes 0 [] 3 m 0 16 with
          | (.bytes h hb, m1, s1) => decide (h = b.take 16) && !hb && (match s1.sieveBytes 0 [] 4 m1 0 48 with
            | (.bytes d bb, _, _) => decide (d = b) && !bb
            | _ => false)
          | _ => false) = true ∧
        (let m := { aMove (2 ^ 37) (word [(45, 1)]) with started := true };
          match (moving m).sieveBytes 0 [0x1F] 3 m 0 16 with
          | (.short, _, _) => true
          | _ => false) = true) ∧
    (yebCheck (block 0) none false 32).1 ≠ [] := by
  repeat' apply And.intro
  all_goals decide +kernel

/-- Core 0 free, idle and not running, with that launch waiting. -/
def waiting : State :=
  { paged (State.reset.setFld 0 0 Reg.IDC_CORE_MAP.OWNED 1) with launches := [aLaunch] }

/-- With its preload in progress, or done. -/
def preloading (isDone : Bool) : State :=
  waiting.setCore 0 { waiting.core 0 with preload := some { launch := 0, half := 1, started := true, done := isDone, fid := none } }

/-- With another launch at work on the core that has ended its first block. -/
def nextToCome : State :=
  { waiting.setCore 0 { waiting.core 0 with launch := some 1, firstEnd := true, len := 1024, half := 0 } with
    launches := [{ aLaunch with bundles := 1024 }, { aLaunch with id := 1, sq := 1, phase := 1 }] }

theorem test_w_LaunchLoading :
    (waiting.nextFor 0).map (·.id) = some 0 ∧ waiting.coreShut 0 = false ∧ (waiting.core 0).launch = none ∧
    ((waiting.core 0).preload.any fun p => p.launch == 0) = false ∧
    (nextToCome.nextFor 0).map (fun l => (l.id, l.bundles)) = some (0, 1024) ∧ (nextToCome.core 0).firstEnd = true ∧
    ((preloading false).core 0).preload.map (fun p => (p.launch, p.started, p.done)) = some (0, true, false) ∧
    (preloading false).launch? 0 = some aLaunch ∧
    (match (preloading false).preRead 0 aLaunch .bin 0 32 [] with
      | .ok b e s => b.length == 32 && (match s.preRead 0 aLaunch .const (2 ^ 20) 0 e with
        | .ok _ _ _ => true
        | _ => false)
      | _ => false) = true ∧
    (match (preloading false).preRead 0 aLaunch .bin (2 ^ 46) 32 [] with
      | .fail _ _ => true
      | _ => false) = true ∧
    (preloading true).movingCore 0 = false ∧ (preloading true).nextFor 0 = some aLaunch ∧
    ((preloading true).core 0).preload.map (·.done) = some true := by
  repeat' apply And.intro
  all_goals decide +kernel

/-- Two invalidations done: one by PF0's register, one of a command. -/
def invalidating : State :=
  { faulted with
    invals := [{ id := 0, fn := 1, range := none, cmd := none, cfn := 1, ats := false, waiting := [] },
      { id := 1, fn := 1, range := none, cmd := some (0, 0, none), cfn := 1, ats := false, waiting := [(0, 5)] },
      { id := 2, fn := 1, range := none, cmd := none, cfn := 1, ats := true, waiting := [] }] }

/-- A started record of an opcode. -/
def startedOf (op : Nat) : QRec :=
  { sq := 0, w := BitVec.ofNat 512 op, st := 1, status := 0, beat := 0, stallFrom := 0, willRecord := false, fresh := false
    badRead := false, sealBad := false, sgen := 0, detail := 0 }

/-- A queue of VF1 with that record. -/
def recorded1 (s : State) (op : Nat) : State := s.setQueue 1 0 { s.queue 1 0 with recs := [startedOf op] }

theorem test_w_FaultQueryAndInvalidation :
    (faulted.faults.find? fun o => o.fn == 1 && o.entry && o.id == 7 % 65536).isSome = true ∧
    (faulted.faults.find? fun o => o.fn == 1 && o.entry && o.id == 65535 % 65536) = none ∧
    bits (2 ^ 62) 62 2 = 1 ∧ bits (2 ^ 63 + 1) 62 2 = 2 ∧ bits (2 ^ 63 + 1) 0 16 = 1 ∧ bits (2 ^ 63) 0 16 = 0 ∧
    State.reset.fld 0 0 Reg.DCTL_XLAT_INVSTAT.BUSY ≠ 1 ∧ (State.reset.setFld 0 0 Reg.DCTL_XLAT_INVSTAT.BUSY 1).fld 0 0 Reg.DCTL_XLAT_INVSTAT.BUSY = 1 ∧
    ((invalidating.invals.find? (·.id == 0)).map fun v => (v.ats, v.cmd)) = some (false, none) ∧
    ((invalidating.invals.find? (·.id == 2)).map (·.ats)) = some true ∧
    (∀ m ∈ (invalidating.core 0).cur.moves, m.seq ≠ 5) ∧
    ((invalidating.qrec 1 0 0).filter fun r => recOp r.w == 0x13 || recOp r.w == 0x14) = none ∧
    (((recorded1 invalidating 0x13).qrec 1 0 0).filter fun r => recOp r.w == 0x13 || recOp r.w == 0x14).isSome = true := by
  repeat' apply And.intro
  all_goals decide +kernel

/-- A function with ATS on and a move that waits for a page; with PRI, and a page request out. -/
def hosted (pri : Bool) (asked : List Nat) : State :=
  State.reset.setAts 1 { Ats.fresh with on := true, pri := pri, quota := 1, asked := asked, users := [(0, 0, 5)] }

theorem test_w_HostTranslations :
    ((hosted false []).atsOf 1).on = true ∧ ((hosted false []).atsOf 1).users.any (·.2.2 == 5 * 4096 / 4096) = true ∧
    ((hosted false []).atsOf 1).pri = false ∧ ((hosted true []).atsOf 1).pri = true ∧
    ((hosted true []).atsOf 1).asked.contains (5 * 4096 / 4096) = false ∧
    ((hosted true [5]).atsOf 1).asked.contains ((5 * 4096 + 4095) / 4096) = true := by
  repeat' apply And.intro
  all_goals decide +kernel

/-- The second stack. -/
def stack1 : Nat := stack0 + 0x1000000000

/-- Two 64 KiB copies in the first two stacks, as twin 63. -/
def twinned : State :=
  let s := (State.reset.setFld 0 63 Reg.DCTL_TWIN0.VALID 1).setFld 0 63 Reg.DCTL_TWIN0.PRIMARY (stack0 / 65536)
  (s.setFld 0 63 Reg.DCTL_TWIN1.TWIN ((stack0 + 0x1000000000) / 65536)).setFld 0 63 Reg.DCTL_TWIN1.LENGTH 1

/-- A read of a unit that meets errors in symbols, or in bits of slice SRAM, and none in its twin. -/
def readIn (errs : List Nat) : ReadIn := ⟨errs, .pass, [], .pass, false⟩

theorem test_w_MemoryReadService :
    State.reset.mapped 0x10000000 = none ∧ State.reset.mapped (2 ^ 44 - 1) = none ∧ (State.reset.mapped 0xFFFFFFF).isSome = true ∧
    State.reset.mapped stack0 = some (.stack 0) ∧ State.reset.takesRead stack0 = true ∧ State.reset.twinAt stack0 = none ∧
    ((State.reset.setPoison stack0 true).tier2Read stack0 256).poisoned stack0 = true ∧
    (State.reset.tier2Read stack0 256).poisoned stack0 = false ∧
    twinned.twinAt (stack0 + 65535) = some (63, 65535, stack0 + 0x1000000000 + 65535) ∧ twinned.twinAt (stack0 + 65536) = none ∧
    twinned.takesRead stack0 = true ∧ (twinned.tier2Read stack0 256).paStopped (stack0 + 0x1000000000) = false ∧
    (∀ e ∈ [([], Ecc.clean), ([0], .corrected), ([0, 135], .corrected), ([0, 1, 2], .uncorrectable), ([1, 2, 3, 135], .uncorrectable)],
      ((twinned.tier2Read stack0 256).readCoded stack0 e.1).1 = e.2 ∧ e.1.Nodup) ∧
    ((place 0x1000).any fun p => match p with
      | .slice _ _ => true
      | _ => false) = true ∧
    (∀ e ∈ [([], Ecc.clean), ([71, 72], .corrected), ([72, 143], .uncorrectable)],
      (State.reset.readCoded 0x1000 e.1).1 = e.2 ∧ e.1.Nodup) ∧
    ((twinned.tier2Read stack0 256).twinServes (some (63, 0, stack1)) (readIn [1, 2, 3])).1 = true ∧
    ((twinned.tier2Read stack0 256).twinServes (some (63, 0, stack1)) { readIn [1, 2, 3] with twinErrs := [4, 5, 6] }).1 = false ∧
    (twinned.setFld 0 1 Reg.DCTL_MEMSTAT.STEP 4).paStopped (stack0 + 0x1000000000) = true := by
  repeat' apply And.intro
  all_goals decide +kernel

theorem test_w_MemoryWriteStores :
    State.reset.mem.rising = true ∧ State.reset.poison.rising = true ∧ State.reset.runMapped (0x10000000 - 4) 4 = true ∧
    (State.reset.mapped (0x10000000 - 4)).isSome = true ∧ State.reset.paStopped (0x10000000 - 4) = false ∧
    State.reset.countersRoom (0x10000000 - 4) 4 = true ∧ State.reset.authFailed (0x10000000 - 4) = false ∧
    State.reset.runMapped (0x20 * 0x1000000000) 4 = true ∧ State.reset.countersRoom (0x20 * 0x1000000000) 4 = true := by
  repeat' apply And.intro
  all_goals decide +kernel

theorem test_w_MemoryUnitCommands :
    (twinned.fld 0 63 Reg.DCTL_TWIN0.VALID = 1 ∧ 256 * 255 < twinned.twinLen 63 * 65536 ∧ twinned.paStopped (twinned.twinPri 63) = false ∧
      twinned.paStopped (twinned.twinSec 63) = false ∧ twinned.chunkHeld 63 (256 * 255) = false) ∧
    (({ twinned with chunks := [⟨63, 0, [0]⟩] } : State).chunks.find? (fun c => c.tw == 63 && c.chunk == 0)).isSome = true ∧
    (∀ e ∈ [(11, 107), (27, 105), (29, 112)], State.reset.fld 0 e.1 Reg.DCTL_MEMSTAT.PRESENT = 1 ∧
      (if e.1 < 12 then 107 else if e.1 < 28 then 105 else 112) ≤ e.2 ∧ State.reset.fld 0 e.1 Reg.DCTL_MEMSTAT.STEP ≠ 4) ∧
    ((State.reset.setFld 0 0 Reg.DCTL_MEMSTAT.STEP 4).fld 0 0 Reg.DCTL_MEMSTAT.STEP = 4 ∧
      State.reset.hot.get 0 0 = 0 ∧
      (State.reset.setFld 0 0 Reg.DCTL_MEMSTAT.STEP 4).fld 0 0 Reg.DCTL_MEMSTAT.TEMP + 3 < 95) ∧
    (let s : State := { State.reset with wipes := [⟨79, false, none, true⟩] };
      s.wipes.any (fun w => w.granule == 79 && !w.done) = true ∧ s.memStopped (granuleUnit 79) = false ∧ s.wipeBehind 79 = false) := by
  repeat' apply And.intro
  all_goals decide +kernel

theorem test_w_MemorySideElement :
    State.reset.fld 0 0 Reg.IDC_CAP1.FP_ADD = 1 ∧
    (∀ n ∈ [1, 2, 4, 8], State.reset.runMapped (stack0 + 8) n = true ∧ (State.reset.mapped (stack0 + 8)).isSome = true ∧
      State.reset.countersRoom (stack0 + 8) n = true ∧ State.reset.paStopped (stack0 + 8) = false ∧
      State.reset.authFailed (stack0 + 8) = false) ∧ State.reset.poisoned (stack0 + 8) = false ∧
    (∀ o ∈ State.reset.owing, State.reset.contribs.any (fun x => x.owed == o.id) = true) ∧
    (∀ x ∈ State.reset.contribs, ¬(x.pa = stack0 + 8 ∧ x.e = 2)) ∧ 2 ≤ [0x3F800000, 0x3F800000].length ∧
    (State.reset.setPoison stack0 true).poisoned (stack0 + 8) = true := by
  repeat' apply And.intro
  all_goals decide +kernel

theorem test_w_MemorySideAtomics :
    State.reset.mem.rising = true ∧ (∀ n ∈ [8, 16], State.reset.runMapped stack0 n = true ∧ State.reset.countersRoom stack0 n = true) ∧
    State.reset.authFailed stack0 = false ∧ State.reset.poisoned stack0 = false ∧
    claimLegal 0 (7 + 2 ^ 16 + 2 ^ 32 + 2 ^ 80) 7 0 100 = true ∧
    claimLegal (7 + 2 ^ 16 + 2 ^ 33 + 2 ^ 80) (7 + 2 ^ 17 + 2 ^ 32 + 2 ^ 81) 7 99 100 = false ∧
    claimLegal (7 + 2 ^ 16 + 2 ^ 33 + 2 ^ 80) (7 + 2 ^ 17 + 2 ^ 32 + 2 ^ 81) 7 100 100 = true := by
  repeat' apply And.intro
  all_goals decide +kernel

/-! ## Witnesses of the statements on commands -/

/-- A context in use. -/
def aCtx : Ctx := { lc := false, seed := 0, q := [], closed := [], uj := 0, destroying := false }

/-- The state of a package in RUN at beat 1, after one edge, with queue 0 of PF0 ACTIVE and its context 0 live. -/
def served : State :=
  let s := ((State.reset.setFld 0 0 Reg.PWR_STAT.STATE 3).setFld 0 0 Reg.DCTL_BEAT_NUM.BEAT_NUM 1).setFld 0 0 Reg.QCFG_QSTAT.STATE 1
  { s with ctxs := [(key2 0 0, aCtx)], beat := { s.beat with edges := 1 } }

/-- The same with partition 0 in use, and queue 0 of VF1 ACTIVE. -/
def serving : State :=
  let s := (served.setFld 1 0 Reg.QCFG_QSTAT.STATE 1).setFld 0 0 Reg.DCTL_COMP_PART0.STATE 1
  { s with ctxs := [(key2 0 0, aCtx), (key2 1 0, aCtx)] }

/-- A record with values placed at its bytes. -/
def record (l : List (Nat × Nat)) : BitVec 512 := BitVec.ofNat 512 (l.map fun e => e.2 * 2 ^ (8 * e.1)).sum

/-- That record fetched at beat 0. -/
def fetched (l : List (Nat × Nat)) : QRec := { startedOf 0 with w := record l, st := 0 }

/-- Queue 0 of a function with that record in it. -/
def withRec (fn : Nat) (s : State) (l : List (Nat × Nat)) : State :=
  s.setQueue fn 0 { Queue.fresh with recs := [fetched l] }

/-- The state with that record started. -/
def begun (fn : Nat) (s : State) (l : List (Nat × Nat)) : State :=
  startedRec (withRec fn s l) fn 0 (fetched l) (record l)

/-- The command of that record. -/
def asCmd (fn : Nat) (l : List (Nat × Nat)) : Cmd := cmdOf fn 0 (fetched l) (record l)

/-- Whether that record may start, in form, as a command of its opcode. -/
def starts (fn : Nat) (s : State) (l : List (Nat × Nat)) : Bool :=
  (withRec fn s l).startable fn 0 == some (fetched l) && (withRec fn s l).openRec fn 0 0 (record l) == some (record l) &&
    recWf (record l) && (begun fn s l).cmdCheck (asCmd fn l) == 0

/-- A record that may start runs as its command. -/
theorem runs_of_starts {fn : Nat} {s : State} {l : List (Nat × Nat)} (h : starts fn s l = true) :
    runs (withRec fn s l) fn 0 (recOp (record l)) (begun fn s l) (asCmd fn l) 0 := by
  simp only [starts, Bool.and_eq_true, beq_iff_eq] at h
  exact ⟨h.2, rfl, .inl ⟨fetched l, record l, h.1.1.1, rfl, rfl, rfl, h.1.1.2, h.1.2, rfl, rfl, rfl⟩⟩

theorem test_w_CommandChecks :
    (withRec 0 served []).startable 0 0 = some (fetched []) ∧ recOp (record []) = 0x00 ∧
    ((withRec 0 served [(0, 0x34)]).startable 0 0).map (fun r => recOp r.w) = some 0x34 ∧
    (withRec 0 served [(1, 16)]).startable 0 0 = some (fetched [(1, 16)]) ∧
    (withRec 0 served [(1, 16)]).openRec 0 0 0 (record [(1, 16)]) = none ∧
    (withRec 0 served [(8, 1)]).openRec 0 0 0 (record [(8, 1)]) = some (record [(8, 1)]) ∧ recWf (record [(8, 1)]) = false ∧
    recWf (record [(2, 255)]) = true ∧ (begun 0 served [(2, 255)]).cmdCheck (asCmd 0 [(2, 255)]) = 0x11 := by
  repeat' apply And.intro
  all_goals decide +kernel

/-- With a memory object 65,535, a graph 1,023 of one record, a latch 4,095 of context 0, and a sequence slot of VF1, and core
511 its partition's. -/
def stocked : State :=
  { (serving.setFld 0 511 Reg.IDC_CORE_MAP.OWNED 1).setFld 0 511 Reg.IDC_CORE_MAP.STATE 1 with
    mobjs := [(key2 1 65535, ⟨0, 1, 0, 0, 0, 0, false⟩)]
    graphs := [(key2 1 1023, ⟨0, [⟨1, [0], 0⟩], none, false⟩)]
    latches := [(key2 1 4095, { ctx := 0, isMax := false, val := 0, held := 0 })]
    slots := [(255, { SeqSlot.fresh with fn := 1, pageTokens := 16 })] }

/-- A LAUNCH of a handle on one core. -/
def launchRec (handle : Nat) : List (Nat × Nat) := [(0, 1), (4, handle), (26, 1), (28, 1)]

/-- The same where VF1 is a member of a virtual device of 256. -/
def member : State :=
  (stocked.setFld 0 0 Reg.DCTL_COMP_PART0.VD 0xFFFF).setFld 0 0 Reg.DCTL_COMP_PART0.MEMBERS 256

theorem test_w_WorkCommands :
    starts 1 serving [] = true ∧
    (starts 1 stocked (launchRec 65535) = true ∧
      ((begun 1 stocked (launchRec 65535)).mobjs.find? (key2 1 65535)).map (·.dying) = some false ∧
      (begun 1 stocked (launchRec 65535)).launchCores (asCmd 1 (launchRec 65535)) = some [511]) ∧
    (starts 1 stocked (launchRec 0) = true ∧ (begun 1 stocked (launchRec 0)).mobjs.find? (key2 1 0) = none) ∧
    (starts 1 stocked [(0, 2), (4, 1023)] = true ∧
      ((begun 1 stocked [(0, 2), (4, 1023)]).graphLive (asCmd 1 [(0, 2), (4, 1023)])).isSome = true) ∧
    (starts 1 stocked [(0, 2)] = true ∧ (begun 1 stocked [(0, 2)]).graphLive (asCmd 1 [(0, 2)]) = none) ∧
    (starts 1 stocked [(0, 3), (16, 4095)] = true ∧ (begun 1 stocked [(0, 3), (16, 4095)]).latchMine (asCmd 1 [(0, 3), (16, 4095)]) 4095 = true) ∧
    (starts 0 stocked [(0, 3), (16, 0x8FFF)] = true ∧ bitOf ((asCmd 0 [(0, 3), (16, 0x8FFF)]).arg 16 2) 15 = true ∧
      (asCmd 0 [(0, 3), (16, 0x8FFF)]).fn = 0) ∧
    (let l := [(0, 3), (16, 0x8FFF), (18, 255)];
      starts 1 member l = true ∧ member.vdOf 0 ≠ 0 ∧ (asCmd 1 l).arg 18 1 < (begun 1 member l).fld 0 0 Reg.DCTL_COMP_PART0.MEMBERS) ∧
    starts 1 stocked [(0, 4), (16, 4095)] = true ∧ starts 1 stocked [(0, 4)] = true ∧
    starts 1 serving [(0, 0x20), (16, 15)] = true ∧ starts 1 serving [(0, 0x21), (16, 31)] = true := by
  repeat' apply And.intro
  all_goals decide +kernel

/-- The states of the objects: sequence slots 248 to 255 are VF1's, and slot 255 is bound. -/
def slots0 : State := stocked.setFld 1 0 Reg.PCTL_COMP_SEQ.SEQ (2 ^ 31)

theorem test_w_ContextCommands :
    (starts 1 serving [(0, 0x10)] = true ∧ (begun 1 serving [(0, 0x10)]).ctx 1 0 ≠ none) ∧
    (starts 1 serving [(0, 0x10), (2, 255), (16, 1)] = true ∧ (begun 1 serving [(0, 0x10), (2, 255), (16, 1)]).ctx 1 255 = none) ∧
    starts 1 serving [(0, 0x11)] = true ∧
    starts 1 stocked [(0, 0x1C), (16, 4095), (18, 1)] = true ∧ starts 1 stocked [(0, 0x1C)] = true ∧
    starts 1 stocked [(0, 0x1D), (16, 4095)] = true ∧ starts 1 stocked [(0, 0x1D)] = true ∧
    (let l := [(0, 0x1E), (4, 248), (16, 65535)];
      starts 1 slots0 l = true ∧ (begun 1 slots0 l).slotOwned 1 248 = true ∧ (begun 1 slots0 l).slots.find? 248 = none) ∧
    (let l := [(0, 0x1E), (4, 255), (16, 1)]; starts 1 slots0 l = true ∧ (begun 1 slots0 l).slots.find? 255 ≠ none) ∧
    (let l := [(0, 0x1E), (4, 0), (16, 1)]; starts 1 slots0 l = true ∧ (begun 1 slots0 l).slotOwned 1 0 = false) ∧
    (∀ op ∈ [0x05, 0x1F], starts 1 slots0 [(0, op)] = true ∧ (begun 1 slots0 [(0, op)]).slotMine (asCmd 1 [(0, op)]) 0 = none) ∧
    (∀ op ∈ [0x05, 0x1F], starts 1 slots0 [(0, op), (4, 255)] = true ∧
      ((begun 1 slots0 [(0, op), (4, 255)]).slotMine (asCmd 1 [(0, op), (4, 255)]) 255).isSome = true) ∧
    (let l := [(0, 5), (4, 255), (14, 512)];
      (match (begun 1 (paged slots0) l).readVa (asCmd 1 l).who 1 ((asCmd 1 l).arg 16 8) (8 * (asCmd 1 l).arg 14 2) .rd [] with
        | .ok d _ _ => d.length == 4096
        | _ => false) = true ∧
      (match (begun 1 slots0 l).readVa (asCmd 1 l).who 1 ((asCmd 1 l).arg 16 8) (8 * (asCmd 1 l).arg 14 2) .rd [] with
        | .fail _ _ => true
        | _ => false) = true) ∧
    (let s := paged slots0; ((s.slots.find? 255).map fun x => (s.seqReady x 128, (s.spillFault x [128]).isNone,
      (s.spillFault { x with overflow := 2 ^ 46 } [128]).isNone)) = some (true, true, false)) := by
  repeat' apply And.intro
  all_goals decide +kernel

/-- A MAP of one 64 KiB page at the first stack, of an object, at a virtual address. -/
def mapRec (handle va : Nat) : List (Nat × Nat) := [(0, 0x12), (4, handle), (8, va), (16, stack0), (24, 1), (30, 1), (31, 1)]

/-- The tables of VF1 with tables down to the pages at 3 · 2^36, and room for 1,024 records of graphs. -/
def tables : State :=
  let s := paged slots0
  let s : State := { s with
    mem := (s.mem.setRun (stack0 + 8216) (leBytes 8 (stack0 + 16385))).setRun (stack0 + 16384) (leBytes 8 (stack0 + 24577)) }
  s.setFld 1 0 Reg.PCTL_GRAPH_AREA.SIZE 1

theorem test_w_ObjectCommands :
    (starts 1 tables (mapRec 65535 0) = true ∧ (begun 1 tables (mapRec 65535 0)).mobjs.find? (key2 1 65535) ≠ none) ∧
    (∀ va ∈ [0, 3 * 2 ^ 36], starts 1 tables (mapRec 0 va) = true ∧ (begun 1 tables (mapRec 0 va)).mobjs.find? (key2 1 0) = none) ∧
    (∀ e ∈ [(0, false), (3 * 2 ^ 36, true)],
      ((begun 1 tables (mapRec 0 e.1)).writeLeaves 1 (mapLeaves 1 e.1 stack0 1 false) (fun x => leafValue 1 1 x 0 false)).isSome = e.2) ∧
    (∀ op ∈ [0x13, 0x14], starts 1 tables [(0, op)] = true ∧ (begun 1 tables [(0, op)]).mobjs.find? (key2 1 0) = none ∧
      starts 1 tables [(0, op), (4, 65535)] = true ∧
      ((begun 1 tables [(0, op), (4, 65535)]).mobjs.find? (key2 1 65535)).map (·.dying) = some false) ∧
    (starts 1 tables [(0, 0x15), (20, 1)] = true ∧ starts 1 tables [(0, 0x15), (20, 2), (16, 1)] = true ∧
      starts 1 tables [(0, 0x15), (8, 2 ^ 56 - 1), (16, 1), (20, 2)] = true) ∧
    (let l := [(0, 0x18), (4, 1023), (16, 1)]; starts 1 tables l = true ∧ (begun 1 tables l).graphs.find? (key2 1 1023) ≠ none) ∧
    (let l := [(0, 0x18), (16, 1024)]; starts 1 tables l = true ∧ (begun 1 tables l).graphRoom 1 1024 = false) ∧
    (let l := [(0, 0x18), (16, 1023)];
      starts 1 tables l = true ∧ (begun 1 tables l).graphs.find? (key2 1 0) = none ∧ (begun 1 tables l).graphRoom 1 1023 = true) ∧
    (let l := [(0, 0x19), (4, 1023), (16, 1), (18, 1)];
      starts 1 tables l = true ∧ ((begun 1 tables l).graphLive (asCmd 1 l)).map (fun x => x.vers.map fun v => v.recs.length) = some [1]) ∧
    (let l := [(0, 0x19), (4, 1023), (18, 1)];
      starts 1 tables l = true ∧ ((begun 1 tables l).graphLive (asCmd 1 l)).map (fun x => (x.vers.map (fun v => v.recs.length), x.next)) =
        some ([1], none) ∧ (begun 1 tables l).graphRoom 1 1 = true) ∧
    (∀ op ∈ [0x19, 0x1A], starts 1 tables [(0, op)] = true ∧ (begun 1 tables [(0, op)]).graphLive (asCmd 1 [(0, op)]) = none) ∧
    (let l := [(0, 0x1A), (4, 1023)]; starts 1 tables l = true ∧ ((begun 1 tables l).graphLive (asCmd 1 l)).isSome = true) := by
  repeat' apply And.intro
  all_goals decide +kernel

/-- The second quarter of the first stack, and the first of the second, where an object's copies lie. -/
def copies : Nat × Nat := (stack0 + 0x400000000, stack1)

/-- The descriptor of an object of one 64 KiB unit at those places. -/
def descriptor (lva : Nat) : List Byte :=
  leBytes 8 copies.1 ++ leBytes 8 copies.2 ++ leBytes 4 1 ++ [1, 0, 0, 0] ++ leBytes 8 lva ++ leBytes 32 0

/-- PF0's tables as those of VF1, in a granule reserved for it; SHARED granules there; descriptors at VA 2^20 and 2^20 + 64, and at 2^21 a
ledger of one chunk. -/
def sharing : State :=
  let s := ((((paged serving).setOwner 16 0).setFld 0 0 Reg.XLAT_ROOT.ROOT (stack0 / 8192)).setFld 0 0 Reg.XLAT_ROOT.VALID 1)
  let s := (s.setOwner 17 0x80).setOwner 20 0x80
  let m := (s.mem.setRun (stack0 + 2 ^ 20) (descriptor 0)).setRun (stack0 + 2 ^ 20 + 64) (descriptor (2 ^ 21))
  { s with
    mem := m.setRun (stack0 + 2 ^ 21) ([0x59, 0x58, 0x4C, 0x47] ++ leBytes 2 1 ++ leBytes 2 1 ++ leBytes 4 1 ++ leBytes 4 1)
    kmc := { s.kmc with granules := 0x10000 } }

/-- The same with the object 65,535 as entry 63, verified, with a ledger of no chunk, and mapped by VF1. -/
def shared (p : List (Nat × Bool)) (m : List SharedMap) : State :=
  let s := (sharing.setFld 0 63 Reg.DCTL_TWIN0.VALID 1).setFld 0 63 Reg.DCTL_TWIN0.OBJECT 65535
  let s := ((s.setFld 0 63 Reg.DCTL_TWIN0.PRIMARY (copies.1 / 65536)).setFld 0 63 Reg.DCTL_TWIN1.TWIN
    (copies.2 / 65536)).setFld 0 63 Reg.DCTL_TWIN1.LENGTH 1
  { s with ledgers := [(63, ⟨[], stack0 + 2 ^ 21, 1, 0⟩)], verified := [63], poison := p, shared := m }

/-- A SHARE_CREATE of the descriptor at a virtual address. -/
def createRec (va : Nat) : List (Nat × Nat) := [(0, 0x30), (8, va)]

/-- Whether a state has `sharing`'s tables, and they give an address of the first granule for a virtual address. -/
def hasTables (s : State) (va a : Nat) : Bool :=
  vaOk va && s.granState 16 == 0 && s.kmc.granules.getLsbD 16 && s.rootTable 0 == some (1, stack0) && leNat (s.mem.getRun stack0 8) == stack0 + 8192 + 1 &&
    leNat (s.mem.getRun (stack0 + 8192) 8) == 0x8F + stack0 / 16 && bits va 46 10 == 0 && bits va 36 10 == 0 &&
    leafAddr 2 (0x8F + stack0 / 16) va == a && [stack0, stack0 + 8192, a].all fun x =>
      s.mapped x == some (.stack 0) && (Place.stack 0).granule x == 16 && !s.paStopped x && !s.poisoned x

/-- A walk of PF0 through such tables finds the leaf of the first 64 GiB. -/
theorem front_of_tables (s : State) (va a : Nat) (ht : hasTables s va a = true) :
    s.frontXlate 0 va .rd = .loc a false := by
  simp only [hasTables, Bool.and_eq_true, beq_iff_eq, List.all_eq_true, Bool.not_eq_true'] at ht
  obtain ⟨⟨⟨⟨⟨⟨⟨⟨⟨hva, hg⟩, h⟩, hr⟩, e1⟩, e2⟩, b1⟩, b2⟩, ha⟩, hx⟩ := ht
  have hm x (m : x ∈ [stack0, stack0 + 8192, a]) : s.mapped x = some (.stack 0) := (hx x m).1.1.1
  have hp x (m : x ∈ [stack0, stack0 + 8192, a]) :
      (Place.stack 0).granule x = 16 ∧ s.paStopped x = false ∧ s.poisoned x = false := ⟨(hx x m).1.1.2, (hx x m).1.2, (hx x m).2⟩
  have ok : ∀ x ∈ [stack0, stack0 + 8192, a], s.tableOk 0 x = true := fun x hx => by
    simp [State.tableOk, hm x hx, State.usesGranule, (hp x hx).1, h, hg]
  have w : s.walkFrom 0 va 4 1 stack0 = (.leaf 2 (0x8F + stack0 / 16), [⟨0, 1, va / 2 ^ 46, stack0 + 8192⟩]) := by
    rw [State.walkFrom]
    simp only [Nat.reduceMul, Nat.reduceSub, b1, Nat.mul_zero, Nat.add_zero, ok stack0 (by simp), (hp stack0 (by simp)).2.1,
      (hp stack0 (by simp)).2.2, e1]
    rw [show bits (stack0 + 8192 + 1) 13 31 * 8192 = stack0 + 8192 by decide +kernel,
      show bitOf (stack0 + 8192 + 1) 0 = true by decide +kernel, show bitOf (stack0 + 8192 + 1) 7 = false by decide +kernel,
      show badPtr (stack0 + 8192 + 1) = false by decide +kernel]
    rw [State.walkFrom]
    simp only [Nat.reduceMul, Nat.reduceAdd, Nat.reduceSub, b2, Nat.mul_zero, Nat.add_zero, ok (stack0 + 8192) (by simp),
      (hp (stack0 + 8192) (by simp)).2.1, (hp (stack0 + 8192) (by simp)).2.2, e2]
    rw [show bitOf (0x8F + stack0 / 16) 0 = true by decide +kernel, show bitOf (0x8F + stack0 / 16) 7 = true by decide +kernel,
      show badLeaf (0x8F + stack0 / 16) 2 = false by decide +kernel]
    simp
  simp only [State.frontXlate, hva, State.walk, hr, w, State.walkTr, State.fillRefused, ha, hm a (by simp), (hp a (by simp)).1,
    State.usesGranule, h, hg]
  simp [useLeaf, ha, Acc.granted, show pteTier (0x8F + stack0 / 16) = 0 by decide +kernel,
    show pteLog (0x8F + stack0 / 16) = false by decide +kernel, Tr.firm]
  rw [show bitOf (143 + stack0 / 16) 1 = true by decide +kernel]
  rfl


/-- Whether a read of 64 bytes there can be served, and gives bytes. -/
def reads64 (s : State) (pa : Nat) (d : List Byte) : Bool :=
  let t := s.verifyRun pa 64
  t.runReady pa 64 && !(t.readMem pa 64).bad && (t.readMem pa 64).data == d

/-- What it leaves. -/
def read64 (s : State) (who : List Nat) (pa : Nat) : State := ((s.verifyRun pa 64).readMem pa 64).st.endReads who

theorem readVa_of_front (s : State) (who : List Nat) (va pa : Nat) (d : List Byte) (h1 : va % 65536 + 64 ≤ 65536)
    (hf : s.frontXlate 0 va .rd = .loc pa false) (hr : reads64 s pa d = true) :
    s.readVa who 0 va 64 .rd [] = .ok d [] (read64 s who pa) := by
  simp only [reads64, Bool.and_eq_true, beq_iff_eq, Bool.not_eq_true'] at hr
  obtain ⟨⟨hr, hb⟩, hd⟩ := hr
  unfold State.readVa
  rw [show 64 / 65536 + 2 = 1 + 1 from rfl, State.vaRead, if_neg (by decide)]
  simp only [hf, show min 64 (65536 - va % 65536) = 64 by omega, hr, hb, hd]
  simp [State.vaRead, read64]

/-- The state on which the descriptor at a virtual address has been read. -/
def createdOn (va : Nat) : State := read64 (begun 0 sharing (createRec va)) (asCmd 0 (createRec va)).who (stack0 + va)

theorem test_w_SharedObjectCommands_create :
    ∀ e ∈ [(2 ^ 20, 0), (2 ^ 20 + 64, 2 ^ 21)], starts 0 sharing (createRec e.1) = true ∧
      (begun 0 sharing (createRec e.1)).readVa (asCmd 0 (createRec e.1)).who 0 e.1 64 .rd [] = .ok (descriptor e.2) [] (createdOn e.1) ∧
      (createdOn e.1).frontXlate 0 (2 ^ 21) .rd = .loc (stack0 + 2 ^ 21) false := by
  have k : ∀ e ∈ [(2 ^ 20, 0), (2 ^ 20 + 64, 2 ^ 21)], (starts 0 sharing (createRec e.1) &&
      hasTables (begun 0 sharing (createRec e.1)) e.1 (stack0 + e.1) &&
      reads64 (begun 0 sharing (createRec e.1)) (stack0 + e.1) (descriptor e.2) &&
      hasTables (createdOn e.1) (2 ^ 21) (stack0 + 2 ^ 21)) = true ∧ e.1 % 65536 + 64 ≤ 65536 := by decide +kernel
  intro e he
  have := k e he
  simp only [Bool.and_eq_true] at this
  obtain ⟨⟨⟨⟨h1, h2⟩, h3⟩, h4⟩, h5⟩ := this
  exact ⟨h1, readVa_of_front _ _ _ _ _ h5 (front_of_tables _ _ _ h2) h3, front_of_tables _ _ _ h4⟩

theorem test_w_SharedObjectCommands_created :
    (∀ e ∈ [(2 ^ 20, 0), (2 ^ 20 + 64, 2 ^ 21)], (asCmd 0 (createRec e.1)).arg 8 8 = e.1 ∧ shareForm (descriptor e.2) = true ∧
      (let t := createdOn e.1;
        t.copyLacks copies.1 1 = false ∧ t.copyLacks copies.2 1 = false ∧ t.twinOf 0 = none ∧
          (List.range 64).find? (fun i => t.fld 0 i Reg.DCTL_TWIN0.VALID == 0) = some 0 ∧ t.copyOk 1 copies.1 1 = true ∧
          t.copyOk 1 copies.2 1 = true ∧ copiesApart copies.1 copies.2 1 = true ∧ t.runReady (stack0 + 2 ^ 21) 112 = true ∧
          t.poisonIn (stack0 + 2 ^ 21) 112 = false ∧ (t.ledgerImage (stack0 + 2 ^ 21) 1).isSome = true ∧
          (t.ledgerImage (stack0 + 2 ^ 22) 1).isNone = true)) ∧
    shareForm (leBytes 64 0) = false ∧ copiesApart copies.1 (copies.1 + 65536) 1 = false ∧
    ((State.reset.setFld 0 1 Reg.DCTL_CARVE_T1.PRESENT 0).copyLacks copies.2 1 = true) ∧
    (starts 0 slots0 (createRec 0) = true ∧ (begun 0 slots0 (createRec 0)).twinOf 0 = none ∧
      (match (begun 0 slots0 (createRec 0)).readVa (asCmd 0 (createRec 0)).who 0 0 64 .rd [] with
        | .fail _ _ => true
        | _ => false) = true) := by
  repeat' apply And.intro
  all_goals decide +kernel

theorem test_w_SharedObjectCommands :
    (∀ op ∈ [0x30, 0x31, 0x32, 0x33, 0x34], starts 0 (shared [] []) [(0, op), (4, 65535)] = true ∧
      (begun 0 (shared [] []) [(0, op), (4, 65535)]).twinOf 65535 = some 63) ∧
    (∀ op ∈ [0x31, 0x32, 0x33, 0x34], starts 0 (shared [] []) [(0, op)] = true ∧ (begun 0 (shared [] []) [(0, op)]).twinOf 0 = none) ∧
    ((shared [] []).ledgers.find? 63 = some ⟨[], stack0 + 2 ^ 21, 1, 0⟩ ∧
      (shared [] []).copyMatches ⟨[], stack0 + 2 ^ 21, 1, 0⟩ (stack0 + 0x10000) 65536 = true ∧
      (shared [(stack0 / 256 + 511, true)] []).copyMatches ⟨[], stack0 + 2 ^ 21, 1, 0⟩ (stack0 + 0x10000) 65536 = false) ∧
    (63 ∈ (shared [] []).verified ∧ (shared [] []).fld 0 0 Reg.DCTL_COMP_PART0.STATE = 1 ∧
      (shared [] []).fld 0 31 Reg.DCTL_COMP_PART0.STATE ≠ 1 ∧ starts 0 (shared [] []) [(0, 0x32), (4, 65535), (16, 31)] = true) ∧
    (let s := shared [] [⟨1, 63, 0⟩, ⟨1, 63, 65536⟩];
      starts 0 s [(0, 0x33), (4, 65535)] = true ∧ (s.shared.filter fun x => x.fn == 1 && x.tw == 63) = ⟨1, 63, 0⟩ :: [⟨1, 63, 65536⟩] ∧
      starts 0 s [(0, 0x34), (4, 65535)] = true ∧ (∃ x ∈ s.shared, x.tw = 63)) ∧
    (∀ x ∈ (shared [] []).shared, x.tw ≠ 63) := by
  repeat' apply And.intro
  all_goals decide +kernel

/-! ## Witnesses of the statements on events of commands and queues, and on accesses of the host -/

/-- A state some edges later. -/
def later (n : Nat) (s : State) : State := { s with beat := { s.beat with edges := s.beat.edges + n } }

/-- The command of a LATCH_WAIT of two beats, two edges after it started. -/
def timedOut : State := later 2 (begun 1 stocked [(0, 4), (16, 4095), (18, 2)])

/-- A launch of VF1 on core 0 that has ended on it, or that has stood for its budget of 1. -/
def atPhase (ph low : Nat) : State :=
  { begun 1 stocked (launchRec 65535 ++ [(44, 1)]) with launches := [{ aLaunch with phase := ph, lowBeats := low }] }

/-- The image of a sieve table of a width, with its checksum. -/
def sieveImage (w : Nat) (lens : List Byte) : List Byte :=
  let d := lens ++ List.replicate (128 - lens.length) 0
  leBytes 2 1 ++ [BitVec.ofNat 8 w, 0] ++ leBytes 4 (crc32c d) ++ leBytes 8 7 ++ d

/-- The image of a schedule table of one window for port 31. -/
def oneWindow (w0 w1 : Nat) : List Byte :=
  let d := leBytes 4 w0 ++ leBytes 4 w1
  leBytes 2 1 ++ [31, 5] ++ leBytes 2 1 ++ leBytes 2 0 ++ leBytes 4 (crc32c d) ++ leBytes 4 0 ++ d

/-- A record of PF0 that reads its image from host memory. -/
def imageRec (op n : Nat) : List (Nat × Nat) := [(0, op), (8, 2 ^ 37), (16, n)]

theorem test_w_CommandEvents :
    timedOut.waitOver 1 0 0 = some none ∧ (later 1 (begun 1 stocked [(0, 4), (16, 4095), (18, 2)])).waitOver 1 0 0 = none ∧
    ((atPhase 6 0).launches.find? fun l => l.fn == 1 && l.q == 0 && l.sq == 0 && l.phase == 6).isSome = true ∧
    (let s := later 1 (atPhase 1 1);
      (s.launches.find? fun l => l.fn == 1 && l.q == 0 && l.sq == 0 && s.launchStalled l).isSome = true) ∧
    (let s := begun 1 stocked [(0, 3), (44, 1)];
      let t := later 1 s;
      (t.launches.find? fun l => l.fn == 1 && l.q == 0 && l.sq == 0 && t.launchStalled l) = none ∧
      ((t.qrec 1 0 0).map fun r => (r.st, t.cmdStalled 1 r.w r.w r.stallFrom, s.cmdStalled 1 r.w r.w r.stallFrom)) =
        some (1, true, false)) ∧
    (let h : FencedHold := ⟨1, 0, 0, none, 0⟩;
      let s := later 1 { atPhase 1 0 with fenced := [h] };
      h ∈ s.fenced ∧ h.beat + 2 ≤ s.tick ∧ (∀ a ∈ s.aborts, a.part + 1 ≠ h.fn) ∧
        (s.launches.find? fun l => l.fn == h.fn && l.q == h.q && l.sq == h.sq && l.g == h.g).isSome = true) := by
  repeat' apply And.intro
  all_goals decide +kernel

theorem test_w_CommandEvents_images :
    (let s := begun 1 (paged serving) (imageRec 0x20 15);
      let k := asCmd 1 (imageRec 0x20 15);
      (s.unrunCmd 1 0 0x20 fun k => (s.oldVersions 1 (k.arg 16 1)).isEmpty && !s.sieveComing 1 (k.arg 16 1)) = some (k, 0) ∧
      (match s.readVa k.who 1 (2 ^ 37) 144 .rd (sieveImage 4 (List.replicate 8 0x44)) with
        | .ok d _ _ => d == sieveImage 4 (List.replicate 8 0x44)
        | _ => false) = true ∧
      (match s.readVa k.who 1 (2 ^ 37) 144 .rd [] with
        | .fail _ _ => true
        | _ => false) = true ∧
      (tableImage (sieveImage 0 [0x01])).map (·.1) = some 0 ∧
      ((tableImage (sieveImage 4 (List.replicate 8 0x44))).map (·.1)) = some 4 ∧
      tableImage (sieveImage 4 (List.replicate 7 0x44)) = none) ∧
    (let s := begun 1 (paged serving) (imageRec 0x21 31);
      let k := asCmd 1 (imageRec 0x21 31);
      (s.unrunCmd 1 0 0x21 fun k => (s.port (k.arg 16 1)).next.isNone) = some (k, 0) ∧ k.arg 16 1 = 31 ∧
      (∀ n ∈ [16, 24], (match s.readVa k.who 1 (2 ^ 37) n .rd (oneWindow (2 ^ 29 + 2 ^ 31) 0) with
        | .ok d _ _ => d == (oneWindow (2 ^ 29 + 2 ^ 31) 0).take n
        | _ => false) = true) ∧
      (match s.readVa k.who 1 (2 ^ 37) 24 .rd ((oneWindow (2 ^ 29 + 2 ^ 31) 0).take 16) with
        | .fail _ _ => true
        | _ => false) = true ∧
      ((schedImage (oneWindow (2 ^ 29 + 2 ^ 31) 0)).map fun x => (x.1, x.2.1)) = some (31, 5) ∧
      schedImage (oneWindow (2 ^ 29) 0) = none) ∧
    (let s := (served.setFld 0 31 Reg.DCTL_LYS_PCFG.BOUND 1).setFld 0 31 Reg.DCTL_LYS_PCFG.PART 31;
      let s := (s.setFld 0 0 Reg.IDC_CORE_MAP.OWNED 1).setFld 0 0 Reg.IDC_CORE_MAP.PART 31;
      s.windowsFit 32 31 [⟨2 ^ 29 + 2 ^ 31, 0⟩] = true ∧ s.fld 0 31 Reg.DCTL_LYS_PCFG.BOUND ≠ 0 ∧
        s.fld 0 31 Reg.DCTL_LYS_PCFG.PART = 32 - 1 ∧ s.portLeaving 31 = false ∧ s.lengthAt (max 0 (s.now + 1)) = 5) := by
  repeat' apply And.intro
  all_goals decide +kernel

theorem test_w_QueueEvents :
    served.activeQueues 0 = [0] ∧
    served.mayFetch 0 0 = false ∧ (served.setQueue 0 0 { Queue.fresh with due := 1 }).mayFetch 0 0 = true ∧
    (BitVec.ofNat 64 10).extractLsb' 0 4 ≤ 10 ∧ (10 : BitVec 4) < (BitVec.ofNat 64 11).extractLsb' 0 4 ∧
    served.qstate 0 0 = 1 ∧ (served.setFld 0 63 Reg.QCFG_QSTAT.STATE 2).qstate 0 63 = 2 ∧
    (served.destroys.any fun d => d.kind == 0 && d.fn == 0 && d.num == 0) = false ∧ served.qstate 0 63 ≠ 2 ∧
    (let d : Destroy := { id := 4, kind := 0, fn := 0, num := 0, q := 0, sq := 0, started := true, waiting := [(511, 3)], beat := 0 };
      ({ served with destroys := [d] } : State).destroys.find? (fun d => d.id == 4 && d.started && d.waiting.contains (511, 3)) =
        some d) := by
  repeat' apply And.intro
  all_goals decide +kernel

/-- PF0 with an aperture of 1 MiB on the first stack. -/
def aperture : State :=
  ({ served with cfgs := [(0, { FnCfg.fresh with bar2 := 20 })] } : State).setFld 0 0 Reg.PCTL_BAR2_MAP.BASE (stack0 / 2 ^ 30)

theorem test_w_HostAccesses :
    (aperture.bar2Pa 0 (2 ^ 20 - 8) = stack0 + 2 ^ 20 - 8 ∧ 2 ^ 20 - 8 + 8 ≤ 2 ^ (aperture.cfg 0).bar2 ∧
      aperture.bar2Ok 0 (stack0 + 2 ^ 20 - 8) 8 false = true ∧ aperture.runReady (stack0 + 2 ^ 20 - 8) 8 = true ∧
      aperture.bar2Ok 0 (stack0 + 2 ^ 20 - 8) 8 true = true ∧ aperture.paStopped (stack0 + 2 ^ 20 - 8) = false ∧
      aperture.countersRoom (stack0 + 2 ^ 20 - 8) 8 = true ∧
      (aperture.setOwner 16 0xC0).bar2Ok 0 (stack0 + 2 ^ 20 - 8) 8 false = false) ∧
    served.inService = true ∧ aligned 0x20004 8 = false ∧ aligned 0x20004 4 = true ∧ aligned 0x20000 2 = false ∧
    aligned 0x2000000 4 = false ∧
    pf0Only 0x1000000 = true ∧ pf0Only 0xFFFFF8 = false ∧ regFind 0x1FFFFF8 regTable = none ∧
    (regFind 0x21000 regTable).map (fun r => r.1.wide) = some false ∧ (regFind 0x120000 regTable).map (fun r => r.1.wide) = some true ∧
    isCounter 0x7FFFF8 = false ∧ isCounter 0x800000 = true ∧ counterSeen 0 0x1800000 = true ∧ counterSeen 1 0x1800000 = false := by
  repeat' apply And.intro
  all_goals decide +kernel

/-- Core 0 at the end of VF1's launch in phase `ph`, with a launch of lower priority waiting, and a save area of two slots. -/
def switching (ph : Nat) : State :=
  let l : Launch := { aLaunch with fn := 1, lc := false, phase := ph, slots := [0], saved := if ph = 5 then [(0, Core.idle)] else [] }
  let s := State.reset.setCore 0 { Core.idle with launch := some 0, running := true, cur := { CoreState.idle with hold := .beatEnd } }
  let s := (s.setOwner 16 0x40).setFld 1 0 Reg.QOSM_SAVE.EN 1
  let s := (s.setFld 1 0 Reg.QOSM_SAVE.BASE (stack0 / 0x200000)).setFld 1 0 Reg.QOSM_SAVE.SLOTS 2
  let s := s.setFld 0 0 Reg.DCTL_BEAT_NUM.BEAT_NUM 1
  { s with launches := [l, { l with id := 1, sq := 1, phase := 0, lc := true, slots := [], saved := [] }] }

theorem test_w_ContextSwitches :
    ((switching 1).launch? 0).map (fun l => (switching 1).switchDue l) = some true ∧
    ((switching 2).launch? 0).map (fun l => (l.phase, l.phaseEdge, (switching 2).heldBy l)) = some (2, 0, [0]) ∧
    (switching 2).now = 1 ∧ ((switching 2).core 0).cur.moves = [] ∧
    ((switching 3).launch? 0).map (·.phase) = some 3 ∧
    ((switching 5).launch? 0).map (fun l => (l.phase, (l.slots.take l.saved.length).any ((switching 5).imageBad l.fn))) = some (5, false) := by
  repeat' apply And.intro
  all_goals decide +kernel

/-! ## Witnesses of the statements on cells and ports -/

/-- Port 31 ACTIVE on all lanes and bound to partition 0 in virtual device 5, of which the partition is an active member that
owns the first granule of stack 0. -/
def linked : State :=
  let s := ((served.setFld 0 31 Reg.DCTL_LYS_PSTAT.STATE 2).setFld 0 31 Reg.DCTL_LYS_PSTAT.LANES 0xFFFF).setFld 0 31
    Reg.DCTL_LYS_PSTAT.VD_MATCH 1
  let s := (s.setFld 0 31 Reg.DCTL_LYS_PCFG.BOUND 1).setFld 0 31 Reg.DCTL_LYS_PCFG.VD 5
  ((s.setFld 0 0 Reg.DCTL_COMP_PART0.VD 5).setFld 0 0 Reg.DCTL_COMP_PART0.STATE 1).setOwner 16 0x40

/-- A cell of a type for virtual device 5 at its second of two hops. -/
def aCell (typ : Nat) (d : List Byte) : Cell :=
  { cellOf typ 0 with
    nhop := 2, hop := 2, route := [31, 0, 0, 0, 0, 0], vd := 5, addr := if typ = 9 then 4095 else stack0, len := d.length - 1, payload := d }

theorem test_w_CellArrival :
    (State.reset.receive 31 (aCell 2 [])).1 = none ∧
    (∀ x ∈ [aCell 2 [], aCell 4 [1], aCell 6 (leBytes 8 1), aCell 7 (leBytes 32 0), aCell 9 (leBytes 8 1), { aCell 3 [] with vc := 1 },
        { aCell 8 [] with vc := 1 }, { aCell 5 (leBytes 4 0) with vc := 1 }],
      (linked.receive 31 x).1 = some x ∧ typeReserved x.typ = false ∧ (linked.receive 31 x).2.inService = true ∧
        cellFields x = true ∧ (linked.receive 31 x).2.carries 31 x.vd = true ∧ x.nhop ≤ x.hop ∧
        cellFields { x with hop := 7 } = false ∧ (linked.receive 31 x).2.carries 31 6 = false ∧
        cellFields { x with hop := 1 } = true) ∧
    (let s := linked.setFld 0 0 Reg.PWR_STAT.STATE 1; (s.receive 31 (aCell 2 [])).1 = some (aCell 2 []) ∧
      (s.receive 31 (aCell 2 [])).2.inService = false) ∧
    typeReserved 0 = true ∧ typeReserved 0xD = true ∧ typeReserved 0xC = false ∧ typeReserved 1 = false := by
  repeat' apply And.intro
  all_goals decide +kernel

/-- The cells of the statement on reception: one in order, one scheduled, and one behind a RESYNC block. -/
theorem test_w_CellReception :
    linked.ports.rising = true ∧ linked.portActive 31 = true ∧ (linked.port 31).awaiting = false ∧ linked.sealing 31 = false ∧
    (State.reset.portActive 31 = false) ∧
    (let s := linked.setPort 31 { linked.port 31 with awaiting := true };
      (s.port 31).awaiting = true ∧ (aCell 2 []).resync = false ∧ { aCell 2 [] with resync := true }.resync = true) ∧
    (linked.setFld 0 31 Reg.DCTL_LYS_PSTAT.SEALED_NOW 1).sealing 31 = true ∧
    (let s := linked.setPort 31 { linked.port 31 with fwd := List.replicate 576 (30, { aCell 2 [] with sched := true }) };
      576 ≤ (s.setPort 31 { s.port 31 with awaiting := false }).buffered 31 7) ∧ linked.buffered 31 7 < 576 := by
  repeat' apply And.intro
  all_goals decide +kernel

theorem test_w_CellReception_lanes :
    (let c := { aCell 4 (leBytes 3 7) with payload := leBytes 3 7 };
      cellWidths c = true ∧ c.route.length = 6 ∧ (∀ r ∈ c.route, r < 32) ∧ c.payload.length = payloadLen c ∧
        c.payload.length ≤ 512 ∧ c.tag.length = 12 ∧ c.resync = false) := by
  repeat' apply And.intro
  all_goals decide +kernel

/-- The same with a latch of VF1, and requests of a move and of a signal that wait for answers. -/
def asking : State :=
  let r : Req := { id := 255, kind := 0, node := 5, pos := 0, len := 4, addr := stack0, port := 31, sent := true, retried := false, epoch := 0, nhop := 1
                   ports := [31], log := false }
  { linked.setCore 511 { Core.idle with cur := { CoreState.idle with moves := [{ started 0 with eng := 1, reqs := [r] }] } } with
    latches := [(key2 1 4095, { ctx := 0, isMax := true, val := 0, held := 0 })]
    sigs := [⟨7, 2, 1, 0, 0, none⟩] }

theorem test_w_CellService :
    State.reset.boundPart 31 = none ∧ linked.boundPart 31 = some 0 ∧
    (match linked.targetCheck 0 (reqAddr (aCell 2 [])) (reqLen (aCell 2 [])) with
      | .ok e => e == 0
      | .error _ => false) = true ∧
    (match linked.targetCheck 0 (stack0 + 2 ^ 34 - 1) 2 with
      | .ok _ => false
      | .error e => e == 1) = true ∧
    linked.canServe (aCell 2 []) = true ∧ (linked.setFld 0 0 Reg.DCTL_MEMSTAT.STEP 4).canServe (aCell 2 []) = false ∧
    linked.partShut 0 = false ∧ linked.vdOf 0 = (aCell 9 (leBytes 8 1)).vd ∧ linked.fld 0 0 Reg.DCTL_COMP_PART0.STATE = 1 ∧
    linked.vdOf 0 ≠ 6 ∧
    (let r : Reset := { id := 0, domain := 4, target := 0, dump := false, phase := 1, edge := 0, cause := none };
      ({ linked with resets := [r] } : State).partShut 0 = true) ∧
    (∀ typ ∈ [2, 4, 6, 7], (aCell typ (leBytes 32 0)).typ = typ ∧ reqAddr (aCell typ (leBytes 32 0)) = stack0) ∧
    asking.sigs.find? (fun g => g.ttag == 511 * 512 + 256 + 255) = none ∧
    ((asking.reqOf (511 * 512 + 256 + 255)).map fun r => (r.1, r.2.2.kind, r.2.2.len)) = some (511, 0, 4) ∧
    (asking.sigs.find? (fun g => g.ttag == 7)).isSome = true := by
  repeat' apply And.intro
  all_goals decide +kernel

/-- Port 31 in training at a step. -/
def trainingAt (k : Nat) : State :=
  let s := (linked.setFld 0 31 Reg.DCTL_LYS_PSTAT.STATE 1).setFld 0 7 Reg.DCTL_LYS_INLET.INTERLOCK 1
  s.setPort 31 { Port.fresh with step := k, ident := true, meas := if k = 5 then List.replicate 64 (0, 0) else [] }

theorem test_w_LinkCells :
    linked.portActive 31 = true ∧ bitOf (linked.fld 0 31 Reg.DCTL_LYS_PSTAT.LANES) 15 = true ∧
    linked.ports.rising = true ∧ (trainingAt 4).portState 31 = 1 ∧ ((trainingAt 4).port 31).step = 4 ∧ linked.portState 31 = 2 ∧
    (leBytes 32 0).length = 32 ∧ (trainingAt 5).portState 31 = 1 ∧ ((trainingAt 5).port 31).step = 5 ∧
    (((trainingAt 5).setPort 31 { Port.fresh with step := 5, meas := List.replicate 63 (0, 0) }).port 31).meas.length < 64 ∧
    (linked.takeLink 31 (linkCell 4 (leBytes 20 0))).1 = some (linkCell 4 (leBytes 20 0)) ∧ (State.reset.takeLink 31 (linkCell 4 (leBytes 20 0))).1 = none ∧
    (linkCell 4 (leBytes 20 0)).payload.length = 20 ∧ (linkCell 5 (leBytes 5 0)).payload.length = 5 := by
  repeat' apply And.intro
  all_goals decide +kernel

theorem test_w_PortEvents :
    (∀ k ∈ [1, 2, 3, 4, 5, 6], ((trainingAt k).tryTrain 31).portState 31 = 1 ∧ (((trainingAt k).tryTrain 31).port 31).retryDue = false ∧
      (((trainingAt k).tryTrain 31).port 31).step = k ∧ (((trainingAt k).tryTrain 31).port 31).ident = true) ∧
    ((trainingAt 1).tryTrain 31).fld 0 (31 / 4) Reg.DCTL_LYS_INLET.INTERLOCK = 1 ∧
    (trainingAt 2).pickLanes 31 0xFFFF = some 0xFFFF ∧ (trainingAt 2).pickLanes 31 0 = none ∧
    64 ≤ ((trainingAt 5).port 31).meas.length ∧ ((trainingAt 1).port 31).fails < 2 ∧
    (let s := (trainingAt 1).setPort 31 { Port.fresh with fails := 2, retryDue := true, tries := 15, tagFails := 255 };
      2 ≤ (s.port 31).fails ∧ s.portState 31 = 1 ∧ (s.port 31).retryDue = true ∧ 0 < (s.port 31).tries ∧
        s.fld 0 31 Reg.DCTL_LYS_PCFG.RETRY_LIM ≤ (s.port 31).tries ∧ s.fld 0 31 Reg.DCTL_LYS_PCFG.TAG_LIM ≤ (s.port 31).tagFails) ∧
    linked.portState 31 = 2 ∧
    (let s := linked.setFld 0 31 Reg.DCTL_LYS_PSTAT.STATE 3;
      s.portState 31 = 3 ∧ s.pickLanes 31 (s.fld 0 31 Reg.DCTL_LYS_PSTAT.LANES &&& (BitVec.ofNat 16 0xFF).toNat) = some 0xFF) := by
  repeat' apply And.intro
  all_goals decide +kernel

/-- A table of a FWD window and two TX windows on port 31, active there, or pending. -/
def scheduled (nx : Bool) (w : Option Nat) : State :=
  let t : SchedTable := { act := 1, beatLen := 5, fn := 1, q := 0, sq := 0, g := none, fresh := false, off := false
                          windows := [⟨2 ^ 30 + 2 ^ 31, 0⟩, ⟨2 ^ 29 + 2 ^ 31, 2 ^ 16⟩, ⟨2 ^ 29 + 2 ^ 31, 2 ^ 17⟩] }
  (linked.setFld 0 31 Reg.DCTL_LYS_SCHED.STATE 1).setPort 31 { Port.fresh with
    active := some t, next := if nx then some t else none, openWin := w, winAt := 0 }

theorem test_w_FloodsAndWindows :
    (let b : Cell := { cellOf 0xB 5 with hop := 6, len := 13, payload := bellPayload 3 65535 1 7 5 };
      (linked.receive 31 b).1 = some b ∧ floodFields b = true ∧ floodFields { b with hop := 7 } = false ∧
        linked.flooded 0xB 3 65535 = false ∧ (linked.recordFlood 0xB 3 65535).flooded 0xB 3 65535 = true ∧
        (linked.receive 31 b).2.inService = true ∧ (State.reset.receive 31 b).1 = none) ∧
    (let b : Cell := { cellOf 0xC 6 with hop := 1, len := 31, payload := alarmPayload 3 0 2 9 1 0 0 [] };
      (linked.receive 31 b).1 = some b ∧ floodFields b = true) ∧
    ((scheduled true none).port 31).next.map (fun n => (decide (n.act ≤ (scheduled true none).now), n.fresh)) = some (true, false) ∧
    (scheduled false none).tableServes 31 = true ∧ ((scheduled false none).port 31).openWin = none ∧
    (((scheduled false none).windows 31).map winKind) = [2, 1, 1] ∧ ((scheduled false none).port 31).winAt ≤ 0 ∧
    (∀ i ∈ [0, 1, 2], ((scheduled false (some i)).port 31).openWin = some i) ∧
    (∃ x ∈ ((scheduled false (some 1)).windows 31).drop 2, winNames x 0 0 = true) ∧
    (∀ x ∈ ((scheduled false (some 2)).windows 31).drop 3, winNames x 0 0 = false) := by
  repeat' apply And.intro
  all_goals decide +kernel

/-! ## Witnesses of the statements on management, composition, resets and power -/

/-- A package in service with session 7 open and `n` requests outstanding. -/
def managed (n : Nat) : State :=
  { served with kmc := { served.kmc with
      sessions := [{ id := 7, reqs := List.replicate n { req := 1, typ := 1, resp := none }, period := 1, mask := 63, upTo := 0 }] } }

/-- Whether a request of a type finds its session. -/
theorem asked_managed (typ : Nat) (h : (managed 63).serves typ = true) : asked (managed 63) 7 typ :=
  ⟨_, rfl, by decide +kernel, h⟩

theorem test_w_SessionRequests :
    (managed 0).session? 8 = none ∧ ((managed 64).session? 7).map (·.reqs.length) = some 64 ∧
    ((managed 63).session? 7).map (·.reqs.length) = some 63 ∧
    ({ managed 63 with boot := { (managed 63).boot with stop := 2 } } : State).serves 0x01 = false ∧
    ((managed 0).session? 7).map (·.reqs) = some [] ∧
    ((managed 1).session? 7).map (·.reqs) = some [{ req := 1, typ := 1, resp := none }] := by
  repeat' apply And.intro
  all_goals decide +kernel

theorem test_w_SessionQueries :
    (∀ typ ∈ [0x01, 0x02, 0x03, 0x10, 0x12, 0x13, 0x20, 0x30, 0x31, 0x32, 0x33, 0x34, 0x35, 0x40, 0x41, 0x42, 0x50, 0x51, 0x52, 0x53,
      0x60, 0x71], (managed 63).serves typ = true) ∧
    ({ managed 0 with mod := { (managed 0).mod with rails := true }, boot := { (managed 0).boot with done := [4] } } : State).kmcUp =
      true ∧ (managed 0).kmc.sessions.length < 4 ∧ ({ managed 0 with boot := { (managed 0).boot with done := [] } } : State).kmcUp = false ∧
    (let d : Dump := { recSeq := 0, head := [], body := [] };
      ({ managed 0 with dump := { (managed 0).dump with slots := [(3, d)] } } : State).dump.slots.find? 3 = some d) ∧
    (managed 0).dump.slots.find? 3 = none ∧ (managed 0).sec.busy = false ∧
    ((managed 0).session? 7).map (fun k => (k.period, decide (k.upTo / k.period < (managed 0).now / k.period))) = some (1, true) ∧
    (served.setFld 0 0 Reg.DCTL_LIFE.TEST_ENGINE 1).fld 0 0 Reg.DCTL_LIFE.TEST_ENGINE = 1 ∧
    (∀ q < 32, served.fld 0 q Reg.DCTL_COMP_PART0.STATE ≠ 1) ∧ linked.fld 0 0 Reg.DCTL_COMP_PART0.STATE = 1 := by
  repeat' apply And.intro
  all_goals decide +kernel

/-- An authorisation to owner activation that passes its checks. -/
def anAuth : LifeAuth :=
  { present := 0, target := 1, serialOk := true, challenge := 5, fresh := true, signer := 1, sigsOk := true, owner := 0 }

/-- A session with a challenge, in a lifecycle state, with an update of image 7 open. -/
def updating (life : Nat) : State :=
  let s := (managed 63).setFld 0 0 Reg.DCTL_LIFE.STATE life
  { s with
    sec := { s.sec with challenge := some 5 }
    kmc := { s.kmc with fw := some { sess := 7, image := 7, len := 4, data := [] } } }

theorem test_w_SessionUpdates :
    ((updating 0).sec.challenge = some anAuth.challenge ∧ (updating 0).authOk anAuth = true ∧
      (updating 0).authOk { anAuth with challenge := 6 } = false) ∧
    kmcMask 0x1000080 ≠ 0 ∧ kmcMask 0x1000000 = 0 ∧ (managed 63).nodeFree = true ∧ linked.nodeFree = false ∧
    (∃ p ∈ [(0x1000080, (1 : U64))], p.1 = 0x1000080) ∧ (BitVec.ofNat 64 32).extractLsb' 0 5 = 0 ∧
    (BitVec.ofNat 64 31).extractLsb' 0 5 ≠ 0 ∧ (managed 63).kmc.fw = none ∧
    (updating 0).kmc.fw.map (fun w => (w.sess, w.len)) = some (7, 4) ∧
    ((updating 0).setFld 0 0 Reg.DCTL_LIFE.TEST_KEYS 1).fld 0 0 Reg.DCTL_LIFE.TEST_KEYS = 1 := by
  repeat' apply And.intro
  all_goals decide +kernel

/-- An enrolment of partition 31 and port 31 for beat 1, with or without its keys. -/
def enrolling (keyed : Bool) (start : Nat) : State :=
  let s := (managed 63).setFld 0 0 Reg.DCTL_LIFE.STATE 3
  { s with sec := { s.sec with
    asked := [1]
    enrol := some { parish := leBytes 16 3, parts := 0, ports := 2 ^ 31, start := start, report := [], keyed := keyed } } }

theorem test_w_LifecycleAndParish :
    ((updating 0).session? 7).map (fun k => decide (k.reqs.length < 64)) = some true ∧ (updating 0).sec.life = none ∧
    lifePermitted 0 1 1 false = true ∧ lifePermitted 0 1 2 true = false ∧
    (let s := (managed 63).setFld 0 0 Reg.DCTL_LIFE.STATE 3; s.sec.busy = false ∧ s.fld 0 0 Reg.DCTL_LIFE.STATE = 3 ∧
      s.fld 0 0 Reg.DCTL_PARISH2.STATE = 0) ∧
    (enrolling false 2).sec.enrol.map (fun e => (e.keyed, decide ((enrolling false 2).now < e.start))) = some (false, true) ∧
    (enrolling true 1).sec.enrol.map (fun e => (e.keyed, decide (e.start ≤ (enrolling true 1).now))) = some (true, true) ∧
    (let s := (linked.setFld 0 0 Reg.DCTL_PARISH2.STATE 2); s.fld 0 0 Reg.DCTL_PARISH2.STATE = 2 ∧
      bitOf (s.fld 0 0 Reg.DCTL_PARISH2.PARTS) 0 = false ∧ s.fld 0 8 Reg.DCTL_KEY_ATTR.VALID ≠ 1) ∧
    (∀ p ∈ setBits (2 ^ 31 + 1) 32, bitOf ((managed 63).fld 0 0 Reg.IDC_CAP0.PORT_MASK) p = true) ∧
    (let s := (managed 63).setFld 0 0 Reg.IDC_CAP0.PORT_MASK 1;
      ∃ p ∈ setBits (2 ^ 31 + 1) 32, bitOf (s.fld 0 0 Reg.IDC_CAP0.PORT_MASK) p = false) ∧
    (managed 63).sec.enrol = none ∧ (enrolling false 1).sec.adds = [] ∧ (enrolling false 1).dropEnrol.sec.adds = [] ∧
    ((setBits (2 ^ 31) 32).foldl State.sealPort (((enrolling true 1).setFld 0 0 Reg.DCTL_PARISH2.STATE 2))).sec.adds = [] ∧
    (managed 63).fld 1 0 Reg.DSTP_ATTEST.GO = 0 ∧ (enrolling true 1).sec.asked.head? = some 1 := by
  repeat' apply And.intro
  all_goals decide +kernel

/-- The bytes of a COMPOSE with values placed at its bytes. -/
def compose (l : List (Nat × Nat)) : BitVec 896 := BitVec.ofNat 896 (l.map fun e => e.2 * 2 ^ (8 * e.1)).sum

/-- A change of an operation that waits. -/
def waitingChange (op : Nat) (l : List (Nat × Nat)) : State :=
  let x := (managed 0).newChange 4 none (composeOf (compose ((0, op) :: l))) false none
  { managed 0 with changes := [x] }

/-- Its first change. -/
def itsChange (s : State) : Change := s.changes.headD ((managed 0).newChange 0 none (composeOf 0) false none)

/-- A settings image of a partition. -/
def qosImage : List Byte :=
  let d := leBytes 2 1 ++ [1, 15] ++ leBytes 2 256 ++ leBytes 2 512 ++ leBytes 4 262143 ++ leBytes 2 65535 ++ leBytes 2 65535 ++
    leBytes 2 65535 ++ leBytes 2 65535 ++ leBytes 76 0
  d ++ leBytes 4 (crc32c d) ++ leBytes 28 0

/-- A RETUNE_QOS of partition 0 whose image is in host memory, under tables of VF1. -/
def retuning : State :=
  let s := (paged (waitingChange 4 [(40, 2 ^ 37)])).setOwner 16 0x40
  (s.setFld 1 0 Reg.XLAT_ROOT.ROOT (stack0 / 8192)).setFld 1 0 Reg.XLAT_ROOT.VALID 1

theorem test_w_Composition_retune :
    retuning.compTurn (itsChange retuning) = true ∧ retuning.compRefused (itsChange retuning) true = none ∧
    retuning.compWaits (itsChange retuning) = false ∧ qosOk qosImage = true ∧ qosOk (leBytes 128 0) = false ∧
    (match retuning.readVa [2, (itsChange retuning).handle] (vf 0) (itsChange retuning).c.qosVa 128 .rd qosImage with
      | .ok d _ _ => d == qosImage
      | _ => false) = true ∧
    (match retuning.readVa [2, (itsChange retuning).handle] (vf 0) (itsChange retuning).c.qosVa 128 .rd [] with
      | .fail _ _ => true
      | _ => false) = true ∧
    (let s := later 200 ((waitingChange 4 [(4, 2)]).setFld 0 0 Reg.DCTL_BEAT_NUM.BEAT_NUM 202);
      s.compTurn (itsChange s) = true ∧
      (itsChange s).c.at_ + s.fld 0 0 Reg.DCTL_COMP_CFG.DRAIN_LIM ≤ s.now ∧
        (itsChange s).accepted + s.fld 0 0 Reg.DCTL_COMP_CFG.DRAIN_LIM ≤ s.tick) ∧
    (let s := waitingChange 4 [(4, 2)]; s.now < (itsChange s).c.at_ + s.fld 0 0 Reg.DCTL_COMP_CFG.DRAIN_LIM) := by
  repeat' apply And.intro
  all_goals decide +kernel

theorem test_w_Composition :
    (∀ op ∈ [1, 2, 3, 4], composeOk op (compose [(0, op)]) = true) ∧
    composeOk 1 (compose [(0, 2)]) = false ∧ composeOk 4 (compose [(0, 4), (1, 31)]) = true ∧
    (managed 0).queuedChanges.length < 64 ∧
    64 ≤ ({ managed 0 with changes := List.replicate 64 (itsChange (waitingChange 4 [])) } : State).queuedChanges.length ∧
    (let s := waitingChange 4 [(4, 2)]; (∃ x ∈ s.changes, x.handle = 4 ∧ x.accepted = s.tick) ∧
      (∀ y ∈ (later 1 s).changes, y.handle = 4 → y.accepted ≠ (later 1 s).tick) ∧
      s.compTurn (itsChange s) = false ∧ s.queuedChanges.find? (·.handle == 4) = some (itsChange s)) ∧
    (let s := waitingChange 4 [];
      s.compTurn (itsChange s) = true ∧ s.compRefused (itsChange s) true = none ∧ s.compWaits (itsChange s) = false ∧
        s.changePart (itsChange s) = some 0) ∧
    (let s := waitingChange 3 [(18, 512)]; s.compTurn (itsChange s) = true ∧ s.compRefused (itsChange s) true = some 0x1F) ∧
    (let s := waitingChange 3 [(3, 0x1F)];
      s.compTurn (itsChange s) = true ∧ s.compRefused (itsChange s) true = none ∧ s.owner 0 = none ∧
        (s.moveTarget (itsChange s)).isSome = true ∧ s.compWaits (itsChange s) = false) ∧
    (let s := (waitingChange 3 [(3, 0x1F)]).setFld 0 0 Reg.PWR_STAT.STATE 2; s.compWaits (itsChange s) = true) ∧
    (let s := waitingChange 1 [];
      s.compTurn (itsChange s) = true ∧ (itsChange s).c.part = 0 ∧
        (s.compRefused (itsChange s) true = none → s.compWaits (itsChange s) = false)) ∧
    (let s := (managed 0).setFld 0 31 Reg.DCTL_COMP_PART0.DRAINING 1;
      s.drainEpoch 31 = some 0 ∧ s.drainCount 31 0 = 0 ∧ (s.fld 0 0 Reg.DCTL_COMP_CFG.DRAIN_LIM) = 200) ∧
    ((managed 0).core 511).cur.moves = [] ∧ (asking.core 511).cur.moves ≠ [] := by
  repeat' apply And.intro
  all_goals decide +kernel

/-- A partition reset of partition 31 at a phase. -/
def resetting (ph : Nat) : State :=
  { managed 0 with resets := [{ id := 9, domain := 4, target := 31, dump := false, phase := ph, edge := 2, cause := none }] }

/-- Its reset. -/
def itsReset (ph : Nat) : Reset := { id := 9, domain := 4, target := 31, dump := false, phase := ph, edge := 2, cause := none }

theorem test_w_ResetSequence :
    (∃ r ∈ (resetting 0).resets, r.phase < 4 ∧ (managed 0).resetWithin 4 31 r.domain r.target = true) ∧
    (∀ e ∈ [(1, 4095), (2, 511), (3, 31), (4, 0), (5, 0), (6, 1), (7, 0), (8, 0)],
      ∀ r ∈ (managed 0).resets, r.phase < 4 → (managed 0).resetWithin e.1 e.2 r.domain r.target = false) ∧ linked.vdOf 0 ≠ 0 ∧
    (resetting 0).resets.find? (fun r => r.id == 9 && r.phase == 0) = some (itsReset 0) ∧
    (resetting 1).resets.find? (fun r => r.id == 9 && r.phase == 0) = none ∧
    (resetting 1).resets.find? (fun r => r.id == 9 && r.phase == 1) = some (itsReset 1) ∧
    (resetting 1).resetRemains (itsReset 1) = false ∧ (resetting 1).resetStuck (itsReset 1) = false ∧
    (let s : State := { (resetting 1).setFld 0 2 Reg.IDC_CORE_MAP.K 16 with
        failed := [1, 2], resets := [{ itsReset 1 with domain := 2, target := 1 }, { itsReset 1 with domain := 2, target := 2 }] };
      s.failed.filter s.coreShut = [1, 2] ∧
        s.fld 0 1 Reg.IDC_CORE_MAP.K < s.fld 0 2 Reg.IDC_CORE_MAP.K ∧ s.fld 0 2 Reg.IDC_CORE_MAP.K < 17 ∧
        ({ s with failed := [2] } : State).failed.filter s.coreShut = [2]) ∧
    (let s : State := { resetting 1 with inbound := [⟨0, aCell 2 [], 31, 0⟩] };
      s.resetRemains (itsReset 1) = true ∧ s.now < (itsReset 1).edge ∧
        (s.setFld 0 0 Reg.DCTL_MEMSTAT.STEP 4).resetStuck (itsReset 1) = true) ∧
    ((resetting 2).resets.find? fun r => r.phase == 2 && (r.domain == 4 || 4 == 4 && r.domain == 5) && r.target == 31) = some (itsReset 2) ∧
    ((resetting 2).resets.find? fun r => r.phase == 2 && (r.domain == 4 || 4 == 4 && r.domain == 5) && r.target == 0) = none ∧
    (resetting 3).resets.find? (fun r => r.id == 9 && r.phase == 3) = some (itsReset 3) ∧
    (∀ q ∈ (resetting 3).resetParts (itsReset 3), (resetting 3).wipeOwed q = false) ∧
    (let s : State := { resetting 3 with wipes := [⟨16, false, some (0x40 + 31), true⟩] };
      ∃ q ∈ s.resetParts (itsReset 3), s.wipeOwed q = true) := by
  repeat' apply And.intro
  all_goals decide +kernel

theorem test_w_ErrorsAndDumps :
    State.reset.fld 0 0 Reg.DCTL_RST_CFG.AUTO_WARM = 1 ∧
    (State.reset.setFld 0 0 Reg.DCTL_RST_CFG.AUTO_WARM 0).fld 0 0 Reg.DCTL_RST_CFG.AUTO_WARM ≠ 1 ∧
    (let s : State := { managed 0 with aborts := [⟨31, 0, false⟩] };
      s.aborts.find? (fun a => a.part == 31 && !a.started && decide (a.beat < s.now)) = some ⟨31, 0, false⟩) ∧
    (let s : State := { managed 0 with aborts := [⟨31, 1, false⟩] };
      ∀ a ∈ s.aborts, a.part = 31 → a.started = false → s.now ≤ a.beat) ∧
    (managed 0).fld 0 511 Reg.IDC_CORE_MAP.STATE ≠ 0 ∧ (managed 0).fld 0 511 Reg.IDC_CORE_MAP.STATE ≠ 2 ∧ 511 ∉ (managed 0).failed ∧
    ((managed 0).setFld 0 511 Reg.IDC_CORE_MAP.STATE 2).fld 0 511 Reg.IDC_CORE_MAP.STATE = 2 ∧
    (managed 0).bridge < 4 ∧ (managed 0).fld 0 0 Reg.IDC_TOPO.BRIDGE_HALF = 0 ∧ 4 ≤ ({ managed 0 with bridge := 4 } : State).bridge ∧
    (((moving (started 0)).core 0).cur.moves.find? fun m => m.tag == (started 0).tag && m.started) = some (started 0) ∧
    (∀ m ∈ ((moving (aMove 0 0)).core 0).cur.moves, m.tag = (aMove 0 0).tag → m.started = false) ∧
    (managed 0).dump.due = none ∧ (managed 0).dump.staged = none ∧
    ({ managed 0 with dump := { (managed 0).dump with due := some (some (3, 7)) } } : State).dump.due = some (some (3, 7)) ∧
    (let d : Dump := { recSeq := 7, head := [], body := [] };
      ({ managed 0 with dump := { (managed 0).dump with staged := some d } } : State).dump.staged = some d) := by
  repeat' apply And.intro
  all_goals decide +kernel

/-- A key roll under way on controller 15, with groups done below THR. -/
def rollingTo (thr : Nat) : State :=
  let s := ((managed 0).setFld 0 6 Reg.DCTL_KEY_ATTR.VALID 1).setFld 0 15 Reg.DCTL_T2ROLL.STATE 1
  s.setFld 0 15 Reg.DCTL_T2ROLL.THR thr

theorem test_w_KeyRoll :
    (managed 0).rollWant = false ∧ (managed 0).rolling = false ∧ ({ managed 0 with rollWant := true } : State).rolling = false ∧
    (rollingTo (2 ^ 25 - 1)).rolling = true ∧ (rollingTo (2 ^ 25 - 1)).rollGoes 15 = true ∧ (rollingTo (2 ^ 25)).rollGoes 15 = false ∧
    (∃ m < 16, (rollingTo 0).fld 0 m Reg.DCTL_T2ROLL.STATE = 1 ∧ (rollingTo 0).fld 0 m Reg.DCTL_T2ROLL.THR ≠ 2 ^ 25) ∧
    (∀ m ∈ (List.range 16).filter (fun m => (rollingTo (2 ^ 25)).fld 0 m Reg.DCTL_T2ROLL.STATE == 1),
      (rollingTo (2 ^ 25)).fld 0 m Reg.DCTL_T2ROLL.THR = 2 ^ 25) ∧
    (managed 0).fld 0 0 Reg.DCTL_T2SEC_STAT.STATE = 0 := by
  repeat' apply And.intro
  all_goals decide +kernel

/-- Die 1 in a state of rotation with rotation enabled. -/
def rotating (st : Nat) : State :=
  ((managed 0).setFld 0 0 Reg.DCTL_ROT_CFG.EN 1).setFld 0 1 Reg.DCTL_ROT_STAT.STATE st

theorem test_w_PowerAndRotation :
    (managed 0).inService = true ∧ ((managed 0).setFld 0 0 Reg.PWR_STAT.STATE 1).inService = false ∧
    109 < (managed 0).fld 0 0 Reg.PWR_TCFG.T_HOT ∧ (managed 0).fld 0 0 Reg.PWR_TCFG.T_HOT ≤ 110 ∧
    119 < (managed 0).fld 0 0 Reg.PWR_TCFG.T_TRIP ∧ (managed 0).fld 0 0 Reg.PWR_TCFG.T_TRIP ≤ 120 ∧
    31 ∉ (managed 0).pow.droop ∧ 31 ∈ ({ managed 0 with pow := { (managed 0).pow with droop := [31] } } : State).pow.droop ∧
    (managed 0).fld 0 0 Reg.PWR_STAT.STATE = 3 ∧ (managed 0).pow.est = 0 ∧
    ({ managed 0 with pow := { (managed 0).pow with est := 1 } } : State).pow.est ≠ 0 ∧
    (∀ st ∈ [0, 1, 2, 3], (rotating st).fld 0 1 Reg.DCTL_ROT_STAT.STATE = st) ∧
    (rotating 0).fld 0 0 Reg.PWR_STAT.CLK ≤ 2 ∧ 2 < ((rotating 2).setFld 0 0 Reg.PWR_STAT.CLK 3).fld 0 0 Reg.PWR_STAT.CLK ∧
    (((rotating 0).setRot 1 { turn := 0, left := 0, off := false }).rot 1).left = 0 ∧
    ((rotating 0).setRot 1 { turn := 0, left := 0, off := false }).rotRuns 1 = true ∧ (rotating 3).rotRuns 1 = true ∧
    (∀ x ∈ (rotating 1).changes, x.rotate ≠ some 1) ∧
    (∃ x ∈ ({ rotating 1 with changes := [{ itsChange (waitingChange 3 []) with rotate := some 1 }] } : State).changes, x.rotate = some 1) := by
  repeat' apply And.intro
  all_goals decide +kernel

/-- A package that powers up, whose steps below `n` are done. -/
def booted (n : Nat) : State :=
  let s := State.reset.setFld 0 0 Reg.PWR_STAT.STATE 1
  { s with boot := { s.boot with done := List.range n, linked := false }, mod := { s.mod with rails := true, rstLow := false, pwrEn := true } }

theorem test_w_PowerUp :
    (∀ k ∈ [1, 2, 3, 4, 5, 6, 7, 8, 9, 10, 11, 12, 13], (booted k).stepRuns k = true) ∧ (booted 2).stepRuns 1 = false ∧
    (booted 12).lockReached = false ∧ ((booted 12).setFld 0 0 Reg.DCTL_BEAT_STAT.LOCK 1).lockReached = true ∧
    ((booted 12).setFld 0 0 Reg.DCTL_BEAT_CFG.ROLE 2).lockReached = true ∧
    (BitVec.ofNat 8 7).extractLsb' 0 3 ≠ 0 ∧ (BitVec.ofNat 8 0xF8).extractLsb' 0 3 = 0 ∧
    (∀ k ∈ [9, 10, 11], k ∈ (booted 12).boot.done) ∧ (∃ k ∈ [9, 10, 11], k ∉ (booted 11).boot.done) ∧
    (booted 12).boot.linked = false := by
  repeat' apply And.intro
  all_goals decide +kernel

theorem test_w_HostLinkAndModule :
    (let s : State := { booted 4 with boot := { (booted 4).boot with perst := true, ready := true } };
      s.boot.perst = true ∧ s.mod.rails = true ∧ 3 ∈ s.boot.done ∧ s.boot.linked = false ∧ s.booting = true ∧ s.boot.ready = true) ∧
    (let s : State := { managed 0 with boot := { (managed 0).boot with linked := true } };
      s.boot.linked = true ∧ s.inService = true ∧ 32 < 33) ∧
    (let s : State := { booted 4 with boot := { (booted 4).boot with linked := true } }; s.inService = false) ∧
    (let s : State := { State.reset.setFld 0 0 Reg.PWR_STAT.STATE 0 with mod := { State.reset.mod with pwrEn := false } };
      s.mod.pwrEn = false ∧ s.fld 0 0 Reg.PWR_STAT.STATE = 0) ∧
    (booted 4).mod.pwrEn = true ∧ (booted 4).mod.rails = true ∧ (booted 4).inService = false ∧ (managed 0).inService = true := by
  repeat' apply And.intro
  all_goals decide +kernel

theorem test_w_ModuleQueries :
    (let s : State := { booted 4 with mod := { (booted 4).mod with vin := 440, rails := false } };
      s.mod.pwrEn = true ∧ 440 ≤ s.mod.vin) ∧
    (let s : State := { booted 4 with mod := { (booted 4).mod with vin := 439, rails := false } };
      s.mod.vin < 440 ∧ s.mod.rails = false) ∧
    (booted 5).kmcUp = true ∧ (booted 5).boot.stop ≠ 2 ∧ (booted 4).kmcUp = false := by
  repeat' apply And.intro
  all_goals decide +kernel

/-- A marker of beat 8 as a package of one hop sends it. -/
def aMarker (lead : Nat) : Cell :=
  { cellOf 0xA 5 with
    len := 19, payload := leBytes 6 8 ++ leBytes 3 lead ++ leBytes 1 1 ++ leBytes 1 5 ++ leBytes 6 (2 ^ 48 - 1) ++ leBytes 1 0 ++ leBytes 2 3 }

theorem test_w_BeatAndEdge :
    linked.role = 0 ∧ (linked.setFld 0 0 Reg.DCTL_BEAT_CFG.ROLE 1).role = 1 ∧ linked.beat.marked ≠ some linked.nextBeat ∧
    linked.beat.step = none ∧
    (linked.receive 31 (aMarker 1000)).1 = some (aMarker 1000) ∧ (State.reset.receive 31 (aMarker 1000)).1 = none ∧
    markerFields (aMarker 1000) = true ∧ markerFields { aMarker 1000 with vc := 0 } = false ∧
    leField (aMarker 999).payload 6 3 < linked.fld 0 31 Reg.DCTL_LYS_DLY.D_LINK + 1000 ∧
    linked.fld 0 31 Reg.DCTL_LYS_DLY.D_LINK + 1000 ≤ leField (aMarker 1000).payload 6 3 ∧
    linked.beat.heard = [] ∧ bestHeard [(31, 1)] = some (31, 1) ∧
    (let s : State := { linked with beat := { linked.beat with heard := [(31, 1)], chosen := true, quietPort := 1 } };
      s.beat.quietPort ≠ 0 ∧ (∀ x ∈ s.beat.heard, x.1 ≠ s.fld 0 0 Reg.DCTL_BEAT_STAT.PORT)) ∧
    (let s : State := { linked.setFld 0 0 Reg.DCTL_BEAT_STAT.LOCK 1 with beat := { linked.beat with quietAll := 2 } };
      s.role = 0 ∧ s.lock = 1 ∧ 2 ≤ s.beat.quietAll) ∧
    (let s : State := { linked.setFld 0 0 Reg.DCTL_BEAT_STAT.LOCK 2 with beat := { linked.beat with held := 2001, limitSent := false } };
      s.lock = 2 ∧ s.fld 0 0 Reg.DCTL_BEAT_CFG.HOLD_LIM * 100 < s.beat.held) ∧
    linked.fld 0 0 Reg.DCTL_BEAT_NEXT.CHANGE_AT = 2 ^ 48 - 1 ∧
    (linked.setFld 0 0 Reg.DCTL_BEAT_NEXT.CHANGE_AT 1).fld 0 0 Reg.DCTL_BEAT_NEXT.CHANGE_AT ≤ linked.now ∧
    (linked.core 511).lateDue = false ∧ ((linked.setCore 511 { Core.idle with lateDue := true }).core 511).lateDue = true ∧
    linked.owner 511 = none ∧ (linked.setFld 0 511 Reg.IDC_CORE_MAP.OWNED 1).owner 511 = some 0 ∧
    (booted 4).mod.rails = true ∧ (booted 4).inService = false ∧ linked.inService = true ∧ linked.mod.rails = true ∧
    ({ linked with mod := { linked.mod with rails := false } } : State).mod.rails = false := by
  repeat' apply And.intro
  all_goals decide +kernel

/-! ## Witnesses of the last slots' statements, and of the statements on every command -/

theorem test_w_EndsHintsBellAndBundles_hints :
    (slotGoes run0 (slot [(8, 15), (0, 3)]) 0 [] [] ∧ opf (word [(8, 15), (0, 3)]) 11 8 ≠ 0 ∧
      opf (word [(8, 15), (0, 3)]) 7 2 = 0 ∧ opf (word [(8, 15), (0, 3)]) 47 12 = 0) ∧
    (slotGoes run0 (slot [(47, 1), (32, 63)]) 0 [63] [] ∧ opf (word [(47, 1), (32, 63)]) 46 38 = 0 ∧
      opf (word [(47, 1), (32, 63)]) 31 0 = 0) := by
  simp only [slotGoes]
  repeat' apply And.intro
  all_goals decide +kernel

/-- A core that runs a launch of VF1, a member of a virtual device of 256. -/
def remote : State :=
  let s := member.setCore 0 { run0.core 0 with launch := some 0 }
  { s with launches := [{ aLaunch with fn := 1, phase := 1 }] }

theorem test_w_WaitsAndLatches_remote :
    bitOf (word [(32, 4095), (25, 1), (17, 255)]).toNat 25 = true ∧ remote.memberOk 0 255 = true ∧ remote.memberOk 0 256 = false ∧
    slotGoes remote (slot [(32, 4095), (25, 1), (17, 255)]) 0 [0] [] := by
  simp only [slotGoes]
  repeat' apply And.intro
  all_goals decide +kernel

/-- A core with a page table in tile 0, and slot 255 of its context bound with 7 pages. -/
def paging : State :=
  { running { CoreState.idle with td := [(0, BitVec.ofNat 128 (8 * 2 ^ 57 + 2 ^ 71 + 2 ^ 84 + 0xD * 2 ^ 100))], s := [(1, 1)] } with
    slots := [(255, { SeqSlot.fresh with tokens := 100, pageTokens := 16 })] }

theorem test_w_SequenceInstructions :
    (paging.slots.find? 255).map (fun q => (q.fn, q.ctx, q.pageCount)) = some (0, 0, 7) ∧
    (paging.coreFn 0).1 = 0 ∧ (paging.coreFn 0).2.1 = 0 ∧
    slotGoes paging (slot [(38, 2), (32, 3), (0, 255)]) 0 ([2, 3] ++ []) [dS 2, dS 3] ∧
    (let x := slot [(47, 1), (38, 2), (32, 3), (26, 1)]; slotGoes paging x 0 ([2, 3] ++ [1]) [dS 2, dS 3] ∧
      bitOf x.f.toNat 47 = true ∧ opf x.f 31 26 = 1 ∧ opf x.f 25 8 = 0) ∧
    (let x := slot [(26, 1), (0, 255)]; slotGoes paging x 0 ([0, 1] ++ []) [] ∧ opf x.f 43 39 = 0 ∧
      tdOk ((slotBase paging x).tdv 0) = true ∧ tdFmt ((slotBase paging x).tdv 0) = 0xD ∧
      8 * 1 ≤ tdRows ((slotBase paging x).tdv 0) * rowBytes ((slotBase paging x).tdv 0)) ∧
    (match (paging.slots.find? 255).map fun q => (paging.seqReady q 0, paging.seqEntries q [0]) with
      | some (true, .ok es) => es == [0]
      | _ => false) = true := by
  simp only [slotGoes]
  repeat' apply And.intro
  all_goals decide +kernel

theorem test_w_LatchSignals :
    ({ ctx := 0, isMax := true, val := 5, held := 0 } : Latch).isMax = true ∧ ({ ctx := 0, isMax := false, val := 5, held := 0 } : Latch).isMax = false ∧
    asking.regs.rising = true ∧ asking.latch? 1 4095 = some { ctx := 0, isMax := true, val := 0, held := 0 } := by
  repeat' apply And.intro
  all_goals decide +kernel

theorem test_w_LatchSignals_ordered :
    ({ ctx := 0, isMax := false, val := 5, held := 0 } : Latch).isMax = false ∧
    ({ ctx := 0, isMax := false, val := 5, held := 0 } : Latch).fits :=
  ⟨rfl, fun k h => by simp [bitOf] at h⟩

theorem test_w_LatencySteps : State.reset.regs.rising = true ∧ (0, 0, Reg.QOSM_STEP1.CEL) ∈ State.reset.targets (vf 31) := by
  constructor
  · decide +kernel
  · unfold State.targets
    simp only [List.cons_append, List.mem_cons]
    left
    decide +kernel

theorem test_w_SlotFrame : slotOf (.atomClaim (slot [])) = some (slot []) := rfl

theorem test_w_StepRunsFront : State.reset.pending = [] ∧ ({ State.reset with pending := [Instr.run] } : State).pending = Instr.run :: [] := by
  repeat' apply And.intro
  all_goals decide +kernel

theorem test_w_StepKeepsInvariant :
    linked.inv ∧ ∃ t, step { linked with pending := [Instr.latenessEvent 511] } = .next t := by
  constructor
  · unfold State.inv
    repeat' apply And.intro
    all_goals decide +kernel
  · exact ⟨_, rfl⟩

/-! ## Terms that are not well formed -/

/-- The first core, port, function and so on that the hardware lacks. -/
theorem test_ill_formed :
    ([.add ⟨512, .row, 0, false⟩, .rdsr ⟨512, .row, 0, false⟩ 0, .latenessEvent 512, .tailBlockArrival 33 [] false,
      .commandRecordArrival 0 64 0 false, .commandRecordArrival 33 0 0 false, .commandComplete 0 64 0, .networkPacketError 2 .header,
      .moveStart 512 0, .moveStart 0 2, .moveComplete 0 64 [], .preloadComplete 512 [], .retry 33 0, .sieveBlockDecode 0 64 [] false,
      .memoryRead (2 ^ 48) (readIn []), .memoryWrite 0 [] false false 33, .verifyScrub 64 0 (readIn []), .ledgerChunkCheck 64 0,
      .criticalTemperature 30 0, .memoryUnitRestart 30, .wipeComplete 80, .codewordReceive 32 0 .clean, .codewordReceive 0 16 .clean,
      .portDown 32, .inletFault 8 ⟨true, true, 0⟩, .windowOpen 0 256, .fwCommit 0 (2 ^ 32) 0, .drainEnd 32, .nop 33 0, .nop 0 64, .ctxSelLatch 0 256,
      .destroyAck 0 512 0, .destroyAck 0 0 8, .rollGroup 16 .pass, .resetForce 9 0, .ucePError 32 0, .domainWakeComplete 48,
      .droopDetect 32, .rotationStep 2, .bootStepFail 14 .rail, .engineInstructionComplete 0 6,
      .laserModuleSeated 8] : List Instr).all (fun i => !i.wf) = true := by decide +kernel

/-- Cells whose numbers do not fit their fields. -/
theorem test_ill_formed_cells :
    ([{ aCell 2 [] with typ := 16 }, { aCell 2 [] with vc := 8 }, { aCell 2 [] with nhop := 8 }, { aCell 2 [] with hop := 8 },
      { aCell 2 [] with src := 65536 }, { aCell 2 [] with vd := 65536 }, { aCell 2 [] with route := List.replicate 7 0 },
      { aCell 2 [] with route := [32] }, { aCell 2 [] with payload := leBytes 513 0 }] : List Cell).all
      (fun c => !(Instr.rdReq 0 c).wf) = true ∧ (Instr.rdReq 31 (aCell 2 [])).wf = true := by decide +kernel

/-! ## Words and numbers that the spec writes out -/

/-- R92: the 32 bytes of the bundle that the reference encodes: an MMA on ME2 and a MOVE on XE1, and two NOPs. -/
def matmulBundle : BitVec 256 := BitVec.ofNat 256 (0x0060010058000000 * 2 ^ 64 + 0x0050084640000000 * 2 ^ 192)

/-- R92, R94, R112, R125: that bundle decodes to its four slots, with the fields that the reference's tables give. -/
theorem test_decode_bundle : decodeBundle 5 0 matmulBundle =
    [.mma ⟨5, .row, word [(52, 2), (39, 2), (28, 5), (26, 2)], true⟩, .vadd ⟨5, .nop, 0, true⟩,
     .move ⟨5, .row, word [(52, 1), (38, 33), (33, 3), (29, 2)], true⟩, .add ⟨5, .nop, 0, false⟩] := by
  decide +kernel

/-- R94: words of the S slot written out from its tables: ADD s3, s1, s2; BR 7; END; and an OPCODE that no row has. -/
theorem test_decode_slots :
    [0x0800000000000000 + 3 * 2 ^ 38 + 1 * 2 ^ 32 + 2 * 2 ^ 26, 0x0400000000000007, 0x0040000000000000, 0xFFC0000000000000].map
      (fun w => decodeSlot 5 0 0 false (BitVec.ofNat 64 w)) =
    [.add ⟨5, .row, word [(38, 3), (32, 1), (26, 2)], false⟩, .br ⟨5, .row, word [(0, 7)], false⟩, .endProg ⟨5, .row, 0, false⟩,
     .add ⟨5, .reserved, 0, false⟩] := by decide +kernel

/-- R139, R140: E2M1 codes of 5.0, of -3.25 and of 0.6875, by the nearest value and then the even mantissa. -/
theorem test_round_e2m1 :
    [FV.fin false 5 0, FV.fin true 13 (-2), FV.fin false 11 (-4)].map (narrowEl 0x9 0 0) = [0x6, 0xD, 0x1] := by decide +kernel

/-- R206: 0.0625 added to an E4M3 2.0 once, twice and three times before the one rounding: 2.0, 2.0 and 2.25. -/
theorem test_combined_adds :
    [1, 2, 3].map (fun k => narrowEl 0x3 0 0 ((decodeEl 0x3 0x40).add (FV.fin false k (-4)))) = [0x40, 0x40, 0x41] := by
  decide +kernel

/-! ## One step of some commands; what each expects is worked out from the rule named -/

/-- Register `r` of core 0 after a command on a core whose s1 and s2 hold values. -/
def s3After (a b : U64) (i : Instr) : U64 :=
  match exec i (running { CoreState.idle with s := [(1, a), (2, b)] }) with
  | .next t => (t.core 0).cur.rs 3
  | _ => 0

/-- s3 ← s1 op s2. -/
def three : Slot := slot [(38, 3), (32, 1), (26, 2)]

/-- R97: ADD wraps. -/
theorem test_add_wraps : s3After (BitVec.ofNat 64 (2 ^ 64 - 1)) 2 (.add three) = 1 := by decide +kernel

/-- R97, R98: SUB takes B from A, and wraps. -/
theorem test_sub_wraps : s3After 1 2 (.sub three) = BitVec.ofNat 64 (2 ^ 64 - 1) := by decide +kernel

/-- R98: a division by zero gives all ones, its remainder A. -/
theorem test_div_zero : s3After 7 0 (.div three) = BitVec.ofNat 64 (2 ^ 64 - 1) ∧ s3After 7 0 (.remu three) = 7 := by decide +kernel

/-- R98: the least number divided by −1. -/
theorem test_div_overflow : s3After (BitVec.ofNat 64 (2 ^ 63)) (BitVec.ofNat 64 (2 ^ 64 - 1)) (.div three) = BitVec.ofNat 64 (2 ^ 63) := by
  decide +kernel

/-- R97: the high half of an unsigned product. -/
theorem test_mulhu : s3After (BitVec.ofNat 64 (2 ^ 63)) 6 (.mulhu three) = 3 := by decide +kernel

/-- R97: a right shift with sign. -/
theorem test_sra : s3After (BitVec.ofNat 64 (2 ^ 64 - 16)) 3 (.sra three) = BitVec.ofNat 64 (2 ^ 64 - 2) := by decide +kernel

/-- R355: a MAX latch takes the larger value. -/
theorem test_latch_max :
    (asking.signal 1 4095 9).2.latch? 1 4095 = some { ctx := 0, isMax := true, val := 9, held := 0 } := by decide +kernel

/-- R92, R186: bytes that a memory write stores are read back at their addresses, and the byte beside them is not written. -/
theorem test_memory_write :
    (match exec (.memoryWrite stack0 [1, 2] false false 0) served with
      | .next t => t.mem == [(stack0, 1), (stack0 + 1, 2)]
      | _ => false) = true := by decide +kernel

/-- R442: a power state is asked for at the next edge. -/
theorem test_run_waits_for_edge :
    (match exec .run served with
      | .next t => t.deferred == [.power 3]
      | _ => false) = true := by decide +kernel

end Sys2Proof.Tests
end

section
/-! SUPPORT. What an access of the host does (R6, R8, R320, R322 to R324, R469, R508): one equation per case of BAR2, of a
register of BAR0, of a companion counter and of the snapshot ring; and the statement that they settle. -/

namespace Sys2Proof.Machine

open Sys2Proof

/-! ## Bits of a 64-bit value -/

theorem bits_toNat (v : U64) (lo w : Nat) : bits v.toNat lo w = (v.extractLsb' lo w).toNat := by
  rw [BitVec.extractLsb'_toNat, Nat.shiftRight_eq_div_pow, bits]

theorem bitOf_toNat (v : U64) (i : Nat) : bitOf v.toNat i = v.getLsbD i := by
  rw [BitVec.getLsbD, Nat.testBit_eq_decide_div_mod_eq, bitOf, beq_eq_decide]

/-! ## BAR2 (R323, R324) -/

/-- A run of bytes that lies in an aperture passes the check of its size. -/
theorem not_outside {size off n : Nat} (hn : 0 < n) (hin : off + n ≤ size) : ¬(size < off + n ∨ n = 0) := by omega

section Bar2

variable {s : State} {fn off n : Nat} {d : List Byte}

theorem State.bar2Read_refused (hn : 0 < n) (hin : off + n ≤ 2 ^ (s.cfg fn).bar2)
    (hok : s.bar2Ok fn (s.bar2Pa fn off) n false = false) :
    s.bar2Read fn off n = (s.bar2Refused fn).send (.bar2 fn off (List.replicate n 0xFF) false) := by
  simp [State.bar2Read, not_outside hn hin, hok]

theorem State.bar2Read_served (hn : 0 < n) (hin : off + n ≤ 2 ^ (s.cfg fn).bar2)
    (hok : s.bar2Ok fn (s.bar2Pa fn off) n false = true)
    (hready : (s.verifyRun (s.bar2Pa fn off) n).runReady (s.bar2Pa fn off) n = true) :
    s.bar2Read fn off n =
      ((s.verifyRun (s.bar2Pa fn off) n).readMem (s.bar2Pa fn off) n).st.send
        (.bar2 fn off ((s.verifyRun (s.bar2Pa fn off) n).readMem (s.bar2Pa fn off) n).data
          ((s.verifyRun (s.bar2Pa fn off) n).readMem (s.bar2Pa fn off) n).bad) := by
  simp [State.bar2Read, not_outside hn hin, hok, hready]

theorem State.bar2Write_refused (hn : 0 < d.length) (hin : off + d.length ≤ 2 ^ (s.cfg fn).bar2)
    (hok : s.bar2Ok fn (s.bar2Pa fn off) d.length true = false) : s.bar2Write fn off d = s.bar2Refused fn := by
  simp only [State.bar2Write, not_outside hn hin, hok, if_false, Bool.not_false, if_true]

theorem State.bar2Write_served (hn : 0 < d.length) (hin : off + d.length ≤ 2 ^ (s.cfg fn).bar2)
    (hok : s.bar2Ok fn (s.bar2Pa fn off) d.length true = true) (hstop : s.paStopped (s.bar2Pa fn off) = false)
    (hroom : s.countersRoom (s.bar2Pa fn off) d.length = true) :
    s.bar2Write fn off d = (s.writeMem (s.bar2Pa fn off) d false).2 := by
  simp only [State.bar2Write, not_outside hn hin, hok, hstop, hroom, if_false, Bool.not_true, Bool.or_false, Bool.false_eq_true]

end Bar2

/-! ## Accesses of BAR0 (R8, R320, R508) -/

/-- R320: an access that BAR0 accepts covers a whole register, or one half of it. -/
theorem aligned_cases {off size : Nat} (ha : aligned off size = true) :
    size = 8 ∧ off % 8 = 0 ∨ size = 4 ∧ (off % 8 = 0 ∨ off % 8 = 4) := by
  simp only [aligned, Bool.and_eq_true, Bool.or_eq_true, beq_iff_eq, decide_eq_true_eq] at ha
  obtain ⟨⟨-, rfl | rfl⟩, hoff⟩ := ha <;> omega

section InService

variable {s : State} {fn off size : Nat} (hs : s.inService = true) (hf : fn < 33)
include hs hf

/-- In service, a register write of one of the 33 functions is refused or goes to its register. -/
theorem exec_registerWrite (v : U64) :
    exec (.registerWrite fn off size v) s =
      .next (if aligned off size then s.writeReg fn off (size == 8) v else s.unsupported fn off) := by
  change execRegisterWrite fn off size v s = _
  simp [execRegisterWrite, hs, hf.not_ge]

theorem exec_counterRead_unaligned (ha : aligned off size = false) :
    exec (.counterRead fn off size) s = .next (s.unsupported fn off) := by
  change execCounterRead fn off size s = _
  simp [execCounterRead, hs, hf.not_ge, ha]

/-- An accepted read gives the value of its register, or the half that it covers, and clears the counters that it gives. -/
theorem exec_counterRead_aligned (ha : aligned off size = true) {val : Nat}
    (hval : val = if isCounter (off / 8 * 8) then
        (if counterSeen fn (off / 8 * 8) then leNat (s.counters fn (off / 8 * 8)) else 0)
      else s.readReg fn (off / 8 * 8)) {s1 : State}
    (hs1 : s1 = s.send (.reg fn off (BitVec.ofNat 64 (if size = 8 then val else val / 2 ^ (8 * (off % 8)) % 2 ^ 32)))) :
    exec (.counterRead fn off size) s = .next (if isCounter (off / 8 * 8) && counterSeen fn (off / 8 * 8) then
      s1.clearCounters fn (off / 8 * 8) (off % 8) size else s1) := by
  have hoff : off - off / 8 * 8 = off % 8 := by omega
  subst hval hs1
  change execCounterRead fn off size s = _
  simp only [execCounterRead, hs, hf.not_ge, ha, hoff, Bool.not_true, decide_false, Bool.or_false, Bool.false_eq_true, if_false]

end InService

/-! ## Writes of a register (R6, R508) -/

/-- A register that PF0 accesses, or that lies outside the windows of PF0 alone, is not hidden from the function (R320). -/
theorem not_hidden {fn base : Nat} (hp : fn = 0 ∨ pf0Only base = false) : ¬(fn ≠ 0 ∧ pf0Only base = true) := by
  simpa [Decidable.or_iff_not_imp_left] using hp

section WriteReg

variable {s : State} {fn off o : Nat} {r : RegDef}

theorem State.writeReg_hidden (wide : Bool) (v : U64) (hf : fn ≠ 0) (hp : pf0Only (off / 8 * 8) = true) :
    s.writeReg fn off wide v = s := by
  simp [State.writeReg, hf, hp]

theorem State.writeReg_unlisted (wide : Bool) (v : U64) (hb : off / 8 * 8 ≠ 0x11C8000)
    (hr : regFind (off / 8 * 8) regTable = none) : s.writeReg fn off wide v = s := by
  simp [State.writeReg, hb, hr]

variable (hb : off / 8 * 8 ≠ 0x11C8000) (hp : fn = 0 ∨ pf0Only (off / 8 * 8) = false)
  (hr : regFind (off / 8 * 8) regTable = some (r, o))
include hb hp hr

theorem State.writeReg_whole (wide : Bool) (v : U64) (hw : r.wide = true) :
    s.writeReg fn off wide v = if wide then s.writeWhole fn (off / 8 * 8) v.toNat else s := by
  simp only [State.writeReg, hb, and_false, if_false, not_hidden hp, hr, hw, if_true]

/-- R508: a write of a register of plain fields takes effect under the mask of the bytes that it covers. -/
theorem State.writeReg_plain (wide : Bool) (v : U64) (hw : r.wide = false)
    (hv : ¬(0x11C8000 ≤ off / 8 * 8 ∧ off / 8 * 8 < 0x1200000)) :
    s.writeReg fn off wide v = s.writePlain fn (off / 8 * 8) (if wide then v else v <<< (8 * (off % 8)))
      (if wide then BitVec.allOnes 64 else BitVec.ofNat 64 (fieldMask (8 * (off % 8)) 32)) r := by
  have hoff : off - off / 8 * 8 = off % 8 := by omega
  simp only [State.writeReg, hb, and_false, if_false, not_hidden hp, hr, hw, hv, hoff, Bool.false_eq_true]

/-- The masks of `writeReg_plain` written out for each accepted access. -/
theorem State.writeReg_plain_accepted {size : Nat} (v : U64) (ha : aligned off size = true) (hw : r.wide = false)
    (hv : ¬(0x11C8000 ≤ off / 8 * 8 ∧ off / 8 * 8 < 0x1200000)) :
    s.writeReg fn off (size == 8) v =
      if size = 8 then s.writePlain fn (off / 8 * 8) v (BitVec.allOnes 64) r
      else if off % 8 = 0 then s.writePlain fn (off / 8 * 8) v 0x00000000FFFFFFFF r
      else s.writePlain fn (off / 8 * 8) (v <<< 32) 0xFFFFFFFF00000000 r := by
  rw [State.writeReg_plain hb hp hr _ v hw hv]
  obtain ⟨rfl, -⟩ | ⟨rfl, hlow | hhigh⟩ := aligned_cases ha
  · rfl
  · have hmask : BitVec.ofNat 64 (fieldMask 0 32) = 0x00000000FFFFFFFF := by decide
    simp [hlow, hmask]
  · have hmask : BitVec.ofNat 64 (fieldMask 32 32) = 0xFFFFFFFF00000000 := by decide
    simp [hhigh, hmask]

end WriteReg

/-! ## The snapshot ring (R469) -/

/-- R469: the scope that a write of SNAP_CTL names is the package, or the virtual device of a partition's function. -/
theorem State.writeSnapCtl_eq (s : State) (fn : Nat) (v : U64) {s1 : State}
    (hs1 : s1 = if fn = 0 then s.setFld 0 0 Reg.SNAP_CTL.HOLD (v.extractLsb' 1 1).toNat else s) :
    s.writeSnapCtl fn v.toNat =
      if v.extractLsb' 2 2 = 0 ∨ v.extractLsb' 2 2 = 1 ∧ fn ≠ 0 then
        if v.getLsbD 0 then s1.partBell fn (v.extractLsb' 2 2 == 1) (v.extractLsb' 16 48).toNat else s1
      else s := by
  simp only [State.writeSnapCtl, bits_toNat, bitOf_toNat, ← hs1]
  generalize v.extractLsb' 2 2 = scope
  have h0 : scope = 0 ↔ scope.toNat = 0 := BitVec.toNat_eq
  have h1 : scope = 1 ↔ scope.toNat = 1 := BitVec.toNat_eq
  have hignored : (1 < scope.toNat ∨ scope.toNat = 1 ∧ fn = 0) ↔ ¬(scope = 0 ∨ scope = 1 ∧ fn ≠ 0) := by
    rw [h0, h1]
    omega
  have honVd : (scope.toNat == 1) = (scope == 1) := by
    rw [Bool.eq_iff_iff, beq_iff_eq, beq_iff_eq]
    exact h1.symm
  simp only [hignored, honVd, ite_not]

/-! ## The statement -/

/-- Settles O34: each clause is the equation of its case. -/
theorem hostAccesses : Obligations.HostAccesses := by
  unfold Obligations.HostAccesses
  refine ⟨?bar2, ?registerWrite, ?counterRead, ?snapRing⟩
  case bar2 =>
    rintro s fn off n _ d rfl hn hin
    refine ⟨fun hok => ?_, fun hok hready => ?_, ?_, ?_⟩
    · exact congrArg _ (State.bar2Read_refused hn hin hok)
    · exact congrArg _ (State.bar2Read_served hn hin hok hready)
    · rintro rfl hok
      exact congrArg _ (State.bar2Write_refused hn hin hok)
    · rintro rfl hok hstop hroom
      exact congrArg _ (State.bar2Write_served hn hin hok hstop hroom)
  case registerWrite =>
    intro s fn off size v hs hf
    rw [exec_registerWrite hs hf v]
    refine ⟨fun ha => by rw [ha]; rfl, ?_⟩
    rintro _ r o ha rfl hb
    rw [if_pos ha]
    refine ⟨fun h0 hp => ?_, fun hp => ⟨fun hr => ?_, fun hr => ⟨fun hw => ?_, fun hw hv => ?_⟩⟩⟩
    · exact congrArg _ (State.writeReg_hidden _ v h0 hp)
    · exact congrArg _ (State.writeReg_unlisted _ v hb hr)
    · rw [State.writeReg_whole hb hp hr _ v hw]
      simp only [beq_iff_eq]
    · exact congrArg _ (State.writeReg_plain_accepted hb hp hr v ha hw hv)
  case counterRead =>
    rintro s s1 fn off _ size hs hf rfl
    refine ⟨exec_counterRead_unaligned hs hf, fun ha hc => ?_, fun ha hc => ⟨fun hseen => ?_, fun hseen hs1 => ?_⟩⟩
    · rw [exec_counterRead_aligned hs hf ha rfl rfl]
      simp [hc]
    · rw [exec_counterRead_aligned hs hf ha rfl rfl]
      simp [hc, hseen]
    · rw [exec_counterRead_aligned hs hf ha (val := leNat (s.counters fn (off / 8 * 8))) (by simp [hc, hseen]) hs1]
      simp [hc, hseen]
  case snapRing =>
    intro s s1 fn v hs1
    exact congrArg _ (State.writeSnapCtl_eq s fn v hs1)

end Sys2Proof.Machine
end

section
/-! SUPPORT. What the commands of the beat do (R17 to R31) and what an edge does (R16, R28): one equation per case of each
function; and the statement that they settle. -/

namespace Sys2Proof.Machine

open Sys2Proof

/-! ## The number of the next beat (R18, R25) -/

section NextBeat

variable {s : State}

theorem State.nextBeat_step {n : Nat} (h : s.beat.step = some n) : s.nextBeat = n := by
  rw [State.nextBeat, h, Option.getD_some]

theorem State.nextBeat_no_step (h : s.beat.step = none) : s.nextBeat = if s.beat.restart then 0 else s.now + 1 := by
  rw [State.nextBeat, h, Option.getD_none]

end NextBeat

/-! ## Markers (R19, R20, R274) -/

section Markers

variable {s : State}

/-- A package that is not the master sends no marker, and the master none twice for one beat. -/
theorem State.emitMarker_idle (h : s.role ≠ 1 ∨ s.beat.marked = some s.nextBeat) : s.emitMarker = s :=
  if_neg fun ⟨hmaster, hunsent⟩ => h.elim (· hmaster) hunsent

theorem State.emitMarker_master (hmaster : s.role = 1) (hunsent : s.beat.marked ≠ some s.nextBeat) {t : State}
    (ht : t = s.sendAll s.trained (s.markerCell (markerBytes s.nextBeat (s.fld 0 0 Reg.DCTL_BEAT_CFG.LEAD * 1000) 0
      (s.fld 0 0 Reg.DCTL_BEAT_CFG.BEAT_LEN) (s.fld 0 0 Reg.DCTL_BEAT_NEXT.CHANGE_AT)
      (s.fld 0 0 Reg.DCTL_BEAT_NEXT.NEXT_LEN) (s.fld 0 0 Reg.DCTL_NODE.NODE)))) :
    s.emitMarker = { t with beat := { t.beat with marked := some t.nextBeat } } := by
  subst ht
  exact if_pos ⟨hmaster, hunsent⟩

/-- The port in use is kept: it was chosen, and has not been quiet or delivers a marker (R20). -/
theorem State.changePort_kept_port (hchosen : s.beat.chosen = true)
    (huse : s.beat.quietPort = 0 ∨ ∃ x ∈ s.beat.heard, x.1 = s.fld 0 0 Reg.DCTL_BEAT_STAT.PORT) : s.changePort = s := by
  have hkeep : (s.beat.chosen && (decide (s.beat.quietPort = 0) ||
      s.beat.heard.any fun (x : Nat × Nat) => x.1 == s.fld 0 0 Reg.DCTL_BEAT_STAT.PORT)) = true := by
    simpa [hchosen] using huse
  exact if_pos hkeep

theorem State.changePort_unheard (h : s.beat.heard = []) : s.changePort = s := by
  simp [State.changePort, h, bestHeard]

/-- No port is in use yet, or the one in use is quiet and unheard: the best of those heard takes its place (R20). -/
theorem State.changePort_best {p h : Nat} (hbest : bestHeard s.beat.heard = some (p, h))
    (hlost : s.beat.chosen = false ∨
      (s.beat.quietPort ≠ 0 ∧ ∀ x ∈ s.beat.heard, x.1 ≠ s.fld 0 0 Reg.DCTL_BEAT_STAT.PORT)) {t : State}
    (ht : t = (s.setFld 0 0 Reg.DCTL_BEAT_STAT.PORT p).setFld 0 0 Reg.DCTL_BEAT_STAT.HOPS h) :
    s.changePort = { t with beat := { t.beat with chosen := true, quietPort := 0 } } := by
  subst ht
  have hchange : (s.beat.chosen && (decide (s.beat.quietPort = 0) ||
      s.beat.heard.any fun (x : Nat × Nat) => x.1 == s.fld 0 0 Reg.DCTL_BEAT_STAT.PORT)) = false := by
    obtain hnone | ⟨hquiet, hunheard⟩ := hlost
    · rw [hnone, Bool.false_and]
    · simpa [hquiet] using fun _ => hunheard
  simp only [State.changePort, hchange, hbest, Bool.false_eq_true, if_false]

theorem State.takeMarker_not_follower (hrole : s.role ≠ 0) (p arr : Nat) (res : List (Nat × Nat)) (b : List Byte) :
    s.takeMarker p arr res b = s :=
  if_pos hrole

section Follower

variable (hrole : s.role = 0) {p : Nat} {b : List Byte}
include hrole

/-- A marker whose lead the link's delay has used up is not valid (R19). -/
theorem State.takeMarker_short_lead (hlead : leField b 6 3 < s.fld 0 p Reg.DCTL_LYS_DLY.D_LINK + 1000) (arr : Nat)
    (res : List (Nat × Nat)) : s.takeMarker p arr res b = s.beatFlag Reg.DCTL_BEAT_STAT.BEAT_LEAD_SHORT := by
  simp only [State.takeMarker, hrole, hlead, ne_eq, not_true_eq_false, if_false, if_true]

/-- A valid marker is noted under its port, which may come into use; the marker on the port in use is used (R20). -/
theorem State.takeMarker_valid (hlead : s.fld 0 p Reg.DCTL_LYS_DLY.D_LINK + 1000 ≤ leField b 6 3) (arr : Nat)
    (res : List (Nat × Nat)) {u : State}
    (hu : u = ({ s with beat := { s.beat with
      heard := (p, bits (leField b 9 1) 0 3) :: s.beat.heard.filter fun x => x.1 != p } } : State).changePort) :
    s.takeMarker p arr res b = if p = u.fld 0 0 Reg.DCTL_BEAT_STAT.PORT then u.useMarker p arr res b else u := by
  subst hu
  simp only [State.takeMarker, hrole, hlead.not_gt, ne_eq, not_true_eq_false, if_false]

end Follower

end Markers

/-! ## The TYPE of a received cell (R261, R265) -/

section ReceivedType

variable {s t : State} {p : Nat} {x c : Cell}

/-- The header of a sealed cell is authenticated and not encrypted: opening it keeps its TYPE. -/
theorem typ_of_openCell {key nonce : List Byte} (h : openCell key nonce x = some c) : c.typ = x.typ := by
  obtain ⟨d, -, rfl⟩ := Option.map_eq_some_iff.mp h
  rfl

theorem State.typ_of_unseal (h : s.unseal p x = some c) : c.typ = x.typ := by
  unfold State.unseal at h
  split at h
  · exact typ_of_openCell h
  · cases h
    rfl

theorem State.typ_of_receive (h : s.receive p x = (some c, t)) : c.typ = x.typ := by
  dsimp only [State.receive] at h
  split at h
  case isTrue => cases h
  case isFalse =>
    split at h
    case h_1 => cases h
    case h_2 hopen =>
      have htyp := State.typ_of_unseal hopen
      split at h
      · cases h
      · cases h
        exact htyp

/-- A cell under the TYPE of its row has a reserved TYPE only if its own is reserved. -/
theorem typeReserved_cellUnder {row : Nat} (hrow : typeReserved row = false) :
    typeReserved (cellUnder x row).typ = typeReserved x.typ := by
  unfold cellUnder
  split
  case isTrue => rfl
  case isFalse hx => rw [hrow, Bool.eq_false_of_not_eq_true hx]

end ReceivedType

/-! ## Reception of a marker (R260, R261, R274) -/

section BeatCell

variable {s t : State} {p : Nat} {x : Cell}

theorem exec_beat_not_received (h : s.receive p (cellUnder x 0xA) = (none, t)) (arr : Nat) (res : List (Nat × Nat)) :
    exec (.beat p arr res x) s = .next t := by
  change execBeat p arr res x s = _
  rw [execBeat, h]

/-- A cell that is received is taken as a marker if it is one, and is a route error otherwise (R260, R261). -/
theorem exec_beat_received {c : Cell} (h : s.receive p (cellUnder x 0xA) = (some c, t)) (arr : Nat) (res : List (Nat × Nat)) :
    exec (.beat p arr res x) s = .next (if !typeReserved x.typ && markerFields c then t.takeMarker p arr res c.payload
      else t.routeErr p c false) := by
  have htype : typeReserved c.typ = typeReserved x.typ := by
    rw [State.typ_of_receive h, typeReserved_cellUnder (by decide)]
  change execBeat p arr res x s = _
  simp only [execBeat, h, htype]

end BeatCell

/-! ## HOLDOVER (R23, R24) -/

section Holdover

variable {s : State}

theorem State.checkHoldover_stays (h : s.role ≠ 0 ∨ s.lock ≠ 1 ∨ s.beat.quietAll < 2) : s.checkHoldover = s :=
  if_neg fun ⟨hrole, hlock, hquiet⟩ => by omega

/-- A locked follower enters HOLDOVER after two quiet beats, and its schedule tables leave service (R23, R287). -/
theorem State.checkHoldover_enters (hrole : s.role = 0) (hlock : s.lock = 1) (hquiet : 2 ≤ s.beat.quietAll) {t u : State}
    (ht : t = s.setFld 0 0 Reg.DCTL_BEAT_STAT.LOCK 2)
    (hu : u = (({ t with beat := { t.beat with
      held := 0, limitSent := false, trial := none, agreed := 0, far := [], quietAll := 0 } } : State).beatFlag
        Reg.DCTL_BEAT_STAT.BEAT_HOLDOVER).logCE 0x0C 0 0 none) :
    s.checkHoldover = ((List.range 32).filter fun p => u.fld 0 p Reg.DCTL_LYS_SCHED.STATE == 1).foldl State.takeOut u := by
  subst ht hu
  exact if_pos ⟨hrole, hlock, hquiet⟩

theorem State.checkHoldLimit_within
    (h : s.lock ≠ 2 ∨ s.beat.held ≤ s.fld 0 0 Reg.DCTL_BEAT_CFG.HOLD_LIM * 100 ∨ s.beat.limitSent = true) :
    s.checkHoldLimit = s :=
  if_neg fun ⟨hlock, hlong, hunsent⟩ => by
    obtain h | h | h := h
    · exact h hlock
    · exact hlong.not_ge h
    · exact Bool.false_ne_true (hunsent.symm.trans h)

/-- HOLDOVER longer than HOLD_LIM is logged, and told to each virtual device (R24). -/
theorem State.checkHoldLimit_passed (hlock : s.lock = 2)
    (hlong : s.fld 0 0 Reg.DCTL_BEAT_CFG.HOLD_LIM * 100 < s.beat.held) (hunsent : s.beat.limitSent = false) {t : State}
    (ht : t = ({ s with beat := { s.beat with limitSent := true } } : State).logErr { ErrRec.of 4 0x0C with cause := 5 }) :
    s.checkHoldLimit = t.vdsHere.foldl (fun u v => u.raiseAlarm 1 5 v none 0) t := by
  subst ht
  exact if_pos ⟨hlock, hlong, hunsent⟩

end Holdover

/-! ## Beat length (R27) -/

section BeatLength

variable {s : State}

theorem State.applyLength_waits
    (h : s.fld 0 0 Reg.DCTL_BEAT_NEXT.CHANGE_AT = noChange ∨ s.now < s.fld 0 0 Reg.DCTL_BEAT_NEXT.CHANGE_AT) :
    s.applyLength = s :=
  if_pos h

theorem State.applyLength_due (hpending : s.fld 0 0 Reg.DCTL_BEAT_NEXT.CHANGE_AT ≠ noChange)
    (hdue : s.fld 0 0 Reg.DCTL_BEAT_NEXT.CHANGE_AT ≤ s.now) {t : State} {len : Nat}
    (hlen : len = s.fld 0 0 Reg.DCTL_BEAT_NEXT.NEXT_LEN)
    (ht : t = (s.setFld 0 0 Reg.DCTL_BEAT_NEXT.CHANGE_AT noChange).setFld 0 0 Reg.DCTL_BEAT_NEXT.NEXT_LEN 0) :
    s.applyLength = if 2 ≤ len ∧ len ≤ 40 then t.setFld 0 0 Reg.DCTL_BEAT_CFG.BEAT_LEN len else t := by
  subst hlen ht
  exact if_neg fun h => h.elim hpending hdue.not_gt

end BeatLength

/-! ## Lateness (R31) -/

section Lateness

variable {s : State} {n : Nat}

theorem State.lateEvent_not_due (h : (s.core n).lateDue = false) : s.lateEvent n = s := by
  simp only [State.lateEvent, h, Bool.false_eq_true, if_false]

variable (hdue : (s.core n).lateDue = true) {t : State} (ht : t = s.setCore n { s.core n with lateDue := false })
include hdue ht

theorem State.lateEvent_owned {q : Nat} (hq : t.owner n = some q) :
    s.lateEvent n = (t.intc (vf q) 3).logCE 0x0C 0 (unitCore n) ((t.intc (vf q) 3).owner n) := by
  simp only [State.lateEvent, hdue, if_true, ← ht, hq]

theorem State.lateEvent_unowned (hnone : t.owner n = none) : s.lateEvent n = t.logCE 0x0C 0 (unitCore n) none := by
  simp only [State.lateEvent, hdue, if_true, ← ht, hnone]

end Lateness

/-! ## The edge (R16, R28) -/

section Edge

variable {s : State} {e : EdgeIn}

theorem exec_beatEdge_no_rails (h : s.mod.rails = false) : exec (.beatEdge e) s = .next s := by
  change execBeatEdge e s = _
  simp only [execBeatEdge, h, Bool.not_false, if_true]

variable (hrails : s.mod.rails = true)
include hrails

theorem exec_beatEdge_before_release (hs : s.inService = false) : exec (.beatEdge e) s = .next s.beatPart := by
  change execBeatEdge e s = _
  simp only [execBeatEdge, hrails, hs, Bool.not_true, Bool.false_eq_true, if_false]

theorem exec_beatEdge_in_service (hs : s.inService = true) : exec (.beatEdge e) s = .next (s.edge e) := by
  change execBeatEdge e s = _
  simp only [execBeatEdge, hrails, hs, Bool.not_true, Bool.false_eq_true, if_false, if_true]

end Edge

/-- Steps 1 to 5 of R28: the state in which an edge of a package in service has taken its resets. -/
def State.edgeToResets (s : State) (e : EdgeIn) : State :=
  let closed := (s.flushUnits fun _ => true).noteRoutes
  let sampled := ((closed.latchSections.beatPart).ringBells closed).edgeSample e
  ((List.range 512).foldl (fun t n => (t.markLate n).lateEvent n) (sampled.edgeWatch closed)).edgeResets

/-- Steps 6 to 11 of R28 follow unless a reset has taken the package out of service. -/
theorem State.edge_eq (s : State) (e : EdgeIn) :
    s.edge e = if !(s.edgeToResets e).inService then s.edgeToResets e
      else ((((s.edgeToResets e).edgePower e).edgeCompose e).edgeStarts).reapReads.forgetLeft :=
  rfl

section DeferredApply

variable {s : State}

theorem exec_edgeDeferredApply_before_release (hs : s.inService = false) : exec .edgeDeferredApply s = .next s.applyDirect := by
  change execEdgeDeferredApply s = _
  simp only [execEdgeDeferredApply, hs, Bool.false_eq_true, if_false]

theorem exec_edgeDeferredApply_in_service (hs : s.inService = true) :
    exec .edgeDeferredApply s = .next s.applyDeferred.applyLate.applyPower := by
  change execEdgeDeferredApply s = _
  simp only [execEdgeDeferredApply, hs, if_true]

end DeferredApply

/-! ## The statement -/

/-- Settles O54: each clause is the equation of its case. -/
theorem beatAndEdge : Obligations.BeatAndEdge := by
  unfold Obligations.BeatAndEdge
  refine ⟨?nextBeat, ?emit, ?marker, ?portChange, ?holdover, ?holdLimit, ?length, ?lateness, ?edge, ?deferred⟩
  case nextBeat => exact fun s n => ⟨State.nextBeat_step, State.nextBeat_no_step⟩
  case emit =>
    refine fun s pay => ⟨fun hidle => congrArg _ (State.emitMarker_idle hidle), ?_⟩
    rintro hmaster hunsent rfl t ht
    exact congrArg _ (State.emitMarker_master hmaster hunsent ht)
  case marker =>
    refine fun s t u p arr res x c => ⟨fun hr => exec_beat_not_received hr arr res, fun hr => ?_⟩
    rw [exec_beat_received hr arr res]
    refine ⟨fun hbad => ?_, fun htype hfields => ?_⟩
    · obtain hbad | hbad := hbad <;> simp [hbad]
    · simp only [htype, hfields, Bool.not_false, Bool.and_true, if_true]
      refine ⟨fun hrole => congrArg _ (State.takeMarker_not_follower hrole ..), fun hrole => ⟨fun hlead => ?_, ?_⟩⟩
      · exact congrArg _ (State.takeMarker_short_lead hrole hlead arr res)
      · exact fun hlead hu => congrArg _ (State.takeMarker_valid hrole hlead arr res hu)
  case portChange =>
    intro s
    have hexec : exec .markerPortChange s = .next (if s.role = 0 then s.changePort else s) := rfl
    rw [hexec]
    refine ⟨?_, fun p h hrole hbest => ⟨fun hchosen huse => ?_, fun hlost t ht => ?_⟩⟩
    · rintro (hrole | hnone)
      · rw [if_neg hrole]
      · rw [State.changePort_unheard hnone, ite_self]
    · rw [State.changePort_kept_port hchosen huse, ite_self]
    · rw [if_pos hrole, State.changePort_best hbest hlost ht]
  case holdover =>
    refine fun s t => ⟨fun hstays => congrArg _ (State.checkHoldover_stays hstays), fun hrole hlock hquiet ht u hu => ?_⟩
    exact congrArg _ (State.checkHoldover_enters hrole hlock hquiet ht hu)
  case holdLimit =>
    refine fun s t => ⟨fun hin => congrArg _ (State.checkHoldLimit_within hin), fun hlock hlong hunsent ht => ?_⟩
    exact congrArg _ (State.checkHoldLimit_passed hlock hlong hunsent ht)
  case length =>
    rintro s t _ len rfl hlen
    refine ⟨fun hwaits => congrArg _ (State.applyLength_waits hwaits), fun hpending hdue ht => ?_⟩
    exact congrArg _ (State.applyLength_due hpending hdue hlen ht)
  case lateness =>
    refine fun s t n => ⟨fun hnot => congrArg _ (State.lateEvent_not_due hnot), fun hdue ht => ⟨fun q hq => ?_, ?_⟩⟩
    · exact congrArg _ (State.lateEvent_owned hdue ht hq)
    · exact fun hnone => congrArg _ (State.lateEvent_unowned hdue ht hnone)
  case edge =>
    refine fun s e => ⟨exec_beatEdge_no_rails, exec_beatEdge_before_release, ?_⟩
    intro hrails hs s0 s1 s2 s3 s4 s5 s6 h0 h1 h2 h3 h4 h5
    have hresets : s5 = s.edgeToResets e := by
      rw [h5, h4, h3, h2, h1, h0]
      rfl
    rw [exec_beatEdge_in_service hrails hs, State.edge_eq, ← hresets]
    refine ⟨fun hout => by rw [hout]; rfl, ?_⟩
    rintro hin rfl
    rw [hin]
    rfl
  case deferred =>
    refine fun s t u => ⟨exec_edgeDeferredApply_before_release, ?_⟩
    rintro hs rfl rfl
    exact exec_edgeDeferredApply_in_service hs

end Sys2Proof.Machine
end

section
/-! SUPPORT. What the issue of a slot leaves as it was (R40, R63 to R65, R71, R75): a frame lemma for each operation that an issue
may come to, from the registers up to the closing of a bundle; and the statement that they settle. -/

namespace Sys2Proof.Machine

open Sys2Proof

/-- The fields of a package that the issue of a slot leaves as they are. -/
structure Untouched where
  mem : Tab Byte
  poison : Tab Bool
  pending : List Instr
  keys : Tab (List Byte)
  ledgers : Tab Ledger
  shared : List SharedMap
  wipes : List Wipe
  t2ctr : Tab Nat
  tlbs : Tab (List Leaf)
  ctlbs : Tab (List Leaf)
  ptrs : Tab (List Ptr)
  faults : List OpenFault
  invals : List Inval
  ats : Tab Ats
  sieve : Tab SieveTbl
  cfgs : Tab FnCfg
  progs : Tab ProgLog
  mobjs : Tab MemObj
  slots : Tab SeqSlot
  changes : List Change

/-- Those fields of a state. An operation's frame is one equation between them. -/
def State.untouched (s : State) : Untouched :=
  ⟨s.mem, s.poison, s.pending, s.keys, s.ledgers, s.shared, s.wipes, s.t2ctr, s.tlbs, s.ctlbs, s.ptrs, s.faults, s.invals,
    s.ats, s.sieve, s.cfgs, s.progs, s.mobjs, s.slots, s.changes⟩

/-- Every other field may change. The proof stands in parentheses so that `simp` rewrites with it: as a definitional step it
would leave whole states for the kernel to compare. -/
@[simp] theorem State.untouched_mk (s : State) (free : Nat) (out : List Out) (deferred : List Deferred) (regs : Tab U64)
    (cnts : Tab Byte) (bad : List Nat) (dead : List Nat) (chunks : List HeldChunk) (verified : List Nat) (contribs : List
    Contrib) (owing : List Owing) (nextOwed : Nat) (reads : List FarRead) (mended : List Nat) (hot : Tab Nat) (t2base : Tab
    Nat) (t2node : Tab Nat) (t2cache : Tab (List Nat)) (rollWant : Bool) (nextFault : Nat) (nextInval : Nat) (beat : BeatSt)
    (cores : Tab Core) (queues : Tab Queue) (fetched : Nat) (turn : Nat) (launches : List Launch) (nextLaunch : Nat) (gruns
    : List GRun) (ctxs : Tab Ctx) (graphs : Tab Graph) (latches : Tab Latch) (destroys : List Destroy) (log : ErrLog) (ports
    : Tab Port) (sigs : List SigOut) (nextSig : Nat) (inbound : List Inbound) (nextHandle : Nat) (failed : List Nat)
    (awaitSpare : List Nat) (halted : Bool) (kmc : Kmc) (flood : List Flood) (alarmId : Nat) (bellId : Nat) (resets : List
    Reset) (nextReset : Nat) (aborts : List Abort) (fenced : List FencedHold) (parishEnd : Bool) (bells : List Bell) (pview
    : Option Nat) (snap : Snap) (hints : List Hint) (dump : DumpSt) (sec : Sec) (pow : Pow) (rots : Tab Rot) (boot : Boot)
    (mod : Module) (bridge : Nat) :
    (State.mk s.pending free out deferred regs cnts s.mem s.poison bad dead chunks s.ledgers s.shared verified s.wipes
      contribs owing nextOwed reads mended hot s.t2ctr t2base t2node t2cache rollWant s.tlbs s.ctlbs s.ptrs s.faults
      nextFault s.invals nextInval s.ats s.sieve s.cfgs s.progs beat cores queues fetched turn launches nextLaunch
      gruns ctxs s.mobjs graphs latches s.slots destroys log ports sigs nextSig inbound s.changes nextHandle failed
      awaitSpare halted kmc flood alarmId bellId resets nextReset aborts fenced parishEnd s.keys bells pview snap
      hints dump sec pow rots boot mod bridge).untouched = s.untouched := (rfl)

@[simp] theorem State.untouched_ite {c : Prop} [Decidable c] (a b : State) :
    (if c then a else b).untouched = if c then a.untouched else b.untouched :=
  apply_ite State.untouched c a b

theorem State.untouched_foldl {α : Type} {f : State → α → State} (hf : ∀ s x, (f s x).untouched = s.untouched) (s : State)
    (l : List α) : (l.foldl f s).untouched = s.untouched := by
  induction l generalizing s with
  | nil => rfl
  | cons x l ih => rw [List.foldl_cons, ih, hf]

section Frames

variable (s : State)

/-! ## Registers, messages and the log -/

@[simp] theorem State.wr_untouched (fn off : Nat) (v : U64) : (s.wr fn off v).untouched = s.untouched := (rfl)
@[simp] theorem State.setFld_untouched (fn i : Nat) (f : Fld) (v : Nat) : (s.setFld fn i f v).untouched = s.untouched := (rfl)
@[simp] theorem State.satAdd_untouched (fn i : Nat) (f : Fld) (n : Nat) : (s.satAdd fn i f n).untouched = s.untouched := (rfl)
@[simp] theorem State.modAdd_untouched (fn i : Nat) (f : Fld) (n : Nat) : (s.modAdd fn i f n).untouched = s.untouched := (rfl)
@[simp] theorem State.raise_untouched (fn i : Nat) (f : Fld) : (s.raise fn i f).untouched = s.untouched := (rfl)
@[simp] theorem State.send_untouched (o : Out) : (s.send o).untouched = s.untouched := (rfl)
@[simp] theorem State.draw_untouched : s.draw.2.untouched = s.untouched := (rfl)

@[simp] theorem State.msi_untouched (fn vec : Nat) : (s.msi fn vec).untouched = s.untouched := by simp [State.msi]

@[simp] theorem State.intc_untouched (fn b : Nat) : (s.intc fn b).untouched = s.untouched := by simp [State.intc]

@[simp] theorem State.postErr_untouched (fn : Nat) (r : ErrRec) : (s.postErr fn r).untouched = s.untouched := by
  simp [State.postErr]

@[simp] theorem State.logErr_untouched (r : ErrRec) : (s.logErr r).untouched = s.untouched := by
  simp only [State.logErr, State.untouched_ite]
  cases r.part <;> simp

@[simp] theorem State.logCE_untouched (source cause unit : Nat) (part : Option Nat) :
    (s.logCE source cause unit part).untouched = s.untouched := by simp [State.logCE]

/-! ## Cells, alarms and bells -/

@[simp] theorem State.setPort_untouched (p : Nat) (v : Port) : (s.setPort p v).untouched = s.untouched := (rfl)
@[simp] theorem State.transmit_untouched (p : Nat) (c : Cell) : (s.transmit p c).untouched = s.untouched := (rfl)
@[simp] theorem State.recordFlood_untouched (typ origin id : Nat) : (s.recordFlood typ origin id).untouched = s.untouched := by
  simp [State.recordFlood]

@[simp] theorem State.sendHeld_untouched (p : Nat) (c : Cell) (held : Option (Nat × Nat)) :
    (s.sendHeld p c held).untouched = s.untouched := by simp [State.sendHeld]

@[simp] theorem State.sendCell_untouched (p : Nat) (c : Cell) : (s.sendCell p c).untouched = s.untouched := by
  simp [State.sendCell]

@[simp] theorem State.sendAll_untouched (ps : List Nat) (c : Cell) : (s.sendAll ps c).untouched = s.untouched :=
  State.untouched_foldl (fun s p => s.sendCell_untouched p c) s ps

@[simp] theorem State.recordAbort_untouched (q : Nat) : (s.recordAbort q).untouched = s.untouched := by
  simp [State.recordAbort]

@[simp] theorem State.alarmAct_untouched (scope cause vd : Nat) (except : Option Nat) :
    (s.alarmAct scope cause vd except).untouched = s.untouched := by
  have hintc (l : List Nat) (t : State) : (l.foldl (fun t q => t.intc (vf q) 9) t).untouched = t.untouched :=
    State.untouched_foldl (fun t q => t.intc_untouched (vf q) 9) t l
  have habort (l : List Nat) (t : State) : (l.foldl State.recordAbort t).untouched = t.untouched :=
    State.untouched_foldl State.recordAbort_untouched t l
  simp [State.alarmAct, hintc, habort]

@[simp] theorem State.raiseAlarm_untouched (scope cause vd : Nat) (part : Option Nat) (dom : Nat) :
    (s.raiseAlarm scope cause vd part dom).untouched = s.untouched := by
  unfold State.raiseAlarm
  dsimp only
  rw [State.alarmAct_untouched, State.sendAll_untouched, State.untouched_mk, State.recordFlood_untouched]
  cases part
  · exact s.draw_untouched
  · rfl

@[simp] theorem State.vdAlarm_untouched (vd q cause dom : Nat) : (s.vdAlarm vd q cause dom).untouched = s.untouched := by
  simp [State.vdAlarm]

@[simp] theorem State.partAlarm_untouched (q cause dom : Nat) : (s.partAlarm q cause dom).untouched = s.untouched := by
  simp [State.partAlarm]

@[simp] theorem State.decideReset_untouched (domain target : Nat) (dump error : Bool) (alarm : Nat) :
    (s.decideReset domain target dump error alarm).untouched = s.untouched := by
  have halarm (d : Nat) (l : List Nat) (t : State) : (l.foldl (fun t q => t.partAlarm q alarm d) t).untouched = t.untouched :=
    State.untouched_foldl (fun t q => t.partAlarm_untouched q alarm d) t l
  simp [State.decideReset, halarm]

@[simp] theorem State.snapFlag_untouched (f : Fld) : (s.snapFlag f).untouched = s.untouched :=
  State.untouched_foldl (fun s fn => s.raise_untouched fn 0 f) s _

@[simp] theorem State.addBell_untouched (origin target : Nat) : (s.addBell origin target).untouched = s.untouched := by
  simp [State.addBell]

@[simp] theorem State.sendBell_untouched (scope vd target : Nat) : (s.sendBell scope vd target).untouched = s.untouched := by
  simp [State.sendBell]

@[simp] theorem State.partBell_untouched (fn : Nat) (onVd : Bool) (target : Nat) :
    (s.partBell fn onVd target).untouched = s.untouched := by simp [State.partBell]

@[simp] theorem State.hint_untouched (isLight : Bool) (lead level : Nat) : (s.hint isLight lead level).untouched = s.untouched :=
  by simp [State.hint]

/-! ## Latches and completions -/

@[simp] theorem State.setQueue_untouched (fn q : Nat) (v : Queue) : (s.setQueue fn q v).untouched = s.untouched := (rfl)

@[simp] theorem State.updCtx_untouched (fn c : Nat) (f : Ctx → Ctx) : (s.updCtx fn c f).untouched = s.untouched := by
  unfold State.updCtx
  split <;> rfl

@[simp] theorem State.signalLatch_untouched (fn l : Nat) (x : U64) : (s.signalLatch fn l x).2.untouched = s.untouched := by
  unfold State.signalLatch
  split <;> simp [apply_ite Prod.snd]

@[simp] theorem State.sendSignal_untouched (fn member l : Nat) (x : U64) (lc : Bool) (kind q sq : Nat) (g : Option Nat) :
    (s.sendSignal fn member l x lc kind q sq g).2.untouched = s.untouched := by
  dsimp only [State.sendSignal]
  cases Option.filter _ (if fn = 0 then none else s.routeToMember (fn - 1) member) <;> simp

@[simp] theorem State.faultPolicy_untouched (fn ctx : Nat) : (s.faultPolicy fn ctx).untouched = s.untouched := by
  unfold State.faultPolicy
  split
  · exact s.decideReset_untouched ..
  · split <;> simp

@[simp] theorem State.haltQueue_untouched (fn q : Nat) : (s.haltQueue fn q).untouched = s.untouched := by
  simp [State.haltQueue]

@[simp] theorem State.postRecord_untouched (fn q : Nat) (r : QRec) (status detail : Nat) (halted : Bool) :
    (s.postRecord fn q r status detail halted).untouched = s.untouched := by simp [State.postRecord]

@[simp] theorem State.completionLatch_untouched (fn q sq : Nat) (w : BitVec 512) (status : Nat) :
    (s.completionLatch fn q sq w status).untouched = s.untouched := by simp [State.completionLatch]

@[simp] theorem State.completeRec_untouched (fn q sq status detail : Nat) (force policy : Bool) :
    (s.completeRec fn q sq status detail force policy).untouched = s.untouched := by
  unfold State.completeRec
  split <;> simp

@[simp] theorem State.releaseVersion_untouched (fn graph ver : Nat) : (s.releaseVersion fn graph ver).untouched = s.untouched := by
  unfold State.releaseVersion
  split <;> rfl

@[simp] theorem State.completeGraph_untouched (g : GRun) (i status : Nat) :
    (s.completeGraph g i status).untouched = s.untouched := by simp [State.completeGraph]

@[simp] theorem State.finish1_untouched (fn q sq : Nat) (g : Option Nat) (status detail : Nat) (policy : Bool) :
    (s.finish1 fn q sq g status detail policy).untouched = s.untouched := by
  unfold State.finish1
  repeat' split
  all_goals simp

theorem State.settle_untouched (n : Nat) : (s.settle n).untouched = s.untouched := by
  induction n generalizing s with
  | zero => rfl
  | succ n ih =>
    rw [State.settle]
    split
    · rfl
    · rw [ih, State.finish1_untouched]

@[simp] theorem State.settled_untouched : s.settled.untouched = s.untouched := s.settle_untouched _

@[simp] theorem State.finish_untouched (fn q sq : Nat) (g : Option Nat) (status detail : Nat) (policy : Bool) :
    (s.finish fn q sq g status detail policy).untouched = s.untouched := by simp [State.finish]

@[simp] theorem State.signal_untouched (fn l : Nat) (x : U64) : (s.signal fn l x).2.untouched = s.untouched := by
  simp [State.signal]

/-! ## Cores and exceptions -/

@[simp] theorem State.setCore_untouched (n : Nat) (c : Core) : (s.setCore n c).untouched = s.untouched := (rfl)
@[simp] theorem State.updLaunch_untouched (id : Nat) (f : Launch → Launch) : (s.updLaunch id f).untouched = s.untouched := (rfl)

@[simp] theorem State.recordExc_untouched (n : Nat) (precise : Bool) (bundle : Nat) (e : ExcSrc) :
    (s.recordExc n precise bundle e).untouched = s.untouched := by simp [State.recordExc]

@[simp] theorem State.finishLaunch_untouched (l : Launch) (status detail : Nat) (policy : Bool) :
    (s.finishLaunch l status detail policy).untouched = s.untouched := by simp [State.finishLaunch]

@[simp] theorem State.failLaunch_untouched (n status kind unit va tag : Nat) (logIt : Bool) :
    (s.failLaunch n status kind unit va tag logIt).untouched = s.untouched := by
  unfold State.failLaunch
  split <;> simp

@[simp] theorem State.recordAll_untouched (n bundle : Nat) (es : List ExcSrc) :
    (s.recordAll n bundle es).untouched = s.untouched :=
  State.untouched_foldl (fun s e => s.recordExc_untouched n true bundle e) s es

@[simp] theorem State.preciseAt_untouched (n bundle : Nat) (e : ExcSrc) (es : List ExcSrc) :
    (s.preciseAt n bundle e es).untouched = s.untouched := by simp [State.preciseAt]

@[simp] theorem State.preciseExc_untouched (n : Nat) (e : ExcSrc) (es : List ExcSrc) :
    (s.preciseExc n e es).untouched = s.untouched := by simp [State.preciseExc]

/-! ## Issue -/

@[simp] theorem State.startEngines_untouched (n : Nat) : (s.startEngines n).untouched = s.untouched := by
  simp only [State.startEngines]
  split <;> simp

@[simp] theorem State.sendPosted_untouched (n : Nat) (g : PostedSig) : (s.sendPosted n g).untouched = s.untouched := by
  simp [State.sendPosted]

@[simp] theorem State.sendSigs_untouched (n : Nat) : (s.sendSigs n).untouched = s.untouched :=
  State.untouched_foldl (fun s g => s.sendPosted_untouched n g) _ _

@[simp] theorem State.retireBeatEnd_untouched (n : Nat) : (s.retireBeatEnd n).untouched = s.untouched := by
  simp [State.retireBeatEnd]

@[simp] theorem State.retireEnd_untouched (n : Nat) : (s.retireEnd n).untouched = s.untouched := by
  simp only [State.retireEnd]
  split
  · split <;> simp
  · rfl

@[simp] theorem State.pump_untouched (n : Nat) : (s.pump n).untouched = s.untouched := by simp [State.pump]

variable {after : State → State} (hafter : ∀ t, (after t).untouched = t.untouched)
include hafter

theorem State.closeBundle_untouched (n : Nat) (b : OpenBundle) : (s.closeBundle n b after).untouched = s.untouched := by
  simp only [State.closeBundle]
  split
  · rfl
  · split <;> simp [hafter]

theorem State.slotIn_untouched (x : Slot) (cls : Nat) (b : OpenBundle) : (s.slotIn x cls b after).untouched = s.untouched := by
  simp [State.slotIn, State.closeBundle_untouched s hafter]

/-- Whatever a slot does on its core, its issue touches no field of the rest, where its effect beside the core does not. -/
theorem State.issueWith_untouched (x : Slot) (q : SlotReq) (ready : CoreState → Bool) (run : CoreState → CoreState → SlotRun) :
    (s.issueWith x q ready run after).untouched = s.untouched := by
  have hid (b : OpenBundle) : (s.slotIn x q.cls b id).untouched = s.untouched := s.slotIn_untouched (fun _ => rfl) x q.cls b
  simp [State.issueWith, State.slotIn_untouched s hafter, hid]

end Frames

/-- A slot that acts on its core alone. -/
theorem State.issue_untouched (s : State) (x : Slot) (q : SlotReq) (ready : CoreState → Bool)
    (run : CoreState → CoreState → SlotRun) : (s.issue x q ready run).untouched = s.untouched :=
  s.issueWith_untouched (fun _ => rfl) x q ready run

/-- Every slot instruction is an issue: with an effect beside its core for the hints and the bell, on the state after a draw
for LD, and otherwise on its core alone. -/
theorem exec_slot_untouched {c : Instr} {x : Slot} (h : slotOf c = some x) (s : State) :
    ∃ t, exec c s = .next t ∧ t.untouched = s.untouched := by
  cases c with
  | phaseHeavy y | phaseLight y => exact ⟨_, rfl, s.issueWith_untouched (fun t => t.hint_untouched ..) ..⟩
  | snapBell y => exact ⟨_, rfl, s.issueWith_untouched (fun t => t.partBell_untouched ..) ..⟩
  | ld y => exact ⟨_, rfl, (State.issue_untouched s.draw.2 ..).trans s.draw_untouched⟩
  | add y | sub y | mul y | mulhu y | div y | divu y | rem y | remu y | and y | or y | xor y | shl y | shr y | sra y | min y
  | max y | addi y | andi y | ori y | xori y | shli y | shri y | srai y | li y | lih y | cmp y | cmpi y | pset y | pmov y
  | st y | br y | bri y | call y | loop y | loopI y | endProg y | beatEnd y | rdsr y _ | tdSet y | tdGet y | tdFld y
  | waitTag y | engWait y | latchSig y | acsinLatchWait y | latchTest y | seqGet y | seqPage y | mma y | accDrain y
  | accLoad y | accZero y | accScale y | vld y | vst y | vadd y | vsub y | vmul y | vfma y | vmax y | vmin y | vand y | vor y
  | vxor y | vshl y | vshr y | vsra y | vabs y | vneg y | vcmp y | vsel y | vmov y | vbcast y | viota y | vext y | vred y
  | vexp2 y | vlog2 y | vrcp y | vrsq y | vtanh y | vcvt y | vmx y | vidx y | move y | moveD y | gather y | scatter y
  | moveAdd y | moveMax y | moveMin y | atomSwap y | atomCas y | atomClaim y => exact ⟨_, rfl, s.issue_untouched ..⟩
  | _ => nomatch h

/-- Settles O57: every slot instruction is an issue, and no issue touches a field of the frame. -/
theorem slotFrame : Obligations.SlotFrame := by
  unfold Obligations.SlotFrame
  intro c x s h
  obtain ⟨t, hexec, hsame⟩ := exec_slot_untouched h s
  exact ⟨t, hexec, by simpa only [State.untouched, Untouched.mk.injEq] using hsame⟩

end Sys2Proof.Machine
end

section
/-! SUPPORT. What the start of a queue's record does where it does not open, is not in form or cannot be served (R53, R340, R342,
R345, R346); and the statement that they settle. -/

namespace Sys2Proof.Machine

open Sys2Proof

section Starts

variable {s : State} {fn q : Nat} {r : QRec} {w : BitVec 512} {ext : Option (List Byte)}

/-- R342: a record that does not open is a SEAL_FAILURE, and so is one that is marked so as it was fetched. -/
theorem State.startRec_unopened (h : r.sealBad = true ∨ s.openRec fn q r.sq r.w = none) :
    s.startRec fn q r ext = s.sealFailed fn q r.sq := by
  have hopen : (if r.sealBad then none else s.openRec fn q r.sq r.w) = none := by
    rcases h with hbad | hnone
    · rw [if_pos hbad]
    · rw [hnone, ite_self]
  simp only [State.startRec, hopen]

/-- A record that opens: its bytes, its form and its command are checked in this order. -/
theorem State.startRec_opened (hseal : r.sealBad = false) (hopen : s.openRec fn q r.sq r.w = some w) :
    s.startRec fn q r ext =
      if r.badRead then (startedRec s fn q r w).failed1 (cmdOf fn q r w) 0x14 0x04 0
      else if recWf w then (startedRec s fn q r w).runCmd (cmdOf fn q r w) 0 ext
      else (startedRec s fn q r w).done (cmdOf fn q r w) 0x19 := by
  simp only [State.startRec, hseal, hopen, Bool.false_eq_true, if_false]
  rfl

end Starts

/-- A command whose check fails completes with the check's status. -/
theorem State.runCmd_refused {s : State} {k : Cmd} {st : Nat} (hcheck : s.cmdCheck k = st) (hst : st ≠ 0) (va : Nat)
    (ext : Option (List Byte)) : s.runCmd k va ext = s.done k st := by
  unfold State.runCmd
  rw [hcheck]
  split
  · contradiction
  · rfl

/-- Each command of a queue is the next start of its opcode. -/
theorem exec_queueCommand {fn q : Nat} {ext : List Byte} {p : Nat × Instr} (hp : p ∈ queueCommands fn q ext) (s : State) :
    ∃ e, exec p.2 s = .next (s.command fn q p.1 e) := by
  simp only [queueCommands, List.mem_cons, List.not_mem_nil, or_false] at hp
  rcases hp with rfl | rfl | rfl | rfl | rfl | rfl | rfl | rfl | rfl | rfl | rfl | rfl | rfl | rfl | rfl | rfl | rfl |
    rfl | rfl | rfl | rfl | rfl | rfl | rfl | rfl | rfl <;> exact ⟨_, rfl⟩

/-- R345: a record that may start is the one that the command of its opcode starts. -/
theorem State.command_startable {s : State} {fn q op : Nat} {r : QRec} (hstart : s.startable fn q = some r)
    (hop : recOp r.w = op) (ext : List Byte) : s.command fn q op ext = s.startRec fn q r (some ext) := by
  have hrec : (s.startable fn q).filter (fun r => recOp r.w == op) = some r := by
    simp [hstart, Option.filter, hop]
  rw [State.command, hrec]

/-- Settles O27: the command starts the record, and each clause is one branch of the start. -/
theorem commandChecks : Obligations.CommandChecks := by
  unfold Obligations.CommandChecks
  intro s fn q ext r hstart p hp hop
  obtain ⟨e, hexec⟩ := exec_queueCommand hp s
  rw [State.command_startable hstart hop] at hexec
  refine ⟨fun hclosed => by rw [hexec, State.startRec_unopened hclosed], fun w hseal hopen => ?_⟩
  rw [hexec, State.startRec_opened hseal hopen]
  refine ⟨fun hbad => ?_, fun hbad hwf => ?_, fun st hbad hwf hcheck hst => ?_⟩
  · rw [if_pos hbad]
  · simp only [hbad, hwf, Bool.false_eq_true, if_false]
  · simp only [hbad, hwf, Bool.false_eq_true, if_false, if_true, State.runCmd_refused hcheck hst]

end Sys2Proof.Machine
end

section
/-! SUPPORT. What errors do, and how the log and dumps are written (R53, R55, R59, R422, R426, R434 to R440): one equation per case;
and the statement that they settle. -/

namespace Sys2Proof.Machine

open Sys2Proof

/-! ## Dumps that fall due (R438) -/

/-- A reset that is decided, and from whose shuttering on the dump of a device error is captured. -/
def Reset.bearsDump (r : Reset) : Bool := r.phase == 0 && r.dump && decide (7 ≤ r.domain)

theorem Reset.bearsDump_iff (r : Reset) : r.bearsDump = true ↔ r.phase = 0 ∧ r.dump = true ∧ 7 ≤ r.domain := by
  simp [Reset.bearsDump, and_assoc]

section DueDump

variable {s : State} {cause : Option (Nat × Nat)}

theorem State.dueDump_with_reset (h : ∃ r ∈ s.resets, r.phase = 0 ∧ r.dump = true ∧ 7 ≤ r.domain) :
    s.dueDump cause = { s with resets := s.resets.map fun r => if r.bearsDump then { r with cause := cause } else r } := by
  obtain ⟨r, hmem, hr⟩ := h
  exact if_pos (List.any_eq_true.mpr ⟨r, hmem, (Reset.bearsDump_iff r).mpr hr⟩)

theorem State.dueDump_without_reset (h : ∀ r ∈ s.resets, r.phase = 0 → r.dump = true → r.domain < 7) :
    s.dueDump cause = { s with dump := { s.dump with due := some cause } } := by
  refine if_neg fun hany => ?_
  obtain ⟨r, hmem, hr⟩ := List.any_eq_true.mp hany
  obtain ⟨hphase, hdump, hdomain⟩ := (Reset.bearsDump_iff r).mp hr
  exact absurd (h r hmem hphase hdump) (Nat.not_lt.mpr hdomain)

/-- After a dump fell due, a reset that bears one names its cause. -/
theorem Reset.cause_of_due {r x : Reset}
    (hx : (if x.bearsDump then { x with cause := cause } else x) = r)
    (hphase : r.phase = 0) (hdump : r.dump = true) (hdomain : 7 ≤ r.domain) : r.cause = cause := by
  split at hx
  · rw [← hx]
  · next hnot =>
    subst hx
    exact absurd ((Reset.bearsDump_iff x).mpr ⟨hphase, hdump, hdomain⟩) hnot

@[simp] theorem State.dueDump_deferred : (s.dueDump cause).deferred = s.deferred := by
  unfold State.dueDump
  dsimp only
  split <;> rfl

end DueDump

/-! ## Fatal errors and aborts (R435, R439) -/

/-- The state after a fatal error's record and its alarms. -/
def State.fatalAlarmed (t : State) : State :=
  ((List.range 32).filter fun q => t.vdOf q != 0).foldl (fun w q => w.raiseAlarm 1 3 (w.vdOf q) none
    (if t.fld 0 0 Reg.DCTL_RST_CFG.AUTO_WARM = 1 then 7 else 0)) t

theorem State.fatal_auto {s t : State} {source unit : Nat} (ht : t = s.logErr { ErrRec.of 3 source with unit := unit })
    (hauto : t.fld 0 0 Reg.DCTL_RST_CFG.AUTO_WARM = 1) :
    s.fatal source unit =
      (t.fatalAlarmed.decideReset 7 0 true true 1).dueDump (t.log.recs.getLast?.map fun r => (r.cls, r.seq)) := by
  subst ht
  simp [State.fatal, State.fatalAlarmed, hauto]

theorem State.fatal_halting {s t : State} {source unit : Nat} (ht : t = s.logErr { ErrRec.of 3 source with unit := unit })
    (hauto : t.fld 0 0 Reg.DCTL_RST_CFG.AUTO_WARM ≠ 1) {d : State}
    (hd : d = t.fatalAlarmed.dueDump (t.log.recs.getLast?.map fun r => (r.cls, r.seq))) :
    s.fatal source unit = { d with deferred := d.deferred ++ [.halt] } := by
  subst ht hd
  simp [State.fatal, State.fatalAlarmed, hauto]

theorem exec_alarmAbort_due {s : State} {q : Nat} {a : Abort}
    (h : s.aborts.find? (fun a => a.part == q && !a.started && decide (a.beat < s.tick)) = some a) :
    exec (.alarmAbort q) s = .next (s.startAbort a) := by
  change execAlarmAbort q s = _
  simp only [execAlarmAbort, h]

theorem exec_alarmAbort_none {s : State} {q : Nat} (h : ∀ a ∈ s.aborts, a.part = q → a.started = false → s.tick ≤ a.beat) :
    exec (.alarmAbort q) s = .next s := by
  have hnone : s.aborts.find? (fun a => a.part == q && !a.started && decide (a.beat < s.tick)) = none := by
    simpa [List.find?_eq_none] using h
  change execAlarmAbort q s = _
  simp only [execAlarmAbort, hnone]

/-! ## Cores, the bridge and packets -/

section Errors

variable {s : State}

theorem exec_networkPacketError (d : Nat) (e : PacketError) : exec (.networkPacketError d e) s = execNetworkPacketError d e s := rfl

theorem exec_coreUncorrectedError_fails {n : Nat} (hoff : s.fld 0 n Reg.IDC_CORE_MAP.STATE ≠ 0)
    (hfailed : s.fld 0 n Reg.IDC_CORE_MAP.STATE ≠ 2) (hnew : n ∉ s.failed) :
    exec (.coreUncorrectedError n) s =
      .next (({ s with failed := s.failed ++ [n] } : State).decideReset 2 n false false 0) := by
  have hnew' : ¬ s.failed.contains n = true := by simpa using hnew
  exact congrArg _ (if_neg (by tauto))

theorem exec_coreUncorrectedError_ignored {n : Nat} (h : s.fld 0 n Reg.IDC_CORE_MAP.STATE = 0 ∨
    s.fld 0 n Reg.IDC_CORE_MAP.STATE = 2 ∨ n ∈ s.failed) : exec (.coreUncorrectedError n) s = .next s :=
  congrArg _ (if_pos (by simpa using h))

/-- R55: four failed lanes are replaced by spares, and the fifth halves the rate, with a CE of UNIT 0 (log 63). -/
theorem exec_bridgeLaneFail_halves (h : 4 ≤ s.bridge) (hfull : s.fld 0 0 Reg.IDC_TOPO.BRIDGE_HALF = 0) :
    exec .bridgeLaneFail s = .next (((({ s with bridge := s.bridge + 1 } : State).setFld 0 0 Reg.IDC_TOPO.BRIDGE_HALF 1)).logCE
      0x04 0 0 none) :=
  congrArg _ (if_pos ⟨Nat.lt_succ_of_le h, hfull⟩)

theorem exec_bridgeLaneFail_counts (h : s.bridge < 4 ∨ s.fld 0 0 Reg.IDC_TOPO.BRIDGE_HALF ≠ 0) :
    exec .bridgeLaneFail s = .next { s with bridge := s.bridge + 1 } := by
  refine congrArg _ (if_neg ?_)
  rintro ⟨hfive, hfull⟩
  exact h.elim (fun hfew => absurd hfive (Nat.not_lt.mpr hfew)) (· hfull)

variable {d n tag : Nat} {m : MoveOp}

/-- R53: a payload part that cannot be corrected marks its 64 positions of the move that asked for it (log 73). -/
theorem exec_packet_payload_delivered (h : (s.core n).cur.moves.find? (fun m => m.tag == tag && m.started) = some m)
    (pos : Nat) : exec (.networkPacketError d (.payload n tag pos)) s =
      .next (s.setMove n { m with badAt := m.badAt ++ [(pos / 64 * 64, 64)] }) := by
  simp only [exec_networkPacketError, execNetworkPacketError, h]

theorem exec_packet_payload_unclaimed (h : ∀ m ∈ (s.core n).cur.moves, m.tag = tag → m.started = false) (pos : Nat) :
    exec (.networkPacketError d (.payload n tag pos)) s = .next s := by
  have hnone : (s.core n).cur.moves.find? (fun m => m.tag == tag && m.started) = none := by
    simpa [List.find?_eq_none] using h
  simp only [exec_networkPacketError, execNetworkPacketError, hnone]

theorem exec_packet_walk_fails
    (h : (s.core n).cur.moves.find? (fun m => m.tag == tag && m.started && m.fid.isNone) = some m) (va : Nat) :
    exec (.networkPacketError d (.walk n tag va)) s = .next (s.moveFault n m 8 va true) := by
  simp only [exec_networkPacketError, execNetworkPacketError, h]

theorem exec_packet_preload_fails {p : Preload} {l : Launch} (hp : (s.core n).preload = some p) (hstarted : p.started = true)
    (hdone : p.done = false) (hl : s.launch? p.launch = some l) :
    exec (.networkPacketError d (.preload n)) s = .next (s.preloadFailed n l 8) := by
  simp [exec_networkPacketError, execNetworkPacketError, hp, hstarted, hdone, hl]

theorem exec_packet_record (fn q sq : Nat) : exec (.networkPacketError d (.record fn q sq)) s =
    .next (s.updRec fn q sq fun r => if r.st = 2 then r else { r with badRead := true }) := by
  simp only [exec_networkPacketError, execNetworkPacketError, beq_iff_eq]

end Errors

/-! ## The log on eMMC and crash dumps (R426, R438, R440) -/

theorem State.flushLog_eq {s : State} {new : List LogBlock} (hnew : new = logBlocks (s.keyOf 4) (s.fld 0 0 Reg.DCTL_LIFE.BOOTS)
    (s.log.recs.drop (s.log.recs.length - s.log.unstored)) s.log.block) :
    s.flushLog = { s with
      log := { s.log with
        stored := (s.log.stored ++ new).drop (s.log.stored.length + new.length - 4096)
        unstored := 0, block := s.log.block + new.length } } := by
  subst hnew
  rw [← List.length_append]
  rfl

theorem State.captureDump_none {s : State} (h : s.dump.due = none) : s.captureDump = s := by
  simp only [State.captureDump, h]

theorem State.captureDump_caused {s : State} {cls seq : Nat} (h : s.dump.due = some (some (cls, seq))) {body : List Byte}
    (hbody : body = s.dumpSections) : s.captureDump = { s with
      free := s.free + 12
      dump := { s.dump with
        due := none, erred := false, count := s.dump.count + 1
        staged := some { recSeq := seq, head := s.dumpHeader (64 + body.length + 16) cls seq, body := body } } } := by
  subst hbody
  simp only [State.captureDump, h]
  rfl

theorem State.writeDump_none {s : State} (h : s.dump.staged = none) : s.writeDump = s := by
  simp only [State.writeDump, h]

@[simp] theorem State.setFld_dump (s : State) (fn i : Nat) (f : Fld) (v : Nat) : (s.setFld fn i f v).dump = s.dump := rfl
@[simp] theorem State.raise_dump (s : State) (fn i : Nat) (f : Fld) : (s.raise fn i f).dump = s.dump := rfl

theorem State.writeDump_staged {s t : State} {d : Dump} {i : Nat} (h : s.dump.staged = some d) (hi : i = s.dumpSlot)
    (ht : t = ((((if bitOf (s.fld 0 0 Reg.DCTL_DUMP_STAT.NEW) i then s.raise 0 0 Reg.DCTL_DUMP_STAT.DUMP_LOST else s).setFld 0 0
      ⟨0x1007018, 0, 28 + i, 1⟩ 1).setFld 0 0 ⟨0x1007018, 0, 24 + i, 1⟩ 1).setFld 0 0 Reg.DCTL_DUMP_STAT.LAST_SEQ
        d.recSeq).raise 0 0 Reg.DCTL_DUMP_STAT.DUMP_TAKEN) :
    s.writeDump = { t with dump := { s.dump with
      staged := none, slots := s.dump.slots.put i (d.sealed (t.keyOf 4))
      ages := (s.dump.ages.filter (· != i)) ++ [i] } } := by
  have hdump : t.dump = s.dump := by
    rw [ht, State.raise_dump, State.setFld_dump, State.setFld_dump, State.setFld_dump, apply_ite State.dump, State.raise_dump,
      ite_self]
  subst hi
  rw [← hdump, ht]
  simp only [State.writeDump, h]

/-- Settles O48: each clause is the equation of its case. -/
theorem errorsAndDumps : Obligations.ErrorsAndDumps := by
  unfold Obligations.ErrorsAndDumps
  refine ⟨?ucep, ?fatal, ?due, ?abort, ?core, ?bridge, ?packet, ?flush, ?capture, ?written⟩
  case ucep => exact fun s q src => rfl
  case fatal =>
    rintro s t v src kind ix ht rfl
    exact ⟨fun hauto => congrArg _ (State.fatal_auto ht hauto), fun hauto => congrArg _ (State.fatal_halting ht hauto rfl)⟩
  case due =>
    refine fun s cause => ⟨fun hreset => ?_, State.dueDump_without_reset⟩
    rw [State.dueDump_with_reset hreset]
    refine ⟨rfl, fun r hr => ?_⟩
    obtain ⟨x, -, hx⟩ := List.mem_map.mp hr
    exact Reset.cause_of_due hx
  case abort =>
    refine fun s q => ⟨fun a ha => ?_, exec_alarmAbort_none⟩
    have hpart : a.part = q := by
      have hgoes := List.find?_some ha
      simp only [Bool.and_eq_true, beq_iff_eq] at hgoes
      obtain ⟨⟨hpart, -⟩, -⟩ := hgoes
      exact hpart
    rw [exec_alarmAbort_due ha, ← hpart]
    rfl
  case core => exact fun s n => ⟨exec_coreUncorrectedError_fails, exec_coreUncorrectedError_ignored⟩
  case bridge =>
    rintro s t rfl
    exact ⟨exec_bridgeLaneFail_counts, exec_bridgeLaneFail_halves⟩
  case packet =>
    exact fun s d n tag pos va fn q sq => ⟨rfl, rfl, fun m hm => exec_packet_payload_delivered hm pos,
      fun hnone => exec_packet_payload_unclaimed hnone pos, fun m hm => exec_packet_walk_fails hm va,
      fun p l hp hstarted hdone hl => exec_packet_preload_fails hp hstarted hdone hl, exec_packet_record fn q sq⟩
  case flush => exact fun s new hnew => congrArg Host.Outcome.next (State.flushLog_eq hnew)
  case capture =>
    exact fun s => ⟨fun hnone => congrArg _ (State.captureDump_none hnone),
      fun cls seq hdue body hbody => congrArg _ (State.captureDump_caused hdue hbody)⟩
  case written =>
    exact fun s t i => ⟨fun hnone => congrArg _ (State.writeDump_none hnone),
      fun d hd hi ht => congrArg _ (State.writeDump_staged hd hi ht)⟩

end Sys2Proof.Machine
end

section
/-! SUPPORT. What an S slot and the closing of its bundle do (R62 to R65, R75, R77, R87, R91, R103, R109, R110): the issue of a
slot in form, the order of a bundle's faults; and the statement that they settle. -/

namespace Sys2Proof.Machine

open Sys2Proof

/-! ## Issue of an S slot in form -/

section InForm

variable {s : State} {x : Slot} {ok : Bool} {regs dests : List Nat} {run : CoreState → CoreState → SlotRun}
  {cur : CoreState} {br : Option Nat} (heng : sEng x.f = 0) (hok : ok = true) (h : slotGoes s x 0 regs dests)
include heng hok h

/-- An S slot in form, whose instruction runs, issues with what it gives and closes its bundle. -/
theorem issue_sSlot {ready : CoreState → Bool} (hready : ready (slotBase s x) = true)
    (hrun : run (slotBase s x) (slotCur s x) = .ok (cur, br)) :
    s.issue x (sReq x.f ok regs dests) ready run = afterS s x cur br :=
  issue_afterS rfl h (by simp [sReq, heng, hok]) hready hrun

/-- The same for an instruction that acts beside its core, and never waits. -/
theorem issueWith_sSlot {after : State → State} (hrun : run (slotBase s x) (slotCur s x) = .ok (cur, br)) :
    s.issueWith x (sReq x.f ok regs dests) readyAlways run after = afterWith s x cur br after :=
  issue_afterWith (Or.inr rfl) h (by simp [sReq, heng, hok]) rfl hrun

end InForm

/-! ## The closing of a bundle (R64, R87, R91) -/

section Closing

variable {s : State} {n : Nat} {b : OpenBundle} {after : State → State}

theorem closeBundle_waits (hwait : b.wait = true) :
    s.closeBundle n b after = s.setCore n { s.core n with bundle := none } := by
  simp [State.closeBundle, hwait]

theorem closeBundle_faults {e : ExcSrc} {es : List ExcSrc} (hwait : b.wait = false) (hcur : (s.core n).cur = b.base)
    (horder : b.inOrder = e :: es) : s.closeBundle n b after = s.preciseExc n e es := by
  simp [State.closeBundle, hwait, hcur, horder]

/-- Faults taken slot by slot are those of the slots taken. -/
theorem perm_flatMap_slots (l : List ExcSrc) (n : Nat) :
    ((List.range n).flatMap fun k => l.filter fun e => e.slot == k).Perm (l.filter fun e => decide (e.slot < n)) := by
  induction n with
  | zero => simp
  | succ n ih =>
    have hsplit := List.filter_append_perm (fun e : ExcSrc => decide (e.slot < n)) (l.filter fun e => decide (e.slot < n + 1))
    have hbelow : (l.filter fun e => decide (e.slot < n + 1)).filter (fun e => decide (e.slot < n)) =
        l.filter fun e => decide (e.slot < n) := by
      rw [List.filter_filter]
      exact List.filter_congr fun e _ => by simp; omega
    have hlast : (l.filter fun e => decide (e.slot < n + 1)).filter (fun e => !decide (e.slot < n)) =
        l.filter fun e => e.slot == n := by
      rw [List.filter_filter]
      exact List.filter_congr fun e _ => by rw [Bool.eq_iff_iff]; simp; omega
    rw [hbelow, hlast] at hsplit
    rw [List.range_succ, List.flatMap_append, List.flatMap_singleton]
    exact (ih.append_right _).trans hsplit

/-- R91 records every fault of the bundle. -/
theorem inOrder_perm (hslots : ∀ e ∈ b.faults, e.slot < 4) : b.inOrder.Perm b.faults := by
  have hall : (b.faults.filter fun e => decide (e.slot < 4)) = b.faults :=
    List.filter_eq_self.mpr fun e he => decide_eq_true (hslots e he)
  have hperm := perm_flatMap_slots b.faults 4
  rwa [hall] at hperm

/-- R91 records them in the order of the slots S, M, V, X. -/
theorem inOrder_sorted : b.inOrder.Pairwise fun x y => x.slot ≤ y.slot := by
  refine List.pairwise_flatMap.mpr ⟨fun k _ => ?_, List.pairwise_lt_range.imp fun {i j} hij x hx y hy => ?_⟩
  · refine List.Pairwise.imp_of_mem (R := fun _ _ => True) (fun {x y} hx hy _ => ?_) (List.pairwise_of_forall fun _ _ => trivial)
    simp only [List.mem_filter, beq_iff_eq] at hx hy
    omega
  · simp only [List.mem_filter, beq_iff_eq] at hx hy
    omega

end Closing

/-! ## END and BEAT.END (R75, R77, R103) -/

/-- An S slot that breaks a rule of its form, in a bundle without faults, and whose predicate is ignored: the bundle takes
KIND 0x1 and nothing else. -/
theorem issueWith_refused {s : State} {x : Slot} {q : SlotReq} {ready : CoreState → Bool}
    {run : CoreState → CoreState → SlotRun} {after : State → State} (hop : x.op = .row) (hcls : q.cls = 0)
    (halways : q.always = true) (hok : q.ok = false) (htakes : (s.core x.core).takes 0 = true)
    (hpc : (slotBase s x).pc < (s.core x.core).len) (hwait : (s.core x.core).open.wait = false)
    (hcur : (s.core x.core).cur = slotBase s x) (hfaults : (s.core x.core).open.faults = []) :
    s.issueWith x q ready run after = s.preciseExc x.core { excOf 1 with eng := sEng x.f } [] := by
  have hpc' : ¬ (s.core x.core).len ≤ (s.core x.core).open.base.pc := Nat.not_le.mpr hpc
  have hnop : slotNop x q.always (s.core x.core).open.base.p = false := by simp [slotNop, hop, halways]
  have htake : (s.core x.core).open.take x q ready run =
      ({ (s.core x.core).open with slots := (s.core x.core).open.slots + 2 ^ 0 } : OpenBundle).fault x 0 (excOf 1) := by
    simp [OpenBundle.take, hok, hcls]
  simp only [State.issueWith, hcls, htakes, hpc', hnop, htake, State.slotIn, Bool.not_true, Bool.false_eq_true, if_false,
    bne_self_eq_false, Bool.and_false]
  refine closeBundle_faults ?_ ?_ ?_
  · exact hwait
  · exact hcur
  · simp only [OpenBundle.inOrder, OpenBundle.fault, hfaults]
    rfl

section Ends

variable {s : State} {x : Slot}

theorem endReq_ok (hf : x.f = 0) (hslots : (s.core x.core).open.slots = 0) : (endReq s x).ok = true := by
  simp [endReq, hf, hslots]

theorem endReq_not_ok (h : x.f ≠ 0 ∨ (s.core x.core).open.slots ≠ 0) : (endReq s x).ok = false := by
  simpa only [endReq, Bool.and_eq_false_iff, beq_eq_false_iff_ne] using h

theorem exec_endProg_ends (h : slotGoes s x 0 [] []) (hok : (endReq s x).ok = true) :
    exec (.endProg x) s = .next (afterS s x { slotCur s x with hold := .ended } none) :=
  congrArg Host.Outcome.next (issue_afterS rfl h hok rfl rfl)

theorem exec_beatEnd_holds (h : slotGoes s x 0 [] []) (hok : (endReq s x).ok = true) :
    exec (.beatEnd x) s = .next (afterS s x { slotCur s x with hold := .beatEnd } none) :=
  congrArg Host.Outcome.next (issue_afterS rfl h hok rfl rfl)

end Ends

/-- END and BEAT.END out of form: KIND 0x1, whatever their predicate. -/
theorem exec_ends_refused {s : State} {x : Slot} (hok : (endReq s x).ok = false) (hop : x.op = .row)
    (htakes : (s.core x.core).takes 0 = true) (hpc : (slotBase s x).pc < (s.core x.core).len)
    (hwait : (s.core x.core).open.wait = false) (hcur : (s.core x.core).cur = slotBase s x)
    (hfaults : (s.core x.core).open.faults = []) :
    ∀ i ∈ [Instr.endProg x, .beatEnd x], exec i s = .next (s.preciseExc x.core { excOf 1 with eng := sEng x.f } []) := by
  simp only [List.forall_mem_cons, List.not_mem_nil, false_implies, implies_true, and_true]
  constructor <;> exact congrArg Host.Outcome.next (issueWith_refused hop rfl rfl hok htakes hpc hwait hcur hfaults)

/-! ## Hints and the bell (R109, R110) -/

section Hints

variable {s : State} {x : Slot} (heng : sEng x.f = 0)
include heng

theorem exec_phase_hints (hhigh : opf x.f 47 12 = 0) (hlow : opf x.f 7 2 = 0) (hlead : opf x.f 11 8 ≠ 0)
    (h : slotGoes s x 0 [] []) :
    exec (.phaseHeavy x) s = .next (afterWith s x (slotCur s x) none fun t => t.hint false (opf x.f 11 8) (opf x.f 1 0)) ∧
      exec (.phaseLight x) s = .next (afterWith s x (slotCur s x) none fun t => t.hint true (opf x.f 11 8) (opf x.f 1 0)) := by
  have hok : (opf x.f 47 12 == 0 && opf x.f 7 2 == 0 && opf x.f 11 8 != 0) = true := by simp [hhigh, hlow, hlead]
  exact ⟨congrArg Host.Outcome.next (issueWith_sSlot heng hok h rfl),
    congrArg Host.Outcome.next (issueWith_sSlot heng hok h rfl)⟩

theorem exec_snapBell_rings (hmid : opf x.f 46 38 = 0) (hlow : opf x.f 31 0 = 0) (h : slotGoes s x 0 [opf x.f 37 32] []) :
    exec (.snapBell x) s = .next (afterWith s x (slotCur s x) none fun t =>
      t.partBell (s.coreFn x.core).1 (bitOf x.f.toNat 47) ((slotBase s x).rs (opf x.f 37 32)).toNat) := by
  have hok : (opf x.f 46 38 == 0 && opf x.f 31 0 == 0) = true := by simp [hmid, hlow]
  exact (congrArg Host.Outcome.next (issueWith_sSlot heng hok h rfl)).trans (by simp only [afterWith, slotBase, srA])

end Hints

/-- Settles O5: END and BEAT.END in form hold issue and out of form fault; the hints and the bell act beside the core; a bundle
closes by its wait, by its faults or by issuing. -/
theorem endsHintsBellAndBundles : Obligations.EndsHintsBellAndBundles := by
  unfold Obligations.EndsHintsBellAndBundles
  refine ⟨?ends, ?hints, ?bundles⟩
  case ends =>
    refine fun s x => ⟨fun h hf hslots => ?_, fun hop htakes hpc hwait hcur hfaults hbad => ?_⟩
    · have hok := endReq_ok hf hslots
      exact ⟨exec_endProg_ends h hok, exec_beatEnd_holds h hok⟩
    · have hok := endReq_not_ok hbad
      exact exec_ends_refused hok hop htakes hpc hwait hcur hfaults
  case hints =>
    exact fun s x heng => ⟨exec_phase_hints heng, exec_snapBell_rings heng⟩
  case bundles =>
    refine fun s n b after => ⟨closeBundle_waits, fun hwait hcur hslots hfaults => ?_,
      fun hwait hcur hfaults => closeBundle_issues hwait hfaults hcur⟩
    have hperm := inOrder_perm hslots
    obtain ⟨e, es, horder⟩ := List.exists_cons_of_ne_nil (l := b.inOrder) fun hnil => hfaults (by simpa [hnil] using hperm)
    exact ⟨e, es, closeBundle_faults hwait hcur horder, horder ▸ hperm, horder ▸ inOrder_sorted⟩

end Sys2Proof.Machine
end

section
/-! SUPPORT. What waits, latch instructions and sequence instructions do when they issue (R82 to R86, R106 to R108); and the
statements that they settle. -/

namespace Sys2Proof.Machine

open Sys2Proof

/-! ## Waits and latches (R82 to R84, R106, R107) -/

/-- A latch that is allocated to the context that a core runs is the core's own (R84). -/
theorem State.ownsLatch_of_ctx {s : State} {n l : Nat} {t : Latch} (hlatch : s.latch? (s.coreFn n).1 l = some t)
    (hctx : t.ctx = (s.coreFn n).2.1) : s.ownsLatch n l = true := by
  simp [State.ownsLatch, hlatch, hctx]

section OwnLatch

variable {s : State} {x : Slot} {t : Latch} (heng : sEng x.f = 0) (hhigh : opf x.f 47 44 = 0)
  (hlatch : s.latch? (s.coreFn x.core).1 (latchNo x.f) = some t) (hctx : t.ctx = (s.coreFn x.core).2.1)
include heng hhigh hlatch hctx

/-- LATCH.SIG of an own latch posts the signal for the present place in the order of issue (R82). -/
theorem exec_latchSig_own (hlow : opf x.f 14 0 = 0) (hown : bitOf x.f.toNat 25 = false) (hmember : opf x.f 24 17 = 0)
    (h : slotGoes s x 0 [opf x.f 31 26] []) :
    exec (.latchSig x) s = .next (afterS s x { slotCur s x with
      seq := (slotCur s x).seq + 1
      sigs := (slotCur s x).sigs ++ [⟨(slotBase s x).seq, latchNo x.f, (slotBase s x).rs (opf x.f 31 26), false, 0,
        opf x.f 16 15, s.coreEpoch x.core⟩] } none) := by
  have howns := State.ownsLatch_of_ctx hlatch hctx
  refine congrArg Host.Outcome.next (issue_sSlot heng ?_ h rfl ?_)
  · simp [hhigh, hlow, hmember]
  · simp [hown, howns, hmember]

/-- LATCH.WAIT of an own latch holds issue unless the latch has reached the value (R83). -/
theorem exec_acsinLatchWait_own (hlow : opf x.f 25 0 = 0) (h : slotGoes s x 0 [opf x.f 31 26] []) :
    exec (.acsinLatchWait x) s = .next (afterS s x (if (slotBase s x).rs (opf x.f 31 26) ≤ t.val then slotCur s x else
      { slotCur s x with hold := .latch (latchNo x.f) ((slotBase s x).rs (opf x.f 31 26)) (slotBase s x).pc }) none) := by
  have howns := State.ownsLatch_of_ctx hlatch hctx
  refine congrArg Host.Outcome.next (issue_sSlot heng ?_ h rfl ?_)
  · simp [hhigh, hlow]
  · simp only [howns, hlatch, BitVec.le_def]
    by_cases hreached : ((slotBase s x).rs (opf x.f 31 26)).toNat ≤ t.val.toNat <;> simp [hreached]

/-- LATCH.TEST of an own latch gives PD whether the latch has reached the value (R107). -/
theorem exec_latchTest_own (hlow : opf x.f 22 0 = 0) (h : slotGoes s x 0 [opf x.f 31 26] [dP (opf x.f 25 23)]) :
    exec (.latchTest x) s = .next (afterS s x { slotCur s x with
      p := writeP (slotCur s x).p (opf x.f 25 23) (decide ((slotBase s x).rs (opf x.f 31 26) ≤ t.val)) } none) := by
  have howns := State.ownsLatch_of_ctx hlatch hctx
  refine congrArg Host.Outcome.next (issue_sSlot heng ?_ h rfl ?_)
  · simp [hhigh, hlow]
  · simp [howns, hlatch, BitVec.le_def]

end OwnLatch

/-- LATCH.SIG of a member of the virtual device posts the signal too (R82, R84). -/
theorem exec_latchSig_member {s : State} {x : Slot} (heng : sEng x.f = 0) (hhigh : opf x.f 47 44 = 0)
    (hlow : opf x.f 14 0 = 0) (hremote : bitOf x.f.toNat 25 = true) (hmember : s.memberOk x.core (opf x.f 24 17) = true)
    (h : slotGoes s x 0 [opf x.f 31 26] []) :
    exec (.latchSig x) s = .next (afterS s x { slotCur s x with
      seq := (slotCur s x).seq + 1
      sigs := (slotCur s x).sigs ++ [⟨(slotBase s x).seq, opf x.f 43 32, (slotBase s x).rs (opf x.f 31 26), true,
        opf x.f 24 17, opf x.f 16 15, s.coreEpoch x.core⟩] } none) := by
  refine congrArg Host.Outcome.next (issue_sSlot heng ?_ h rfl ?_)
  · simp [hhigh, hlow, hremote]
  · simp [hremote, hmember, latchNo]

/-- Settles O8: the waits set their hold, and the latch instructions find their latch allowed. -/
theorem waitsAndLatches : Obligations.WaitsAndLatches := by
  unfold Obligations.WaitsAndLatches
  refine fun s x v l t heng => ⟨fun hhigh hlow h => ?_, fun hhigh h => ?_,
    fun hhigh hlow hremote hmember h => exec_latchSig_member heng hhigh hlow hremote hmember h, ?_⟩
  · exact congrArg Host.Outcome.next (issue_sSlot heng (by simp [hhigh, hlow]) h rfl rfl)
  · exact congrArg Host.Outcome.next (issue_sSlot heng (by simp [hhigh]) h rfl rfl)
  · rintro hhigh rfl rfl hlatch hctx
    exact ⟨exec_latchSig_own heng hhigh hlatch hctx, exec_acsinLatchWait_own heng hhigh hlatch hctx,
      exec_latchTest_own heng hhigh hlatch hctx⟩

/-! ## Sequence slots (R85, R86, R108) -/

/-- The forms in which a SEQ instruction names its slot (R108): the number `no`, and the register that it is read from. -/
theorem seqForm_cases {f : BitVec 54} {a no : Nat} {rs : List Nat} {base : CoreState} (hhigh : opf f 46 44 = 0)
    (hform : bitOf f.toNat 47 = false ∧ a = 0 ∧ no = opf f 7 0 ∧ rs = [] ∨
      bitOf f.toNat 47 = true ∧ opf f 7 0 = 0 ∧ no = (base.rs a).toNat % 256 ∧ rs = [a]) :
    seqForm f a = true ∧ seqNo f a base = no ∧ (if bitOf f.toNat 47 then [a] else []) = rs := by
  obtain ⟨hsr, rfl, rfl, rfl⟩ | ⟨hsr, hslot, rfl, rfl⟩ := hform
  · simp [seqForm, seqNo, hhigh, hsr]
  · simp [seqForm, seqNo, hhigh, hsr, hslot]

/-- A slot that a core's block sees bound to the core's context is its own (R85). -/
theorem State.ownSlot_of_bound {s : State} {n i : Nat} {q : SeqSlot} (hseen : s.slotSeen n i = some q)
    (hfn : q.fn = (s.coreFn n).1) (hctx : q.ctx = (s.coreFn n).2.1) : s.ownSlot n i = some q := by
  simp [State.ownSlot, hseen, hfn, hctx]

/-- Settles O9: the slot that the instruction names is the core's own, and its checks pass. -/
theorem sequenceInstructions : Obligations.SequenceInstructions := by
  unfold Obligations.SequenceInstructions
  intro s x q a no rs heng hhigh hform hseen hfn hctx
  obtain ⟨hseq, hno, hregs⟩ := seqForm_cases hhigh hform
  have hown := State.ownSlot_of_bound hseen hfn hctx
  refine ⟨?get, ?page⟩
  case get =>
    rintro rfl hlow h
    rw [← hregs] at h
    refine congrArg Host.Outcome.next (issue_sSlot heng ?_ h rfl ?_)
    · simp [hseq, hlow]
    · simp [hno, hown]
  case page =>
    rintro d is es rfl hlow hbit h rfl his hengq hmoves hready hes htd hfmt hroom
    obtain rfl : is = seqIndices x.f (slotBase s x) := his
    rw [← hregs] at h
    have hunits : ∀ i ∈ seqIndices x.f (slotBase s x), s.seqReady q i = true := fun i hi => (hready i hi).1
    have hin : ((seqIndices x.f (slotBase s x)).any fun i => decide (q.pageCount ≤ i)) = false :=
      List.any_eq_false.mpr fun i hi => by simpa using (hready i hi).2
    refine congrArg Host.Outcome.next (issue_sSlot heng ?_ h ?_ ?_)
    · simp [hseq, hbit, hlow]
    · simpa [hno, hown, and_assoc] using ⟨hengq, hmoves, hunits⟩
    · obtain hfmt | hfmt := hfmt <;> simp [hno, hown, htd, hfmt, hroom.not_gt, hin, hes]

end Sys2Proof.Machine
end

section
/-! SUPPORT. What M slots in form do when they issue (R64, R65, R111 to R116): they join the queue of their matrix engine; and the
statement that they settle. -/

namespace Sys2Proof.Machine

open Sys2Proof

/-- An M slot in form, whose engine has room, issues with what its instruction gives. -/
theorem issue_mSlot {s : State} {x : Slot} {e : Nat} {ok : Bool} {regs dests : List Nat}
    {run : CoreState → CoreState → SlotRun} {cur : CoreState} (hroom : (slotBase s x).engDepth e < 8) (hok : ok = true)
    (h : slotGoes s x 1 regs dests) (hrun : run (slotBase s x) (slotCur s x) = .ok (cur, none)) :
    s.issue x (mReq ok regs dests) (engRoom e) run = afterSlot s x 1 dests cur :=
  issue_afterSlot Nat.one_ne_zero h hok (decide_eq_true hroom) hrun

/-- The banks that ACC and NBM1 name, as destinations of an engine (R115). -/
theorem bankList_dests (f : BitVec 54) (e : Nat) : (bankList f).map (dAcc e) =
    (List.range (opf f 25 24 + 1)).map fun m => 2000 + 4 * e + (opf f 27 26 + m) := by
  simp [bankList, dAcc]

/-- The rows of an MMA that fit the accumulator from its first bank on lie in banks that there are (R112). -/
theorem mma_banks_fit {acc n : Nat} (h : 32 * acc + n ≤ 128) : ¬4 < acc + ceilDiv n 32 := by
  unfold ceilDiv
  omega

section Matrix

variable {s : State} {x : Slot} (hroom : (slotBase s x).engDepth (sEng x.f) < 8)
include hroom

theorem exec_mma_joins {v : U64} (hv : v = (slotBase s x).rs (opf x.f 33 28)) (hhigh : opf x.f 45 44 = 0)
    (hlow : opf x.f 25 0 = 0) {dests : List Nat} (hdests : dests = (List.range 4).filterMap fun k =>
      if opf x.f 27 26 ≤ k then some (2000 + 4 * sEng x.f + k) else none)
    (h : slotGoes s x 1 [opf x.f 33 28] dests)
    (hres : ∀ d ∈ [(slotBase s x).tdv (opf x.f 43 39), (slotBase s x).tdv (opf x.f 38 34)],
      tdOk d = true ∧ 1 ≤ tdFmt d ∧ tdFmt d ≤ 0xC)
    (hunnamed : bits v.toNat 56 8 = 0) (hfit : 32 * opf x.f 27 26 + (bits v.toNat 32 8 + 1) ≤ 128)
    (hmx : fmtMx (tdFmt ((slotBase s x).tdv (opf x.f 43 39))) = true → bitOf x.f.toNat 46 = true) :
    exec (.mma x) s = .next (afterSlot s x 1 dests ((slotCur s x).enqueue (slotBase s x).pc (sEng x.f) 1 x.f
      [(opf x.f 43 39, (slotBase s x).tdv (opf x.f 43 39)), (opf x.f 38 34, (slotBase s x).tdv (opf x.f 38 34))] [v]
      [opf x.f 43 39, opf x.f 38 34] [] none)) := by
  subst hv hdests
  simp only [List.forall_mem_cons, List.not_mem_nil, false_implies, implies_true, and_true] at hres
  obtain ⟨⟨hrOk, hrLow, hrHigh⟩, htOk, htLow, htHigh⟩ := hres
  have hbanks := mma_banks_fit hfit
  refine congrArg Host.Outcome.next (issue_mSlot hroom ?_ h ?_)
  · simp [hhigh, hlow]
  · simpa [mmaFmt, mmaN, hrOk, hrLow, hrHigh, htOk, htLow, htHigh, hunnamed, hbanks] using hmx

section Banks

variable {td : Nat} {v : U64} (htd : td = opf x.f 43 39) (hv : v = (slotBase s x).rs (opf x.f 37 32))
  (hmid : opf x.f 31 28 = 0) (hlow : opf x.f 23 0 = 0) (hok : tdOk ((slotBase s x).tdv td) = true)
  (hlast : opf x.f 27 26 + opf x.f 25 24 ≤ 3)
include htd hv hmid hlow hok hlast

theorem exec_accDrain_joins (h47 : bitOf x.f.toNat 47 = false) (h44 : bitOf x.f.toNat 44 = false)
    (hrnd : opf x.f 46 45 ≠ 3) (hfmt : tdFmt ((slotBase s x).tdv td) ≤ 4) (h : slotGoes s x 1 [opf x.f 37 32] []) :
    exec (.accDrain x) s = .next (afterSlot s x 1 [] ((slotCur s x).enqueue (slotBase s x).pc (sEng x.f) 2 x.f
      [(td, (slotBase s x).tdv td)] [v] [] [td] none)) := by
  subst htd hv
  refine congrArg Host.Outcome.next (issue_mSlot hroom ?_ h ?_)
  · simp [h47, h44, hrnd, hmid, hlow]
  · simp [drainFmt, hok, hfmt, hlast]

theorem exec_accLoad_joins (hhigh : opf x.f 47 44 = 0) (hfmt : tdFmt ((slotBase s x).tdv td) = 0)
    (h : slotGoes s x 1 [opf x.f 37 32] ((bankList x.f).map (dAcc (sEng x.f)))) :
    exec (.accLoad x) s = .next (afterSlot s x 1 ((bankList x.f).map (dAcc (sEng x.f)))
      ((slotCur s x).enqueue (slotBase s x).pc (sEng x.f) 3 x.f [(td, (slotBase s x).tdv td)] [v] [td] [] none)) := by
  subst htd hv
  refine congrArg Host.Outcome.next (issue_mSlot hroom ?_ h ?_)
  · simp [hhigh, hmid, hlow]
  · simp [hok, hfmt, hlast]

theorem exec_accScale_joins (hhigh : opf x.f 46 44 = 0) (h38 : bitOf x.f.toNat 38 = false)
    (hfmt : tdFmt ((slotBase s x).tdv td) = 0)
    (h : slotGoes s x 1 [opf x.f 37 32] ((bankList x.f).map (dAcc (sEng x.f)))) :
    exec (.accScale x) s = .next (afterSlot s x 1 ((bankList x.f).map (dAcc (sEng x.f)))
      ((slotCur s x).enqueue (slotBase s x).pc (sEng x.f) 5 x.f [(td, (slotBase s x).tdv td)] [v] [td] [] none)) := by
  subst htd hv
  refine congrArg Host.Outcome.next (issue_mSlot hroom ?_ h ?_)
  · simp [hhigh, h38, hmid, hlow]
  · simp [hok, hfmt, hlast]

end Banks

end Matrix

/-- Settles O10: each instruction's word is in form, its engine has room, and its descriptors pass. -/
theorem matrixIssue : Obligations.MatrixIssue := by
  unfold Obligations.MatrixIssue
  rintro s x _ _ _ rfl rfl rfl hroom
  refine ⟨?mma, ?banks, ?zero⟩
  case mma =>
    rintro v _ dests hv rfl hhigh hlow hdests h hres hunnamed hfit hmx
    exact exec_mma_joins hroom hv hhigh hlow hdests h hres hunnamed hfit hmx
  case banks =>
    intro v banks hv hmid hlow hok hlast hbanks
    rw [← bankList_dests] at hbanks
    subst hbanks
    exact ⟨exec_accDrain_joins hroom rfl hv hmid hlow hok hlast, exec_accLoad_joins hroom rfl hv hmid hlow hok hlast,
      exec_accScale_joins hroom rfl hv hmid hlow hok hlast⟩
  case zero =>
    rintro banks hhigh rfl h
    exact congrArg Host.Outcome.next (issue_mSlot hroom (by simp [hhigh]) h rfl)

end Sys2Proof.Machine
end

section
/-! SUPPORT. What V slots in form do when they issue (R64, R65, R117 to R122): they join the queue of their vector engine; and the
statement that they settle. -/

namespace Sys2Proof.Machine

open Sys2Proof

/-! ## Words in form (R94, R117, R118) -/

section Forms

variable {f : BitVec 54}

/-- An element type and a rounding mode that are defined. -/
theorem form_types_rnd (het : vET f ∈ vTypes) (hrnd : vRnd f ≠ 3) : (vTypes.contains (vET f) && vRnd f != 3) = true := by
  simp [het, hrnd]

/-- VMUL: INT8 has no products (R118). -/
theorem form_vmul (het : vET f ∈ [0x0, 0x1, 0x2, 0xD]) (hrnd : vRnd f ≠ 3) :
    (vTypes.contains (vET f) && vET f != 0xB && vRnd f != 3) = true := by
  simp only [List.mem_cons, List.not_mem_nil, or_false] at het
  obtain he | he | he | he := het <;> simp [vTypes, he, hrnd]

/-- VFMA: floating types alone. -/
theorem form_vfma (het : vET f ∈ [0x0, 0x1, 0x2]) (hrnd : vRnd f ≠ 3) :
    ((vET f == 0 || vET f == 1 || vET f == 2) && vRnd f != 3) = true := by
  simpa [hrnd, or_assoc] using het

/-- Instructions that use RND in some of their forms. -/
theorem form_types_uses {uses : Bool} (het : vET f ∈ vTypes) (hrnd : uses = true → vRnd f ≠ 3) :
    (vTypes.contains (vET f) && vRndOk f uses) = true := by
  simpa [het, vRndOk, Decidable.imp_iff_not_or] using hrnd

/-- The integer types of the bitwise instructions and the shifts. -/
theorem form_int (het : vET f ∈ [0xB, 0xD]) : (vET f == 0xB || vET f == 0xD) = true := by
  simpa using het

/-- VEXP2, VLOG2, VRCP, VRSQ and VTANH: FP32 and BF16. -/
theorem form_approx (het : vET f ∈ [0x0, 0x1]) (hrnd : vRnd f ≠ 3) :
    ((vET f == 0 || vET f == 1) && vRnd f != 3) = true := by
  simpa [hrnd] using het

/-- The conditions of VCMP that both floating and integer types have (R99, R118). -/
theorem condLane_isSome {c : Nat} (hc : c ∈ [0, 1, 2, 3, 7, 8]) (et a b : Nat) : (condLane et c a b).isSome = true := by
  simp only [List.mem_cons, List.not_mem_nil, or_false] at hc
  obtain rfl | rfl | rfl | rfl | rfl | rfl := hc <;> rfl

/-- Integer types have all nine conditions. -/
theorem condLane_isSome_of_int {et c : Nat} (het : fmtFloat et = false) (hc : c < 9) (a b : Nat) :
    (condLane et c a b).isSome = true := by
  interval_cases c <;> simp [condLane, het]

/-- VCMP. -/
theorem form_vcmp (h : vET f ∈ [0x0, 0x1, 0x2] ∧ vX f 13 10 ∈ [0, 1, 2, 3, 7, 8] ∨ vET f ∈ [0xB, 0xD] ∧ vX f 13 10 < 9)
    (hrnd : vSB f = true → vRnd f ≠ 3) :
    (vTypes.contains (vET f) && vRndOk f (vSB f) && (condLane (vET f) (vX f 13 10) 0 0).isSome) = true := by
  have hsb : vET f ∈ vTypes → (vTypes.contains (vET f) && vRndOk f (vSB f)) = true := fun het => form_types_uses het hrnd
  obtain ⟨het, hc⟩ | ⟨het, hc⟩ := h
  · have hin : vET f ∈ vTypes := by
      simp only [List.mem_cons, List.not_mem_nil, or_false] at het
      obtain he | he | he := het <;> simp [vTypes, he]
    rw [hsb hin, condLane_isSome hc, Bool.and_true]
  · have hin : vET f ∈ vTypes ∧ fmtFloat (vET f) = false := by
      simp only [List.mem_cons, List.not_mem_nil, or_false] at het
      obtain he | he := het <;> rw [he] <;> decide
    rw [hsb hin.1, condLane_isSome_of_int hin.2 hc, Bool.and_true]

/-- VCVT. -/
theorem form_vcvt (het : vET f ∈ [0x0, 0x1, 0x2, 0x3, 0x4, 0xB, 0xC, 0xD]) (hdt : vX f 13 10 ∈ cvtTypes) (hrnd : vRnd f ≠ 3)
    (hp : cvtPOk (vET f) (vX f 13 10) (vX f 9 7) = true) :
    (cvtFrom.contains (vET f) && cvtTypes.contains (vX f 13 10) && vRnd f != 3 && cvtPOk (vET f) (vX f 13 10) (vX f 9 7)) =
      true := by
  have hfrom : vET f ∈ cvtFrom := by
    simp only [cvtFrom, cvtTypes, List.mem_cons, List.not_mem_nil, or_false] at het ⊢
    tauto
  simp [hfrom, hdt, hrnd, hp]

end Forms

/-- An access of VLD or VST that keeps R118 passes its check. -/
theorem vMemCheck_passes {firstEnd : Bool} {d : BitVec 128} {r : U64} (td : Nat) (hok : tdOk d = true)
    (haligned : r.toNat % 64 = 0)
    (hin : tdBase d + r.toNat + 1024 ≤ (if firstEnd then 0x1B0000 else 0x1F0000)) : vMemCheck firstEnd td d r = none := by
  simp only [vMemCheck, hok, haligned, stagingAt, storeEnd, hin.not_gt, Bool.not_true, Bool.false_eq_true, if_false, ne_eq,
    not_true_eq_false]

/-! ## Issue -/

section Vector

variable {s : State} {x : Slot} (hve : sEng x.f < 2) (hroom : (slotBase s x).engDepth (4 + sEng x.f) < 8)
include hve hroom

/-- A V slot in form, whose engine has room, issues with what its instruction gives. -/
theorem issue_vSlot {ok : Bool} {regs dests : List Nat} {run : CoreState → CoreState → SlotRun} {cur : CoreState}
    (hok : ok = true) (h : slotGoes s x 2 regs dests) (hrun : run (slotBase s x) (slotCur s x) = .ok (cur, none)) :
    s.issue x (vReq x.f ok regs dests) (engRoom (vEng x.f)) run = afterSlot s x 2 dests cur := by
  refine issue_afterSlot (q := vReq x.f ok regs dests) (Nat.succ_ne_zero 1) h ?_ ?_ hrun
  · simp [vReq, hve, hok]
  · simpa [engRoom, vEng, Nat.mod_eq_of_lt hve] using hroom

/-- What a V slot of an instruction with an opcode leaves: it joins its engine's queue with RS and an address register (R67). -/
theorem vIssue_joins {op : Nat} {ok : Bool} {regs : List Nat} (hok : ok = true)
    (hregs : (if vSB x.f || op == 0x029 || op == 0x02A || op == 0x048 then [vRS x.f] else []) = regs)
    (h : slotGoes s x 2 regs [3000 + 32 * sEng x.f + opf x.f 43 39]) :
    vIssue x op ok s = afterSlot s x 2 [3000 + 32 * sEng x.f + opf x.f 43 39]
      ((slotCur s x).enqueue (slotBase s x).pc (4 + sEng x.f) op x.f []
        [(slotBase s x).rs (opf x.f 19 14), (slotBase s x).ra (opf x.f 12 9)] [] [] none) := by
  have hdest : dV (sEng x.f % 2) (vVD x.f) = 3000 + 32 * sEng x.f + opf x.f 43 39 := by
    rw [Nat.mod_eq_of_lt hve, dV, vVD]
  have heng : vEng x.f = 4 + sEng x.f := by rw [vEng, Nat.mod_eq_of_lt hve]
  simp only [vIssue, hregs, hdest]
  refine issue_vSlot hve hroom hok h ?_
  rw [heng]
  rfl

/-- An instruction that reads RS where SB says so, and no other (R117). -/
theorem vIssue_joins_sb {op : Nat} {ok : Bool} {regs : List Nat} (hreads : (op == 0x029 || op == 0x02A || op == 0x048) = false)
    (hok : ok = true) (hone : bitOf x.f.toNat 47 = true → regs = [opf x.f 19 14])
    (hnone : bitOf x.f.toNat 47 = false → regs = [])
    (h : slotGoes s x 2 regs [3000 + 32 * sEng x.f + opf x.f 43 39]) :
    Host.Outcome.next (φ := Fault) (ρ := Refusal) (vIssue x op ok s) =
      .next (afterSlot s x 2 [3000 + 32 * sEng x.f + opf x.f 43 39]
        ((slotCur s x).enqueue (slotBase s x).pc (4 + sEng x.f) op x.f []
          [(slotBase s x).rs (opf x.f 19 14), (slotBase s x).ra (opf x.f 12 9)] [] [] none)) := by
  refine congrArg Host.Outcome.next (vIssue_joins hve hroom hok ?_ h)
  rw [Bool.or_assoc, Bool.or_assoc, ← Bool.or_assoc (op == 0x029), hreads, Bool.or_false, vSB]
  cases hsb : bitOf x.f.toNat 47
  · exact (hnone hsb).symm
  · exact (hone hsb).symm

/-- An instruction that always reads RS. -/
theorem vIssue_joins_rs {op : Nat} {ok : Bool} (hreads : (op == 0x029 || op == 0x02A || op == 0x048) = true) (hok : ok = true)
    (h : slotGoes s x 2 [opf x.f 19 14] [3000 + 32 * sEng x.f + opf x.f 43 39]) :
    Host.Outcome.next (φ := Fault) (ρ := Refusal) (vIssue x op ok s) =
      .next (afterSlot s x 2 [3000 + 32 * sEng x.f + opf x.f 43 39]
        ((slotCur s x).enqueue (slotBase s x).pc (4 + sEng x.f) op x.f []
          [(slotBase s x).rs (opf x.f 19 14), (slotBase s x).ra (opf x.f 12 9)] [] [] none)) := by
  refine congrArg Host.Outcome.next (vIssue_joins hve hroom hok ?_ h)
  rw [Bool.or_assoc, Bool.or_assoc, ← Bool.or_assoc (op == 0x029), hreads, Bool.or_true, if_pos rfl]
  rfl

theorem exec_vext_joins (het : opf x.f 23 20 ∈ vTypes) (hlane : opf x.f 13 4 < 8192 / fmtBits (opf x.f 23 20))
    (h : slotGoes s x 2 [opf x.f 19 14] [opf x.f 19 14]) :
    exec (.vext x) s = .next (afterSlot s x 2 [opf x.f 19 14]
      ((slotCur s x).enqueue (slotBase s x).pc (4 + sEng x.f) 0x2B x.f [] [] [] [] (some (opf x.f 19 14)))) := by
  refine congrArg Host.Outcome.next (issue_vSlot hve hroom ?_ h ?_)
  · simp [vET, vX, het, hlane]
  · simp [vEng, vRS, Nat.mod_eq_of_lt hve]

theorem exec_vmx_joins (het : opf x.f 23 20 = 0) (hdt : fmtMx (opf x.f 13 10) = true) (hrnd : opf x.f 46 45 ≠ 3)
    (hp : 128 * opf x.f 9 7 + 32 * fmtBits (opf x.f 13 10) ≤ 1024)
    (h : slotGoes s x 2 [] [3000 + 32 * sEng x.f + opf x.f 43 39, 3000 + 32 * sEng x.f + opf x.f 28 24]) :
    exec (.vmx x) s = .next (afterSlot s x 2
      [3000 + 32 * sEng x.f + opf x.f 43 39, 3000 + 32 * sEng x.f + opf x.f 28 24]
      ((slotCur s x).enqueue (slotBase s x).pc (4 + sEng x.f) 0x41 x.f [] [(slotBase s x).rs (opf x.f 19 14)] [] [] none)) := by
  have hdests : [dV (sEng x.f % 2) (vVD x.f), dV (sEng x.f % 2) (vVC x.f)] =
      [3000 + 32 * sEng x.f + opf x.f 43 39, 3000 + 32 * sEng x.f + opf x.f 28 24] := by
    rw [Nat.mod_eq_of_lt hve, dV, dV, vVD, vVC]
  rw [← hdests] at h ⊢
  refine congrArg Host.Outcome.next (issue_vSlot hve hroom ?_ h ?_)
  · simp [vET, vX, vRnd, het, hdt, hrnd, hp]
  · simp [vEng, vRS, Nat.mod_eq_of_lt hve]

section Memory

variable {td : Nat} {r : U64} (htd : td = opf x.f 13 9) (hr : r = (slotBase s x).rs (opf x.f 19 14))
  (hok : tdOk ((slotBase s x).tdv td) = true) (haligned : r.toNat % 64 = 0)
  (hin : tdBase ((slotBase s x).tdv td) + r.toNat + 1024 ≤ (if (s.core x.core).firstEnd then 0x1B0000 else 0x1F0000))
include htd hr hok haligned hin

theorem exec_vld_joins (h : slotGoes s x 2 [opf x.f 19 14] [3000 + 32 * sEng x.f + opf x.f 43 39]) :
    exec (.vld x) s = .next (afterSlot s x 2 [3000 + 32 * sEng x.f + opf x.f 43 39]
      ((slotCur s x).enqueue (slotBase s x).pc (4 + sEng x.f) 0x01 x.f [(td, (slotBase s x).tdv td)] [r] [td] [] none)) := by
  have hdest : dV (sEng x.f % 2) (vVD x.f) = 3000 + 32 * sEng x.f + opf x.f 43 39 := by
    rw [Nat.mod_eq_of_lt hve, dV, vVD]
  rw [← hdest] at h ⊢
  subst htd hr
  refine congrArg Host.Outcome.next (issue_vSlot hve hroom rfl h ?_)
  simp [vMemCheck_passes _ hok haligned hin, vEng, vRS, vX, Nat.mod_eq_of_lt hve]

theorem exec_vst_joins (h : slotGoes s x 2 [opf x.f 19 14] []) :
    exec (.vst x) s = .next (afterSlot s x 2 []
      ((slotCur s x).enqueue (slotBase s x).pc (4 + sEng x.f) 0x02 x.f [(td, (slotBase s x).tdv td)] [r] [] [td] none)) := by
  subst htd hr
  refine congrArg Host.Outcome.next (issue_vSlot hve hroom rfl h ?_)
  simp [vMemCheck_passes _ hok haligned hin, vEng, vRS, vX, Nat.mod_eq_of_lt hve]

end Memory

end Vector

/-- Settles O11: each instruction's word is in form, which is the lemma of its group, and its engine has room. -/
theorem vectorIssue : Obligations.VectorIssue := by
  unfold Obligations.VectorIssue
  rintro s x _ _ _ _ td _ hve rfl rfl rfl rfl htd rfl hroom
  refine ⟨?lanes, ?conversions, ?broadcasts, exec_vext_joins hve hroom, exec_vmx_joins hve hroom, ?memory⟩
  case lanes =>
    intro regs hone hnone h
    have joins {op : Nat} {ok : Bool} (hreads : (op == 0x029 || op == 0x02A || op == 0x048) = false) (hok : ok = true) :=
      vIssue_joins_sb (op := op) hve hroom hreads hok hone hnone h
    simp only [List.forall_mem_cons, List.not_mem_nil, false_implies, implies_true, and_true]
    exact ⟨fun het hrnd => joins rfl (form_types_rnd het hrnd), fun het hrnd => joins rfl (form_types_rnd het hrnd),
      fun het hrnd => joins rfl (form_vmul het hrnd), fun het hrnd => joins rfl (form_vfma het hrnd),
      fun het hrnd => joins rfl (form_types_uses het hrnd), fun het hrnd => joins rfl (form_types_uses het hrnd),
      fun het _ => joins rfl (form_int het), fun het _ => joins rfl (form_int het), fun het _ => joins rfl (form_int het),
      fun het _ => joins rfl (form_int het), fun het _ => joins rfl (form_int het), fun het _ => joins rfl (form_int het),
      fun het _ => joins rfl (List.contains_iff_mem.mpr het), fun het _ => joins rfl (List.contains_iff_mem.mpr het),
      fun het hrnd => joins rfl (form_types_uses het hrnd), fun _ _ => joins rfl rfl,
      fun het _ => joins rfl (List.contains_iff_mem.mpr het), fun het hrnd => joins rfl (form_approx het hrnd),
      fun het hrnd => joins rfl (form_approx het hrnd), fun het hrnd => joins rfl (form_approx het hrnd),
      fun het hrnd => joins rfl (form_approx het hrnd), fun het hrnd => joins rfl (form_approx het hrnd)⟩
  case conversions =>
    intro regs hone hnone h
    have joins {op : Nat} {ok : Bool} (hreads : (op == 0x029 || op == 0x02A || op == 0x048) = false) (hok : ok = true) :=
      vIssue_joins_sb (op := op) hve hroom hreads hok hone hnone h
    simp only [List.forall_mem_cons, List.not_mem_nil, false_implies, implies_true, and_true]
    exact ⟨fun ⟨hform, hrnd⟩ => joins rfl (form_vcmp hform hrnd),
      fun ⟨het, hdt, hrnd, hp⟩ => joins rfl (form_vcvt het hdt hrnd hp)⟩
  case broadcasts =>
    intro h
    have joins {op : Nat} {ok : Bool} (hreads : (op == 0x029 || op == 0x02A || op == 0x048) = true) (hok : ok = true) :=
      vIssue_joins_rs (op := op) hve hroom hreads hok h
    simp only [List.forall_mem_cons, List.not_mem_nil, false_implies, implies_true, and_true]
    exact ⟨fun ⟨het, hrnd⟩ => joins rfl (form_types_uses het fun _ => hrnd), fun het => joins rfl (beq_iff_eq.mpr het),
      fun het => joins rfl (beq_iff_eq.mpr het)⟩
  case memory =>
    intro r hr hok haligned hin
    exact ⟨exec_vld_joins hve hroom htd hr hok haligned hin, exec_vst_joins hve hroom htd hr hok haligned hin⟩

end Sys2Proof.Machine
end

section
/-! SUPPORT. What X slots in form do when they issue (R64, R71, R123 to R131): they join the queue of their move engine; and the
statement that they settle. -/

namespace Sys2Proof.Machine

open Sys2Proof

/-! ## Checks (R124, R129) -/

theorem tileBelow_of_le {d : BitVec 128} {scales : Bool} {lim : Nat} (htile : tileEnd d ≤ lim)
    (hscales : scales = true → scalesEnd d ≤ lim) : tileBelow d scales lim = true := by
  simpa [tileBelow, htile, Decidable.imp_iff_not_or] using hscales

theorem efmtOk_of {e : Nat} {fp : Bool} (h : e ≤ 1 ∨ e ≤ 5 ∧ fp = true) : efmtOk e fp = true := by
  simpa [efmtOk] using h

section Move

variable {s : State} {x : Slot} (heng : sEng x.f ≤ 1) (htag : opf x.f 43 38 / 32 = sEng x.f)
  (hdepth : (slotBase s x).moveDepth (sEng x.f) < 32) (hfree : (slotBase s x).tagBusy (opf x.f 43 38) = false)
include heng htag hdepth hfree

/-- An X slot in form, whose engine has room and whose tag is free, issues with what its instruction gives. -/
theorem issue_xSlot {ok : Bool} {regs : List Nat} {run : CoreState → CoreState → SlotRun} {cur : CoreState} (hok : ok = true)
    (h : slotGoes s x 3 regs []) (hrun : run (slotBase s x) (slotCur s x) = .ok (cur, none)) :
    s.issue x (xReq x.f ok regs) (xReady x.f) run = afterSlot s x 3 [] cur := by
  refine issue_afterSlot (q := xReq x.f ok regs) (Nat.succ_ne_zero 2) h ?_ ?_ hrun
  · simp [xReq, xTagOk, xTag, hok, heng, htag]
  · simp [xReady, xTag, hdepth, hfree]

variable {lim : Nat} (hlim : lim = (s.core x.core).storeLimit)
include hlim

section Tile

variable {d : BitVec 128} (hd : d = (slotBase s x).tdv (opf x.f 37 33)) (hok : tdOk d = true) (hin : tileEnd d ≤ lim)
include hd hok hin

theorem exec_move_joins (h44 : bitOf x.f.toNat 44 = false) (hlow : opf x.f 21 0 = 0)
    (hsieve : bitOf x.f.toNat 45 = true → bitOf x.f.toNat 22 = false ∧ opf x.f 28 23 = 0 ∧ s.hasSieve = true)
    (h : slotGoes s x 3 [opf x.f 28 23] [])
    (hscales : fmtMx (tdFmt d) = true → bitOf x.f.toNat 45 = false → scalesEnd d ≤ lim) :
    exec (.move x) s = .next (afterSlot s x 3 [] ((slotCur s x).enqueueMove
      { moveOf (slotBase s x) (slotCur s x) 1 x.f s.tick with
        tds := [(opf x.f 37 33, d)], vals := [(slotBase s x).ra (opf x.f 32 29), (slotBase s x).rs (opf x.f 28 23)]
        rd := if bitOf x.f.toNat 22 then [opf x.f 37 33] else []
        wr := if bitOf x.f.toNat 22 then [] else [opf x.f 37 33] })) := by
  subst hd hlim
  have hbelow := tileBelow_of_le (scales := fmtMx (tdFmt ((slotBase s x).tdv (opf x.f 37 33))) && !bitOf x.f.toNat 45) hin
    (by simpa using hscales)
  refine congrArg Host.Outcome.next (issue_xSlot heng htag hdepth hfree ?_ h ?_)
  · cases hbit : bitOf x.f.toNat 45
    · simp [h44, hlow]
    · obtain ⟨hout, hpitch, hhas⟩ := hsieve hbit
      simp [h44, hlow, xOut, xPitch, hout, hpitch, hhas]
  · simp only [xTd, xOut, hok, hbelow, Bool.not_true, Bool.false_eq_true, if_false]
    rfl

theorem State.moveArith_joins {k : Nat} (hk : opf x.f 45 44 = k) (hmid : opf x.f 22 16 = 0) (hlow : opf x.f 12 0 = 0)
    (hefmt : opf x.f 15 13 ≤ 1 ∨ opf x.f 15 13 ≤ 5 ∧ s.fld 0 0 Reg.IDC_CAP1.FP_ADD = 1)
    (h : slotGoes s x 3 [opf x.f 28 23] []) (hwhole : tdRows d * rowBytes d % efmtSize (opf x.f 15 13) = 0) :
    s.moveArith x k = afterSlot s x 3 [] ((slotCur s x).enqueueMove
      { moveOf (slotBase s x) (slotCur s x) 5 x.f s.tick with
        tds := [(opf x.f 37 33, d)], vals := [(slotBase s x).ra (opf x.f 32 29), (slotBase s x).rs (opf x.f 28 23)]
        rd := [opf x.f 37 33] }) := by
  subst hd hlim
  have hbelow := tileBelow_of_le (scales := false) hin (by simp)
  have hadders := efmtOk_of (fp := s.fld 0 0 Reg.IDC_CAP1.FP_ADD == 1) (by simpa using hefmt)
  refine issue_xSlot heng htag hdepth hfree ?_ h ?_
  · simp [xEfmt, hk, hmid, hlow, hadders]
  · simp [xTd, xAreg, xPitch, xEfmt, hok, hwhole, hbelow]

end Tile

theorem exec_moveD_joins {o : Nat} {r : List Byte} (ho : o = ((slotBase s x).ra (opf x.f 37 34)).toNat)
    (hr : r = (slotBase s x).store.getRun o 64) (hhigh : opf x.f 45 44 = 0) (hlow : opf x.f 33 0 = 0)
    (h : slotGoes s x 3 [] []) (haligned : o % 64 = 0) (hin : o + 64 ≤ lim)
    (hok : mdrOk r s.hasSieve (s.fld 0 0 Reg.IDC_CAP1.FP_ADD == 1) = true)
    (hsrc : mdrSide (mdrSrcCore r) (bits (mdrWord r 0) 0 56) (mdrD0 r) ((mdrDims r).map fun d => (d.1, d.2.1)) lim = none)
    (hdst : mdrSide (mdrDstCore r) (bits (mdrWord r 1) 0 56) (mdrD0 r) ((mdrDims r).map fun d => (d.1, d.2.2)) lim = none) :
    exec (.moveD x) s = .next (afterSlot s x 3 [] ((slotCur s x).enqueueMove
      { moveOf (slotBase s x) (slotCur s x) 2 x.f s.tick with mdr := r })) := by
  subst hr ho hlim
  refine congrArg Host.Outcome.next (issue_xSlot heng htag hdepth hfree ?_ h ?_)
  · simp [hhigh, hlow]
  · simp [haligned, hin.not_gt, hok, hsrc, hdst]

theorem State.atomIssue_joins {k o : Nat} (ho : o = ((slotBase s x).ra (opf x.f 33 30)).toNat) (hk : opf x.f 45 44 = k)
    (hlow : opf x.f 29 0 = 0) (h : slotGoes s x 3 [] []) (haligned : o % 64 = 0) (hin : o + 64 ≤ lim) :
    s.atomIssue x k = afterSlot s x 3 [] ((slotCur s x).enqueueMove
      { moveOf (slotBase s x) (slotCur s x) 6 x.f s.tick with
        vals := [(slotBase s x).ra (opf x.f 37 34), BitVec.ofNat 64 o] }) := by
  subst ho hlim
  refine issue_xSlot heng htag hdepth hfree ?_ h ?_
  · simp [hk, hlow]
  · simp [haligned, hin.not_gt]

section Lists

variable {d l : BitVec 128} {cnt len : Nat} (hd : d = (slotBase s x).tdv (opf x.f 37 33))
  (hl : l = (slotBase s x).tdv (opf x.f 32 28)) (hcnt : cnt = ((slotBase s x).rs (opf x.f 27 22)).toNat)
  (hlen : len = ((slotBase s x).rs (opf x.f 21 16)).toNat) (hlow : opf x.f 12 0 = 0)
  (h : slotGoes s x 3 [opf x.f 27 22, opf x.f 21 16] []) (hdok : tdOk d = true) (hlok : tdOk l = true) (hmany : cnt ≤ 4096)
  (hsome : 0 < len) (hshort : len ≤ 2 ^ 20)
  (hruns : tdBase d + (if cnt = 0 then 0 else (cnt - 1) * roundUp len 32 + len) ≤ lim) (hlist : tdBase l + 8 * cnt ≤ lim)
  (hdin : tileEnd d ≤ lim) (hlin : tileEnd l ≤ lim)
include hd hl hcnt hlen hlow h hdok hlok hmany hsome hshort hruns hlist hdin hlin

/-- GATHER and SCATTER in form join their engine's queue, unless they have no entries (R128). -/
theorem State.gatherScatter_joins {op : Nat} (hop : op = 4 ∨ opf x.f 45 44 = 0)
    (hform : (op == 4 && opf x.f 45 44 != 0) = false ∧ opf x.f 15 13 = 0 ∨
      (op == 4 && opf x.f 45 44 != 0) = true ∧
        (opf x.f 15 13 ≤ 1 ∨ opf x.f 15 13 ≤ 5 ∧ s.fld 0 0 Reg.IDC_CAP1.FP_ADD = 1) ∧
          len % efmtSize (opf x.f 15 13) = 0) :
    s.gatherScatter x op = afterSlot s x 3 [] (if cnt = 0 then slotCur s x else (slotCur s x).enqueueMove
      { moveOf (slotBase s x) (slotCur s x) op x.f s.tick with
        tds := [(opf x.f 37 33, d), (opf x.f 32 28, l)], vals := [BitVec.ofNat 64 cnt, BitVec.ofNat 64 len]
        rd := if op = 3 then [opf x.f 32 28] else [opf x.f 37 33, opf x.f 32 28]
        wr := if op = 3 then [opf x.f 37 33] else [] }) := by
  subst hd hl hcnt hlen hlim
  have hword : (opf x.f 12 0 == 0 && (op == 4 || opf x.f 45 44 == 0) &&
      if op == 4 && opf x.f 45 44 != 0 then efmtOk (xEfmt x.f) (s.fld 0 0 Reg.IDC_CAP1.FP_ADD == 1) else xEfmt x.f == 0) =
      true := by
    obtain ⟨hcopy, hefmt⟩ | ⟨harith, hefmt, -⟩ := hform
    · simpa [hlow, hcopy, xEfmt, hefmt] using hop
    · have hadders := efmtOk_of (fp := s.fld 0 0 Reg.IDC_CAP1.FP_ADD == 1) (by simpa using hefmt)
      simpa [hlow, harith, xEfmt, hadders] using hop
  have hwhole : (op == 4 && opf x.f 45 44 != 0 &&
      ((slotBase s x).rs (opf x.f 21 16)).toNat % efmtSize (xEfmt x.f) != 0) = false := by
    obtain ⟨hcopy, -⟩ | ⟨harith, -, hlen⟩ := hform
    · rw [hcopy, Bool.false_and]
    · simp [xEfmt, hlen]
  have hdbelow := tileBelow_of_le (scales := false) hdin (by simp)
  have hlbelow := tileBelow_of_le (scales := false) hlin (by simp)
  refine issue_xSlot heng htag hdepth hfree hword h ?_
  simp only [xTd, hdok, hlok, hmany.not_gt, hsome.ne', hshort.not_gt, hwhole, hruns.not_gt, hlist.not_gt, hdbelow, hlbelow,
    Bool.and_self, Bool.not_true, Bool.or_self, decide_false, Bool.false_eq_true, if_false]
  split <;> rfl

end Lists

end Move

/-- Settles O12: each instruction's word is in form, its engine has room under a free tag, and its tiles pass. -/
theorem moveIssue : Obligations.MoveIssue := by
  unfold Obligations.MoveIssue
  rintro s x _ m lim d rfl heng htag hdepth hfree hlim hd
  refine ⟨?move, ?arith, ?moveD, ?lists, ?atom⟩
  case move =>
    rintro h44 hlow hsieve h hok hin hscales rfl
    exact exec_move_joins heng htag hdepth hfree hlim hd hok hin h44 hlow hsieve h hscales
  case arith =>
    have joins {k : Nat} := State.moveArith_joins (k := k) heng htag hdepth hfree hlim hd
    simp only [List.forall_mem_cons, List.not_mem_nil, false_implies, implies_true, and_true]
    refine ⟨?_, ?_, ?_⟩ <;> rintro hk hmid hlow hefmt h hok hwhole hin rfl <;>
      exact congrArg Host.Outcome.next (joins hok hin hk hmid hlow hefmt h hwhole)
  case moveD =>
    rintro o r ho hr hhigh hlow h haligned hin hok hsrc hdst rfl
    exact exec_moveD_joins heng htag hdepth hfree hlim ho hr hhigh hlow h haligned hin hok hsrc hdst
  case lists =>
    intro l cnt len hl hcnt hlen hlow h hdok hlok hmany hsome hshort hruns hlist hdin hlin
    have joins {op : Nat} := State.gatherScatter_joins (op := op) heng htag hdepth hfree hlim hd hl hcnt hlen hlow h hdok hlok
      hmany hsome hshort hruns hlist hdin hlin
    constructor
    · rintro hcopy hefmt rfl
      exact congrArg Host.Outcome.next (joins (op := 3) (.inr hcopy) (.inl ⟨rfl, hefmt⟩))
    · rintro hform rfl
      refine congrArg Host.Outcome.next (joins (op := 4) (.inl rfl) (hform.imp ?_ ?_))
      · rintro ⟨hcopy, hefmt⟩
        exact ⟨by simp [hcopy], hefmt⟩
      · rintro ⟨harith, hefmt⟩
        exact ⟨by simp [harith], hefmt⟩
  case atom =>
    have joins {k o : Nat} := State.atomIssue_joins (k := k) (o := o) heng htag hdepth hfree hlim
    simp only [List.forall_mem_cons, List.not_mem_nil, false_implies, implies_true, and_true]
    refine ⟨?_, ?_, ?_⟩ <;> rintro o ho hk hlow h haligned hin rfl <;>
      exact congrArg Host.Outcome.next (joins ho hk hlow h haligned hin)

end Sys2Proof.Machine
end

section
/-! SUPPORT. What moves and engine instructions in flight do (R71 to R73, R75, R95, R130, R206): one equation per case of their
start and of their completion; and the statements that they settle. -/

namespace Sys2Proof.Machine

open Sys2Proof

/-! ## Engine instructions (R73, R75, R95) -/

/-- Settles O13: the command finds the instruction at the head of its engine's queue, which has started. -/
theorem engineCompletion : Obligations.EngineCompletion := by
  unfold Obligations.EngineCompletion
  rintro s core eng o _ hhead hstarted rfl
  change execEngineInstructionComplete core eng s = _
  simp only [execEngineInstructionComplete, hhead, hstarted, if_true]

/-! ## Start of a move (R72, R291) -/

section Start

variable {s : State} {n eng : Nat} {m : MoveOp}
  (hfirst : (s.core n).cur.moves.find? (fun m => m.eng == eng && !m.started) = some m) (hshut : s.coreShut n = false)
  (hready : (s.core n).cur.moveReady m = true)
include hfirst hshut hready

theorem State.tryStart_unscheduled (hsched : m.sched = false) : s.tryStart n eng = s.startMove n m none := by
  simp [State.tryStart, hfirst, hshut, hready, hsched]

section Scheduled

variable (hsched : m.sched = true)
include hsched

/-- In the window that names it, a move with SLOT starts on its port (R291). -/
theorem State.tryStart_in_window {p : Nat} (hport : s.slotPort n m = some p) (hserves : s.winServes p n m.tag = true)
    (hkept : s.slotsLost n = false) : s.tryStart n eng = s.startMove n m (some p) := by
  simp [State.tryStart, hfirst, hshut, hready, hsched, hport, Option.filter, hserves, hkept]

/-- A move with SLOT that leaves by no port starts an edge after its issue. -/
theorem State.tryStart_portless (hport : s.slotPort n m = none) (hissued : m.issued < s.tick) :
    s.tryStart n eng = s.startMove n m none := by
  simp [State.tryStart, hfirst, hshut, hready, hsched, hport, State.slotStart, hissued]

/-- Outside a window that serves it, a move with SLOT falls back once that is due (R291). -/
theorem State.tryStart_falls_back {p : Nat} (hport : s.slotPort n m = some p)
    (hunserved : s.winServes p n m.tag = false ∨ s.slotsLost n = true) (hdue : s.slotStart n m = some (some p)) :
    s.tryStart n eng = (s.fallBack p).startMove n m none := by
  have hout : (s.winServes p n m.tag && !s.slotsLost n) = false := by
    simpa [Decidable.imp_iff_not_or] using hunserved
  simp [State.tryStart, hfirst, hshut, hready, hsched, hport, Option.filter, hout, hdue]

end Scheduled

end Start

/-! ## Host bytes of a move (R230, R402) -/

/-- The bytes of a move whose host reads are here: those that it has had, or its buffer filled from what the host brought
(R402). -/
def State.hostFilled (s : State) (fn ctx : Nat) (m : MoveOp) (x : XTab) (ext : List Byte) : Option (Tab Byte) :=
  if (m.hostSrc x).isEmpty || hasRun m.buf ((m.hostSrc x).getD 0 (0, 0, 0)).1 1 then some m.buf
  else if s.inParish fn ctx then s.fillDoor fn ctx (joinHost (m.hostSrc x)) ext m.buf
  else some (fillHost m.buf (m.hostSrc x) ext)

section HostFilled

variable {s : State} {fn ctx : Nat} {m : MoveOp} {x : XTab} {ext : List Byte}

/-- Whether the host must still bring bytes of a move, and has brought too few. -/
def State.hostShort (s : State) (fn ctx : Nat) (m : MoveOp) (x : XTab) (ext : List Byte) : Bool :=
  decide (ext.length < s.hostNeed fn ctx (m.hostSrc x)) && !hasRun m.buf ((m.hostSrc x).getD 0 (0, 0, 0)).1 1

theorem State.hostNeed_nil : s.hostNeed fn ctx [] = 0 := by
  simp [State.hostNeed, joinHost]

/-- A move that reads no host memory, or has had its host bytes, needs none. -/
theorem State.hostFilled_had (h : m.hostSrc x = [] ∨ hasRun m.buf ((m.hostSrc x).getD 0 (0, 0, 0)).1 1 = true) :
    s.hostShort fn ctx m x ext = false ∧ s.hostFilled fn ctx m x ext = some m.buf := by
  obtain hnone | hhad := h
  · simp [State.hostShort, State.hostFilled, hnone, State.hostNeed_nil]
  · simp only [State.hostShort, State.hostFilled, hhad, Bool.not_true, Bool.and_false, Bool.or_true, if_true, and_self]

/-- A move that the host brings enough bytes for takes them, opened in a parish context. -/
theorem State.hostFilled_brought {buf : Tab Byte} (hsome : m.hostSrc x ≠ [])
    (hunread : hasRun m.buf ((m.hostSrc x).getD 0 (0, 0, 0)).1 1 = false)
    (henough : s.hostNeed fn ctx (m.hostSrc x) ≤ ext.length)
    (hbuf : s.inParish fn ctx = false ∧ buf = fillHost m.buf (m.hostSrc x) ext ∨
      s.inParish fn ctx = true ∧ s.fillDoor fn ctx (joinHost (m.hostSrc x)) ext m.buf = some buf) :
    s.hostShort fn ctx m x ext = false ∧ s.hostFilled fn ctx m x ext = some buf := by
  refine ⟨by simp only [State.hostShort, henough.not_gt, decide_false, Bool.false_and], ?_⟩
  have hread : ((m.hostSrc x).isEmpty || hasRun m.buf ((m.hostSrc x).getD 0 (0, 0, 0)).1 1) = false := by
    rw [hunread, Bool.or_false, List.isEmpty_eq_false_iff]
    exact hsome
  simp only [State.hostFilled, hread, Bool.false_eq_true, if_false]
  obtain ⟨hplain, rfl⟩ | ⟨hparish, hopen⟩ := hbuf
  · simp only [hplain, Bool.false_eq_true, if_false]
  · simp only [hparish, hopen, if_true]

end HostFilled

/-! ## Completion of a move (R71, R130, R166) -/

section Complete

variable {s : State} {n tag : Nat} {m : MoveOp} (hm : s.move? n tag = some m) (hstarted : m.started = true)
  (hfid : m.fid = none)
include hm hstarted hfid

theorem State.completeMove_applied (happlied : m.applied = true) (ext : List Byte) :
    s.completeMove n tag ext = s.flushOwed n tag := by
  simp [State.completeMove, hm, hstarted, hfid, happlied]

variable (happlied : m.applied = false)
include happlied

theorem State.completeMove_sieve_whole (hsieve : m.isSieve = true) (hwhole : m.outAt = m.total) (ext : List Byte) :
    s.completeMove n tag ext = s.dropMove n tag := by
  simp [State.completeMove, hm, hstarted, hfid, happlied, hsieve, hwhole]

section Answered

variable (hsieve : m.isSieve = false) {x : XTab} {s1 s2 : State} {m1 m2 : MoveOp} {fn ctx : Nat} {lc : Bool}
  {ext : List Byte} {buf : Tab Byte} (hprogress : s.progress n tag = (some x, s1)) (hm1 : s1.move? n tag = some m1)
  (hcore : s1.coreFn n = (fn, ctx, lc)) (henough : s1.hostShort fn ctx m1 x ext = false)
  (hfilled : s1.hostFilled fn ctx m1 x ext = some buf)
  (hs2 : s2 = (s1.setMove n { m1 with buf := buf }).pumpMove n tag x) (hm2 : s2.move? n tag = some m2) (hreqs : m2.reqs = [])
include hsieve hprogress hm1 hcore henough hfilled hs2 hm2 hreqs

/-- An ATOM whose request is answered here is applied at its unit. -/
theorem State.completeMove_atom (hop : m2.op = 6) : s.completeMove n tag ext = s2.atomHere n m2 x := by
  have hanswered : m2.reqs.isEmpty = true := List.isEmpty_iff.mpr hreqs
  simp only [State.hostShort] at henough
  simp only [State.hostFilled] at hfilled
  simp only [State.completeMove, hm, hstarted, hfid, happlied, hsieve, hprogress, hm1, hcore, henough, hfilled, ← hs2, hm2,
    hanswered, hop, Option.isSome_none, Bool.not_true, Bool.or_self, Bool.false_eq_true, if_false, if_true]

/-- Any other move writes its pieces, and leaves once nothing of it waits at a unit. -/
theorem State.completeMove_writes (hop : m2.op ≠ 6) {s3 s4 s5 : State} (hs3 : s3 = s2.moveVerify m2 x)
    (hunits : s3.moveUnits m2 x = true) (hput : s3.putPieces n fn m2 x m2.dstPieces = (none, s4))
    (hs5 : s5 = (s4.putHost n fn ctx m2 x).setMove n { m2 with applied := true })
    (howing : (s5.owing.any fun o => o.move == some (n, tag)) = false) : s.completeMove n tag ext = s5.dropMove n tag := by
  have hanswered : m2.reqs.isEmpty = true := List.isEmpty_iff.mpr hreqs
  simp only [State.hostShort] at henough
  simp only [State.hostFilled] at hfilled
  simp only [State.completeMove, hm, hstarted, hfid, happlied, hsieve, hprogress, hm1, hcore, henough, hfilled, ← hs2, hm2,
    hanswered, hop, ← hs3, hunits, hput, ← hs5, howing, Option.isSome_none, Bool.not_true, Bool.or_self,
    Bool.false_eq_true, if_false]

end Answered

end Complete

/-- A local ATOM is applied where its unit runs, and logged where its leaf says so (R130, R241). -/
theorem State.atomHere_applied {s s1 : State} {n : Nat} {m : MoveOp} {x : XTab} {pa : Nat} {log : Bool} {r : AtomRes}
    (hlook : x.look m.target .mso = .loc pa log) (hrun : s.paStopped pa = false)
    (hroom : s.countersRoom pa (if opf m.f 45 44 = 2 then 16 else 8) = true) {s0 : State}
    (hs0 : s0 = if log = true ∧ (s.coreFn n).1 ≠ 0 then
      s.dirtyRun ((s.coreFn n).1 - 1) pa (if opf m.f 45 44 = 2 then 16 else 8) else s)
    (hop : s0.atomOp (opf m.f 45 44) pa (s0.fld 0 0 Reg.DCTL_NODE.NODE) (leNat ((s0.core n).cur.store.getRun m.v1 16))
      (leNat ((s0.core n).cur.store.getRun (m.v1 + 16) 16)) = (r, s1)) : s.atomHere n m x = s1.atomDone n m r := by
  have hlog : (if log && (s.coreFn n).1 != 0 then
      s.dirtyRun ((s.coreFn n).1 - 1) pa (if opf m.f 45 44 = 2 then 16 else 8) else s) = s0 := by
    simp [hs0]
  simp only [State.atomHere, hlook, hrun, hroom, Bool.not_true, Bool.or_self, Bool.false_eq_true, if_false, hlog, hop]

/-- Settles O15: each clause is one case of the start, of the completion, or of an ATOM at its unit. -/
theorem moveProgress : Obligations.MoveProgress := by
  unfold Obligations.MoveProgress
  refine ⟨?start, ?complete, ?atom⟩
  case start =>
    intro s n eng m hfirst hshut hready
    exact ⟨fun hsched => congrArg Host.Outcome.next (State.tryStart_unscheduled hfirst hshut hready hsched),
      fun p hsched hport hserves hkept =>
        congrArg Host.Outcome.next (State.tryStart_in_window hfirst hshut hready hsched hport hserves hkept),
      fun hsched hport hissued =>
        congrArg Host.Outcome.next (State.tryStart_portless hfirst hshut hready hsched hport hissued),
      fun p hsched hport hunserved hdue =>
        congrArg Host.Outcome.next (State.tryStart_falls_back hfirst hshut hready hsched hport hunserved hdue)⟩
  case complete =>
    intro s s1 s2 s3 s4 s5 n tag fn ctx ext m m1 m2 x buf hm hstarted hfid
    have settles {t : State} (h : s.completeMove n tag ext = t) :
        exec (.moveComplete n tag ext) s = .next t.settleApplied := h ▸ rfl
    refine ⟨fun happlied => settles (State.completeMove_applied hm hstarted hfid happlied ext),
      fun happlied hsieve hwhole => settles (State.completeMove_sieve_whole hm hstarted hfid happlied hsieve hwhole ext), ?_⟩
    rintro happlied hsieve hprogress hm1 rfl rfl hbytes hs2 hm2 hreqs
    obtain ⟨henough, hfilled⟩ : s1.hostShort (s1.coreFn n).1 (s1.coreFn n).2.1 m1 x ext = false ∧
        s1.hostFilled (s1.coreFn n).1 (s1.coreFn n).2.1 m1 x ext = some buf := by
      obtain ⟨hhad, rfl⟩ | ⟨hsome, hunread, hlength, hbuf⟩ := hbytes
      · exact State.hostFilled_had hhad
      · exact State.hostFilled_brought hsome hunread hlength hbuf
    exact ⟨fun hop => settles (State.completeMove_atom hm hstarted hfid happlied hsieve hprogress hm1 rfl henough hfilled hs2
        hm2 hreqs hop),
      fun hop hs3 hunits hput hs5 howing => settles (State.completeMove_writes hm hstarted hfid happlied hsieve hprogress hm1 rfl
        henough hfilled hs2 hm2 hreqs hop hs3 hunits hput hs5 howing)⟩
  case atom =>
    rintro s s0 s1 n m x pa _ _ log r hlook rfl hrun hroom rfl rfl hop
    exact State.atomHere_applied hlook hrun hroom rfl hop

end Sys2Proof.Machine
end

section
/-! SUPPORT. What walks, replayable faults, engine exceptions and sieve blocks do to moves (R88, R90, R157, R166, R167, R231, R237,
R239): one equation per case; and the statements that they settle. -/

namespace Sys2Proof.Machine

open Sys2Proof

/-! ## Walks and replayable faults (R231, R237, R239) -/

section Walk

variable {s s1 : State} {n tag va a : Nat} {m m1 : MoveOp} {acc : Acc} {t : Tr} (hm : s.move? n tag = some m)
  (hstarted : m.started = true) (hfid : m.fid = none)
  (hpage : m.accesses.find? (fun a => a.1 / 65536 == va / 65536) = some (a, acc)) (hxlate : s.xlateFor n m va acc = (t, m1, s1))
include hm hstarted hfid hpage hxlate

/-- A page of a started move that translates is held; one that does not stalls or faults the move. -/
theorem State.walkMove_eq : s.walkMove n tag va = if t.good then s1.setMove n m1 else s1.xlateFailed n m1 va acc t := by
  simp only [State.walkMove, hm, hstarted, hfid, hpage, hxlate, Option.isSome_none, Bool.not_true, Bool.or_self,
    Bool.false_eq_true, if_false]

theorem exec_translationWalk_passes (hgood : t.good = true) :
    exec (.translationWalk n tag va) s = .next (s1.setMove n m1) := by
  change Host.Outcome.next (s.walkMove n tag va) = _
  rw [State.walkMove_eq hm hstarted hfid hpage hxlate, if_pos hgood]

theorem exec_translationWalk_fails (hbad : t.good = false) :
    exec (.translationWalk n tag va) s = .next (s1.xlateFailed n m1 va acc t) := by
  change Host.Outcome.next (s.walkMove n tag va) = _
  rw [State.walkMove_eq hm hstarted hfid hpage hxlate, hbad, if_neg Bool.false_ne_true]

theorem exec_replayableFault_stalls (hreplays : s.replays n tag va = true) (hbad : t.good = false) :
    exec (.replayableFault n tag va) s = .next (s1.xlateFailed n m1 va acc t) := by
  change Host.Outcome.next (if s.replays n tag va then s.walkMove n tag va else s) = _
  rw [if_pos hreplays, State.walkMove_eq hm hstarted hfid hpage hxlate, hbad, if_neg Bool.false_ne_true]

end Walk

section Resume

variable {s : State} {fn fid : Nat}

/-- R239: RETRY and ABORT of no open fault. -/
theorem exec_resume_no_fault (hnone : s.faults.find? (fun o => o.fn == fn && o.entry && o.id == fid) = none) :
    ∀ i ∈ [Instr.retry fn fid, .abort fn fid], exec i s = .next (s.raise fn 0 Reg.XLAT_STAT.BAD_RESUME) := by
  simp only [List.forall_mem_cons, List.not_mem_nil, false_implies, implies_true, and_true]
  constructor
  · change Host.Outcome.next (s.retryFault fn fid) = _
    simp only [State.retryFault, hnone]
  · change Host.Outcome.next (s.abortFault fn fid) = _
    simp only [State.abortFault, hnone]

variable {o : OpenFault} (hopen : s.faults.find? (fun o => o.fn == fn && o.entry && o.id == fid) = some o)
include hopen

theorem exec_retry_open : exec (.retry fn fid) s = .next (o.moves.foldl (fun s m => match s.move? m.1 m.2 with
    | some x => if x.fid == some fid then s.setMove m.1 { x with fid := none } else s
    | none => s) (s.closeFault fn fid)) := by
  change Host.Outcome.next (s.retryFault fn fid) = _
  simp only [State.retryFault, hopen] <;> rfl

theorem exec_abort_open : exec (.abort fn fid) s = .next (o.moves.foldl (fun s m => match s.move? m.1 m.2 with
    | some x => if x.fid == some fid then s.moveFault m.1 x 6 o.va true else s
    | none => s) (s.closeFault fn fid)) := by
  change Host.Outcome.next (s.abortFault fn fid) = _
  simp only [State.abortFault, hopen] <;> rfl

end Resume

/-- Settles O16: a walk by its translation, and a resumption by whether its fault is open. -/
theorem moveTranslation : Obligations.MoveTranslation := by
  unfold Obligations.MoveTranslation
  refine ⟨fun s s1 n tag va m m1 a acc t hm hstarted hfid hpage hxlate => ?walk, fun s fn fid => ?resume⟩
  case walk =>
    exact ⟨exec_translationWalk_passes hm hstarted hfid hpage hxlate, exec_translationWalk_fails hm hstarted hfid hpage hxlate,
      exec_replayableFault_stalls hm hstarted hfid hpage hxlate⟩
  case resume =>
    exact ⟨exec_resume_no_fault, fun o hopen => ⟨exec_retry_open hopen, exec_abort_open hopen⟩⟩

/-! ## Engine exceptions (R88, R90) -/

theorem exec_engineException_stops {s t : State} {n e : Nat} {x : ExcSrc} (hrunning : (s.core n).running = true)
    (hgoing : (s.core n).stopped = false) (hlow : 6 ≤ x.kind) (hhigh : x.kind ≤ 0xB) (hwork : (s.core n).cur.hasWork x = true)
    (he : e = if x.slot = 3 then 6 + x.eng else if x.slot = 2 then 4 + x.eng else x.eng)
    (ht : t = s.recordExc n false ((s.core n).cur.workBundle x) x) :
    exec (.engineException n x) s = .next ((t.stopCore n (t.coreFn n).1).failLaunch n (kindStatus x.kind) x.kind
      (0x3000 + 8 * n + e) x.va x.tag true) := by
  subst he ht
  change Host.Outcome.next (s.engineExc n x) = _
  simp [State.engineExc, hrunning, hgoing, hlow, hhigh, hwork]

/-! ## Blocks of sieve moves (R157, R166, R167) -/

/-- A refused block reports one of the causes that it fails by (log 36). -/
theorem State.failBlock_reports (s : State) (n : Nat) (m : MoveOp) {fails : List Nat} (hfails : fails ≠ []) :
    ∃ c ∈ fails, s.failBlock n m fails = s.draw.2.refuseBlock n m c := by
  have hlt : s.draw.1 % fails.length < fails.length := Nat.mod_lt _ (List.length_pos_iff.mpr hfails)
  exact ⟨fails[s.draw.1 % fails.length], List.getElem_mem hlt, by simp [State.failBlock, hlt]⟩

theorem State.failBlock_one (s : State) (n : Nat) (m : MoveOp) (c : Nat) : s.failBlock n m [c] = s.draw.2.refuseBlock n m c := by
  simp [State.failBlock, Nat.mod_one]

section Block

variable {s s1 s2 : State} {n tag : Nat} {m m1 m2 : MoveOp} {blk hdr : List Byte} (hm : s.move? n tag = some m)
  (hstarted : m.started = true) (hfid : m.fid = none) (hsieve : m.isSieve = true) (hleft : m.outAt < m.total) (isBad : Bool)
include hm hstarted hfid hsieve hleft

/-- A block that the stream's end cuts within its header. -/
theorem State.sieveBlock_no_header (hheader : s.sieveBytes n blk 3 m m.srcAt 16 = (.short, m1, s1)) :
    s.sieveBlock n tag blk isBad = (s1.setMove n m1).draw.2.refuseBlock n m1 5 := by
  simp [State.sieveBlock, hm, hstarted, hfid, hsieve, hleft, hheader, State.failBlock_one]

/-- A block whose header arrived poisoned has no length (log 114). -/
theorem State.sieveBlock_poisoned_header (hheader : s.sieveBytes n blk 3 m m.srcAt 16 = (.bytes hdr true, m1, s1)) :
    s.sieveBlock n tag blk isBad = (s1.setMove n m1).draw.2.refuseBlock n m1 6 := by
  simp [State.sieveBlock, hm, hstarted, hfid, hsieve, hleft, hheader, State.failBlock_one]

variable (hheader : s.sieveBytes n blk 3 m m.srcAt 16 = (.bytes hdr false, m1, s1)) {len : Nat}
  (hlen : len = if yebHeader hdr then yebLen hdr else 16)
include hheader hlen

/-- A block that the stream's end cuts behind its header. -/
theorem State.sieveBlock_cut (hbody : s1.sieveBytes n blk 4 m1 m1.srcAt len = (.short, m2, s2)) :
    s.sieveBlock n tag blk isBad = (s2.setMove n m2).draw.2.refuseBlock n m2 5 := by
  subst hlen
  simp [State.sieveBlock, hm, hstarted, hfid, hsieve, hleft, hheader, hbody, State.failBlock_one]

/-- A block that is here whole delivers its bytes, or fails by the causes of its checks. -/
theorem State.sieveBlock_whole {b out : List Byte} {bb : Bool} {fails : List Nat}
    (hbody : s1.sieveBytes n blk 4 m1 m1.srcAt len = (.bytes b bb, m2, s2))
    (hcheck : yebCheck b (s2.sieveTable (s2.coreFn n).1 m2 (yebTable b)) (isBad || bb) (m2.total - m2.outAt) = (fails, out)) :
    s.sieveBlock n tag blk isBad = if fails.isEmpty then
      (s2.sieveOut n m2 out).setMove n { m2 with srcAt := m2.srcAt + len, outAt := m2.outAt + out.length }
    else (s2.setMove n m2).failBlock n m2 fails := by
  subst hlen
  simp [State.sieveBlock, hm, hstarted, hfid, hsieve, hleft, hheader, hbody, hcheck]

end Block

/-- Settles O17: an exception by its work, and a block by what of it is here and by its checks. -/
theorem engineExceptionsAndBlocks : Obligations.EngineExceptionsAndBlocks := by
  unfold Obligations.EngineExceptionsAndBlocks
  refine ⟨fun s n e x hrunning hgoing hlow hhigh hwork he =>
    exec_engineException_stops hrunning hgoing hlow hhigh hwork he rfl, ?block⟩
  intro s s1 s2 n tag len blk hdr b out isBad hb bb m m1 m2 fails hm hstarted hfid hsieve hleft
  have decodes {t : State} (h : s.sieveBlock n tag blk isBad = t) : exec (.sieveBlockDecode n tag blk isBad) s = .next t :=
    h ▸ rfl
  refine ⟨fun hheader => decodes (State.sieveBlock_no_header hm hstarted hfid hsieve hleft isBad hheader), fun hheader =>
    ⟨?poisoned, ?clean⟩⟩
  case poisoned =>
    rintro rfl
    exact decodes (State.sieveBlock_poisoned_header hm hstarted hfid hsieve hleft isBad hheader)
  case clean =>
    rintro rfl hlen
    refine ⟨fun hbody => decodes (State.sieveBlock_cut hm hstarted hfid hsieve hleft isBad hheader hlen hbody),
      fun hbody hcheck => ?_⟩
    have hwhole := decodes (State.sieveBlock_whole hm hstarted hfid hsieve hleft isBad hheader hlen hbody hcheck)
    refine ⟨fun hpasses => ?_, fun hfails => ?_⟩
    · rw [hwhole, hpasses]
      rfl
    · obtain ⟨c, hc, hreports⟩ := (s2.setMove n m2).failBlock_reports n m2 hfails
      refine ⟨c, hc, ?_⟩
      rw [hwhole, if_neg (by simpa using hfails), hreports]

end Sys2Proof.Machine
end

section
/-! SUPPORT. What the preload of a launch and its start on a core do (R70, R79, R81, R393, R512): one equation per case; and the
statement that they settle. -/

namespace Sys2Proof.Machine

open Sys2Proof

/-! ## Preload (R79, R81, R512) -/

section Begin

variable {s : State} {n : Nat} {l : Launch} (hnext : s.nextFor n = some l) (hphase : l.phase ≤ 1)
  (hshut : s.coreShut n = false) (hunloaded : ((s.core n).preload.any fun p => p.launch == l.id) = false)
include hnext hphase hshut hunloaded

theorem exec_preloadStart_free (hfree : (s.core n).launch = none) :
    exec (.preloadStart n) s = .next (s.setCore n { s.core n with
      preload := some { launch := l.id, half := 0, started := true, done := false, fid := none } }) := by
  change Host.Outcome.next (s.startPreload n) = _
  simp only [State.startPreload, hnext, hphase.not_gt, hshut, hunloaded, hfree, decide_false, Bool.or_self, Bool.false_eq_true,
    if_false]

/-- A core that another launch holds past its first BEAT.END loads the half that this launch leaves free. -/
theorem exec_preloadStart_held (hheld : (s.core n).launch ≠ none) (hend : (s.core n).firstEnd = true)
    (hhalf : (s.core n).len ≤ 1024) (hfits : l.bundles ≤ 1024) :
    exec (.preloadStart n) s = .next (s.setCore n { s.core n with
      preload := some { launch := l.id, half := 1 - (s.core n).half, started := true, done := false, fid := none } }) := by
  obtain ⟨id, hid⟩ := Option.ne_none_iff_exists'.mp hheld
  change Host.Outcome.next (s.startPreload n) = _
  simp only [State.startPreload, hnext, hphase.not_gt, hshut, hunloaded, hid, hend, hhalf, hfits, decide_false, decide_true,
    Bool.or_self, Bool.and_self, Bool.false_eq_true, if_false, if_true]

end Begin

section Complete

variable {s s1 : State} {n k : Nat} {ext e1 bin : List Byte} {p : Preload} {l : Launch} (hp : (s.core n).preload = some p)
  (hl : s.launch? p.launch = some l) (hstarted : p.started = true) (hundone : p.done = false)
include hp hl hstarted hundone

theorem exec_preloadComplete_no_binary (hbin : s.preRead n l .bin l.prog (32 * l.bundles) ext = .fail k s1) :
    exec (.preloadComplete n ext) s = .next (s1.preloadFailed n l k) := by
  change Host.Outcome.next (s.completePreload n ext) = _
  simp only [State.completePreload, hp, hl, hstarted, hundone, hbin, Bool.not_true, Bool.or_self, Bool.false_eq_true, if_false]

variable (hbin : s.preRead n l .bin l.prog (32 * l.bundles) ext = .ok bin e1 s1)
include hbin

theorem exec_preloadComplete_no_constants {s2 : State}
    (hconst : s1.preRead n l .const l.constVa (1024 * l.constKib) e1 = .fail k s2) :
    exec (.preloadComplete n ext) s = .next (s2.preloadFailed n l k) := by
  change Host.Outcome.next (s.completePreload n ext) = _
  simp only [State.completePreload, hp, hl, hstarted, hundone, hbin, hconst, Bool.not_true, Bool.or_self, Bool.false_eq_true,
    if_false]

/-- The binary fills the preload's half of the instruction region, the constants begin the staging region, and the binary is
measured once for its launch (R393). -/
theorem exec_preloadComplete_loads {s2 s3 s4 : State} {cst e2 : List Byte}
    (hconst : s1.preRead n l .const l.constVa (1024 * l.constKib) e1 = .ok cst e2 s2) (hs3 : s3 = s2.endReads [0, n, l.id])
    (hs4 : s4 = s3.setCore n { s3.core n with
      cur := { (s3.core n).cur with
        store := ((s3.core n).cur.store.setRun (0x1F0000 + p.half * 0x8000) bin).setRun 0x1B0000 cst }
      preload := some { p with done := true } }) :
    exec (.preloadComplete n ext) s = .next (if l.measured then s4
      else (s4.updLaunch l.id fun l => { l with measured := true }).measure l.fn
        (beBytes 48 (Config.sha384 bin).toNat)) := by
  subst hs3 hs4
  change Host.Outcome.next (s.completePreload n ext) = _
  simp only [State.completePreload, hp, hl, hstarted, hundone, hbin, hconst, halfAt, stagingAt, Bool.not_true, Bool.or_self,
    Bool.false_eq_true, if_false]

end Complete

/-! ## Start (R70, R81) -/

/-- A free core takes next the launch that it has loaded. -/
theorem State.startDue_loaded {s : State} {n : Nat} {l : Launch} {p : Preload} (hfree : (s.core n).launch = none)
    (hidle : (s.core n).running = false) (hshut : s.coreShut n = false) (hstays : s.movingCore n = false)
    (hnext : s.nextFor n = some l) (hp : (s.core n).preload = some p) (hmine : p.launch = l.id) (hdone : p.done = true) :
    s.startDue n = some (l, p.half) := by
  simp [State.startDue, hfree, hidle, hshut, hstays, hnext, hp, hmine, hdone]

/-- Settles O18: each clause is one case of the preload's start, of its completion, or of the launch's start. -/
theorem launchLoading : Obligations.LaunchLoading := by
  unfold Obligations.LaunchLoading
  refine ⟨fun s n l hnext hphase hshut hunloaded => ?preload,
    fun s s1 s2 s3 s4 n k ext e1 e2 bin cst p l hp hl hstarted hundone => ?complete,
    fun s n l p hfree hidle hshut hstays hnext hp hmine hdone => ?start⟩
  case preload =>
    exact ⟨exec_preloadStart_free hnext hphase hshut hunloaded, exec_preloadStart_held hnext hphase hshut hunloaded⟩
  case complete =>
    exact ⟨exec_preloadComplete_no_binary hp hl hstarted hundone, fun hbin =>
      ⟨exec_preloadComplete_no_constants hp hl hstarted hundone hbin, exec_preloadComplete_loads hp hl hstarted hundone hbin⟩⟩
  case start =>
    change Host.Outcome.next (s.launchCore n) = _
    rw [State.launchCore, State.startDue_loaded hfree hidle hshut hstays hnext hp hmine hdone]

end Sys2Proof.Machine
end

section
/-! SUPPORT. Why SEQ_BIND does more than bind its slot (R86, R332): a core whose block runs past the present edge keeps the slot as
its block has seen it; and the statement that this refutes. -/

namespace Sys2Proof.Machine

open Sys2Proof

/-- The record of a SEQ_BIND of slot 0 with one token to a page, fetched before the present beat. -/
def bindRec : QRec :=
  { sq := 0, w := BitVec.ofNat 512 (0x1E + 2 ^ (8 * 16)), st := 0, status := 0, beat := 0, stallFrom := 0, willRecord := false
    fresh := false, badRead := false, sealBad := false, sgen := 0, detail := 0 }

/-- A package in RUN whose partition 0 is in use and has the sequence slots 0 to 7, with that record on queue 0 of its function
and its context 0 live, while core 0 runs a block. -/
def bindingState : State :=
  let s := (((State.reset.setFld 0 0 Reg.PWR_STAT.STATE 3).setFld 0 0 Reg.DCTL_COMP_PART0.STATE 1).setFld 1 0
    Reg.QCFG_QSTAT.STATE 1).setFld 1 0 Reg.PCTL_COMP_SEQ.SEQ 1
  (({ s with ctxs := [(key2 1 0, Ctx.fresh false 0)] } : State).setQueue 1 0 { Queue.fresh with recs := [bindRec] }).setCore 0
    { Core.idle with running := true }

/-- The slot as the record binds it. -/
def boundSlot : SeqSlot := { fn := 1, ctx := 0, tokens := 0, pageTokens := 1, pages := [], overflow := 0 }

/-- The record's start. -/
def bindingStarted : State := startedRec bindingState 1 0 bindRec bindRec.w

theorem bindingState_runs : runs bindingState 1 0 0x1E bindingStarted (cmdOf 1 0 bindRec bindRec.w) 0 := by
  have hcheck : bindingStarted.cmdCheck (cmdOf 1 0 bindRec bindRec.w) = 0 := by decide +kernel
  have hstart : bindingState.startable 1 0 = some bindRec := by decide +kernel
  have hopen : bindingState.openRec 1 0 0 bindRec.w = some bindRec.w := by decide +kernel
  have hform : recWf bindRec.w = true := by decide +kernel
  exact ⟨hcheck, by decide +kernel,
    .inl ⟨bindRec, bindRec.w, hstart, by decide +kernel, rfl, rfl, hopen, hform, rfl, rfl, rfl⟩⟩

/-- What core 0 keeps of the slots that change under its block. -/
def keptByCore0 (o : Host.Outcome State Fault Refusal) : List (Nat × Option SeqSlot) :=
  match o with
  | .next s => (s.core 0).oldSlots
  | _ => []

/-- The model's SEQ_BIND leaves core 0 a note that slot 0 was unbound (R86). -/
theorem seqBind_keeps_slot : keptByCore0 (exec (.seqBind 1 0) bindingState) = [(0, none)] := by decide +kernel

/-- The binding alone leaves none. -/
theorem binding_alone_keeps_none : keptByCore0 (.next (({ bindingStarted with
    slots := bindingStarted.slots.put 0 boundSlot } : State).done (cmdOf 1 0 bindRec bindRec.w) 0)) = [] := by
  decide +kernel

/-- Refutes O29: SEQ_BIND of a slot that is the partition's and unbound also leaves each core whose block runs past the present
edge the slot as it was, which the clause on SEQ_BIND leaves out. -/
theorem not_contextCommands : ¬ Obligations.ContextCommands := by
  unfold Obligations.ContextCommands
  intro h
  obtain ⟨-, -, -, hslots⟩ := h bindingState bindingStarted 1 0 0 (cmdOf 1 0 bindRec bindRec.w) []
  obtain ⟨hbind, -, -⟩ := hslots (recHandle bindRec.w) rfl
  have hi : recHandle bindRec.w = 0 := by decide +kernel
  rw [hi] at hbind
  have hclause := (hbind bindingState_runs).1 boundSlot (by decide +kernel) (by decide +kernel) (by decide +kernel)
  have hkept := congrArg keptByCore0 hclause
  rw [seqBind_keeps_slot, binding_alone_keeps_none] at hkept
  exact absurd hkept (List.cons_ne_nil _ _)

end Sys2Proof.Machine
end

section
/-! SUPPORT. What scalar slots do when they issue (R96 to R105): the words' fields and arithmetic, the issue of an SR- or
SI-format instruction, the faults of a core-store access; and the statements that they settle. -/

namespace Sys2Proof.Machine

open Sys2Proof

/-! ## Fields and numbers as words -/

theorem opf_eq_toNat (f : BitVec 54) (hi lo : Nat) : opf f hi lo = (f.extractLsb' lo (hi - lo + 1)).toNat := by
  rw [opf, bits, BitVec.extractLsb'_toNat, Nat.shiftRight_eq_div_pow]

/-- The two's complement reading of a word's number is the word's signed value. -/
theorem signed_toNat {w : Nat} (v : BitVec w) : signed v.toNat w = v.toInt := by
  rw [signed, Nat.mod_eq_of_lt v.isLt, BitVec.toInt_eq_toNat_cond]
  cases w with
  | zero => simp [BitVec.of_length_zero]
  | succ w =>
    have hhalf : 2 * v.toNat < 2 ^ (w + 1) ↔ v.toNat < 2 ^ w := by rw [Nat.pow_succ]; omega
    simp only [hhalf, Nat.add_sub_cancel]

theorem wrap_eq_toNat (i : Int) (w : Nat) : wrap i w = (BitVec.ofInt w i).toNat := by
  rw [BitVec.toNat_ofInt, wrap]

theorem siImm_eq_toNat (f : BitVec 54) : siImm f = (f.extractLsb' 0 32).toNat := opf_eq_toNat f 31 0

theorem sext32_toNat (v : BitVec 32) : sext32 v.toNat = v.signExtend 64 := by
  rw [sext32, signed_toNat, BitVec.signExtend]

/-! ## Arithmetic (R97, R98) -/

theorem divS_eq_sdiv (a b : U64) : divS a b = if b = 0 then BitVec.allOnes 64 else a.sdiv b := by
  unfold divS
  split
  · rfl
  · exact BitVec.eq_of_toInt_eq (by rw [BitVec.toInt_ofInt, BitVec.toInt_sdiv])

theorem remS_eq_srem (a b : U64) : remS a b = a.srem b := by
  unfold remS
  split
  · next hb => subst hb; exact (BitVec.srem_zero).symm
  · rw [← BitVec.toInt_srem, BitVec.ofInt_toInt]

theorem divU_eq_udiv (a b : U64) : BitVec.ofNat 64 (a.toNat / b.toNat) = a / b :=
  BitVec.eq_of_toNat_eq (by
    rw [BitVec.toNat_ofNat, BitVec.toNat_udiv, Nat.mod_eq_of_lt ((Nat.div_le_self _ _).trans_lt a.isLt)])

theorem remU_eq_umod (a b : U64) : (if b = 0 then a else BitVec.ofNat 64 (a.toNat % b.toNat)) = a % b := by
  split
  · next hb => subst hb; exact (BitVec.umod_zero).symm
  · exact BitVec.eq_of_toNat_eq (by
      rw [BitVec.toNat_ofNat, BitVec.toNat_umod, Nat.mod_eq_of_lt ((Nat.mod_le _ _).trans_lt a.isLt)])

theorem mulHigh_eq_extract (a b : U64) :
    BitVec.ofNat 64 (a.toNat * b.toNat / 2 ^ 64) = (a.zeroExtend 128 * b.zeroExtend 128).extractLsb' 64 64 := by
  have hprod : a.toNat * b.toNat < 2 ^ 128 :=
    (Nat.mul_lt_mul'' a.isLt b.isLt).trans_eq (by norm_num)
  apply BitVec.eq_of_toNat_eq
  rw [BitVec.extractLsb'_toNat, BitVec.toNat_mul, BitVec.toNat_ofNat, Nat.shiftRight_eq_div_pow]
  have ha : a.toNat < 2 ^ 128 := a.isLt.trans (by norm_num)
  have hb : b.toNat < 2 ^ 128 := b.isLt.trans (by norm_num)
  simp only [BitVec.zeroExtend_eq_setWidth, BitVec.toNat_setWidth, Nat.mod_eq_of_lt ha, Nat.mod_eq_of_lt hb,
    Nat.mod_eq_of_lt hprod]

theorem lessU_signed (a b : U64) : lessU false a b = a.slt b := rfl

theorem lessU_unsigned (a b : U64) : (lessU true a b = true) = (a < b) := by
  simp [lessU, BitVec.lt_def]

/-- The low bits of a word are its number's remainder. -/
theorem extract_low_toNat {w : Nat} (v : BitVec w) (n : Nat) : (v.extractLsb' 0 n).toNat = v.toNat % 2 ^ n := by
  rw [BitVec.extractLsb'_toNat, Nat.shiftRight_zero]

/-- The count of a shift by a register (R97). -/
theorem extract_six (b : U64) : (b.extractLsb' 0 6).toNat = b.toNat % 64 := extract_low_toNat b 6

/-- The number that two words make up, the lower one first, as one word. -/
theorem ofNat_append {m n : Nat} (hi : BitVec m) (lo : BitVec n) :
    BitVec.ofNat (m + n) (lo.toNat + hi.toNat * 2 ^ n) = hi ++ lo := by
  have hsum : lo.toNat + hi.toNat * 2 ^ n = (hi ++ lo).toNat := by
    rw [BitVec.toNat_append, ← Nat.shiftLeft_add_eq_or_of_lt lo.isLt, Nat.shiftLeft_eq, Nat.add_comm]
  rw [hsum, BitVec.ofNat_toNat, BitVec.setWidth_eq]

/-- LIH keeps the low half of D under IMM. -/
theorem lih_eq_append (d : U64) (i : BitVec 32) :
    BitVec.ofNat 64 (d.toNat % 2 ^ 32 + i.toNat * 2 ^ 32) = i ++ d.extractLsb' 0 32 := by
  rw [← ofNat_append, extract_low_toNat]

/-! ## SR and SI formats (R96 to R98) -/

theorem fieldOk_of {isA : Bool} {r : Nat} (h : isA = true → r < 16) : fieldOk isA r = true := by
  cases isA <;> simp [fieldOk, h]

section Scalar

variable {s : State} {x : Slot} {i : Instr} {v : U64}

section SR

variable (h : slotGoes s x 0 (scalars [(srAD x.f, srD x.f), (srAA x.f, srA x.f), (srAB x.f, srB x.f)])
    [dstNo (srAD x.f) (srD x.f)]) (heng : sEng x.f = 0) (hlow : opf x.f 25 0 = 0)
  (hD : srAD x.f = true → srD x.f < 16) (hA : srAA x.f = true → srA x.f < 16) (hB : srAB x.f = true → srB x.f < 16)
include h heng hlow hD hA hB

/-- An SR-format instruction gives D its function of A and B. -/
theorem exec_srFormat {useU : Bool} {g : Bool → U64 → U64 → U64} (hexec : exec i s = .next (scalarSR x useU g s))
    (hU : useU = true ∨ srU x.f = false)
    (hv : g (srU x.f) ((slotBase s x).src (srAA x.f) (srA x.f)) ((slotBase s x).src (srAB x.f) (srB x.f)) = v) :
    exec i s = .next (afterS s x ((slotCur s x).dst (srAD x.f) (srD x.f) v) none) := by
  have hok : (srReq useU x.f).ok = true := by
    simpa [srReq, heng, hlow, fieldOk_of hD, fieldOk_of hA, fieldOk_of hB] using hU
  rw [hexec, scalarSR, issue_afterS rfl h hok rfl rfl, hv]

end SR

section SI

variable (h : slotGoes s x 0 (scalars [(srAD x.f, srD x.f), (srAA x.f, srA x.f)]) [dstNo (srAD x.f) (srD x.f)])
  (heng : sEng x.f = 0) (hAB : srAB x.f = false) (hU : srU x.f = false)
  (hD : srAD x.f = true → srD x.f < 16) (hA : srAA x.f = true → srA x.f < 16)
include h heng hAB hU hD hA

/-- An SI-format instruction whose immediate passes gives D its function of D, A and IMM. -/
theorem exec_siFormat {noA : Bool} {chk : Nat → Bool} {g : U64 → U64 → Nat → U64}
    (hexec : exec i s = .next (scalarSI x noA chk g s)) (hnoA : noA = true → srA x.f = 0) (hchk : chk (siImm x.f) = true)
    (hv : g ((slotBase s x).src (srAD x.f) (srD x.f)) ((slotBase s x).src (srAA x.f) (srA x.f)) (siImm x.f) = v) :
    exec i s = .next (afterS s x ((slotCur s x).dst (srAD x.f) (srD x.f) v) none) := by
  have hnoA' : (!noA || srA x.f == 0) = true := by
    cases noA
    · rfl
    · simpa using hnoA
  have hok : (siReq noA chk x.f).ok = true := by
    simp only [siReq, heng, hAB, hU, fieldOk_of hD, fieldOk_of hA, hnoA', hchk]
    rfl
  rw [hexec, scalarSI, issue_afterS rfl h hok rfl rfl, hv]

end SI

end Scalar

/-- Settles O1: each instruction's word is in form, and its function of numbers is the word operation. -/
theorem scalarResults : Obligations.ScalarResults := by
  unfold Obligations.ScalarResults
  refine ⟨?sr, ?si⟩
  case sr =>
    rintro s x _ _ h heng hlow hD hA hB rfl rfl
    have sr {i v g} {useU : Bool} := @exec_srFormat s x i v h heng hlow hD hA hB useU g
    simp only [List.forall_mem_cons, List.not_mem_nil, false_implies, implies_true, and_true]
    refine ⟨fun hU => ?signed, fun hU => ⟨sr rfl (.inl rfl) ?_, sr rfl (.inl rfl) ?_⟩⟩
    case signed =>
      refine ⟨sr rfl (.inr hU) rfl, sr rfl (.inr hU) rfl, sr rfl (.inr hU) rfl, sr rfl (.inr hU) (mulHigh_eq_extract _ _),
        sr rfl (.inr hU) (divS_eq_sdiv _ _), sr rfl (.inr hU) ?divu, sr rfl (.inr hU) (remS_eq_srem _ _),
        sr rfl (.inr hU) (remU_eq_umod _ _), sr rfl (.inr hU) rfl, sr rfl (.inr hU) rfl, sr rfl (.inr hU) rfl,
        sr rfl (.inr hU) ?shl, sr rfl (.inr hU) ?shr, sr rfl (.inr hU) ?sra, sr rfl (.inl rfl) ?min, sr rfl (.inl rfl) ?max⟩
      case divu => simp only [divU_eq_udiv]
      case shl => rw [BitVec.shiftLeft_eq', extract_six]
      case shr => rw [BitVec.ushiftRight_eq', extract_six]
      case sra => rw [BitVec.sshiftRight', extract_six]
      case min => simp only [hU, lessU_signed]
      case max => simp only [hU, lessU_signed]
    all_goals simp only [hU, lessU_unsigned]
  case si =>
    rintro s x _ _ _ h heng hAB hU hD hA rfl rfl rfl
    have si {i v noA chk g} := @exec_siFormat s x i v h heng hAB hU hD hA noA chk g
    simp only [List.forall_mem_cons, List.not_mem_nil, false_implies, implies_true, and_true, siImm_eq_toNat] at si ⊢
    refine ⟨⟨si rfl nofun rfl ?addi, si rfl nofun rfl ?andi, si rfl nofun rfl ?ori, si rfl nofun rfl ?xori⟩,
      fun hshift => ?shifts,
      fun hA0 => ⟨si rfl (fun _ => hA0) rfl (sext32_toNat _), si rfl (fun _ => hA0) rfl (lih_eq_append _ _)⟩⟩
    case addi => rw [sext32_toNat]
    case andi | ori | xori => rw [BitVec.ofNat_toNat]
    case shifts =>
      have hlt : (x.f.extractLsb' 0 32).toNat < 64 := hshift
      have hmod := Nat.mod_eq_of_lt hlt
      have hchk : immShift (x.f.extractLsb' 0 32).toNat = true := decide_eq_true hlt
      refine ⟨si rfl nofun hchk ?shli, si rfl nofun hchk ?shri, si rfl nofun hchk ?srai⟩
      case shli => rw [hmod, BitVec.shiftLeft_eq']
      case shri => rw [hmod, BitVec.ushiftRight_eq']
      case srai => rw [hmod, BitVec.sshiftRight']

/-! ## Compare and predicates (R99) -/

/-- The conditions of CMP and CMPI as comparisons of words. -/
theorem cond64_eq (a b : U64) :
    ∀ e ∈ [(0, a == b), (1, a != b), (2, a.slt b), (3, !a.slt b), (4, a.ult b), (5, !a.ult b), (6, a &&& b != 0)],
      cond64 e.1 a b = some e.2 := by
  simp only [List.forall_mem_cons, List.not_mem_nil, false_implies, implies_true, and_true]
  refine ⟨rfl, rfl, rfl, ?_, rfl, ?_, rfl⟩
  · simp [cond64, BitVec.slt, ← decide_not]
  · simp [cond64, BitVec.ult, ← decide_not]

theorem cond64_isSome_of_eq {c : Nat} {a b : U64} {r : Bool} (h : cond64 c a b = some r) (a' b' : U64) :
    (cond64 c a' b').isSome = true := by
  revert h
  unfold cond64
  split <;> simp

theorem pop_eq (a b : Bool) :
    ∀ e ∈ [(0, a && b), (1, a || b), (2, xor a b), (3, a && !b), (4, a), (5, !a)], pop e.1 a b = some e.2 := by
  simp only [List.forall_mem_cons, List.not_mem_nil, false_implies, implies_true, and_true]
  exact ⟨rfl, rfl, rfl, rfl, rfl, rfl⟩

theorem pop_isSome_of_eq {c : Nat} {a b r : Bool} (h : pop c a b = some r) (a' b' : Bool) : (pop c a' b').isSome = true := by
  revert h
  unfold pop
  split <;> simp

theorem or_one_eq (n : Nat) : n ||| 1 = n / 2 * 2 + 1 := by
  have hdiv : (n ||| 1) / 2 = n / 2 := by rw [Nat.or_div_two, Nat.or_zero]
  have hmod : (n ||| 1) % 2 = 1 := Nat.or_mod_two_eq_one.mpr (.inr rfl)
  omega

/-- PMOV of DIR 0 reads p0 as true. -/
theorem pmov_reads (p : BitVec 8) : BitVec.ofNat 64 (p.toNat / 2 * 2 + 1) = (p ||| 1).zeroExtend 64 := by
  rw [← or_one_eq, BitVec.zeroExtend_eq_setWidth, ← BitVec.ofNat_toNat, BitVec.toNat_or]
  rfl

/-- PMOV of DIR 1 leaves p0 true. -/
theorem pmov_writes (a : U64) : BitVec.ofNat 8 (a.toNat % 256 / 2 * 2 + 1) = a.extractLsb' 0 8 ||| 1 := by
  have hbyte : a.toNat % 256 = (a.extractLsb' 0 8).toNat := (extract_low_toNat a 8).symm
  rw [← or_one_eq, hbyte, BitVec.ofNat_or, BitVec.ofNat_toNat, BitVec.setWidth_eq]
  rfl

section Predicates

variable {s : State} {x : Slot} (heng : sEng x.f = 0)
include heng

theorem exec_cmp_gives {r : Bool} (hmid : opf x.f 40 38 = 0) (hlow : opf x.f 25 0 = 0)
    (h : slotGoes s x 0 [opf x.f 37 32, opf x.f 31 26] [dP (opf x.f 43 41)])
    (hcond : cond64 (sMod x.f) ((slotBase s x).rs (opf x.f 37 32)) ((slotBase s x).rs (opf x.f 31 26)) = some r) :
    exec (.cmp x) s = .next (afterS s x { slotCur s x with p := writeP (slotCur s x).p (opf x.f 43 41) r } none) := by
  refine congrArg Host.Outcome.next (issue_afterS rfl h ?_ rfl ?_)
  · simp [heng, hmid, hlow, cond64_isSome_of_eq hcond]
  · simp only [srA, srB, hcond]
    rfl

theorem exec_cmpi_gives {r : Bool} (hmid : opf x.f 40 38 = 0) (h : slotGoes s x 0 [opf x.f 37 32] [dP (opf x.f 43 41)])
    (hcond : cond64 (sMod x.f) ((slotBase s x).rs (opf x.f 37 32)) ((x.f.extractLsb' 0 32).signExtend 64) = some r) :
    exec (.cmpi x) s = .next (afterS s x { slotCur s x with p := writeP (slotCur s x).p (opf x.f 43 41) r } none) := by
  refine congrArg Host.Outcome.next (issue_afterS rfl h ?_ rfl ?_)
  · simp [heng, hmid, cond64_isSome_of_eq hcond]
  · simp only [srA, siImm_eq_toNat, sext32_toNat, hcond]
    rfl

theorem exec_pset_gives {r : Bool} (hlow : opf x.f 34 0 = 0) (h : slotGoes s x 0 [] [dP (opf x.f 43 41)])
    (hpop : pop (sMod x.f) (readP (slotBase s x).p (opf x.f 40 38)) (readP (slotBase s x).p (opf x.f 37 35)) = some r) :
    exec (.pset x) s = .next (afterS s x { slotCur s x with p := writeP (slotCur s x).p (opf x.f 43 41) r } none) := by
  refine congrArg Host.Outcome.next (issue_afterS rfl h ?_ rfl ?_)
  · simp [heng, hlow, pop_isSome_of_eq hpop]
  · simp only [hpop]
    rfl

end Predicates

/-- Settles O2: the slot's condition is a comparison of words, and PMOV reads and leaves p0 true. -/
theorem predicateResults : Obligations.PredicateResults := by
  unfold Obligations.PredicateResults
  rintro s x A B I _ p heng rfl rfl rfl rfl rfl
  refine ⟨fun h hmid hlow e he hmod => ?cmp, fun h hmid e he hmod => ?cmpi, fun h hlow a b ha hb e he hmod => ?pset,
    fun hhigh hlow => ⟨fun hdir h => ?read, fun hdir h => ?write⟩⟩
  case cmp => exact exec_cmp_gives heng hmid hlow h (hmod ▸ cond64_eq _ _ e he)
  case cmpi => exact exec_cmpi_gives heng hmid h (hmod ▸ cond64_eq _ _ e he)
  case pset =>
    subst ha hb
    exact exec_pset_gives heng hlow h (hmod ▸ pop_eq _ _ e he)
  case read =>
    refine congrArg Host.Outcome.next (issue_afterS rfl ?_ ?_ rfl ?_)
    · simp only [hdir]
      exact h
    · simp [heng, hhigh, hlow]
    · simp only [hdir, srD, pmov_reads]
      rfl
  case write =>
    refine congrArg Host.Outcome.next (issue_afterS rfl ?_ ?_ rfl ?_)
    · simp only [hdir]
      exact h
    · simp [heng, hhigh, hlow]
    · simp only [hdir, srA, pmov_writes]
      rfl

/-! ## Core-store access (R100) -/

/-- An S slot in form that runs into a fault, in a bundle without faults: the bundle takes it alone. -/
theorem issue_sFault {s : State} {x : Slot} {q : SlotReq} {ready : CoreState → Bool}
    {run : CoreState → CoreState → SlotRun} {e : ExcSrc} (hcls : q.cls = 0) (h : slotGoes s x 0 q.regs q.dests)
    (hok : q.ok = true) (hready : ready (slotBase s x) = true) (hrun : run (slotBase s x) (slotCur s x) = .error e)
    (hslot : e.slot = 0) (heng : e.eng = sEng x.f) : s.issue x q ready run = s.preciseExc x.core e [] := by
  obtain ⟨hop, htakes, ⟨hwait, hfaults, hcur⟩, hpc, hpred, hpend, hdests⟩ := h
  have hd : q.dests.any (s.core x.core).open.dests.contains = false := by
    simpa [List.any_eq_false, List.contains_iff_mem] using hdests
  have hpc' : ¬ (s.core x.core).len ≤ (s.core x.core).open.base.pc := Nat.not_le.mpr hpc
  have hnop : slotNop x q.always (s.core x.core).open.base.p = false := by
    simp only [slotBase] at hpred
    simp [slotNop, hop, hpred]
  simp only [slotBase, slotCur] at hpend hrun hready
  have htake : (s.core x.core).open.take x q ready run =
      ({ (s.core x.core).open with slots := (s.core x.core).open.slots + 2 ^ 0 } : OpenBundle).fault x 0 e := by
    simp [OpenBundle.take, hop, hok, hpend, hready, hd, hrun, hcls]
  have hnamed : { e with slot := 0, eng := sEng x.f } = e := by rw [← hslot, ← heng]
  simp only [State.issue, State.issueWith, hcls, htakes, hpc', hnop, htake, State.slotIn, Bool.not_true, Bool.false_eq_true,
    if_false, bne_self_eq_false, Bool.and_false]
  refine (closeBundle_faults (e := { e with slot := 0, eng := sEng x.f }) (es := []) ?_ ?_ ?_).trans (by rw [hnamed])
  · exact hwait
  · exact hcur
  · simp only [OpenBundle.inOrder, OpenBundle.fault, hfaults, List.nil_append]
    rfl

theorem lsOff_eq_toInt (f : BitVec 54) : lsOff f = (f.extractLsb' 0 24).toInt := by
  rw [lsOff, opf_eq_toNat, signed_toNat]

section LsCheck

variable {store firstEnd : Bool} {a : Int} {n : Nat}

theorem lsCheck_misaligned (h : a % n ≠ 0) : lsCheck store firstEnd a n = some { excOf 2 with va := wrap a 56 } :=
  if_pos h

theorem lsCheck_outside (halign : a % n = 0)
    (h : a < 0 ∨ 0x1F0000 < a + n ∨ store = true ∧ firstEnd = true ∧ 0x1B0000 < a + n) :
    lsCheck store firstEnd a n = some { excOf 3 with va := wrap a 56 } := by
  rw [lsCheck, if_neg (not_not.mpr halign)]
  split
  · rfl
  · next hin =>
    have hstaged : store = true ∧ firstEnd = true ∧ 0x1B0000 < a + n :=
      h.resolve_left (fun hneg => hin (.inl hneg)) |>.resolve_left fun hend => hin (.inr hend)
    obtain ⟨hstore, hfirst, hat⟩ := hstaged
    exact if_pos (by rw [hstore, hfirst]; exact decide_eq_true hat)

theorem lsCheck_passes (halign : a % n = 0) (hneg : 0 ≤ a) (hend : a + n ≤ 0x1F0000)
    (hstaged : store = true → firstEnd = true → a + n ≤ 0x1B0000) : lsCheck store firstEnd a n = none := by
  have hin : ¬(a < 0 ∨ (storeEnd : Int) < a + n) := by simp only [storeEnd]; omega
  have hat : ¬((store && firstEnd && decide ((stagingAt : Int) < a + n)) = true) := by
    rw [Bool.and_eq_true, Bool.and_eq_true]
    rintro ⟨⟨hstore, hfirst⟩, hover⟩
    exact absurd (hstaged hstore hfirst) (not_le.mpr (of_decide_eq_true hover))
  rw [lsCheck, if_neg (not_not.mpr halign), if_neg hin, if_neg hat]

end LsCheck

theorem lsStale_iff (firstEnd : Bool) (a : Int) (n : Nat) :
    lsStale firstEnd a n = true ↔ firstEnd = true ∧ 0x1B0000 < a + n := by
  rw [lsStale, Bool.and_eq_true, decide_eq_true_iff]
  rfl

/-- A loaded value is the word that its bytes make up, extended. -/
theorem lsExtend_eq (sx : Bool) (n v : Nat) :
    lsExtend sx n v = if sx then BitVec.ofInt 64 (BitVec.ofNat (8 * n) v).toInt else BitVec.ofNat 64 v := by
  rw [lsExtend, ← signed_toNat, BitVec.toNat_ofNat, signed, signed, Nat.mod_mod]

section Access

variable {s : State} {x : Slot} (heng : sEng x.f = 0) (hmid : opf x.f 33 24 = 0)
include heng hmid

section Load

variable (hclear : bitOf x.f.toNat 47 = false) (h : slotGoes s x 0 [srD x.f] [dS (srD x.f)])
include hclear h

theorem exec_ld_faults {e : ExcSrc} (hslot : e.slot = 0) (hnoEng : e.eng = 0)
    (hcheck : lsCheck false (s.core x.core).firstEnd (lsAddr (slotBase s x) x.f) (lsSize x.f) = some e) :
    exec (.ld x) s = .next (s.draw.2.preciseExc x.core e []) := by
  refine congrArg Host.Outcome.next (issue_sFault (s := s.draw.2) rfl h ?_ rfl ?_ hslot (hnoEng.trans heng.symm))
  · simp [heng, hmid, hclear]
  · have hsame : slotBase s.draw.2 x = slotBase s x := rfl
    simp only [hsame, hcheck]

theorem exec_ld_loads {v : Nat}
    (hcheck : lsCheck false (s.core x.core).firstEnd (lsAddr (slotBase s x) x.f) (lsSize x.f) = none)
    (hv : v = if (lsStale (s.core x.core).firstEnd (lsAddr (slotBase s x) x.f) (lsSize x.f) ||
        (slotBase s x).beingWritten (lsAddr (slotBase s x) x.f).toNat) = true then s.draw.1 % 2 ^ (8 * lsSize x.f)
      else leNat ((slotBase s x).store.getRun (lsAddr (slotBase s x) x.f).toNat (lsSize x.f))) :
    exec (.ld x) s = .next (afterS s.draw.2 x
      ((slotCur s x).ws (srD x.f) (lsExtend (bitOf x.f.toNat 46) (lsSize x.f) v)) none) := by
  subst hv
  refine congrArg Host.Outcome.next (issue_afterS (s := s.draw.2) rfl h ?_ rfl ?_)
  · simp [heng, hmid, hclear]
  · have hsame : slotBase s.draw.2 x = slotBase s x := rfl
    simp only [hsame, hcheck]
    rfl

end Load

section Store

variable (hhigh : opf x.f 47 46 = 0) (h : slotGoes s x 0 [srD x.f] [])
include hhigh h

theorem exec_st_faults {e : ExcSrc} (hslot : e.slot = 0) (hnoEng : e.eng = 0)
    (hcheck : lsCheck true (s.core x.core).firstEnd (lsAddr (slotBase s x) x.f) (lsSize x.f) = some e) :
    exec (.st x) s = .next (s.preciseExc x.core e []) := by
  refine congrArg Host.Outcome.next (issue_sFault rfl h ?_ rfl ?_ hslot (hnoEng.trans heng.symm))
  · simp [heng, hmid, hhigh]
  · simp only [hcheck]

theorem exec_st_stores
    (hcheck : lsCheck true (s.core x.core).firstEnd (lsAddr (slotBase s x) x.f) (lsSize x.f) = none) :
    exec (.st x) s = .next (afterS s x { slotCur s x with
      store := (slotCur s x).store.setRun (lsAddr (slotBase s x) x.f).toNat
        (leBytes (lsSize x.f) ((slotBase s x).rs (srD x.f)).toNat) } none) := by
  refine congrArg Host.Outcome.next (issue_afterS rfl h ?_ rfl ?_)
  · simp [heng, hmid, hhigh]
  · simp only [hcheck]

end Store

end Access

/-- Settles O3: the check of an access passes or names the fault, and the bundle issues or takes it. -/
theorem coreStoreAccess : Obligations.CoreStoreAccess := by
  unfold Obligations.CoreStoreAccess
  intro s s1 x a n v heng hmid ha hn hs1
  obtain rfl : a = lsAddr (slotBase s x) x.f := by rw [ha, lsAddr, lsOff_eq_toInt]
  obtain rfl : n = lsSize x.f := hn
  obtain rfl : s1 = s.draw.2 := hs1
  refine ⟨fun hclear h => ⟨fun hbad => ?_, fun hal hout => ?_, fun hal hneg hend hv => ?_⟩,
    fun hhigh h => ⟨fun hbad => ?_, fun hal hout => ?_, fun hal hneg hend hstaged => ?_⟩⟩
  · exact exec_ld_faults heng hmid hclear h rfl rfl (lsCheck_misaligned hbad)
  · exact exec_ld_faults heng hmid hclear h rfl rfl (lsCheck_outside hal (hout.imp_right .inl))
  · have hcheck := lsCheck_passes (store := false) hal hneg hend (firstEnd := (s.core x.core).firstEnd) nofun
    rw [← lsExtend_eq]
    refine exec_ld_loads heng hmid hclear h hcheck (hv.trans ?_)
    simp only [Bool.or_eq_true, lsStale_iff]
    rfl
  · exact exec_st_faults heng hmid hhigh h rfl rfl (lsCheck_misaligned hbad)
  · exact exec_st_faults heng hmid hhigh h rfl rfl
      (lsCheck_outside hal (hout.imp_right (.imp_right fun hstaged => ⟨rfl, hstaged⟩)))
  · exact exec_st_stores heng hmid hhigh h (lsCheck_passes hal hneg hend fun _ => hstaged)

/-! ## Branches, calls and loops (R101, R102) -/

theorem branchTo_within {len t : Nat} (h : t < len) (c : CoreState) : branchTo len t c = .ok (c, some t) := if_pos h

/-- A field both of whose parts are zero is zero. -/
theorem opf_zero_of_parts {f : BitVec 54} {hi mid lo : Nat} (hhigh : opf f hi (mid + 1) = 0) (hlow : opf f mid lo = 0)
    (hlo : lo ≤ mid) (hhi : mid < hi) : opf f hi lo = 0 := by
  simp only [opf, bits] at *
  have hsplit : hi - lo + 1 = (mid - lo + 1) + (hi - (mid + 1) + 1) := by omega
  have hplace : mid + 1 = lo + (mid - lo + 1) := by omega
  rw [hplace, Nat.pow_add, ← Nat.div_div_eq_div_mul, ← hplace] at hhigh
  rw [hsplit, Nat.pow_add, Nat.mod_mul, hlow, hhigh, Nat.mul_zero]

section Loop

variable {lc last count : Nat}

theorem startLoop_in_form {base cur : CoreState} (hlast : base.pc < last) (hdepth : base.loops.length < 4)
    (hinner : ∀ l ∈ base.loops, last ≤ l.last ∧ l.lc ≠ lc) :
    startLoop lc last count base cur = if count = 0 then .ok (cur, some (last + 1))
      else .ok ({ cur with loops := ⟨lc, base.pc + 1, last, count, 0⟩ :: cur.loops }, none) := by
  have hfits : (base.loops.any fun l => decide (l.last < last) || l.lc == lc) = false :=
    List.any_eq_false.mpr fun l hl => by simpa using hinner l hl
  rw [startLoop, if_neg hlast.not_ge, hfits, if_neg Bool.false_ne_true, if_neg hdepth.not_ge]

/-- A loop instruction in form begins its loop, or goes on after LEND for a count of zero. -/
theorem issue_loop {s : State} {x : Slot} {ok : Bool} {regs dests : List Nat} {run : CoreState → CoreState → SlotRun}
    (heng : sEng x.f = 0) (hok : ok = true) (h : slotGoes s x 0 regs dests)
    (hrun : run (slotBase s x) (slotCur s x) = startLoop lc last count (slotBase s x) (slotCur s x))
    (hlast : (slotBase s x).pc < last) (hdepth : (slotBase s x).loops.length < 4)
    (hinner : ∀ l ∈ (slotBase s x).loops, last ≤ l.last ∧ l.lc ≠ lc) :
    s.issue x (sReq x.f ok regs dests) readyAlways run =
      if count = 0 then afterS s x (slotCur s x) (some (last + 1))
      else afterS s x { slotCur s x with
        loops := ⟨lc, (slotBase s x).pc + 1, last, count, 0⟩ :: (slotCur s x).loops } none := by
  rw [startLoop_in_form hlast hdepth hinner] at hrun
  split
  · next hzero => exact issue_sSlot heng hok h rfl (hrun.trans (if_pos hzero))
  · next hsome => exact issue_sSlot heng hok h rfl (hrun.trans (if_neg hsome))

end Loop

/-- Settles O4: the target lies in the program, and the loop's checks pass. -/
theorem branchesAndLoops : Obligations.BranchesAndLoops := by
  unfold Obligations.BranchesAndLoops
  rintro s x _ _ heng rfl rfl
  refine ⟨fun hin h hhigh => ?br, fun hin h hhigh hlow => ?bri, fun hin h hhigh hmid => ?call,
    fun i lc count hlc hhigh hmid hform hlast hdepth hinner => ?loop⟩
  case br => exact congrArg Host.Outcome.next (issue_sSlot heng (by simp [hhigh]) h rfl (branchTo_within hin _))
  case bri => exact congrArg Host.Outcome.next (issue_sSlot heng (by simp [hhigh, hlow]) h rfl (branchTo_within hin _))
  case call => exact congrArg Host.Outcome.next (issue_sSlot heng (by simp [hhigh, hmid]) h rfl (branchTo_within hin _))
  case loop =>
    subst hlc
    obtain ⟨rfl, hlow, rfl, h⟩ | ⟨rfl, hA, hbit, rfl, h⟩ := hform
    · exact congrArg Host.Outcome.next (issue_loop heng (by simp [hhigh, hmid, hlow]) h rfl hlast hdepth hinner)
    · have hzero : opf x.f 41 32 = 0 := opf_zero_of_parts (mid := 37) hmid hA (by omega) (by omega)
      exact congrArg Host.Outcome.next (issue_loop heng (by simp [hhigh, hzero, hbit]) h rfl hlast hdepth hinner)

/-! ## Special registers (R104) -/

/-- RDSR of a selector that is not reserved gives D its value. -/
theorem exec_rdsr_gives {s : State} {x : Slot} {acycles v : Nat} (heng : sEng x.f = 0) (hhigh : opf x.f 47 44 = 0)
    (hmid : opf x.f 37 8 = 0) (h : slotGoes s x 0 [srD x.f] [dS (srD x.f)])
    (hv : s.special x.core acycles (opf x.f 7 0) = some v) :
    exec (.rdsr x acycles) s = .next (afterS s x ((slotCur s x).ws (srD x.f) (BitVec.ofNat 64 v)) none) := by
  refine congrArg Host.Outcome.next (issue_sSlot heng ?_ h rfl ?_)
  · simp [hhigh, hmid, hv]
  · rw [hv]
    rfl

/-- The selectors of the loop counters: the iteration of the loop that uses the counter, or zero. -/
theorem State.special_loop {k : Nat} (hk : k < 4) (s : State) (n acycles : Nat) :
    s.special n acycles (0x10 + k) =
      some ((((s.core n).open.base.loops.find? fun l => l.lc == k).map (·.iter)).getD 0) := by
  obtain rfl | rfl | rfl | rfl : k = 0 ∨ k = 1 ∨ k = 2 ∨ k = 3 := by omega
  all_goals rfl

/-- The selectors that name a register or a number of the core. -/
theorem State.special_plain (s : State) (n acycles : Nat) :
    ∀ e ∈ [(0x00, s.fld 0 0 Reg.DCTL_BEAT_NUM.BEAT_NUM), (0x01, acycles), (0x02, s.fld 0 n Reg.QOSM_CORE_LATE.LATE),
      (0x03, n), (0x06, clockMHz (s.fld 0 0 Reg.PWR_STAT.CLK)), (0x07, s.fld 0 0 Reg.DCTL_BEAT_CFG.BEAT_LEN * 10000),
      (0x08, (s.coreFn n).1 - 1), (0x09, s.fld 0 ((s.coreFn n).1 - 1) Reg.DCTL_COMP_PART0.CUR_EPOCH)],
      s.special n acycles e.1 = some e.2 := by
  simp only [List.forall_mem_cons, List.not_mem_nil, false_implies, implies_true, and_true]
  exact ⟨rfl, rfl, rfl, rfl, rfl, rfl, rfl, rfl⟩

/-- The selectors of the virtual device: zero outside one. -/
theorem State.special_member (s : State) (n acycles : Nat) :
    ∀ e ∈ [(0x04, s.fld 0 ((s.coreFn n).1 - 1) Reg.DCTL_COMP_PART0.MEMBER),
      (0x05, s.fld 0 ((s.coreFn n).1 - 1) Reg.DCTL_COMP_PART0.MEMBERS)],
      s.special n acycles e.1 =
        some (if (s.coreFn n).1 ≠ 0 ∧ s.vdOf ((s.coreFn n).1 - 1) ≠ 0 then e.2 else 0) := by
  simp [State.special]

/-- Settles O6: no selector of the three groups is reserved. -/
theorem specialRegisterRead : Obligations.SpecialRegisterRead := by
  unfold Obligations.SpecialRegisterRead
  rintro s x acycles _ _ h heng hhigh hmid rfl rfl
  refine ⟨fun e he hsel => ?plain, fun e he hsel => ?member, fun k hk hsel => ?loop⟩
  case plain => exact exec_rdsr_gives heng hhigh hmid h (hsel ▸ s.special_plain x.core acycles e he)
  case member =>
    refine (exec_rdsr_gives heng hhigh hmid h (hsel ▸ s.special_member x.core acycles e he)).trans ?_
    rw [apply_ite (BitVec.ofNat 64)]
    rfl
  case loop =>
    refine (exec_rdsr_gives heng hhigh hmid h (hsel ▸ State.special_loop hk s x.core acycles)).trans ?_
    simp only [slotBase]
    cases (s.core x.core).open.base.loops.find? fun l => l.lc == k <;> rfl

/-! ## Tile descriptors (R105) -/

theorem ofNat_toNat_div {w : Nat} (v : BitVec w) (lo n : Nat) : BitVec.ofNat n (v.toNat / 2 ^ lo) = v.extractLsb' lo n := by
  rw [BitVec.extractLsb', Nat.shiftRight_eq_div_pow]

theorem tdField_eq : ∀ e ∈ [(0, 0, 21), (1, 57, 14), (2, 71, 13), (3, 84, 16), (4, 100, 4), (5, 107, 21)],
    tdField e.1 = some e.2 := by
  decide

section Descriptors

variable {s : State} {x : Slot} (heng : sEng x.f = 0)
include heng

theorem exec_tdSet_writes (hhigh : opf x.f 47 44 = 0) (hbit : bitOf x.f.toNat 38 = false) (hlow : opf x.f 25 0 = 0)
    (h : slotGoes s x 0 [opf x.f 37 32, opf x.f 31 26] [dT (opf x.f 43 39)]) :
    exec (.tdSet x) s = .next (afterS s x { slotCur s x with
      td := (slotCur s x).td.set 0 (opf x.f 43 39)
        ((slotBase s x).rs (opf x.f 31 26) ++ (slotBase s x).rs (opf x.f 37 32)) } none) := by
  rw [← ofNat_append]
  exact congrArg Host.Outcome.next (issue_sSlot heng (by simp [hhigh, hbit, hlow]) h rfl rfl)

theorem exec_tdGet_reads (hhigh : opf x.f 47 44 = 0) (hlow : opf x.f 26 0 = 0)
    (h : slotGoes s x 0 [opf x.f 43 38, opf x.f 37 32] [dS (opf x.f 43 38), dS (opf x.f 37 32)]) :
    exec (.tdGet x) s = .next (afterS s x
      (((slotCur s x).ws (opf x.f 43 38) (((slotBase s x).tdv (opf x.f 31 27)).extractLsb' 0 64)).ws (opf x.f 37 32)
        (((slotBase s x).tdv (opf x.f 31 27)).extractLsb' 64 64)) none) := by
  rw [← ofNat_toNat_div _ 0, ← ofNat_toNat_div _ 64, Nat.pow_zero, Nat.div_one]
  exact congrArg Host.Outcome.next (issue_sSlot heng (by simp [hhigh, hlow]) h rfl rfl)

/-- TD.FLD of a field that the table names sets or raises it. -/
theorem exec_tdFld_writes {lo w : Nat} (hfield : tdField (opf x.f 46 44) = some (lo, w)) (hbit : bitOf x.f.toNat 38 = false)
    (hlow : opf x.f 31 0 = 0) (h : slotGoes s x 0 [opf x.f 37 32] [dT (opf x.f 43 39)]) :
    exec (.tdFld x) s = .next (afterS s x { slotCur s x with
      td := (slotCur s x).td.set 0 (opf x.f 43 39) (BitVec.ofNat 128
        (putBits ((slotBase s x).tdv (opf x.f 43 39)).toNat lo w (((slotBase s x).rs (opf x.f 37 32)).toNat +
          if bitOf x.f.toNat 47 then bits ((slotBase s x).tdv (opf x.f 43 39)).toNat lo w else 0))) } none) := by
  refine congrArg Host.Outcome.next (issue_sSlot heng (by simp [hfield, hbit, hlow]) h rfl ?_)
  simp only [hfield, srA]
  split <;> simp [Nat.add_comm, *]

end Descriptors

/-- Settles O7: each instruction's word is in form, and the field's code stands in the table. -/
theorem descriptorInstructions : Obligations.DescriptorInstructions := by
  unfold Obligations.DescriptorInstructions
  refine fun s x d i heng => ⟨?set, ?get, ?fld⟩
  case set =>
    rintro hhigh hbit hlow rfl h
    exact exec_tdSet_writes heng hhigh hbit hlow h
  case get => exact fun hhigh hlow h => exec_tdGet_reads heng hhigh hlow h
  case fld =>
    rintro e he hcode hbit hlow rfl h rfl
    exact exec_tdFld_writes heng (hcode ▸ tdField_eq e he) hbit hlow h

end Sys2Proof.Machine
end

section
/-! SUPPORT. Integer lanes of the element-wise vector instructions as operations on words (R118, R139); and the statement that
they settle. -/

namespace Sys2Proof.Machine

open Sys2Proof

section Lanes

variable {et w : Nat} (het : fmtBits et = w)
include het

theorem laneInt_toNat (a : BitVec w) : laneInt et a.toNat = a.toInt := by
  rw [laneInt, het, signed_toNat]

theorem intResult_wraps (i : Int) : intResult et false i = (BitVec.ofInt w i).toNat := by
  rw [intResult, het, wrap_eq_toNat]
  rfl

theorem intResult_saturates (i : Int) :
    intResult et true i = (BitVec.ofInt w (max (-2 ^ (w - 1)) (min (2 ^ (w - 1) - 1) i))).toNat := by
  rw [intResult, het, wrap_eq_toNat]
  simp [clampInt, intLimit, het]

/-- Lanes of any width without SAT: the result is the word operation. -/
theorem intOp_wraps (a b : BitVec w) :
    ∀ p ∈ [(0x10, a + b), (0x11, a - b), (0x12, a * b), (0x14, if a.slt b then b else a), (0x15, if b.slt a then b else a),
        (0x16, a &&& b), (0x17, a ||| b), (0x18, a ^^^ b), (0x19, a <<< (b.toNat % w)), (0x1A, a >>> (b.toNat % w)),
        (0x1B, a.sshiftRight (b.toNat % w)), (0x1C, if a.slt 0 then -a else a), (0x1D, -a)],
      intOp p.1 et false a.toNat b.toNat = p.2.toNat := by
  simp only [List.forall_mem_cons, List.not_mem_nil, false_implies, implies_true, and_true]
  simp only [intOp, laneInt_toNat het, intResult_wraps het, het]
  refine ⟨?add, ?sub, ?mul, ?max, ?min, ?and, ?or, ?xor, ?shl, ?shr, ?sra, ?abs, ?neg⟩
  case add => rw [BitVec.ofInt_add, BitVec.ofInt_toInt, BitVec.ofInt_toInt]
  case sub =>
    rw [Int.sub_eq_add_neg, BitVec.ofInt_add, BitVec.ofInt_neg, BitVec.ofInt_toInt, BitVec.ofInt_toInt, BitVec.sub_eq_add_neg]
  case mul => rw [BitVec.ofInt_mul, BitVec.ofInt_toInt, BitVec.ofInt_toInt]
  case max => simp only [apply_ite BitVec.toNat, BitVec.slt_iff_toInt_lt]
  case min => simp only [apply_ite BitVec.toNat, BitVec.slt_iff_toInt_lt]
  case and => rw [BitVec.toNat_and]
  case or => rw [BitVec.toNat_or]
  case xor => rw [BitVec.toNat_xor]
  case shl => rw [BitVec.toNat_shiftLeft, Nat.shiftLeft_eq]
  case shr => rw [BitVec.toNat_ushiftRight, Nat.shiftRight_eq_div_pow]
  case sra => rw [wrap_eq_toNat, BitVec.sshiftRight, Int.shiftRight_eq_div_pow]
  case abs =>
    have hsign : a.slt 0 = true ↔ a.toInt < 0 := by
      rw [BitVec.slt_iff_toInt_lt]
      exact BitVec.toInt_zero ▸ Iff.rfl
    simp only [hsign]
    split
    · next hneg => rw [Int.ofNat_natAbs_of_nonpos hneg.le, BitVec.ofInt_neg, BitVec.ofInt_toInt]
    · next hpos => rw [Int.natAbs_of_nonneg (not_lt.mp hpos), BitVec.ofInt_toInt]
  case neg => rw [BitVec.ofInt_neg, BitVec.ofInt_toInt]

/-- Lanes of any width with SAT: the exact result is limited to the width's range. -/
theorem intOp_saturates (a b : BitVec w) :
    ∀ p ∈ [(0x10, a.toInt + b.toInt), (0x11, a.toInt - b.toInt), (0x12, a.toInt * b.toInt),
        (0x1C, max a.toInt (-a.toInt)), (0x1D, -a.toInt)],
      intOp p.1 et true a.toNat b.toNat =
        (BitVec.ofInt w (max (-2 ^ (w - 1)) (min (2 ^ (w - 1) - 1) p.2))).toNat := by
  have habs : (a.toInt.natAbs : Int) = max a.toInt (-a.toInt) := by omega
  simp only [List.forall_mem_cons, List.not_mem_nil, false_implies, implies_true, and_true]
  simp only [intOp, laneInt_toNat het, habs]
  refine ⟨?_, ?_, ?_, ?_, ?_⟩ <;> exact intResult_saturates het _

end Lanes

/-- Settles O14: the lemmas on lanes of any width, at 32 and at 8 bits. -/
theorem vectorIntegerLanes : Obligations.VectorIntegerLanes := by
  unfold Obligations.VectorIntegerLanes
  have h32 : fmtBits 0xD = 32 := rfl
  have h8 : fmtBits 0xB = 8 := rfl
  refine ⟨fun a b => ⟨intOp_wraps h32 a b, intOp_saturates h32 a b⟩,
    fun a b => ⟨fun p hp => intOp_wraps h8 a b p ?_, fun p hp => intOp_saturates h8 a b p ?_⟩⟩
  all_goals
    simp only [List.mem_cons] at hp ⊢
    tauto

end Sys2Proof.Machine
end

section
/-! SUPPORT. What a port does with a cell that has arrived (R132, R261 to R264, R309 to R312, R354): one equation per case of a
request, a signal and a response; and the statement that they settle. -/

namespace Sys2Proof.Machine

open Sys2Proof

/-! ## Requests (R309 to R311) and signals (R354) -/

section Arrive

variable {s : State} {p q : Nat} {c : Cell}

section Unbound

variable (hbound : s.boundPart p = none)
include hbound

theorem State.target_unbound : s.target p c = s.routeErr p c true := by
  simp only [State.target, hbound]

theorem State.latchCell_unbound : s.latchCell p c = s.routeErr p c true := by
  simp only [State.latchCell, hbound]

end Unbound

section Bound

variable (hbound : s.boundPart p = some q)
include hbound

theorem State.target_refused {st : Nat} (hcheck : s.targetCheck q (reqAddr c) (reqLen c) = .error st) :
    s.target p c = if c.typ = 2 ∨ c.typ = 7 then s.refuse p c st else s.ack p c none st := by
  simp only [State.target, hbound, hcheck]

theorem State.target_passed {e : Nat} (hcheck : s.targetCheck q (reqAddr c) (reqLen c) = .ok e) :
    s.target p c = if s.canServe c then s.serve p q e c else { s with inbound := s.inbound ++ [⟨p, c, q, e⟩] } := by
  simp only [State.target, hbound, hcheck]

theorem State.latchCell_shuttered (hshut : s.partShut q = true) : s.latchCell p c = s.ack p c none 6 := by
  simp only [State.latchCell, hbound, hshut, if_true]

theorem State.latchCell_open (hopen : s.partShut q = false) :
    s.latchCell p c = if s.fld 0 q Reg.DCTL_COMP_PART0.STATE = 1 ∧ s.vdOf q = c.vd then
      (s.signal (vf q) c.addr (BitVec.ofNat 64 (leNat c.payload))).2.ack p c none
        (s.signal (vf q) c.addr (BitVec.ofNat 64 (leNat c.payload))).1
    else s.ack p c none 1 := by
  simp only [State.latchCell, hbound, hopen, Bool.false_eq_true, if_false]

end Bound

end Arrive

/-! ## Service (R261, R264) -/

section Service

variable {s s1 : State} {p q e : Nat} {c : Cell}

theorem State.serve_read (htyp : c.typ = 2) :
    s.serve p q e c = (s.readMem (reqAddr c) (c.len + 1)).st.sendCell p (respond (s.fld 0 0 Reg.DCTL_NODE.NODE) p c 3
      (if (s.readMem (reqAddr c) (c.len + 1)).bad then 3 else 0) (s.readMem (reqAddr c) (c.len + 1)).data) := by
  simp only [State.serve, htyp, reqLen, bne_self_eq_false, Bool.and_false, Bool.false_eq_true, if_false, if_true]

section Marked

variable (hs1 : s1 = if c.log then s.dirtyRun q (reqAddr c) (reqLen c) else s)
include hs1

theorem State.serve_write (htyp : c.typ = 4) :
    s.serve p q e c = (s1.writeMem (reqAddr c) c.payload c.poison).2.ack p c (some (q, e))
      (if (s1.writeMem (reqAddr c) c.payload c.poison).1 then 3 else 0) := by
  subst hs1
  simp [State.serve, htyp]

theorem State.serve_mso (htyp : c.typ = 6) :
    s.serve p q e c =
      let w := if s1.mayWait (reqAddr c) (c.op / 16) (c.op % 8) c.poison then s1.drawBool else (false, s1)
      if w.1 then (w.2.postContrib (reqAddr c) (c.op % 8) c.payload w.2.nextOwed).owe (some (p, c, q, e)) none
      else (w.2.mso (reqAddr c) (c.op / 16) (c.op % 8) c.payload c.poison).2.ack p c (some (q, e))
        (w.2.mso (reqAddr c) (c.op / 16) (c.op % 8) c.payload c.poison).1 := by
  subst hs1
  simp [State.serve, htyp]

theorem State.serve_atom (htyp : c.typ = 7) {r : AtomRes} {t : State}
    (hatom : s1.atomOp c.op (reqAddr c) c.src (leNat (c.payload.take 16)) (leNat (c.payload.drop 16)) = (r, t)) :
    s.serve p q e c = t.sendCell p (respond (s.fld 0 0 Reg.DCTL_NODE.NODE) p c 8 r.status
      (leBytes 16 r.found.toNat ++ leBytes 1 r.stored.toNat)) := by
  subst hs1
  simp [State.serve, htyp, hatom]

end Marked

end Service

/-! ## Responses (R132, R263, R312) -/

section Answers

variable {s : State}

/-- A request of a move that awaits a response with data takes one whose length fits. -/
theorem State.answerCell_move {p kind n : Nat} {c : Cell} {m : MoveOp} {r : Req}
    (hread : s.reads.find? (fun x => x.ttag == c.ttag && x.answer.isNone) = none)
    (hsig : s.sigs.find? (fun g => g.ttag == c.ttag) = none) (hreq : s.reqOf c.ttag = some (n, m, r)) (hkind : kind ≠ 1) :
    s.answerCell p kind c =
      if c.op = 0 ∧ c.payload.length ≠ (if kind = 0 then r.len else 17) then s.routeErr p c false
      else if r.kind = kind then s.answerMove n m r c.op c.payload else s := by
  simp only [State.answerCell, State.answer, hread, hsig, hreq, if_neg hkind, beq_iff_eq]

/-- A read of another node takes the response whose length fits. -/
theorem State.answerCell_read {p : Nat} {c : Cell} {r : FarRead}
    (hread : s.reads.find? (fun x => x.ttag == c.ttag && x.answer.isNone) = some r)
    (hsig : s.sigs.find? (fun g => g.ttag == c.ttag) = none) :
    s.answerCell p 0 c =
      if c.op = 0 ∧ c.payload.length ≠ r.len then s.routeErr p c false else s.readAnswered r c.op c.payload := by
  simp only [State.answerCell, State.answer, hread, hsig, if_true, true_and]

/-- An acknowledgement completes the signal that it names. -/
theorem State.answer_signal {tag : Nat} {g : SigOut} (hsig : s.sigs.find? (fun g => g.ttag == tag) = some g) (st : Nat) :
    s.answer tag 1 st [] = s.sigDone g st := by
  simp only [State.answer, hsig, if_true]

/-- An acknowledgement is given to the write or the operation that it names. -/
theorem State.answer_write {tag n : Nat} {m : MoveOp} {r : Req} (hsig : s.sigs.find? (fun g => g.ttag == tag) = none)
    (hread : s.reads.find? (fun x => x.ttag == tag && x.answer.isNone) = none) (hreq : s.reqOf tag = some (n, m, r))
    (st : Nat) :
    s.answer tag 1 st [] = if r.kind = 1 ∨ r.kind = 2 then s.answerMove n m r st [] else s := by
  simp only [State.answer, hsig, hread, hreq, if_true, Bool.or_eq_true, beq_iff_eq]

end Answers

/-- Settles O38: each clause is one case of the check, of the service at the memory, or of the request that a response names. -/
theorem cellService : Obligations.CellService := by
  unfold Obligations.CellService
  refine ⟨?arrival, ?service, ?moves, ?reads, ?acks⟩
  case arrival =>
    refine fun s p c => ⟨fun hbound => ⟨State.target_unbound hbound, State.latchCell_unbound hbound⟩, fun q hbound =>
      ⟨fun st hcheck => State.target_refused hbound hcheck, fun e hcheck => ⟨fun hserve => ?_, fun hserve => ?_⟩,
        fun hshut => State.latchCell_shuttered hbound hshut,
        fun hopen => ⟨fun hactive hvd st t hsignal => ?_, fun hother => ?_⟩⟩⟩
    · rw [State.target_passed hbound hcheck, if_pos hserve]
    · rw [State.target_passed hbound hcheck, hserve, if_neg Bool.false_ne_true]
    · rw [State.latchCell_open hbound hopen, if_pos ⟨hactive, hvd⟩, hsignal]
    · rw [State.latchCell_open hbound hopen, if_neg fun hboth => hother.elim (· hboth.1) (· hboth.2)]
  case service =>
    rintro s s1 p q e _ c rfl
    refine ⟨State.serve_read, fun hs1 => ⟨State.serve_write hs1, fun htyp => ⟨fun hwaits hdraw => ?_,
      fun u hu st t hmso => ?_⟩, fun htyp r t hatom => State.serve_atom hs1 htyp hatom⟩⟩
    · simp only [State.serve_mso hs1 htyp, hwaits, hdraw, if_true]
    · obtain ⟨hwaits, hdraw⟩ | ⟨hwaits, rfl⟩ := hu
      · simp only [State.serve_mso hs1 htyp, hwaits, hdraw, hmso, if_true, Bool.false_eq_true, if_false]
      · simp only [State.serve_mso hs1 htyp, hwaits, hmso, Bool.false_eq_true, if_false]
  case moves =>
    refine fun s p kind c n m r hread hsig hreq hkind => ⟨fun hok hlen => ?_, fun hfits => ?_⟩
    · rw [State.answerCell_move hread hsig hreq hkind, if_pos ⟨hok, hlen⟩]
    · have hcell := State.answerCell_move (p := p) hread hsig hreq hkind
      rw [if_neg fun hbad => hfits.elim (· hbad.1) (hbad.2 ·)] at hcell
      exact ⟨fun hsame => hcell.trans (if_pos hsame), fun hother => hcell.trans (if_neg hother)⟩
  case reads =>
    refine fun s p c r hread hsig => ⟨fun hok hlen => ?_, fun hfits => ?_⟩
    · rw [State.answerCell_read hread hsig, if_pos ⟨hok, hlen⟩]
    · rw [State.answerCell_read hread hsig, if_neg fun hbad => hfits.elim (· hbad.1) (hbad.2 ·)]
  case acks =>
    exact fun s tag st => ⟨fun g hsig => State.answer_signal hsig st,
      fun n m r hsig hread hreq => State.answer_write hsig hread hreq st⟩

end Sys2Proof.Machine
end

section
/-! SUPPORT. What NOP, LAUNCH, GRAPH_LAUNCH, LATCH_SIGNAL, LATCH_WAIT, SIEVE_TABLE and SCHED_LOAD do when they start (R163, R284,
R343, R347, R354, R356, R358, R509): the start of each is its own operation, with one equation per case of it; and the statement
that they settle. -/

namespace Sys2Proof.Machine

open Sys2Proof Sys2Proof.Laws

/-! ## The operation of each opcode (R343) -/

section Opcode

variable {s t : State} {fn q va : Nat} {k : Cmd}

/-- A command that runs has the opcode that it runs under. -/
theorem runs_opcode {op : Nat} (h : runs s fn q op t k va) : recOp k.w = op := by
  obtain ⟨-, hop, -⟩ := h
  exact hop

theorem exec_nop_of_runs (h : runs s fn q 0x00 t k va) : exec (.nop fn q) s = .next (t.done k 0) := by
  change Host.Outcome.next (s.command fn q 0x00 []) = _
  simp only [runs_command h, State.runOp, runs_opcode h]

theorem exec_launch_of_runs (h : runs s fn q 0x01 t k va) : exec (.launch fn q) s = .next (t.launchCmd k va) := by
  change Host.Outcome.next (s.command fn q 0x01 []) = _
  simp only [runs_command h, State.runOp, runs_opcode h]

theorem exec_graphLaunch_of_runs (h : runs s fn q 0x02 t k va) : exec (.graphLaunch fn q) s = .next (t.graphLaunch k) := by
  change Host.Outcome.next (s.command fn q 0x02 []) = _
  simp only [runs_command h, State.runOp, runs_opcode h]

theorem exec_latchSignal_of_runs (h : runs s fn q 0x03 t k va) : exec (.latchSignal fn q) s = .next (t.latchSignal k) := by
  change Host.Outcome.next (s.command fn q 0x03 []) = _
  simp only [runs_command h, State.runOp, runs_opcode h]

theorem exec_latchWait_of_runs (h : runs s fn q 0x04 t k va) : exec (.latchWait fn q) s = .next (t.latchWait k) := by
  change Host.Outcome.next (s.command fn q 0x04 []) = _
  simp only [runs_command h, State.runOp, runs_opcode h]

/-- R163: a SIEVE_TABLE only starts; its check finishes it. -/
theorem exec_sieveTable_of_runs (h : runs s fn q 0x20 t k va) : exec (.sieveTable fn q) s = .next t := by
  change Host.Outcome.next (s.command fn q 0x20 []) = _
  simp only [runs_command h, State.runOp, runs_opcode h]

/-- R285: a SCHED_LOAD only starts; its check finishes it. -/
theorem exec_schedLoad_of_runs (h : runs s fn q 0x21 t k va) : exec (.schedLoad fn q) s = .next t := by
  change Host.Outcome.next (s.command fn q 0x21 []) = _
  simp only [runs_command h, State.runOp, runs_opcode h]

end Opcode

/-! ## LAUNCH and GRAPH_LAUNCH (R347, R358) -/

section Launches

variable {s : State} {k : Cmd}

/-- R347: a launch of a binary that is gone or going, or on cores that it cannot have, is refused. -/
theorem State.launchCmd_refused
    (h : (∀ o, s.mobjs.find? (key2 k.fn (recHandle k.w)) = some o → o.dying = true) ∨ s.launchCores k = none) (va : Nat) :
    s.launchCmd k va = s.done k 0x11 := by
  rcases h with hgone | hcores
  · have hbinary : (s.mobjs.find? (key2 k.fn (recHandle k.w))).filter (fun o => !o.dying) = none :=
      Option.filter_eq_none_iff.mpr fun o ho => by simp [hgone o ho]
    rw [State.launchCmd, hbinary]
  · rw [State.launchCmd, hcores]
    split
    next hnone => exact absurd hnone nofun
    next => rfl

theorem State.graphLaunch_refused (h : s.graphLive k = none) : s.graphLaunch k = s.done k 0x11 := by
  rw [State.graphLaunch, h]

end Launches

/-! ## LATCH_SIGNAL and LATCH_WAIT (R354, R356, R509) -/

section Latches

variable {s : State} {k : Cmd}

/-- A LATCH_SIGNAL signals a latch of its own context. -/
theorem State.latchSignal_here (hhere : bitOf (k.arg 16 2) 15 = false) :
    s.latchSignal k = if s.latchMine k (k.arg 16 2 % 4096) then
        (s.signal k.fn (k.arg 16 2 % 4096) (BitVec.ofNat 64 (k.arg 8 8))).2.done k
          (if (s.signal k.fn (k.arg 16 2 % 4096) (BitVec.ofNat 64 (k.arg 8 8))).1 = 7 then 0x1B else 0)
      else s.done k 0x11 := by
  simp only [State.latchSignal, hhere, Bool.false_eq_true, if_false]
  cases s.latchMine k (k.arg 16 2 % 4096) <;> rfl

/-- R509: a LATCH_SIGNAL of another member needs a virtual device that has this member. -/
theorem State.latchSignal_far_refused (hfar : bitOf (k.arg 16 2) 15 = true)
    (hmember : k.fn = 0 ∨ s.vdOf (k.fn - 1) = 0 ∨ s.fld 0 (k.fn - 1) Reg.DCTL_COMP_PART0.MEMBERS ≤ k.arg 18 1) :
    s.latchSignal k = s.done k 0x11 := by
  simp only [State.latchSignal, hfar, hmember, if_true]

/-- R509: the signal of another member is sent to it, and its answer completes the command. -/
theorem State.latchSignal_far {b : Bool} {t : State} (hfar : bitOf (k.arg 16 2) 15 = true)
    (hmember : ¬(k.fn = 0 ∨ s.vdOf (k.fn - 1) = 0 ∨ s.fld 0 (k.fn - 1) Reg.DCTL_COMP_PART0.MEMBERS ≤ k.arg 18 1))
    (hsend : s.sendSignal k.fn (k.arg 18 1) (k.arg 16 2 % 4096) (BitVec.ofNat 64 (k.arg 8 8))
      (((s.ctx k.fn k.ctx).map (·.lc)).getD false) 2 k.q k.sq k.g = (b, t)) :
    s.latchSignal k = if b then t else t.done k 0x11 := by
  simp only [State.latchSignal, hfar, hmember, hsend, if_true, if_false]
  cases b <;> rfl

/-- R356: a LATCH_WAIT of a latch of its own context completes where the latch holds its value, and waits else. -/
theorem State.latchWait_eq : s.latchWait k = if s.latchMine k (k.arg 16 2) then s.settled else s.done k 0x11 := by
  rw [State.latchWait]
  cases s.latchMine k (k.arg 16 2) <;> rfl

end Latches

/-- Settles O28: each command is its own operation, and each clause is one case of that. -/
theorem workCommands : Obligations.WorkCommands := by
  unfold Obligations.WorkCommands
  refine fun s t fn q va k => ⟨exec_nop_of_runs, fun hruns => ?launch, fun hruns => ?graph, fun l v hl hv hruns => ?signal,
    fun hruns => ?wait, exec_sieveTable_of_runs, exec_schedLoad_of_runs⟩
  case launch =>
    rw [exec_launch_of_runs hruns]
    refine ⟨fun o cs hobj hlives hcores => ?_, fun hrefused => by rw [State.launchCmd_refused hrefused]⟩
    have hbinary : (t.mobjs.find? (key2 k.fn (recHandle k.w))).filter (fun o => !o.dying) = some o := by
      simp [hobj, hlives]
    rw [State.launchCmd, hbinary, hcores]
  case graph =>
    rw [exec_graphLaunch_of_runs hruns]
    refine ⟨fun x v hlives hnewest => ?_, fun hgone => by rw [State.graphLaunch_refused hgone]⟩
    simp only [State.graphLaunch, hlives, hnewest]
  case signal =>
    subst hl hv
    rw [exec_latchSignal_of_runs hruns]
    refine ⟨fun hhere hmine o t' hsignal => ?here, fun hfar hfn hvd hmember b t' hsend => ?far, fun hrefused => ?refused⟩
    case here => simp only [State.latchSignal_here hhere, hmine, hsignal, if_true]
    case far => rw [State.latchSignal_far hfar (by simp [hfn, hvd, hmember]) hsend]
    case refused =>
      obtain ⟨hhere, hother⟩ | ⟨hfar, hmember⟩ := hrefused
      · rw [State.latchSignal_here hhere, hother, if_neg Bool.false_ne_true]
      · rw [State.latchSignal_far_refused hfar hmember]
  case wait => rw [exec_latchWait_of_runs hruns, State.latchWait_eq]

end Sys2Proof.Machine
end

section
/-! SUPPORT. What ends or checks a command that has started (R163, R164, R285, R347, R356, R362, R427 to R429, R436): one equation
per case of a wait, a launch, a budget, a hold, a sieve table's check and a schedule image's; and the statement that they
settle. -/

namespace Sys2Proof.Machine

open Sys2Proof

/-! ## Waits, launches, budgets and holds (R347, R356, R362, R427 to R429, R436) -/

section Ends

variable {s : State} {fn q sq : Nat}

theorem exec_latchWaitTimeout_over {g : Option Nat} (hover : s.waitOver fn q sq = some g) :
    exec (.latchWaitTimeout fn q sq) s =
      .next (s.failCmd fn q sq g 0x15 0x11 0 (if fn = 0 then 0 else unitPart (fn - 1)) 0 0 0) := by
  change execLatchWaitTimeout fn q sq s = _
  rw [execLatchWaitTimeout, hover]

theorem exec_commandComplete_ended {l : Launch}
    (hl : s.launches.find? (fun l => l.fn == fn && l.q == q && l.sq == sq && l.phase == 6) = some l) :
    exec (.commandComplete fn q sq) s = .next (s.finishLaunch l (if l.degraded then 1 else 0) 0 false) := by
  change execCommandComplete fn q sq s = _
  rw [execCommandComplete, hl]
  rfl

/-- R427: a launch that has failed its budget stops on its cores. -/
theorem exec_stallBudgetExpiry_launch {l : Launch}
    (hl : s.launches.find? (fun l => l.fn == fn && l.q == q && l.sq == sq && s.launchStalled l) = some l) :
    exec (.stallBudgetExpiry fn q sq) s = .next (((s.logStall fn q sq).dropLaunch l).finish fn q sq l.g 0x15 0 true) := by
  change Host.Outcome.next (s.expire fn q sq) = _
  rw [State.expire, hl]

/-- R428, R429: a command of the queue itself that has failed its budget is abandoned. -/
theorem exec_stallBudgetExpiry_record {r : QRec}
    (hnone : s.launches.find? (fun l => l.fn == fn && l.q == q && l.sq == sq && s.launchStalled l) = none)
    (hrec : s.qrec fn q sq = some r) (hst : r.st = 1) (hstalled : s.cmdStalled fn r.w r.w r.stallFrom = true) :
    exec (.stallBudgetExpiry fn q sq) s = .next ((s.logStall fn q sq).abandon fn q sq 0x15 true) := by
  change Host.Outcome.next (s.expire fn q sq) = _
  have hfilter : (s.qrec fn q sq).filter (fun r => r.st == 1 && s.cmdStalled fn r.w r.w r.stallFrom) = some r := by
    simp [hrec, hst, hstalled]
  rw [State.expire, hnone, hfilter]

/-- R436: the launch of a hold that has stood for a whole beat completes FENCED, unless its partition is about to be aborted. -/
theorem State.expireHold_launch {h : FencedHold} {l : Launch} (hheld : h ∈ s.fenced) (hdue : h.beat + 2 ≤ s.tick)
    (hlives : ∀ a ∈ s.aborts, a.part + 1 ≠ h.fn)
    (hl : s.launches.find? (fun l => l.fn == h.fn && l.q == h.q && l.sq == h.sq && l.g == h.g) = some l) :
    s.expireHold h = ({ s with fenced := s.fenced.erase h } : State).finishLaunch l 0x16 0 false := by
  have hcontains : s.fenced.contains h = true := List.contains_iff_mem.mpr hheld
  have hnoAbort : (s.aborts.any fun a => a.part + 1 == h.fn) = false := by simpa using hlives
  simp only [State.expireHold, hcontains, hdue, hnoAbort, hl, and_self, if_true]

end Ends

section Images

variable {s : State} {fn q va : Nat} {k : Cmd} {img : List Byte}

/-! ## The check of a sieve table (R163, R164) -/

section SieveTable

variable (hload : s.unrunCmd fn q 0x20 (fun k => (s.oldVersions fn (k.arg 16 1)).isEmpty && !s.sieveComing fn (k.arg 16 1)) =
  some (k, va))
include hload

theorem exec_sieveTableChecked_unread {e : Nat} {t : State} (hread : s.readVa k.who fn (k.arg 8 8) 144 .rd img = .fail e t) :
    exec (.sieveTableChecked fn q img) s = .next (t.failedRead k e (k.arg 8 8)) := by
  change Host.Outcome.next (s.sieveChecked fn q img) = _
  simp only [State.sieveChecked, hload, hread]

variable {d rest : List Byte} {t : State} (hread : s.readVa k.who fn (k.arg 8 8) 144 .rd img = .ok d rest t)
include hread

theorem exec_sieveTableChecked_invalid (htable : tableImage d = none) :
    exec (.sieveTableChecked fn q img) s = .next (t.failed1 k 0x14 0x0A (k.arg 8 8)) := by
  change Host.Outcome.next (s.sieveChecked fn q img) = _
  simp only [State.sieveChecked, hload, hread, htable]

/-- R163: a table that passes takes effect at the next edge, where its command completes. -/
theorem exec_sieveTableChecked_valid {w tag : Nat} {lens : List Nat} (htable : tableImage d = some (w, lens, tag)) :
    exec (.sieveTableChecked fn q img) s = .next { t with
      deferred := t.deferred ++
        [.sieve fn (k.arg 16 1) (if w = 0 then none else some ⟨(t.sieveTbl fn (k.arg 16 1)).num + 1, w, lens, tag⟩),
          .done fn q k.sq k.g 0] } := by
  change Host.Outcome.next (s.sieveChecked fn q img) = _
  simp only [State.sieveChecked, hload, hread, htable]

end SieveTable

/-! ## The check of a schedule image (R284, R285) -/

section Schedule

variable (hload : s.unrunCmd fn q 0x21 (fun k => (s.port (k.arg 16 1)).next.isNone) = some (k, va))
include hload

theorem exec_schedImageChecked_no_header {e : Nat} {t : State} (hread : s.readVa k.who fn (k.arg 8 8) 16 .rd img = .fail e t) :
    exec (.schedImageChecked fn q img) s = .next (t.failedRead k e (k.arg 8 8)) := by
  change Host.Outcome.next (s.schedChecked fn q img) = _
  simp only [State.schedChecked, hload, hread]

variable {hdr rest : List Byte} {t0 : State} (hheader : s.readVa k.who fn (k.arg 8 8) 16 .rd img = .ok hdr rest t0)
include hheader

theorem exec_schedImageChecked_unread {e : Nat} {t : State}
    (hread : s.readVa k.who fn (k.arg 8 8) (16 + 8 * min (leField hdr 4 2) 256) .rd img = .fail e t) :
    exec (.schedImageChecked fn q img) s = .next (t.failedRead k e (k.arg 8 8)) := by
  change Host.Outcome.next (s.schedChecked fn q img) = _
  simp only [State.schedChecked, hload, hheader, hread]

variable {d rest' : List Byte} {t : State}
  (hread : s.readVa k.who fn (k.arg 8 8) (16 + 8 * min (leField hdr 4 2) 256) .rd img = .ok d rest' t)
include hread

theorem exec_schedImageChecked_invalid (himage : schedImage d = none) :
    exec (.schedImageChecked fn q img) s = .next (t.failed1 k 0x14 0x0B (k.arg 8 8)) := by
  change Host.Outcome.next (s.schedChecked fn q img) = _
  simp only [State.schedChecked, hload, hheader, hread, himage]

/-- R284, R285: an image in form is for the command's port, and its table becomes pending where the function has the port, the
windows suit it and its beat length is the one of its activation. -/
theorem exec_schedImageChecked_valid {port len : Nat} {ws : List Window} (himage : schedImage d = some (port, len, ws)) :
    exec (.schedImageChecked fn q img) s = .next (
      if port ≠ k.arg 16 1 then t.failed1 k 0x14 0x0B (k.arg 8 8)
      else if fn ≠ 0 ∧ t.fld 0 (k.arg 16 1) Reg.DCTL_LYS_PCFG.BOUND ≠ 0 ∧
          t.fld 0 (k.arg 16 1) Reg.DCTL_LYS_PCFG.PART = fn - 1 ∧ t.portLeaving (k.arg 16 1) = false ∧
          t.windowsFit fn (k.arg 16 1) ws = true ∧ len = t.lengthAt (max (k.arg 18 6) (t.now + 1)) then
        (t.setPort (k.arg 16 1) { t.port (k.arg 16 1) with
          next := some ⟨k.arg 18 6, len, fn, q, k.sq, k.g, true, false, ws⟩ }).setFld 0 (k.arg 16 1)
          Reg.DCTL_LYS_SCHED.PENDING 1
      else t.done k 0x11) := by
  change Host.Outcome.next (s.schedChecked fn q img) = _
  simp only [State.schedChecked, hload, hheader, hread, himage]
  split
  · rfl
  · rw [← ite_not]
    simp only [not_or, not_not, Bool.not_eq_false, Bool.not_eq_true, ne_eq]

end Schedule

end Images

/-- Settles O32: each clause is one case of the end of a command that has started, or of the check of its image. -/
theorem commandEvents : Obligations.CommandEvents := by
  unfold Obligations.CommandEvents
  refine fun s fn q sq img => ⟨fun g => exec_latchWaitTimeout_over, fun l => exec_commandComplete_ended,
    fun l => exec_stallBudgetExpiry_launch, fun r => exec_stallBudgetExpiry_record,
    ⟨rfl, fun h l => State.expireHold_launch⟩, ?sieve, ?sched⟩
  case sieve =>
    rintro k va _ rfl hload
    exact ⟨fun e t hread => exec_sieveTableChecked_unread hload hread, fun d rest t hread =>
      ⟨exec_sieveTableChecked_invalid hload hread, fun w lens tag => exec_sieveTableChecked_valid hload hread⟩⟩
  case sched =>
    rintro k va _ _ rfl rfl hload
    refine ⟨fun e t hread => exec_schedImageChecked_no_header hload hread, fun hdr rest t0 hheader =>
      ⟨fun e t hread => exec_schedImageChecked_unread hload hheader hread, fun d rest' t hread =>
        ⟨exec_schedImageChecked_invalid hload hheader hread, fun port len ws himage => ?_⟩⟩⟩
    rw [exec_schedImageChecked_valid hload hheader hread himage]
    refine ⟨fun hother => by rw [if_pos hother], fun ok hport hok => ?_⟩
    rw [if_neg (not_not.mpr hport)]
    exact ⟨fun hfails => by rw [if_neg (hfails ∘ hok.mpr)], fun hpasses => by rw [if_pos (hok.mp hpasses)]⟩

end Sys2Proof.Machine
end

section
/-! SUPPORT. What the code of a unit makes of its errors, and what reads and patrol scrub of a unit do (R184, R186, R188, R193,
R194, R411): one equation per case; and the statement that they settle. -/

namespace Sys2Proof.Machine

open Sys2Proof

/-! ## The codes (R184) -/

theorem eraseDups_of_nodup {l : List Nat} (h : l.Nodup) : l.eraseDups = l := by
  induction l with
  | nil => rfl
  | cons a l ih =>
    obtain ⟨ha, hl⟩ := List.nodup_cons.mp h
    have hothers : l.filter (fun b => !b == a) = l :=
      List.filter_eq_self.mpr fun b hb => by simpa using ne_of_mem_of_not_mem hb ha
    rw [List.eraseDups_cons, hothers, ih hl]

section Codes

variable {p : Place} {errs : List Nat} (hnodup : errs.Nodup)

theorem codeOutcome_nil : codeOutcome p [] = some .clean := by cases p <;> rfl

include hnodup

/-- A Reed-Solomon word of 136 symbols has two errors corrected and four detected. -/
theorem codeOutcome_symbols (hp : ∀ d j, p ≠ .slice d j) :
    codeOutcome p errs = if errs.length = 0 then some .clean else if errs.length ≤ 2 then some .corrected
      else if errs.length ≤ 4 then some .uncorrectable else none := by
  cases p with
  | slice d j => exact absurd rfl (hp d j)
  | cellar | stack | lpc => simp only [codeOutcome, eraseDups_of_nodup hnodup]

/-- What the code of slice SRAM does is given by the greatest number of errors in one 8-byte word. -/
theorem codeOutcome_slice {d j n : Nat} (hsome : ∃ i ∈ errs, (errs.filter fun k => k / 72 == i / 72).length = n)
    (hall : ∀ i ∈ errs, (errs.filter fun k => k / 72 == i / 72).length ≤ n) :
    codeOutcome (.slice d j) errs = if n = 0 then some .clean else if n = 1 then some .corrected
      else if n = 2 then some .uncorrectable else none := by
  have hmax : (errs.map fun i => (errs.filter fun k => k / 72 == i / 72).length).max? = some n :=
    List.max?_eq_some_iff.mpr ⟨List.mem_map.mpr hsome, List.forall_mem_map.mpr hall⟩
  have hworst : (errs.map fun i => (errs.filter fun k => k / 72 == i / 72).length).foldl max 0 = n := by
    rw [List.foldl_max, hmax, Option.getD_some, Nat.zero_max]
  simp only [codeOutcome, eraseDups_of_nodup hnodup, hworst]

/-- One error in each word that has any: each is corrected. -/
theorem codeOutcome_slice_single {d j : Nat} (hne : errs ≠ []) (hwords : (errs.map (· / 72)).Nodup) :
    codeOutcome (.slice d j) errs = some .corrected := by
  have hone (i : Nat) (hi : i ∈ errs) : (errs.filter fun k => k / 72 == i / 72).length = 1 := by
    have hcount := List.count_eq_one_of_mem hwords (List.mem_map_of_mem hi)
    rwa [List.count, List.countP_map, List.countP_eq_length_filter] at hcount
  obtain ⟨i, hi⟩ := List.exists_mem_of_ne_nil errs hne
  exact codeOutcome_slice hnodup ⟨i, hi, hone i hi⟩ fun k hk => (hone k hk).le

/-- Two errors in some word and no more in any: they are detected. -/
theorem codeOutcome_slice_double {d j i k : Nat} (hi : i ∈ errs) (hk : k ∈ errs) (hik : i ≠ k) (hword : i / 72 = k / 72)
    (htwo : ∀ w, (errs.filter fun e => e / 72 == w).length ≤ 2) : codeOutcome (.slice d j) errs = some .uncorrectable := by
  have hpair : [i, k] ⊆ errs.filter fun e => e / 72 == i / 72 := by
    simp [hi, hk, hword]
  have hle := (List.subperm_of_subset (by simpa using hik : [i, k].Nodup) hpair).length_le
  exact codeOutcome_slice hnodup ⟨i, hi, le_antisymm (htwo _) hle⟩ fun _ _ => htwo _

end Codes

theorem State.readCoded_of_outcome {s : State} {pa : Nat} {errs : List Nat} {p : Place} {c : Ecc} (hplace : place pa = some p)
    (hcode : codeOutcome p errs = some c) : s.readCoded pa errs = (c, s) := by
  simp only [State.readCoded, hplace, hcode]

/-! ## A controller serves a read (R186, R193, R194, R411) -/

/-- A poisoned unit outside a twinned object is not read. -/
theorem poison_not_alone {α : Type} {twin : Option α} {bad : Bool} (h : ¬(twin = none ∧ bad = true)) :
    (bad && twin.isNone) = false := by
  cases twin with
  | none => simpa using h
  | some x => simp

section Serve

variable {s s1 : State} {pa st : Nat} {e : ReadIn} {twin : Option (Nat × Nat × Nat)} (htwin : twin = s.twinAt pa)
  (hs1 : s1 = s.tier2Read (pa / 256 * 256) 256)
include htwin hs1

theorem State.serveRead_poisoned (halone : twin = none) (hpoison : s1.poisoned pa = true) : s.serveRead pa e st = s1 := by
  simp [State.serveRead, ← htwin, ← hs1, halone, hpoison]

variable {s2 s3 : State} {c : Ecc} {good : Bool} (hreads : ¬(twin = none ∧ s1.poisoned pa = true))
  (hcode : s1.readCoded pa e.errs = (c, s2)) (hother : s2.twinServes twin e = (good, s3))
include hreads hcode hother

theorem State.serveRead_clean (hpoison : s3.poisoned pa = false) (hc : c = .clean) :
    s.serveRead pa e st = s3.authRead pa e.auth twin e.again good st := by
  have hgoes := poison_not_alone hreads
  simp only [State.serveRead, ← htwin, ← hs1, hgoes, hcode, hother, hpoison, hc, Bool.false_eq_true, if_false]

theorem State.serveRead_corrected (hpoison : s3.poisoned pa = false) (hc : c = .corrected) :
    s.serveRead pa e st = (s3.memCE pa).authRead pa e.auth twin e.again good st := by
  have hgoes := poison_not_alone hreads
  simp only [State.serveRead, ← htwin, ← hs1, hgoes, hcode, hother, hpoison, hc, Bool.false_eq_true, if_false]

variable (hfailed : s3.poisoned pa = true ∨ c = .uncorrectable)
include hfailed

theorem State.serveRead_failed_alone (halone : twin = none) : s.serveRead pa e st = s3.poisonRead pa st := by
  have hgoes := poison_not_alone hreads
  have hout : (if s3.poisoned pa then Ecc.uncorrectable else c) = .uncorrectable := by
    rcases hfailed with h | h <;> simp [h]
  simp only [State.serveRead, ← htwin, ← hs1, hgoes, hcode, hother, hout, Bool.false_eq_true, if_false]
  rw [halone]

theorem State.serveRead_failed_twin {i off o : Nat} (hboth : twin = some (i, off, o)) :
    s.serveRead pa e st = if s3.paStopped o then s3 else if good then s3.serveTwin pa o e.again false
      else s3.loseUnit i pa o st := by
  have hgoes := poison_not_alone hreads
  have hout : (if s3.poisoned pa then Ecc.uncorrectable else c) = .uncorrectable := by
    rcases hfailed with h | h <;> simp [h]
  simp only [State.serveRead, ← htwin, ← hs1, hgoes, hcode, hother, hout, Bool.false_eq_true, if_false]
  rw [hboth]

end Serve

/-! ## MEMORY_READ and PATROL_SCRUB (R175, R186, R188) -/

section Commands

variable {s : State} {pa : Nat} {e : ReadIn}

theorem exec_memoryRead_unmapped (hmap : s.mapped pa = none) : exec (.memoryRead pa e) s = .fault (.unmappedAddress pa) := by
  change execMemoryRead pa e s = _
  rw [execMemoryRead, hmap]

theorem exec_patrolScrub_unmapped (hmap : s.mapped pa = none) : exec (.patrolScrub pa e) s = .fault (.unmappedAddress pa) := by
  change execPatrolScrub pa e s = _
  rw [execPatrolScrub, hmap]

variable {p : Place} (hmap : s.mapped pa = some p) (htakes : s.takesRead pa = true)
include hmap htakes

theorem exec_memoryRead_mapped : exec (.memoryRead pa e) s = .next ((s.serveRead pa e 0x14).verifyRun pa 1) := by
  change execMemoryRead pa e s = _
  rw [execMemoryRead, hmap]
  exact congrArg Host.Outcome.next (if_pos htakes)

/-- The patrol leaves the slices to their own scrub. -/
theorem exec_patrolScrub_mapped (hp : ∀ d j, p ≠ .slice d j) : exec (.patrolScrub pa e) s = .next (s.serveRead pa e 0) := by
  change execPatrolScrub pa e s = _
  rw [execPatrolScrub, hmap]
  cases p with
  | slice d j => exact absurd rfl (hp d j)
  | cellar | stack | lpc => exact congrArg Host.Outcome.next (if_pos htakes)

end Commands

/-- Settles O21: the codes by the number of errors, and a read by what the code, the check and the other copy give. -/
theorem memoryReadService : Obligations.MemoryReadService := by
  unfold Obligations.MemoryReadService
  refine ⟨fun s pa errs p hplace hnodup => ⟨?clean, fun hp => ⟨fun hne hfew => ?fixed, fun hmore hfew => ?found⟩, ?slice⟩,
    fun s s1 s2 s3 s4 pa st e twin c good =>
      ⟨fun hmap => ⟨exec_memoryRead_unmapped hmap, exec_patrolScrub_unmapped hmap⟩,
        fun p hmap htakes htwin hs1 hcases => ?serve⟩⟩
  case clean =>
    rintro rfl
    exact State.readCoded_of_outcome hplace codeOutcome_nil
  case fixed =>
    refine State.readCoded_of_outcome hplace ?_
    rw [codeOutcome_symbols hnodup hp, if_neg (by simpa using hne), if_pos hfew]
  case found =>
    refine State.readCoded_of_outcome hplace ?_
    rw [codeOutcome_symbols hnodup hp, if_neg (by omega), if_neg (by omega), if_pos hfew]
  case slice =>
    rintro d j rfl
    exact ⟨fun hne hwords => State.readCoded_of_outcome hplace (codeOutcome_slice_single hnodup hne hwords),
      fun i k hi hk hik hword htwo => State.readCoded_of_outcome hplace (codeOutcome_slice_double hnodup hi hk hik hword htwo)⟩
  case serve =>
    have hserve : s.serveRead pa e st = s4 := by
      obtain ⟨halone, hpoison, rfl⟩ | ⟨hreads, hcode, hother, hcases⟩ := hcases
      · exact State.serveRead_poisoned htwin hs1 halone hpoison
      obtain ⟨hpoison, hc, rfl⟩ | ⟨hpoison, hc, rfl⟩ | ⟨hfailed, halone, rfl⟩ | ⟨hfailed, i, off, o, hboth, hrepair⟩ := hcases
      · exact State.serveRead_clean htwin hs1 hreads hcode hother hpoison hc
      · exact State.serveRead_corrected htwin hs1 hreads hcode hother hpoison hc
      · exact State.serveRead_failed_alone htwin hs1 hreads hcode hother hfailed halone
      rw [State.serveRead_failed_twin htwin hs1 hreads hcode hother hfailed hboth]
      obtain ⟨hstop, rfl⟩ | ⟨hstop, hgood, rfl⟩ | ⟨hstop, hgood, rfl⟩ := hrepair
      · rw [if_pos hstop]
      · rw [hstop, if_neg Bool.false_ne_true, if_pos hgood]
      · rw [hstop, if_neg Bool.false_ne_true, hgood, if_neg Bool.false_ne_true]
    refine ⟨?_, ?_⟩
    · rintro rfl
      rw [exec_memoryRead_mapped hmap htakes, hserve]
    · rintro rfl hp
      rw [exec_patrolScrub_mapped hmap htakes hp, hserve]

end Sys2Proof.Machine
end

section
/-! SUPPORT. What the counting of tier-2 writes leaves as it was (R405, R408 to R410, R413 to R416), and what a memory write
stores (R175, R187); and the statement that they settle. -/

namespace Sys2Proof.Machine

open Sys2Proof

/-! ## What counting leaves as it was -/

theorem Tab.find?_del_of_ne {α : Type} {k j : Nat} (h : j ≠ k) (t : Tab α) : (t.del k).find? j = t.find? j := by
  induction t with
  | nil => rfl
  | cons e t ih =>
    obtain ⟨i, w⟩ := e
    by_cases hik : i = k
    · rw [Tab.del, if_pos hik, Tab.find?, if_neg fun hij => h (hij.symm.trans hik)]
    · rw [Tab.del, if_neg hik, Tab.find?, Tab.find?, ih]

/-- Another register of the function reads as before, whatever the form of the table. -/
theorem State.rd_wr_of_ne {o off : Nat} (h : o ≠ off) (s : State) (fn : Nat) (v : U64) : (s.wr fn off v).rd fn o = s.rd fn o := by
  have hkey : regKey fn o ≠ regKey fn off := by unfold regKey; omega
  simp only [State.wr, State.rd, Tab.get, Tab.set]
  split
  · rw [Tab.find?_del_of_ne hkey]
  · rw [Tab.find?_put, if_neg hkey]

/-- What is left of a state without what counting touches: its other fields, and the entries of the twins among its
registers. -/
structure Uncounted where
  rest : State
  twins : Nat → U64

/-- That part of a state. The frame of an operation that only counts is one equation between them. -/
def State.uncounted (s : State) : Uncounted :=
  ⟨{ s with free := 0, regs := [], cnts := [], t2ctr := [], t2node := [], t2cache := [], rollWant := false },
    fun k => s.rd 0 (0x1003000 + k % 0x400)⟩

theorem State.uncounted_foldl {α : Type} {f : State → α → State} (hf : ∀ s x, (f s x).uncounted = s.uncounted) (s : State)
    (l : List α) : (l.foldl f s).uncounted = s.uncounted := by
  induction l generalizing s with
  | nil => rfl
  | cons x l ih => rw [List.foldl_cons, ih, hf]

@[simp] theorem State.uncounted_ite {c : Prop} [Decidable c] (a b : State) :
    (if c then a else b).uncounted = if c then a.uncounted else b.uncounted :=
  apply_ite State.uncounted c a b

section Counting

variable (s : State)

theorem State.wr_uncounted {off : Nat} (hoff : 0x1003400 ≤ off) (v : U64) : (s.wr 0 off v).uncounted = s.uncounted := by
  refine congrArg (Uncounted.mk _) (funext fun k => State.rd_wr_of_ne ?_ s 0 v)
  omega

theorem State.setFld_uncounted {f : Fld} (hoff : 0x1003400 ≤ f.off) (i v : Nat) :
    (s.setFld 0 i f v).uncounted = s.uncounted := s.wr_uncounted (by omega) _

@[simp] theorem State.hits_uncounted (die n : Nat) : (s.satAdd 0 die Reg.DCTL_T2CC.HITS n).uncounted = s.uncounted :=
  s.setFld_uncounted (by decide) ..

@[simp] theorem State.misses_uncounted (die n : Nat) : (s.satAdd 0 die Reg.DCTL_T2CC.MISSES n).uncounted = s.uncounted :=
  s.setFld_uncounted (by decide) ..

@[simp] theorem State.hwmHit_uncounted : (s.raise 0 0 Reg.DCTL_T2SEC_STAT.HWM_HIT).uncounted = s.uncounted :=
  s.setFld_uncounted (f := Reg.DCTL_T2SEC_STAT.HWM_HIT) (by decide) ..

@[simp] theorem State.rollState_uncounted (v : Nat) : (s.setFld 0 0 Reg.DCTL_T2SEC_STAT.STATE v).uncounted = s.uncounted :=
  s.setFld_uncounted (by decide) ..

@[simp] theorem State.draw_uncounted : s.draw.2.uncounted = s.uncounted := (rfl)

@[simp] theorem State.requestRoll_uncounted : s.requestRoll.uncounted = s.uncounted := by
  simp only [State.requestRoll, State.uncounted_ite, State.rollState_uncounted, ite_self]
  rfl

@[simp] theorem State.hwm_uncounted (n : Nat) : (s.hwm n).uncounted = s.uncounted := by simp [State.hwm]

@[simp] theorem State.dirtyNode_uncounted (n : Nat) : (s.dirtyNode n).uncounted = s.uncounted := by
  unfold State.dirtyNode
  split <;> rfl

@[simp] theorem State.writeBack_uncounted (n : Nat) : (s.writeBack n).uncounted = s.uncounted := by
  simp only [State.writeBack, State.hwm_uncounted]
  split
  · exact s.dirtyNode_uncounted _
  · rfl

/-- A node leaves the cache, written back first if it is dirty. -/
theorem State.evict_uncounted (e : Nat × List Nat) :
    ({ (if e.2.isEmpty then s else s.writeBack e.1) with
      t2cache := (if e.2.isEmpty then s else s.writeBack e.1).t2cache.del e.1 } : State).uncounted = s.uncounted := by
  split
  · rfl
  · exact s.writeBack_uncounted _

@[simp] theorem State.cacheRoom_uncounted (die : Nat) : (s.cacheRoom die).uncounted = s.uncounted := by
  simp only [State.cacheRoom]
  split
  · rfl
  · split
    · split
      · exact s.draw_uncounted
      · exact (State.evict_uncounted ..).trans s.draw_uncounted
    · exact (State.evict_uncounted ..).trans s.draw_uncounted

theorem State.nodeLookup_uncounted (f n : Nat) : (State.nodeLookup f s n).uncounted = s.uncounted := by
  induction f generalizing s n with
  | zero => rfl
  | succ f ih =>
    rw [State.nodeLookup]
    split
    · exact s.hits_uncounted ..
    · refine (State.cacheRoom_uncounted _ (nodeDie n)).trans ?_
      split
      · rw [ih, State.misses_uncounted]
      · exact s.misses_uncounted ..

@[simp] theorem State.granuleWrite_uncounted (pa : Nat) : (s.granuleWrite pa).uncounted = s.uncounted := by
  unfold State.granuleWrite
  split
  · refine (State.hwm_uncounted _ _).trans ?_
    exact (State.dirtyNode_uncounted _ _).trans (s.nodeLookup_uncounted ..)
  · rfl

/-- R409: a write of tier 2 counts its granules and writes the leaves of whole groups, and touches nothing else. -/
@[simp] theorem State.tier2Write_uncounted (pa len : Nat) : (s.tier2Write pa len).uncounted = s.uncounted := by
  unfold State.tier2Write
  split
  · refine (State.uncounted_foldl (fun t k => ?_) _ _).trans (State.uncounted_foldl (fun t k => t.granuleWrite_uncounted _) _ _)
    simp
  · rfl

@[simp] theorem State.tier2Write_mem (pa len : Nat) : (s.tier2Write pa len).mem = s.mem :=
  congrArg (fun u => u.rest.mem) (s.tier2Write_uncounted pa len)

@[simp] theorem State.tier2Write_poison (pa len : Nat) : (s.tier2Write pa len).poison = s.poison :=
  congrArg (fun u => u.rest.poison) (s.tier2Write_uncounted pa len)

@[simp] theorem State.tier2Write_poisoned (pa len a : Nat) : (s.tier2Write pa len).poisoned a = s.poisoned a :=
  congrArg (fun p => Tab.get false p (a / 256)) (s.tier2Write_poison pa len)

@[simp] theorem State.tier2Write_cores (pa len : Nat) : (s.tier2Write pa len).cores = s.cores :=
  congrArg (fun u => u.rest.cores) (s.tier2Write_uncounted pa len)

@[simp] theorem State.tier2Write_queues (pa len : Nat) : (s.tier2Write pa len).queues = s.queues :=
  congrArg (fun u => u.rest.queues) (s.tier2Write_uncounted pa len)

@[simp] theorem State.tier2Write_pending (pa len : Nat) : (s.tier2Write pa len).pending = s.pending :=
  congrArg (fun u => u.rest.pending) (s.tier2Write_uncounted pa len)

@[simp] theorem State.tier2Write_contribs (pa len : Nat) : (s.tier2Write pa len).contribs = s.contribs :=
  congrArg (fun u => u.rest.contribs) (s.tier2Write_uncounted pa len)

end Counting

/-! ## Poison of units (R187) -/

section Poison

variable {s : State} (hrising : s.poison.rising = true)
include hrising

theorem State.setPoison_rising (pa : Nat) (b : Bool) : (s.setPoison pa b).poison.rising = true :=
  Tab.rising_set _ _ _ hrising

theorem State.poisoned_setPoison (pa a : Nat) (b : Bool) :
    (s.setPoison pa b).poisoned a = if a / 256 = pa / 256 then b else s.poisoned a :=
  Tab.get_set _ hrising _ _ _

/-- Units from that of an address on are poisoned one by one. -/
theorem State.poisoned_foldl_setPoison (pa n : Nat) :
    ((List.range n).foldl (fun s k => s.setPoison (pa + 256 * k) true) s).poison.rising = true ∧
    ∀ a, ((List.range n).foldl (fun s k => s.setPoison (pa + 256 * k) true) s).poisoned a =
      if pa / 256 ≤ a / 256 ∧ a / 256 < pa / 256 + n then true else s.poisoned a := by
  induction n with
  | zero =>
    refine ⟨hrising, fun a => ?_⟩
    rw [if_neg (by omega)]
    rfl
  | succ n ih =>
    simp only [List.range_succ, List.foldl_append, List.foldl_cons, List.foldl_nil]
    refine ⟨State.setPoison_rising ih.1 _ _, fun a => ?_⟩
    rw [State.poisoned_setPoison ih.1, ih.2]
    by_cases hlast : a / 256 = (pa + 256 * n) / 256
    · rw [if_pos hlast, if_pos (by omega)]
    · rw [if_neg hlast]
      exact if_congr (by omega) rfl rfl

/-- A poisoned payload poisons the units that it touches. -/
theorem State.poisonRun_poisoned (pa len u : Nat) :
    (s.poisonRun pa len).poisoned (256 * u) = if pa < 256 * u + 256 ∧ 256 * u < pa + len then true else s.poisoned (256 * u) := by
  rw [State.poisonRun, (State.poisoned_foldl_setPoison hrising _ _).2]
  exact if_congr (by omega) rfl rfl

end Poison

theorem State.poisonRun_mem (s : State) (pa len : Nat) : (s.poisonRun pa len).mem = s.mem :=
  List.foldlRecOn (motive := fun t => State.mem t = s.mem) _ _ rfl fun _ ht _ _ => ht

/-! ## Data stored unit by unit (R187) -/

theorem Tab.setRun_append (l d : List Byte) (m : Tab Byte) (pa : Nat) :
    m.setRun pa (l ++ d) = (m.setRun pa l).setRun (pa + l.length) d := by
  induction l generalizing m pa with
  | nil => rfl
  | cons b l ih => rw [List.cons_append, Tab.setRun, ih, Tab.setRun, List.length_cons, Nat.add_assoc, Nat.add_comm 1]

/-- How many bytes of a run lie in its first unit. -/
def firstPart (pa : Nat) (d : List Byte) : Nat := min d.length (256 - pa % 256)

/-- The first unit of a run is stored: one written whole is clean. -/
def State.storeFirst (s : State) (pa : Nat) (d : List Byte) : State :=
  let t : State := { s with mem := s.mem.setRun pa (d.take (firstPart pa d)) }
  if firstPart pa d = 256 then t.setPoison pa false else t

section Store

variable {f pa : Nat} {d : List Byte}

theorem State.storeUnits_nil (s : State) : State.storeUnits f s pa [] = s := by cases f <;> rfl

theorem State.storeUnits_cons (s : State) (hd : d ≠ []) :
    State.storeUnits (f + 1) s pa d =
      State.storeUnits f (s.storeFirst pa d) (pa + firstPart pa d) (d.drop (firstPart pa d)) := by
  rw [State.storeUnits, if_neg (by simpa using hd)]
  rfl

/-- The first bytes are stored, and beside them only marks of POISON change. -/
theorem State.storeFirst_eq (s : State) : ∃ p, s.storeFirst pa d =
    { s with mem := s.mem.setRun pa (d.take (firstPart pa d)), poison := p } := by
  unfold State.storeFirst
  split <;> exact ⟨_, rfl⟩

theorem State.storeFirst_rising {s : State} (h : s.poison.rising = true) : (s.storeFirst pa d).poison.rising = true := by
  unfold State.storeFirst
  split
  · exact State.setPoison_rising h pa false
  · exact h

theorem State.storeFirst_poisoned {s : State} (h : s.poison.rising = true) (u : Nat) :
    (s.storeFirst pa d).poisoned (256 * u) =
      if pa ≤ 256 * u ∧ 256 * u < pa + firstPart pa d ∧ firstPart pa d = 256 then false else s.poisoned (256 * u) := by
  have hbound : firstPart pa d ≤ 256 - pa % 256 := Nat.min_le_right _ _
  unfold State.storeFirst
  split
  · next hwhole =>
    refine (State.poisoned_setPoison h pa (256 * u) false).trans (if_congr ?_ rfl rfl)
    omega
  · next hpart => exact (if_neg fun ⟨_, _, hwhole⟩ => hpart hwhole).symm

variable (hroom : d.length + pa % 256 ≤ 256 * f ∨ d = [])

/-- The fuel that suffices for a run suffices for the units after its first. -/
theorem room_rest (hroom : d.length + pa % 256 ≤ 256 * (f + 1)) :
    (d.drop (firstPart pa d)).length + (pa + firstPart pa d) % 256 ≤ 256 * f ∨ d.drop (firstPart pa d) = [] := by
  rw [List.drop_eq_nil_iff, List.length_drop, firstPart]
  omega

include hroom

/-- The bytes of a run are stored, and beside them only marks of POISON change. -/
theorem State.storeUnits_eq (s : State) :
    ∃ p, State.storeUnits f s pa d = { s with mem := s.mem.setRun pa d, poison := p } := by
  induction f generalizing s pa d with
  | zero =>
    obtain rfl : d = [] := hroom.elim (fun h => List.eq_nil_of_length_eq_zero (by omega)) id
    exact ⟨s.poison, rfl⟩
  | succ f ih =>
    by_cases hd : d = []
    · subst hd
      exact ⟨s.poison, s.storeUnits_nil⟩
    · obtain ⟨p, hp⟩ := ih (room_rest (hroom.resolve_right hd)) (s.storeFirst pa d)
      have hlen : (d.take (firstPart pa d)).length = firstPart pa d := by
        rw [List.length_take, firstPart]
        omega
      have hrun := Tab.setRun_append (d.take (firstPart pa d)) (d.drop (firstPart pa d)) s.mem pa
      rw [List.take_append_drop, hlen] at hrun
      obtain ⟨p', hfirst⟩ := s.storeFirst_eq (pa := pa) (d := d)
      exact ⟨p, by rw [s.storeUnits_cons hd, hp, hfirst, hrun]⟩

/-- A unit written whole is clean, and every other keeps its POISON. -/
theorem State.storeUnits_poisoned {s : State} (h : s.poison.rising = true) (u : Nat) :
    (State.storeUnits f s pa d).poisoned (256 * u) =
      if pa ≤ 256 * u ∧ 256 * u + 256 ≤ pa + d.length then false else s.poisoned (256 * u) := by
  induction f generalizing s pa d with
  | zero =>
    obtain rfl : d = [] := hroom.elim (fun h => List.eq_nil_of_length_eq_zero (by omega)) id
    rw [s.storeUnits_nil, if_neg (by rw [List.length_nil]; omega)]
  | succ f ih =>
    by_cases hd : d = []
    · subst hd
      rw [s.storeUnits_nil, if_neg (by rw [List.length_nil]; omega)]
    · rw [s.storeUnits_cons hd, ih (room_rest (hroom.resolve_right hd)) (State.storeFirst_rising h),
        State.storeFirst_poisoned h, List.length_drop]
      have hfirst : firstPart pa d = min d.length (256 - pa % 256) := rfl
      by_cases hrest : pa + firstPart pa d ≤ 256 * u ∧
          256 * u + 256 ≤ pa + firstPart pa d + (d.length - firstPart pa d)
      · rw [if_pos hrest, if_pos (by omega)]
      · rw [if_neg hrest]
        exact if_congr (by omega) rfl rfl

end Store

/-! ## MEMORY_WRITE (R175, R187) -/

section Write

variable {s : State} {pa fn : Nat} {data : List Byte} (hrun : s.runMapped pa data.length = true)
  (hmap : (s.mapped pa).isSome = true) (hstop : s.paStopped pa = false) (hctr : s.countersRoom pa data.length = true)
  (hauth : s.authFailed pa = false)
include hrun hmap hstop hctr hauth

theorem exec_memoryWrite_unlogged (poisoned : Bool) :
    exec (.memoryWrite pa data poisoned false fn) s = .next (if poisoned then s.poisonRun pa data.length
      else (s.tier2Write pa data.length).storeUnits (data.length / 256 + 2) pa data) := by
  change execMemoryWrite pa data poisoned false fn s = _
  simp only [execMemoryWrite, hrun, hmap, hstop, hctr, State.writeMem, hauth]
  cases poisoned <;> rfl

end Write

/-- Settles O22: the write is stored unit by unit, or poisons its units one by one. -/
theorem memoryWriteStores : Obligations.MemoryWriteStores := by
  unfold Obligations.MemoryWriteStores
  intro s pa fn data hmem hpoison hrun hmap hstop hctr hauth
  have hexec := exec_memoryWrite_unlogged (fn := fn) hrun hmap hstop hctr hauth
  refine ⟨⟨_, hexec false, ?stored⟩, ⟨_, hexec true, s.poisonRun_mem pa data.length,
    State.poisonRun_poisoned hpoison pa data.length⟩⟩
  have hroom : data.length + pa % 256 ≤ 256 * (data.length / 256 + 2) ∨ data = [] := .inl (by omega)
  have hmarks := State.storeUnits_poisoned hroom (s := s.tier2Write pa data.length) (by simpa using hpoison)
  obtain ⟨p, hstore⟩ := State.storeUnits_eq hroom (s.tier2Write pa data.length)
  simp only [Bool.false_eq_true, if_false]
  refine ⟨fun a => ?_, fun u => ?_, ?_, ?_, ?_⟩
  · rw [hstore]
    simp only [State.tier2Write_mem, Tab.get_setRun data hmem]
  · rw [hmarks, State.tier2Write_poisoned]
  · rw [hstore, State.tier2Write_cores]
  · rw [hstore, State.tier2Write_queues]
  · rw [hstore, State.tier2Write_pending]

end Sys2Proof.Machine
end

section
/-! SUPPORT. What the controllers' other commands do: verify scrub (R195), the check of a held chunk (R196), the stop and the
restart of a unit (R191), and a wipe (R200); and the statement that they settle. -/

namespace Sys2Proof.Machine

open Sys2Proof

/-! ## Verify scrub (R195) -/

/-- The other copy's part of what a verify scrub meets, as a read of that copy meets it. -/
def otherRead (e : ReadIn) : ReadIn := { e with errs := e.twinErrs, auth := e.twinAuth, twinErrs := [], twinAuth := .pass }

theorem exec_verifyScrub_runs {s s1 : State} {tw unit a b : Nat} {e : ReadIn} (ha : a = s.twinPri tw + 256 * unit)
    (hb : b = s.twinSec tw + 256 * unit) (htw : tw < 64) (hvalid : s.fld 0 tw Reg.DCTL_TWIN0.VALID = 1)
    (hunit : 256 * unit < s.twinLen tw * 65536) (hastop : s.paStopped a = false) (hbstop : s.paStopped b = false)
    (hheld : s.chunkHeld tw (256 * unit) = false) (hs1 : s1 = s.serveRead a e 0) :
    exec (.verifyScrub tw unit e) s = .next ((if s1.copyGood b = true ∧ a / 256 ∉ s1.mended then
      s1.serveRead b (otherRead e) 0 else s1).compareTwin tw (256 * unit)) := by
  change execVerifyScrub tw unit e s = _
  subst ha hb hs1
  simp only [execVerifyScrub, htw, hvalid, hunit, hastop, hbstop, hheld, Bool.not_false, and_self, if_true]
  congr 2
  exact if_congr (by simp) rfl rfl

/-! ## The check of a held chunk (R196) -/

section Frames

variable (s : State)

@[simp] theorem State.memLog_untouched (cls status pa : Nat) : (s.memLog cls status pa).untouched = s.untouched := by
  unfold State.memLog
  split <;> simp

@[simp] theorem State.memCE_untouched (pa : Nat) : (s.memCE pa).untouched = s.untouched := by
  unfold State.memCE
  split <;> simp

/-- R196: the chunk of one copy is written over the other's. -/
theorem State.copyChunk_mem (fr dst len : Nat) : (s.copyChunk fr dst len).mem = s.mem.setRun dst (s.mem.getRun fr len) := by
  have hclean : ((List.range (len / 256)).foldl (fun (s : State) k =>
      if s.poisoned (dst + 256 * k) then s.setPoison (dst + 256 * k) false else s) s).mem = s.mem := by
    refine List.foldlRecOn (motive := fun t => State.mem t = s.mem) _ _ rfl fun t ht k _ => ?_
    split <;> exact ht
  refine (congrArg Untouched.mem (State.memCE_untouched _ dst)).trans ((State.tier2Write_mem _ dst len).trans ?_)
  simp only [hclean]

end Frames

/-- Whether each copy of a chunk matches the ledger of its object: neither does where there is none. -/
def State.ledgerVerdict (s : State) (tw chunk a b len : Nat) : Bool × Bool :=
  match s.ledgers.find? tw with
  | none => (false, false)
  | some g => (s.chunkMatches g chunk a len, s.chunkMatches g chunk b len)

/-- Neither copy of a chunk matches: the units found to differ are poisoned in both, and the object is DAMAGED. -/
def State.loseChunk (s : State) (tw a : Nat) (units : List Nat) : State :=
  ((units.foldl (fun s u => (s.setPoison (s.twinPri tw + 256 * u) true).setPoison (s.twinSec tw + 256 * u) true) s).damage
    tw).logErr { ErrRec.of 4 0x0F with unit := 0, addr := a }

theorem exec_ledgerChunkCheck_held {s s1 : State} {tw chunk len a b : Nat} {c : HeldChunk}
    (hheld : s.chunks.find? (fun c => c.tw == tw && c.chunk == chunk) = some c)
    (hs1 : s1 = { s with chunks := s.chunks.filter fun x => !(x.tw == tw && x.chunk == chunk) })
    (hlen : len = min 0x100000 (s1.twinLen tw * 65536 - 0x100000 * chunk)) (ha : a = s1.twinPri tw + 0x100000 * chunk)
    (hb : b = s1.twinSec tw + 0x100000 * chunk) {x y : Bool} (hverdict : (x, y) = s1.ledgerVerdict tw chunk a b len) :
    exec (.ledgerChunkCheck tw chunk) s = .next (if x then if y then s1 else s1.copyChunk a b len
      else if y then s1.copyChunk b a len
      else s1.loseChunk tw a (c.units ++ s1.chunkDiffs tw chunk len).eraseDups) := by
  change execLedgerChunkCheck tw chunk s = _
  subst hs1 hlen ha hb
  cases hledger : s.ledgers.find? tw with
  | none =>
    simp only [State.ledgerVerdict, hledger, Prod.mk.injEq] at hverdict
    obtain ⟨rfl, rfl⟩ := hverdict
    simp only [execLedgerChunkCheck, hheld, hledger, Bool.false_eq_true, if_false, State.loseChunk]
  | some g =>
    simp only [State.ledgerVerdict, hledger, Prod.mk.injEq] at hverdict
    obtain ⟨hx, hy⟩ := hverdict
    simp only [execLedgerChunkCheck, hheld, hledger, ← hx, ← hy]
    cases x <;> cases y <;> simp only [Bool.false_eq_true, if_false, if_true, State.loseChunk]

/-! ## Stop and restart of a unit (R189, R191) -/

theorem tempSteps_critical (unit : Nat) :
    (tempSteps unit).2.2.2 = if unit < 12 then 107 else if unit < 28 then 105 else 112 := by
  unfold tempSteps
  split_ifs <;> rfl

theorem tempSteps_first (unit : Nat) : (tempSteps unit).1 = if unit < 28 then 95 else 100 := by
  unfold tempSteps
  by_cases hstack : unit < 12
  · rw [if_pos hstack, if_pos (by omega)]
  · rw [if_neg hstack]
    split_ifs <;> rfl

theorem unitNames_source (unit : Nat) : (unitNames unit).1 = if unit < 12 then 6 else if unit < 28 then 7 else 5 := by
  unfold unitNames
  split_ifs <;> rfl

theorem unitNames_code (unit : Nat) : (unitNames unit).2 =
    if unit < 12 then 0x8000 + unit else if unit < 28 then 0x9000 + (unit - 12) else 0x5000 + (unit - 28) := by
  unfold unitNames
  split_ifs <;> rfl

section Units

variable {s : State} {unit temp : Nat} (hunit : unit < 30)
include hunit

theorem exec_criticalTemperature_stops (hfitted : s.fld 0 unit Reg.DCTL_MEMSTAT.PRESENT = 1)
    (hhot : (if unit < 12 then 107 else if unit < 28 then 105 else 112) ≤ temp)
    (hruns : s.fld 0 unit Reg.DCTL_MEMSTAT.STEP ≠ 4) :
    exec (.criticalTemperature unit temp) s =
      .next ((s.flushUnits fun pa => (place pa).any fun x => x.unit == unit).stopUnit unit temp) := by
  change execCriticalTemperature unit temp s = _
  have hcritical : s.critical unit temp = true := by
    simp [State.critical, State.memStopped, tempSteps_critical, hunit, hfitted, hhot, hruns]
  rw [execCriticalTemperature, if_pos hcritical]

theorem exec_memoryUnitRestart_cool (hstop : s.fld 0 unit Reg.DCTL_MEMSTAT.STEP = 4) (hbeat : s.hot.get 0 unit = 0)
    (hcool : s.fld 0 unit Reg.DCTL_MEMSTAT.TEMP + 3 < if unit < 28 then 95 else 100) :
    exec (.memoryUnitRestart unit) s = .next (s.setFld 0 unit Reg.DCTL_MEMSTAT.STEP 3) := by
  change execMemoryUnitRestart unit s = _
  rw [← tempSteps_first] at hcool
  rw [execMemoryUnitRestart, State.restartUnit, if_pos ⟨hunit, by simpa [State.memStopped] using hstop, hbeat, hcool⟩]

end Units

/-! ## Wipes (R200) -/

/-- A table without the entries of some numbers reads as before elsewhere. -/
theorem Tab.get_filter {α : Type} (d : α) (p : Nat → Bool) (t : Tab α) (k : Nat) :
    Tab.get d (t.filter fun e => p e.1 : Tab α) k = if p k then t.get d k else d := by
  induction t with
  | nil => simp [Tab.get, Tab.find?]
  | cons e t ih =>
    obtain ⟨j, v⟩ := e
    unfold Tab.get at ih ⊢
    by_cases hj : j = k
    · subst hj
      cases hp : p j
      · simpa [hp] using ih
      · simp [hp, Tab.find?]
    · cases hp : p j <;> simpa [hp, Tab.find?, hj] using ih

/-- Whether a number lies in one of some ranges. -/
def inRanges (rs : List (Nat × Nat)) (a : Nat) : Bool := rs.any fun r => decide (r.1 ≤ a) && decide (a < r.1 + r.2)

theorem inRanges_iff {rs : List (Nat × Nat)} {a : Nat} : inRanges rs a = true ↔ ∃ r ∈ rs, r.1 ≤ a ∧ a < r.1 + r.2 := by
  simp [inRanges]

/-- Ranges are zeroed one after another. -/
theorem State.mem_zeroRanges (rs : List (Nat × Nat)) (s : State) (a : Nat) :
    (rs.foldl (fun s r => s.zeroRange r.1 r.2) s).mem.get 0 a = if inRanges rs a then 0 else s.mem.get 0 a := by
  induction rs generalizing s with
  | nil => rfl
  | cons r rs ih =>
    have hone : (s.zeroRange r.1 r.2).mem.get 0 a = if decide (r.1 ≤ a) && decide (a < r.1 + r.2) then 0 else s.mem.get 0 a := by
      refine (Tab.get_filter 0 (fun k => !(decide (r.1 ≤ k) && decide (k < r.1 + r.2))) s.mem a).trans ?_
      cases decide (r.1 ≤ a) && decide (a < r.1 + r.2) <;> rfl
    rw [List.foldl_cons, ih, hone, inRanges, inRanges, List.any_cons]
    cases rs.any _ <;> simp

theorem State.poisoned_zeroRanges (rs : List (Nat × Nat)) (s : State) (a : Nat) :
    (rs.foldl (fun s r => s.zeroRange r.1 r.2) s).poisoned a =
      if inRanges rs (256 * (a / 256)) then false else s.poisoned a := by
  induction rs generalizing s with
  | nil => rfl
  | cons r rs ih =>
    have hone : (s.zeroRange r.1 r.2).poisoned a =
        if decide (r.1 ≤ 256 * (a / 256)) && decide (256 * (a / 256) < r.1 + r.2) then false else s.poisoned a := by
      refine (Tab.get_filter false (fun k => !(decide (r.1 ≤ 256 * k) && decide (256 * k < r.1 + r.2))) s.poison
        (a / 256)).trans ?_
      cases decide (r.1 ≤ 256 * (a / 256)) && decide (256 * (a / 256) < r.1 + r.2) <;> rfl
    rw [List.foldl_cons, ih, hone, inRanges, inRanges, List.any_cons]
    cases rs.any _ <;> simp

/-- The ranges of a granule begin on a unit. -/
theorem granuleRanges_aligned {g : Nat} {r : Nat × Nat} (hr : r ∈ granuleRanges g) : r.1 % 256 = 0 := by
  unfold granuleRanges at hr
  split_ifs at hr
  all_goals
    simp only [List.mem_cons, List.not_mem_nil, or_false] at hr
    rcases hr with rfl | rfl <;> dsimp only <;> omega

/-- A register leaves memory and its marks as they were. The proof stands in parentheses so that `simp` rewrites with it and
leaves no states for the kernel to compare. -/
theorem State.setFld_memory (s : State) (fn i : Nat) (f : Fld) (v : Nat) :
    (s.setFld fn i f v).mem = s.mem ∧ (s.setFld fn i f v).poison = s.poison := ⟨(rfl), (rfl)⟩

/-- Beside the ranges of its granule, a wipe touches counters and registers of tier 2 alone. -/
theorem State.wipeGranule_memory (s : State) (g : Nat) :
    (s.wipeGranule g).mem = ((granuleRanges g).foldl (fun s r => s.zeroRange r.1 r.2) s).mem ∧
    (s.wipeGranule g).poison = ((granuleRanges g).foldl (fun s r => s.zeroRange r.1 r.2) s).poison := by
  simp only [State.wipeGranule]
  split_ifs <;> simp only [State.setFld_memory, and_self]

section Wipe

variable {s : State} {g a : Nat}

theorem State.wipeGranule_inside (ha : inRanges (granuleRanges g) a = true) :
    (s.wipeGranule g).mem.get 0 a = 0 ∧ (s.wipeGranule g).poisoned a = false := by
  obtain ⟨r, hr, hlo, hhi⟩ := inRanges_iff.mp ha
  have hunit : inRanges (granuleRanges g) (256 * (a / 256)) = true :=
    inRanges_iff.mpr ⟨r, hr, by have := granuleRanges_aligned hr; omega, by omega⟩
  constructor
  · rw [(s.wipeGranule_memory g).1, State.mem_zeroRanges, if_pos ha]
  · refine (congrArg (fun p => Tab.get false p (a / 256)) (s.wipeGranule_memory g).2).trans ?_
    exact (State.poisoned_zeroRanges _ s a).trans (if_pos hunit)

theorem State.wipeGranule_outside (ha : inRanges (granuleRanges g) a = false) :
    (s.wipeGranule g).mem.get 0 a = s.mem.get 0 a := by
  rw [(s.wipeGranule_memory g).1, State.mem_zeroRanges, ha, if_neg Bool.false_ne_true]

/-- The next wipes begin: none changes its granule or whether it is done. -/
theorem State.mem_beginWipes_wipes {w : Wipe} (hw : w ∈ s.beginWipes.wipes) :
    ∃ v ∈ s.wipes, w.granule = v.granule ∧ w.done = v.done := by
  obtain ⟨v, hv, rfl⟩ := List.mem_map.mp hw
  refine ⟨v, hv, ?_⟩
  split <;> exact ⟨rfl, rfl⟩

theorem exec_wipeComplete_due (hdue : s.wipes.any (fun w => w.granule == g && !w.done) = true)
    (hruns : s.memStopped (granuleUnit g) = false) (hfirst : s.wipeBehind g = false) :
    exec (.wipeComplete g) s = .next ({ s.wipeGranule g with
      wipes := s.wipes.map fun w => if w.granule == g then { w with done := true } else w } : State).beginWipes := by
  change execWipeComplete g s = _
  rw [execWipeComplete, if_pos (by rw [hdue, hruns, hfirst]; rfl)]

end Wipe

/-- Settles O23: each clause is the equation of its command. -/
theorem memoryUnitCommands : Obligations.MemoryUnitCommands := by
  unfold Obligations.MemoryUnitCommands
  refine ⟨?scrub, ?chunk, ?stop, fun s unit => exec_memoryUnitRestart_cool, ?wipe⟩
  case scrub =>
    rintro s s1 s2 tw unit a b e ha hb htw hvalid hunit hastop hbstop hheld hs1 rfl
    exact exec_verifyScrub_runs ha hb htw hvalid hunit hastop hbstop hheld hs1
  case chunk =>
    intro s s1 tw chunk len a b c hheld hs1 hlen ha hb x y hverdict
    rw [exec_ledgerChunkCheck_held hheld hs1 hlen ha hb hverdict]
    refine ⟨fun hx hy => ⟨?_, s1.copyChunk_mem a b len⟩, fun hx hy => ⟨?_, s1.copyChunk_mem b a len⟩, fun hx hy => ?_,
      fun hx hy => ?_⟩
    all_goals simp only [hx, hy, Bool.false_eq_true, if_false, if_true, State.loseChunk]
  case stop =>
    rintro s s0 s1 unit temp told hunit hfitted hhot hruns rfl rfl rfl
    rw [exec_criticalTemperature_stops hunit hfitted hhot hruns, State.stopUnit, unitNames_source, unitNames_code]
  case wipe =>
    intro s g _ hdue hruns hfirst
    refine ⟨_, exec_wipeComplete_due hdue hruns hfirst, fun r hr a hlo hhi => ?_, fun a hout => ?_, fun w hw hg => ?_⟩
    · exact State.wipeGranule_inside (inRanges_iff.mpr ⟨r, hr, hlo, hhi⟩)
    · refine State.wipeGranule_outside (Bool.eq_false_iff.mpr fun hin => ?_)
      obtain ⟨r, hr, hbetween⟩ := inRanges_iff.mp hin
      exact hout r hr hbetween
    · obtain ⟨v, hv, hgranule, hdone⟩ := State.mem_beginWipes_wipes hw
      obtain ⟨u, -, rfl⟩ := List.mem_map.mp hv
      by_cases hu : u.granule = g
      · simp [hdone, hu]
      · exact absurd (hgranule.symm.trans hg) (by simp [hu])

end Sys2Proof.Machine
end

section
/-! SUPPORT. One element of a memory-side add, max or min at its unit (R187, R205, R207), and the sum of contributions that wait
(R206); and the statement that they settle. -/

namespace Sys2Proof.Machine

open Sys2Proof

/-! ## Numbers as little-endian bytes -/

@[simp] theorem leBytes_length (n v : Nat) : (leBytes n v).length = n := by
  induction n generalizing v with
  | zero => rfl
  | succ n ih => rw [leBytes, List.length_cons, ih]

theorem leNat_leBytes (n v : Nat) : leNat (leBytes n v) = v % 2 ^ (8 * n) := by
  induction n generalizing v with
  | zero => simp [leBytes, leNat, Nat.mod_one]
  | succ n ih =>
    rw [leBytes, leNat, ih, BitVec.toNat_ofNat, show 8 * (n + 1) = 8 + 8 * n by omega, Nat.pow_add, Nat.mod_mul]

theorem leNat_lt (l : List Byte) : leNat l < 2 ^ (8 * l.length) := by
  induction l with
  | nil => simp [leNat]
  | cons b l ih =>
    have hb := b.isLt
    rw [leNat, List.length_cons, show 8 * (l.length + 1) = 8 + 8 * l.length by omega, Nat.pow_add]
    omega

@[simp] theorem Tab.getRun_length (m : Tab Byte) (a n : Nat) : (m.getRun a n).length = n := by
  induction n generalizing a with
  | zero => rfl
  | succ n ih => rw [Tab.getRun, List.length_cons, ih]

theorem Tab.getRun_setRun {m : Tab Byte} (h : m.rising = true) (a : Nat) (d : List Byte) :
    (m.setRun a d).getRun a d.length = d := by
  induction d generalizing m a with
  | nil => rfl
  | cons b d ih =>
    have hset := Tab.rising_set 0 a b h
    rw [Tab.setRun, List.length_cons, Tab.getRun, ih hset, Tab.get_setRun_before d hset (a + 1) a (Nat.lt_succ_self a),
      Tab.get_set 0 h, if_pos rfl]

/-! ## Elements (R205) -/

theorem efmtBytes_eq {e : Nat} (he : e ≤ 5) :
    (if e = 1 then 8 else if e = 0 ∨ e = 2 then 4 else if e = 3 then 2 else 1) = efmtBytes e := by
  interval_cases e <;> rfl

theorem efmtBytes_pos (e : Nat) : 0 < efmtBytes e := by
  unfold efmtBytes
  split <;> decide

section Integers

variable {w a b : Nat} (ha : a < 2 ^ w) (hb : b < 2 ^ w)
include ha hb

theorem signed_lt_iff_slt : signed a w < signed b w ↔ (BitVec.ofNat w a).slt (BitVec.ofNat w b) = true := by
  have hvalue {x : Nat} (hx : x < 2 ^ w) : signed x w = (BitVec.ofNat w x).toInt := by
    rw [← signed_toNat, BitVec.toNat_ofNat, Nat.mod_eq_of_lt hx]
  rw [hvalue ha, hvalue hb, BitVec.slt_iff_toInt_lt]

end Integers

section Combine

variable {e old c : Nat} (he : e ≤ 1)
include he

theorem combineEl_add : combineEl 0 e old c = (old + c) % 2 ^ (8 * efmtBytes e) := by
  rw [combineEl, if_pos he]
  rfl

variable (hold : old < 2 ^ (8 * efmtBytes e)) (hc : c < 2 ^ (8 * efmtBytes e))
include hold hc

theorem combineEl_max : combineEl 1 e old c =
    if (BitVec.ofNat (8 * efmtBytes e) old).slt (BitVec.ofNat (8 * efmtBytes e) c) then c else old := by
  simp only [combineEl, he, signed_lt_iff_slt hold hc, Nat.one_ne_zero, if_true, if_false]

theorem combineEl_min : combineEl 2 e old c =
    if (BitVec.ofNat (8 * efmtBytes e) c).slt (BitVec.ofNat (8 * efmtBytes e) old) then c else old := by
  simp only [combineEl, he, signed_lt_iff_slt hc hold, OfNat.ofNat_ne_zero, OfNat.ofNat_ne_one, if_true, if_false]

end Combine

/-! ## One element at its unit (R187, R205) -/

/-- An element is combined with a contribution: one in a poisoned unit is left as it is. -/
def State.putElement (s : State) (op a e v : Nat) : State :=
  if s.poisoned a then s
  else { s with mem := s.mem.setRun a (leBytes (efmtBytes e) (combineEl op e (leNat (s.mem.getRun a (efmtBytes e))) v)) }

section Element

variable {s : State} {a e : Nat}

theorem State.owePoison_nil (s : State) : s.owePoison [] = s := by
  simp [State.owePoison]

/-- Where nothing waits for an element, it is combined with the one contribution. -/
theorem State.applyElement_lone (hlone : ∀ x ∈ s.contribs, ¬(x.pa = a ∧ x.e = e)) (v : Nat) :
    s.applyElement a e [v] = (s.poisoned a, s.putElement 0 a e v) := by
  have hhere : s.contribs.filter (fun c => c.pa == a && c.e == e) = [] :=
    List.filter_eq_nil_iff.mpr fun x hx => by simpa using hlone x hx
  have hrest : s.contribs.filter (fun c => !(c.pa == a && c.e == e)) = s.contribs :=
    List.filter_eq_self.mpr fun x hx => by simpa [or_iff_not_imp_left] using hlone x hx
  rw [State.applyElement, hhere, hrest, State.putElement]
  cases hpoison : s.poisoned a
  · simp [State.combineAdds]
  · simp [State.owePoison_nil]

theorem State.msoElems_nil (op e f : Nat) (s : State) (pa : Nat) : State.msoElems op e f s pa [] = (false, s) := by
  cases f with
  | zero => rfl
  | succ f => rw [State.msoElems]; exact if_pos (efmtBytes_pos e)

variable {op : Nat} (hlone : op = 0 → 2 ≤ e → ∀ x ∈ s.contribs, ¬(x.pa = a ∧ x.e = e)) {data : List Byte}
  (hlen : data.length = efmtBytes e)
include hlone hlen

/-- A run of one element. -/
theorem State.msoElems_one : (State.msoElems op e data.length s a data).2 = s.putElement op a e (leNat data) := by
  obtain ⟨f, hf⟩ : ∃ f, data.length = f + 1 := ⟨data.length - 1, by have := efmtBytes_pos e; omega⟩
  have htake : data.take (efmtBytes e) = data := List.take_of_length_le hlen.le
  have hdrop : data.drop (efmtBytes e) = [] := List.drop_of_length_le hlen.le
  rw [hf, State.msoElems, if_neg (by omega)]
  simp only [htake, hdrop, State.msoElems_nil]
  by_cases hfloat : op = 0 ∧ 2 ≤ e
  · rw [if_pos hfloat, State.applyElement_lone (hlone hfloat.1 hfloat.2), hfloat.1]
  · rw [if_neg hfloat, State.putElement]
    split <;> rfl

end Element

/-- Where no acknowledgement is due, none is given. -/
theorem State.settleApplied_of_waiting {s : State} (h : ∀ o ∈ s.owing, s.contribs.any (fun x => x.owed == o.id) = true) :
    s.settleApplied = s := by
  have hnone : s.owing.filter (fun o => !s.contribs.any fun c => c.owed == o.id) = [] :=
    List.filter_eq_nil_iff.mpr fun o ho => by simp [h o ho]
  rw [State.settleApplied, hnone, List.foldl_nil]

/-! ## An add, max or min of one element (R205) -/

/-- What the service of one element gives: it is combined, and beside that only the counting of tier 2 acts. -/
def State.Combines (s : State) (op a e c : Nat) (t : State) : Prop :=
  ∃ v : State, v.uncounted = s.uncounted ∧ t = v.putElement op a e c

section Combines

variable {s t : State} {op a e c : Nat} (h : s.Combines op a e c t)
include h

theorem State.Combines.contribs : t.contribs = s.contribs := by
  obtain ⟨v, hv, rfl⟩ := h
  refine Eq.trans ?_ (congrArg (fun u => u.rest.contribs) hv)
  unfold State.putElement
  split <;> rfl

theorem State.Combines.mem_of_poisoned (hpoison : s.poisoned a = true) : t.mem = s.mem := by
  obtain ⟨v, hv, rfl⟩ := h
  have hsame : v.poisoned a = s.poisoned a := congrArg (fun u => u.rest.poisoned a) hv
  rw [State.putElement, hsame, if_pos hpoison]
  exact congrArg (fun u => u.rest.mem) hv

theorem State.Combines.mem_of_clean (hclean : s.poisoned a = false) : t.mem =
    s.mem.setRun a (leBytes (efmtBytes e) (combineEl op e (leNat (s.mem.getRun a (efmtBytes e))) c)) := by
  obtain ⟨v, hv, rfl⟩ := h
  have hsame : v.poisoned a = s.poisoned a := congrArg (fun u => u.rest.poisoned a) hv
  have hmem : v.mem = s.mem := congrArg (fun u => u.rest.mem) hv
  rw [State.putElement, hsame, hclean, if_neg Bool.false_ne_true, hmem]

/-- The element then reads as the combination. -/
theorem State.Combines.leNat_of_clean (hclean : s.poisoned a = false) (hmem : s.mem.rising = true) :
    leNat (t.mem.getRun a (efmtBytes e)) =
      combineEl op e (leNat (s.mem.getRun a (efmtBytes e))) c % 2 ^ (8 * efmtBytes e) := by
  have hread := Tab.getRun_setRun hmem a
    (leBytes (efmtBytes e) (combineEl op e (leNat (s.mem.getRun a (efmtBytes e))) c))
  rw [leBytes_length] at hread
  rw [h.mem_of_clean hclean, hread, leNat_leBytes]

end Combines

section Operation

variable {s : State} {pa a e fn : Nat} {data : List Byte} (ha : a = pa / efmtBytes e * efmtBytes e)
  (hlen : data.length = efmtBytes e) (hefmt : s.hasEfmt e = true) (hauth : s.authFailed a = false)

section Now

include ha hlen hefmt hauth

theorem State.mso_one {op : Nat} (hlone : op = 0 → 2 ≤ e → ∀ x ∈ s.contribs, ¬(x.pa = a ∧ x.e = e)) :
    s.Combines op a e (leNat data) (s.mso pa op e data false).2 := by
  subst ha
  have hlone' := (s.tier2Write_contribs (pa / efmtBytes e * efmtBytes e) data.length).symm ▸ hlone
  refine ⟨_, s.tier2Write_uncounted (pa / efmtBytes e * efmtBytes e) data.length, ?_⟩
  simp only [State.mso, hefmt, hauth, Bool.not_true, Bool.false_eq_true, if_false, State.msoElems_one hlone' hlen]

variable (hdue : ∀ o ∈ s.owing, s.contribs.any (fun x => x.owed == o.id) = true)
  (hlone : ∀ x ∈ s.contribs, ¬(x.pa = a ∧ x.e = e))
include hdue hlone

/-- An add that does not wait gives no acknowledgement that waits. -/
theorem State.addNow_one : s.Combines 0 a e (leNat data) (s.mso pa 0 e data false).2.settleApplied := by
  obtain ⟨v, hv, ht⟩ := State.mso_one ha hlen hefmt hauth (op := 0) fun _ _ => hlone
  have hcontribs := State.Combines.contribs ⟨v, hv, ht⟩
  have howing : (s.mso pa 0 e data false).2.owing = s.owing := by
    refine Eq.trans ?_ (congrArg (fun u => u.rest.owing) hv)
    rw [ht, State.putElement]
    split <;> rfl
  rw [State.settleApplied_of_waiting (by rwa [howing, hcontribs])]
  exact ⟨v, hv, ht⟩

end Now

/-- A run of one element waits as one contribution. -/
theorem contribsOf_one (hlen : data.length = efmtBytes e) (owed a : Nat) :
    contribsOf e owed data.length a data = [⟨a, e, leNat data, owed⟩] := by
  obtain ⟨f, hf⟩ : ∃ f, data.length = f + 1 := ⟨data.length - 1, by have := efmtBytes_pos e; omega⟩
  have hnil (g b : Nat) : contribsOf e owed g b [] = [] := by
    cases g with
    | zero => rfl
    | succ g => rw [contribsOf]; exact if_pos (efmtBytes_pos e)
  rw [hf, contribsOf, if_neg (by omega), List.take_of_length_le hlen.le, List.drop_of_length_le hlen.le, hnil]

section Reaches

variable (hrun : s.runMapped pa data.length = true) (hmap : (s.mapped pa).isSome = true) (hstop : s.paStopped pa = false)
  (hctr : s.countersRoom pa data.length = true)
include hrun hmap hstop hctr

theorem State.unitOp_runs (op : State → State) : s.unitOp pa data.length false fn op = .next (op s) := by
  simp [State.unitOp, hrun, hmap, hstop, hctr]

include ha hlen hefmt hauth

theorem exec_memorySideMax_one :
    ∃ t, exec (.memorySideMax pa e data false false fn) s = .next t ∧ s.Combines 1 a e (leNat data) t := by
  refine ⟨(s.mso pa 1 e data false).2, ?_, State.mso_one ha hlen hefmt hauth nofun⟩
  change execMemorySideMax pa e data false false fn s = _
  rw [execMemorySideMax, State.unitOp_runs hrun hmap hstop hctr]

theorem exec_memorySideMin_one :
    ∃ t, exec (.memorySideMin pa e data false false fn) s = .next t ∧ s.Combines 2 a e (leNat data) t := by
  refine ⟨(s.mso pa 2 e data false).2, ?_, State.mso_one ha hlen hefmt hauth nofun⟩
  change execMemorySideMin pa e data false false fn s = _
  rw [execMemorySideMin, State.unitOp_runs hrun hmap hstop hctr]

/-- R206: a floating-point add waits at its unit with an acknowledgement owed, by a free choice, and any other is combined. -/
theorem exec_memorySideAdd_one (hdue : ∀ o ∈ s.owing, s.contribs.any (fun x => x.owed == o.id) = true)
    (hlone : ∀ x ∈ s.contribs, ¬(x.pa = a ∧ x.e = e)) :
    ∃ t, exec (.memorySideAdd pa e data false false fn) s = .next t ∧
      (2 ≤ e ∧ t.mem = s.mem ∧ t.contribs = s.contribs ++ [⟨a, e, leNat data, s.nextOwed⟩] ∨
        s.Combines 0 a e (leNat data) t) := by
  refine ⟨_, (State.unitOp_runs hrun hmap hstop hctr _ : execMemorySideAdd pa e data false false fn s = _), ?_⟩
  dsimp only
  split
  · next hmay =>
    split
    · have hfloat : 2 ≤ e := by
        simp only [State.mayWait, Bool.and_eq_true, decide_eq_true_eq] at hmay
        tauto
      refine .inl ⟨hfloat, rfl, ?_⟩
      rw [ha]
      exact congrArg (s.contribs ++ ·) (contribsOf_one hlen ..)
    · exact .inr (State.addNow_one (s := s.drawBool.2) ha hlen hefmt hauth hdue hlone)
  · exact .inr (State.addNow_one ha hlen hefmt hauth hdue hlone)

/-- The three operations: an add that waits, or the element combined. -/
theorem exec_memorySide_one (hdue : ∀ o ∈ s.owing, s.contribs.any (fun x => x.owed == o.id) = true)
    (hlone : ∀ x ∈ s.contribs, ¬(x.pa = a ∧ x.e = e)) {p : Instr × Nat}
    (hp : p ∈ [(Instr.memorySideAdd pa e data false false fn, 0), (.memorySideMax pa e data false false fn, 1),
      (.memorySideMin pa e data false false fn, 2)]) :
    ∃ t, exec p.1 s = .next t ∧
      (p.2 = 0 ∧ 2 ≤ e ∧ t.mem = s.mem ∧ t.contribs = s.contribs ++ [⟨a, e, leNat data, s.nextOwed⟩] ∨
        s.Combines p.2 a e (leNat data) t) := by
  simp only [List.mem_cons, List.not_mem_nil, or_false] at hp
  obtain rfl | rfl | rfl := hp
  · obtain ⟨t, hexec, hwaits | hnow⟩ := exec_memorySideAdd_one ha hlen hefmt hauth hrun hmap hstop hctr hdue hlone
    · exact ⟨t, hexec, .inl ⟨rfl, hwaits⟩⟩
    · exact ⟨t, hexec, .inr hnow⟩
  · obtain ⟨t, hexec, hnow⟩ := exec_memorySideMax_one ha hlen hefmt hauth hrun hmap hstop hctr
    exact ⟨t, hexec, .inr hnow⟩
  · obtain ⟨t, hexec, hnow⟩ := exec_memorySideMin_one ha hlen hefmt hauth hrun hmap hstop hctr
    exact ⟨t, hexec, .inr hnow⟩

end Reaches

end Operation

/-! ## Contributions that wait (R206) -/

section Sums

variable (e : Nat)

/-- One of the contributions that are left is drawn, and begins the sum or joins it. -/
theorem State.sumFree_step (f : Nat) (s : State) {vs : List Nat} (hne : vs ≠ []) (acc : Option FV) :
    ∃ v ∈ vs, State.sumFree e (f + 1) s vs acc = State.sumFree e f s.draw.2 (vs.erase v) (some (acc.elim
      (decodeEl (efmtFmt e) v) fun sum => decodeEl 0 (narrowEl 0 0 0 (sum.add (decodeEl (efmtFmt e) v))))) := by
  have hpos := List.length_pos_of_ne_nil hne
  have hk : s.draw.1 % max 1 vs.length < vs.length := by
    rw [max_eq_right hpos]
    exact Nat.mod_lt _ hpos
  refine ⟨vs[s.draw.1 % max 1 vs.length]'hk, List.getElem_mem hk, ?_⟩
  rw [State.sumFree]
  simp only [List.getElem?_eq_getElem hk]
  cases acc <;> rfl

/-- The contributions that are left join a sum in some order of theirs. -/
theorem State.sumFree_some (f : Nat) (s : State) (vs : List Nat) (hf : vs.length = f) (sum : FV) :
    ∃ l : List Nat, l.Perm vs ∧ (State.sumFree e f s vs (some sum)).1 =
      some (l.foldl (fun sum v => decodeEl 0 (narrowEl 0 0 0 (sum.add (decodeEl (efmtFmt e) v)))) sum) := by
  induction f generalizing s vs sum with
  | zero => exact ⟨[], by rw [List.eq_nil_of_length_eq_zero hf], rfl⟩
  | succ f ih =>
    obtain ⟨v, hv, hstep⟩ := State.sumFree_step e f s (List.ne_nil_of_length_eq_add_one hf) (some sum)
    obtain ⟨l, hl, hsum⟩ := ih s.draw.2 (vs.erase v) (by rw [List.length_erase_of_mem hv, hf]; rfl) _
    exact ⟨v :: l, (hl.cons v).trans (List.perm_cons_erase hv).symm, by rw [hstep, Option.elim_some, hsum, List.foldl_cons]⟩

/-- The contributions to one element are summed in some order of theirs, from the first on. -/
theorem State.sumFree_none (s : State) {vs : List Nat} (hne : vs ≠ []) :
    ∃ l : List Nat, l.Perm vs ∧ (State.sumFree e vs.length s vs none).1 =
      some (l.tail.foldl (fun sum v => decodeEl 0 (narrowEl 0 0 0 (sum.add (decodeEl (efmtFmt e) v))))
        (decodeEl (efmtFmt e) (l.headD 0))) := by
  obtain ⟨f, hf⟩ : ∃ f, vs.length = f + 1 := ⟨vs.length - 1, by have := List.length_pos_of_ne_nil hne; omega⟩
  obtain ⟨v, hv, hstep⟩ := State.sumFree_step e f s hne none
  obtain ⟨l, hl, hsum⟩ := State.sumFree_some e f s.draw.2 (vs.erase v) (by rw [List.length_erase_of_mem hv, hf]; rfl)
    (decodeEl (efmtFmt e) v)
  exact ⟨v :: l, (hl.cons v).trans (List.perm_cons_erase hv).symm, by rw [hf, hstep, Option.elim_none, hsum]; rfl⟩

theorem State.combineAdds_many (s : State) (old : Nat) {vs : List Nat} (hmany : 2 ≤ vs.length) {sum : FV}
    (hsum : (State.sumFree e vs.length s vs none).1 = some sum) :
    (s.combineAdds e old vs).1 = narrowEl (efmtFmt e) 0 0 ((decodeEl (efmtFmt e) old).add sum) := by
  match vs, hmany with
  | x :: y :: vs, _ =>
    rw [State.combineAdds]
    · simp only [hsum]
    · nofun

end Sums

/-- Settles O24: the element waits or is combined, and the sum of what waits follows the order that was drawn. -/
theorem memorySideElement : Obligations.MemorySideElement := by
  unfold Obligations.MemorySideElement
  refine ⟨?element, fun s e old vs hmany => ?sums⟩
  case element =>
    intro s pa e n a old c fn data hmem he hfp hn ha hlen hc hold hrun hmap hstop hctr hauth hdue hlone
    rw [efmtBytes_eq he] at hn
    subst hn hc hold
    have hefmt : s.hasEfmt e = true := by
      simp only [State.hasEfmt, Bool.or_eq_true, Bool.and_eq_true, decide_eq_true_eq, beq_iff_eq]
      omega
    rw [← hlen] at hrun hctr
    intro p hp
    obtain ⟨t, hexec, ⟨hadd, hfloat, hsame, hwaits⟩ | hnow⟩ :=
      exec_memorySide_one ha hlen hefmt hauth hrun hmap hstop hctr hdue hlone hp
    · refine ⟨t, hexec, fun _ => hsame, fun _ _ _ => ⟨hsame, hwaits⟩, fun _ hnone => ?_, fun hother => by omega⟩
      rw [hwaits] at hnone
      simp at hnone
    · refine ⟨t, hexec, hnow.mem_of_poisoned, fun _ _ hwaits => absurd hnow.contribs hwaits, fun hclean _ => ?_,
        fun _ => hnow.contribs⟩
      have hold : leNat (s.mem.getRun a (efmtBytes e)) < 2 ^ (8 * efmtBytes e) := by
        simpa using leNat_lt (s.mem.getRun a (efmtBytes e))
      have hc : leNat data < 2 ^ (8 * efmtBytes e) := hlen ▸ leNat_lt data
      have hread := hnow.leNat_of_clean hclean hmem
      refine ⟨hnow.mem_of_clean hclean, fun b hb => ?_, fun hint hop => ?_, fun hint hop => ?_, fun hint hop => ?_⟩
      · rw [hnow.mem_of_clean hclean, Tab.get_setRun _ hmem, leBytes_length, if_neg (by omega)]
      · rw [hread, hop, combineEl_add hint, Nat.mod_mod]
      · rw [hread, hop, combineEl_max hint hold hc, Nat.mod_eq_of_lt (by split <;> assumption)]
      · rw [hread, hop, combineEl_min hint hold hc, Nat.mod_eq_of_lt (by split <;> assumption)]
  case sums =>
    obtain ⟨l, hl, hsum⟩ := State.sumFree_none e s (List.ne_nil_of_length_pos (by omega : 0 < vs.length))
    exact ⟨l, hl, State.combineAdds_many e s old hmany hsum⟩

end Sys2Proof.Machine
end

section
/-! SUPPORT. What the SHARE_ commands do (R192, R194, R335, R390, R392): the start of each is its own operation, with one equation
per case of it; and the statement that they settle. -/

namespace Sys2Proof.Machine

open Sys2Proof Sys2Proof.Laws

/-! ## The operation of each opcode (R343) -/

section Opcode

variable {s t : State} {fn q va : Nat} {k : Cmd}

theorem exec_shareCreate_of_runs (h : runs s fn q 0x30 t k va) (ext : List Byte) :
    exec (.shareCreate fn q ext) s = .next (t.shareCreate k ext) := by
  change Host.Outcome.next (s.command fn q 0x30 ext) = _
  simp only [runs_command h, State.runOp, runs_opcode h]

theorem exec_shareVerify_of_runs (h : runs s fn q 0x31 t k va) : exec (.shareVerify fn q) s = .next (t.shareVerify k) := by
  change Host.Outcome.next (s.command fn q 0x31 []) = _
  simp only [runs_command h, State.runOp, runs_opcode h]

theorem exec_shareMap_of_runs (h : runs s fn q 0x32 t k va) : exec (.shareMap fn q) s = .next (t.shareMap k) := by
  change Host.Outcome.next (s.command fn q 0x32 []) = _
  simp only [runs_command h, State.runOp, runs_opcode h]

theorem exec_shareUnmap_of_runs (h : runs s fn q 0x33 t k va) : exec (.shareUnmap fn q) s = .next (t.shareUnmap k) := by
  change Host.Outcome.next (s.command fn q 0x33 []) = _
  simp only [runs_command h, State.runOp, runs_opcode h]

theorem exec_shareDestroy_of_runs (h : runs s fn q 0x34 t k va) : exec (.shareDestroy fn q) s = .next (t.shareDestroy k) := by
  change Host.Outcome.next (s.command fn q 0x34 []) = _
  simp only [runs_command h, State.runOp, runs_opcode h]

end Opcode

/-! ## SHARE_CREATE (R192, R335, R390) -/

theorem shareForm_iff (d : List Byte) : shareForm d = true ↔
    leField d 0 8 % 65536 = 0 ∧ leField d 0 8 < 2 ^ 44 ∧ leField d 8 8 % 65536 = 0 ∧ leField d 8 8 < 2 ^ 44 ∧
      1 ≤ leField d 16 4 ∧ leField d 16 4 ≤ 2 ^ 20 ∧ leField d 20 1 ≤ 2 ∧ leField d 24 8 < 2 ^ 56 ∧ leField d 21 3 = 0 ∧
      leNat (d.drop 32) = 0 := by
  simp only [shareForm, Bool.and_eq_true, decide_eq_true_eq, beq_iff_eq, and_assoc]

section Ledger

variable {s : State} {va pa len : Nat} {m : Bool} (hfront : s.frontXlate 0 va .rd = .loc pa m)
  (hready : s.runReady pa (64 + 48 * ceilDiv (len * 65536) 0x100000) = true)
include hfront hready

theorem State.ledgerRead_ok {g : Ledger} (hclean : s.poisonIn pa (64 + 48 * ceilDiv (len * 65536) 0x100000) = false)
    (himage : s.ledgerImage pa len = some g) : s.ledgerRead va len = .ok (some g) := by
  simp only [State.ledgerRead, hfront, hready, hclean, himage, Bool.not_true, Bool.false_eq_true, if_false]

theorem State.ledgerRead_lost (hlost : s.poisonIn pa (64 + 48 * ceilDiv (len * 65536) 0x100000) = true ∨
    s.ledgerImage pa len = none) : s.ledgerRead va len = .bad 8 := by
  simp only [State.ledgerRead, hfront, hready, Bool.not_true, Bool.false_eq_true, if_false]
  obtain hpoison | himage := hlost
  · rw [if_pos hpoison]
  · split
    · rfl
    · rw [himage]

end Ledger

/-- The entry of a twin is set to two words, with a ledger or none, and its object is yet to be verified. -/
def State.setTwin (s : State) (i w0 w1 : Nat) (g : Option Ledger) : State :=
  let s := (s.wr 0 (0x1003000 + 16 * i) (BitVec.ofNat 64 w0)).wr 0 (0x1003008 + 16 * i) (BitVec.ofNat 64 w1)
  let s := match g with
    | some g => { s with ledgers := s.ledgers.put i g }
    | none => { s with ledgers := s.ledgers.del i }
  { s with verified := s.verified.filter (· != i) }

theorem State.setTwin_none (s : State) (i w0 w1 : Nat) : s.setTwin i w0 w1 none =
    { (s.wr 0 (0x1003000 + 16 * i) (BitVec.ofNat 64 w0)).wr 0 (0x1003008 + 16 * i) (BitVec.ofNat 64 w1) with
      ledgers := s.ledgers.del i, verified := s.verified.filter (· != i) } := rfl

theorem State.setTwin_some (s : State) (i w0 w1 : Nat) (g : Ledger) : s.setTwin i w0 w1 (some g) =
    { (s.wr 0 (0x1003000 + 16 * i) (BitVec.ofNat 64 w0)).wr 0 (0x1003008 + 16 * i) (BitVec.ofNat 64 w1) with
      ledgers := s.ledgers.put i g, verified := s.verified.filter (· != i) } := rfl

/-- LEDGER of a twin entry, where there is one and where there is none. -/
theorem ledgerFlag_set (n : Nat) : n + true.toNat * 2 ^ 60 = n + 2 ^ 60 := by rw [Bool.toNat_true, Nat.one_mul]

theorem ledgerFlag_clear (n : Nat) : n + false.toNat * 2 ^ 60 = n := by rw [Bool.toNat_false, Nat.zero_mul, Nat.add_zero]

section Create

variable {s : State} {k : Cmd} {ext : List Byte} (hfn : k.fn = 0)
include hfn

theorem State.shareCreate_unread {e : Nat} {t : State} (hread : s.readVa k.who 0 (k.arg 8 8) 64 .rd ext = .fail e t) :
    s.shareCreate k ext = t.failedRead k e (k.arg 8 8) := by
  simp only [State.shareCreate, hfn, hread, ne_eq, not_true_eq_false, if_false]

variable {d n : List Byte} {t : State} (hread : s.readVa k.who 0 (k.arg 8 8) 64 .rd ext = .ok d n t)
include hread

theorem State.shareCreate_malformed (hform : shareForm d = false) : s.shareCreate k ext = t.done k 0x19 := by
  simp only [State.shareCreate, hfn, hread, hform, ne_eq, not_true_eq_false, if_false, Bool.not_false, if_true]

variable (hform : shareForm d = true)
include hform

theorem State.shareCreate_lacking
    (hlacks : t.copyLacks (leField d 0 8) (leField d 16 4) = true ∨ t.copyLacks (leField d 8 8) (leField d 16 4) = true) :
    s.shareCreate k ext = t.done k 0x1F := by
  simp only [State.shareCreate, hfn, hread, hform, hlacks, Bool.or_eq_true, ne_eq, not_true_eq_false, if_false, Bool.not_true,
    Bool.false_eq_true, if_true]

variable (hlacksA : t.copyLacks (leField d 0 8) (leField d 16 4) = false)
  (hlacksB : t.copyLacks (leField d 8 8) (leField d 16 4) = false)
include hlacksA hlacksB

theorem State.shareCreate_refused (hrefused : t.twinOf (recHandle k.w) ≠ none ∨
      (∀ i < 64, t.fld 0 i Reg.DCTL_TWIN0.VALID ≠ 0) ∨ t.copyOk (leField d 20 1) (leField d 0 8) (leField d 16 4) = false ∨
      t.copyOk (leField d 20 1) (leField d 8 8) (leField d 16 4) = false ∨
      copiesApart (leField d 0 8) (leField d 8 8) (leField d 16 4) = false) :
    s.shareCreate k ext = t.done k 0x11 := by
  simp only [State.shareCreate, hfn, hread, hform, hlacksA, hlacksB, Bool.or_self, ne_eq, not_true_eq_false, if_false,
    Bool.not_true, Bool.false_eq_true]
  by_cases hknown : (t.twinOf (recHandle k.w)).isSome = true
  · rw [if_pos hknown]
  rw [if_neg hknown]
  split
  · rfl
  next i hfree =>
    have hi := List.mem_range.mp (List.mem_of_find?_eq_some hfree)
    have hvalid : t.fld 0 i Reg.DCTL_TWIN0.VALID = 0 := by simpa using List.find?_some hfree
    obtain h | h | h | h | h := hrefused
    · exact absurd (Option.isSome_iff_ne_none.mpr h) hknown
    · exact absurd hvalid (h i hi)
    all_goals simp [h]

variable {i : Nat} (hnew : t.twinOf (recHandle k.w) = none)
  (hfree : (List.range 64).find? (fun i => t.fld 0 i Reg.DCTL_TWIN0.VALID == 0) = some i)
  (hokA : t.copyOk (leField d 20 1) (leField d 0 8) (leField d 16 4) = true)
  (hokB : t.copyOk (leField d 20 1) (leField d 8 8) (leField d 16 4) = true)
  (hapart : copiesApart (leField d 0 8) (leField d 8 8) (leField d 16 4) = true)
include hnew hfree hokA hokB hapart

/-- An object that passes every check gets the entry, with its ledger or none. -/
theorem State.shareCreate_checked {g : Option Ledger} (hledger : (if leField d 24 8 = 0 then LedgerRead.ok none else
    t.ledgerRead (leField d 24 8) (leField d 16 4)) = .ok g) :
    s.shareCreate k ext = (t.setTwin i
      (2 ^ 63 + g.isSome.toNat * 2 ^ 60 + leField d 20 1 * 2 ^ 58 + leField d 0 8 / 65536 * 2 ^ 16 + recHandle k.w)
      (leField d 16 4 % 2 ^ 20 * 2 ^ 44 + leField d 8 8 / 65536 * 2 ^ 16) g).done k 0 := by
  rw [State.shareCreate, if_neg (not_not.mpr hfn), hread]
  simp only [hform, hlacksA, hlacksB, hnew, hfree, hokA, hokB, hapart, hledger, Bool.or_self, Bool.and_self, if_false,
    Bool.not_true, Bool.false_eq_true, Option.isSome_none]
  rfl

theorem State.shareCreate_plain (hva : leField d 24 8 = 0) :
    s.shareCreate k ext = ({ (t.wr 0 (0x1003000 + 16 * i) (BitVec.ofNat 64
          (2 ^ 63 + leField d 20 1 * 2 ^ 58 + leField d 0 8 / 65536 * 2 ^ 16 + recHandle k.w))).wr 0 (0x1003008 + 16 * i)
        (BitVec.ofNat 64 (leField d 16 4 % 2 ^ 20 * 2 ^ 44 + leField d 8 8 / 65536 * 2 ^ 16)) with
      ledgers := t.ledgers.del i, verified := t.verified.filter (· != i) } : State).done k 0 := by
  rw [State.shareCreate_checked hfn hread hform hlacksA hlacksB hnew hfree hokA hokB hapart (if_pos hva), Option.isSome_none,
    ledgerFlag_clear, State.setTwin_none]

variable (hva : leField d 24 8 ≠ 0)
include hva

theorem State.shareCreate_ledger {g : Ledger} (hledger : t.ledgerRead (leField d 24 8) (leField d 16 4) = .ok (some g)) :
    s.shareCreate k ext = ({ (t.wr 0 (0x1003000 + 16 * i) (BitVec.ofNat 64
          (2 ^ 63 + 2 ^ 60 + leField d 20 1 * 2 ^ 58 + leField d 0 8 / 65536 * 2 ^ 16 + recHandle k.w))).wr 0
        (0x1003008 + 16 * i) (BitVec.ofNat 64 (leField d 16 4 % 2 ^ 20 * 2 ^ 44 + leField d 8 8 / 65536 * 2 ^ 16)) with
      ledgers := t.ledgers.put i g, verified := t.verified.filter (· != i) } : State).done k 0 := by
  rw [State.shareCreate_checked hfn hread hform hlacksA hlacksB hnew hfree hokA hokB hapart ((if_neg hva).trans hledger),
    Option.isSome_some, ledgerFlag_set, State.setTwin_some]

/-- R346: a ledger that fails its check is taken as lost data. -/
theorem State.shareCreate_lost (hledger : t.ledgerRead (leField d 24 8) (leField d 16 4) = .bad 8) :
    s.shareCreate k ext = t.failed1 k 0x14 0x0F (leField d 24 8) := by
  simp only [State.shareCreate, hfn, hread, hform, hlacksA, hlacksB, hnew, hfree, hokA, hokB, hapart, hva, hledger, Bool.or_self,
    Bool.and_self, ne_eq, not_true_eq_false, if_false, if_true, Bool.not_true, Bool.false_eq_true, Option.isSome_none]

end Create

/-! ## Clearing leaves keeps the entries of the twins -/

section Clear

variable (s : State)

theorem State.writeMem_twins (pa : Nat) (d : List Byte) :
    (s.writeMem pa d false).2.uncounted.twins = s.uncounted.twins := by
  rw [State.writeMem]
  split
  · rfl
  · obtain ⟨p, hstore⟩ := State.storeUnits_eq (f := d.length / 256 + 2) (pa := pa) (d := d) (.inl (by omega))
      (s.tier2Write pa d.length)
    rw [if_neg Bool.false_ne_true, hstore]
    change (s.tier2Write pa d.length).uncounted.twins = _
    exact congrArg Uncounted.twins (s.tier2Write_uncounted pa d.length)

theorem State.clearLeaves_twins (fn : Nat) (l : List (Nat × Nat × Nat)) :
    (s.clearLeaves fn l).uncounted.twins = s.uncounted.twins := by
  refine List.foldlRecOn (motive := fun t => (State.uncounted t).twins = s.uncounted.twins) _ _ rfl fun t ht x _ => ?_
  split
  · split
    · exact (t.writeMem_twins _ _).trans ht
    · exact ht
  · exact ht

theorem State.twinPri_of_twins {s t : State} {i : Nat} (hi : i < 64) (h : t.uncounted.twins = s.uncounted.twins) :
    t.twinPri i = s.twinPri i := by
  have hrd : t.rd 0 (0x1003000 + 16 * i % 0x400) = s.rd 0 (0x1003000 + 16 * i % 0x400) := congrFun h (16 * i)
  rw [Nat.mod_eq_of_lt (by omega)] at hrd
  exact congrArg (fun v : U64 => bits v.toNat 16 28 * 65536) hrd

/-- The primary copy lies where it did while the leaves of an object's mappings are cleared. -/
theorem State.foldl_clearLeaves_twinPri {i a : Nat} (hi : i < 64) (ha : s.twinPri i = a) (fn len : Nat) (l : List SharedMap) :
    l.foldl (fun (s : State) y => s.clearLeaves fn (mapLeaves len y.va (s.twinPri i) len false)) s =
      l.foldl (fun s y => s.clearLeaves fn (mapLeaves len y.va a len false)) s := by
  induction l generalizing s with
  | nil => rfl
  | cons y l ih =>
    rw [List.foldl_cons, List.foldl_cons, ha]
    exact ih _ ((State.twinPri_of_twins hi (s.clearLeaves_twins fn _)).trans ha)

end Clear

/-! ## SHARE_VERIFY, SHARE_MAP, SHARE_UNMAP and SHARE_DESTROY (R335, R392) -/

/-- The checks of SHARE_MAP pass. -/
theorem State.shareMap_goes {s : State} {i v f : Nat} (hverified : i ∈ s.verified) (hpage : v % 65536 = 0)
    (hend : v + s.twinLen i * 65536 ≤ 2 ^ 56) (hactive : s.fld 0 (f - 1) Reg.DCTL_COMP_PART0.STATE = 1) :
    (!s.verified.contains i || v % 65536 != 0 || decide (2 ^ 56 < v + s.twinLen i * 65536) ||
      s.fld 0 (f - 1) Reg.DCTL_COMP_PART0.STATE != 1) = false := by
  rw [decide_eq_false (not_lt.mpr hend)]
  simp [hverified, hpage, hactive]

section Object

variable {s : State} {k : Cmd} (hfn : k.fn = 0)
include hfn

section Unknown

variable (hnone : s.twinOf (recHandle k.w) = none)
include hnone

theorem State.shareVerify_unknown : s.shareVerify k = s.done k 0x11 := by
  simp only [State.shareVerify, hfn, hnone, if_true]

theorem State.shareMap_unknown : s.shareMap k = s.done k 0x11 := by
  simp only [State.shareMap, hfn, hnone, if_true]

theorem State.shareUnmap_unknown : s.shareUnmap k = s.done k 0x11 := by
  simp only [State.shareUnmap, hfn, hnone, if_true]

theorem State.shareDestroy_unknown : s.shareDestroy k = s.done k 0x11 := by
  simp only [State.shareDestroy, hfn, hnone, if_true]

end Unknown

variable {i : Nat} (htwin : s.twinOf (recHandle k.w) = some i)
include htwin

section Verify

variable {g : Ledger} {len : Nat} (hledger : s.ledgers.find? i = some g) (hlen : len = s.twinLen i * 65536)
include hledger hlen

theorem State.shareVerify_matches (hpri : s.copyMatches g (s.twinPri i) len = true)
    (hsec : s.copyMatches g (s.twinSec i) len = true) {t : State}
    (ht : t = ({ s with verified := (s.verified.filter (· != i)) ++ [i] } : State).setFld 0 i Reg.DCTL_TWIN0.DAMAGED 0) :
    s.shareVerify k = ((t.shared.filter fun x => x.tw == i).foldl (fun s x => s.setIntact x.fn) t).done k 0 := by
  subst ht hlen
  simp only [State.shareVerify, hfn, htwin, hledger, hpri, hsec, Bool.and_self, if_true]

theorem State.shareVerify_differs
    (hdiffers : s.copyMatches g (s.twinPri i) len = false ∨ s.copyMatches g (s.twinSec i) len = false) :
    s.shareVerify k = (if s.bothLost i then s.damage i else s).failed1 k 0x14 0x0F 0 := by
  have hnot : ¬(s.copyMatches g (s.twinPri i) len && s.copyMatches g (s.twinSec i) len) = true := by
    obtain h | h := hdiffers <;> simp [h]
  subst hlen
  simp only [State.shareVerify, hfn, htwin, hledger, if_true]
  rw [if_neg hnot]

end Verify

section Map

variable {f v : Nat} (hf : f = vf (k.arg 16 1)) (hv : v = k.arg 8 8)
include hf hv

section Checked

variable (hverified : i ∈ s.verified) (hpage : v % 65536 = 0) (hend : v + s.twinLen i * 65536 ≤ 2 ^ 56)
  (hactive : s.fld 0 (f - 1) Reg.DCTL_COMP_PART0.STATE = 1) {r : Option State}
  (hr : s.writeLeaves f (mapLeaves (s.twinLen i) v (s.twinPri i) (s.twinLen i) false)
    (fun x => leafValue (1 + 4 * (k.arg 17 1 % 2)) 0 x 0 true) = r)
include hverified hpage hend hactive hr

theorem State.shareMap_blocked (hnone : r = none) : s.shareMap k = s.done k 0x11 := by
  have hgoes := State.shareMap_goes hverified hpage hend hactive
  subst hf hv hnone
  simp only [State.shareMap, hfn, htwin, hgoes, hr, if_true, Bool.false_eq_true, if_false]

theorem State.shareMap_maps {t : State} (hsome : r = some t) :
    s.shareMap k = (({ t with shared := t.shared ++ [⟨f, i, v⟩] } : State).setSharedMap f).done k 0 := by
  have hgoes := State.shareMap_goes hverified hpage hend hactive
  subst hf hv hsome
  simp only [State.shareMap, hfn, htwin, hgoes, hr, if_true, Bool.false_eq_true, if_false]

end Checked

theorem State.shareMap_refused (hrefused : i ∉ s.verified ∨ v % 65536 ≠ 0 ∨ 2 ^ 56 < v + s.twinLen i * 65536 ∨
    s.fld 0 (f - 1) Reg.DCTL_COMP_PART0.STATE ≠ 1) : s.shareMap k = s.done k 0x11 := by
  subst hf hv
  have hstops : (!s.verified.contains i || k.arg 8 8 % 65536 != 0 || decide (2 ^ 56 < k.arg 8 8 + s.twinLen i * 65536) ||
      s.fld 0 (vf (k.arg 16 1) - 1) Reg.DCTL_COMP_PART0.STATE != 1) = true := by
    simpa [or_assoc] using hrefused
  simp only [State.shareMap, hfn, htwin, hstops, if_true]

end Map

theorem State.shareUnmap_unmapped (hnone : ∀ x ∈ s.shared, x.fn = vf (k.arg 16 1) → x.tw ≠ i) :
    s.shareUnmap k = s.done k 0x11 := by
  have hmaps : s.shared.filter (fun x => x.fn == vf (k.arg 16 1) && x.tw == i) = [] :=
    List.filter_eq_nil_iff.mpr fun x hx => by simpa using hnone x hx
  simp only [State.shareUnmap, hfn, htwin, hmaps, if_true]

theorem State.shareUnmap_mapped {f : Nat} (hf : f = vf (k.arg 16 1)) {x : SharedMap} {more : List SharedMap}
    (hmaps : s.shared.filter (fun x => x.fn == f && x.tw == i) = x :: more) {t1 t2 : State}
    (ht1 : t1 = more.foldl (fun t y => t.dropXlat f (some (y.va / 65536, s.twinLen i))) ((x :: more).foldl (fun t y =>
      t.clearLeaves f (mapLeaves (s.twinLen i) y.va (s.twinPri i) (s.twinLen i) false)) s))
    (ht2 : t2 = { t1 with shared := t1.shared.filter fun y => !(y.fn == f && y.tw == i) }) :
    s.shareUnmap k =
      (t2.setSharedMap f).startInval f (some (x.va / 65536, s.twinLen i)) (some (k.q, k.sq, k.g)) 0 := by
  have hi : i < 64 := List.mem_range.mp (List.mem_of_find?_eq_some htwin)
  subst hf
  simp only [State.shareUnmap, hfn, htwin, hmaps, if_true]
  rw [s.foldl_clearLeaves_twinPri hi rfl, ← ht1, ← ht2]

theorem State.shareDestroy_mapped (hmapped : ∃ x ∈ s.shared, x.tw = i) : s.shareDestroy k = s.done k 0x11 := by
  have hany : s.shared.any (fun x => x.tw == i) = true := by simpa using hmapped
  simp only [State.shareDestroy, hfn, htwin, hany, if_true]

theorem State.shareDestroy_unmapped (hnone : ∀ x ∈ s.shared, x.tw ≠ i) :
    s.shareDestroy k = ({ (s.wr 0 (0x1003000 + 16 * i) 0).wr 0 (0x1003008 + 16 * i) 0 with
      ledgers := s.ledgers.del i, verified := s.verified.filter (· != i)
      chunks := s.chunks.filter (·.tw != i) } : State).done k 0 := by
  have hany : s.shared.any (fun x => x.tw == i) = false := by simpa using hnone
  simp only [State.shareDestroy, hfn, htwin, hany, if_true, Bool.false_eq_true, if_false, State.wr_ledgers, State.wr_verified,
    State.wr_chunks]

end Object

/-- Settles O31: each command is its own operation, and each clause is one case of that. -/
theorem sharedObjectCommands : Obligations.SharedObjectCommands := by
  unfold Obligations.SharedObjectCommands
  refine fun s t q va k ext hfn => ⟨fun hruns => ⟨fun e t' hread => ?unread, ?create⟩,
    fun i htwin => ⟨?verify, ?map, fun hruns hnone => ?unmapNone, ?unmap, fun hruns => ⟨fun hmapped => ?kept, fun hnone => ?gone⟩⟩,
    ?unknown⟩
  case unread => rw [exec_shareCreate_of_runs hruns, State.shareCreate_unread hfn hread]
  case create =>
    rintro d n t' a b len tier lva hread rfl rfl rfl rfl rfl
    rw [exec_shareCreate_of_runs hruns]
    refine ⟨shareForm_iff d, fun hform => ?malformed, fun hform hlacks => ?lacking,
      fun hform hlacksA hlacksB hrefused => ?refused,
      fun i hform hlacksA hlacksB hnew hfree hokA hokB hapart => ⟨fun hva => ?plain, ?ledger⟩⟩
    case malformed => rw [State.shareCreate_malformed hfn hread hform]
    case lacking => rw [State.shareCreate_lacking hfn hread hform hlacks]
    case refused => rw [State.shareCreate_refused hfn hread hform hlacksA hlacksB hrefused]
    case plain => rw [State.shareCreate_plain hfn hread hform hlacksA hlacksB hnew hfree hokA hokB hapart hva]
    case ledger =>
      rintro pa m bytes hva hfront rfl hready
      refine ⟨fun g hclean himage => ?_, fun hlost => ?_⟩
      · rw [State.shareCreate_ledger hfn hread hform hlacksA hlacksB hnew hfree hokA hokB hapart hva
          (State.ledgerRead_ok hfront hready hclean himage)]
      · rw [State.shareCreate_lost hfn hread hform hlacksA hlacksB hnew hfree hokA hokB hapart hva
          (State.ledgerRead_lost hfront hready hlost)]
  case verify =>
    intro g len hruns hledger hlen
    rw [exec_shareVerify_of_runs hruns]
    refine ⟨fun hpri hsec t' ht' => ?_, fun hdiffers => ?_⟩
    · rw [State.shareVerify_matches hfn htwin hledger hlen hpri hsec ht']
    · rw [State.shareVerify_differs hfn htwin hledger hlen hdiffers]
  case map =>
    intro f v hruns hf hv
    rw [exec_shareMap_of_runs hruns]
    refine ⟨fun hverified hpage hend hactive r hr => ⟨fun hnone => ?_, fun t' hsome => ?_⟩, fun hrefused => ?_⟩
    · rw [State.shareMap_blocked hfn htwin hf hv hverified hpage hend hactive hr hnone]
    · rw [State.shareMap_maps hfn htwin hf hv hverified hpage hend hactive hr hsome]
    · rw [State.shareMap_refused hfn htwin hf hv hrefused]
  case unmapNone => rw [exec_shareUnmap_of_runs hruns, State.shareUnmap_unmapped hfn htwin hnone]
  case unmap =>
    intro f x more t1 t2 hruns hf hmaps ht1 ht2
    rw [exec_shareUnmap_of_runs hruns, State.shareUnmap_mapped hfn htwin hf hmaps ht1 ht2]
  case kept => rw [exec_shareDestroy_of_runs hruns, State.shareDestroy_mapped hfn htwin hmapped]
  case gone => rw [exec_shareDestroy_of_runs hruns, State.shareDestroy_unmapped hfn htwin hnone]
  case unknown =>
    simp only [List.forall_mem_cons, List.not_mem_nil, false_implies, implies_true, and_true]
    refine ⟨fun hruns hnone => ?_, fun hruns hnone => ?_, fun hruns hnone => ?_, fun hruns hnone => ?_⟩
    · rw [exec_shareVerify_of_runs hruns, State.shareVerify_unknown hfn hnone]
    · rw [exec_shareMap_of_runs hruns, State.shareMap_unknown hfn hnone]
    · rw [exec_shareUnmap_of_runs hruns, State.shareUnmap_unknown hfn hnone]
    · rw [exec_shareDestroy_of_runs hruns, State.shareDestroy_unknown hfn hnone]

end Sys2Proof.Machine
end

section
/-! SUPPORT. Which changes of a state header are legal (R215, R217, R218), and what SWAP, CAS and CLAIM store at their unit (R207,
R214, R216); and the statements that they settle. -/

namespace Sys2Proof.Machine

open Sys2Proof

/-! ## Fields of a state header (R215) -/

section Header

variable (h : BitVec 128)

/-- Bits of a header's number are those of the header. -/
theorem bits_header (lo w : Nat) : bits h.toNat lo w = (h.extractLsb' lo w).toNat := by
  rw [BitVec.extractLsb'_toNat, Nat.shiftRight_eq_div_pow, bits]

theorem hdrNode_header : hdrNode h.toNat = (h.extractLsb' 0 16).toNat := bits_header h 0 16
theorem hdrEpoch_header : hdrEpoch h.toNat = (h.extractLsb' 16 16).toNat := bits_header h 16 16
theorem hdrState_header : hdrState h.toNat = (h.extractLsb' 32 8).toNat := bits_header h 32 8
theorem hdrOffer_header : hdrOffer h.toNat = (h.extractLsb' 40 40).toNat := bits_header h 40 40
theorem hdrSeq_header : hdrSeq h.toNat = (h.extractLsb' 80 32).toNat := bits_header h 80 32

/-- R218: the age of an offer is a difference of beats modulo 2 ^ 40. -/
theorem offerOver_header (beat timeout : Nat) :
    offerOver beat h.toNat timeout = true ↔ timeout ≤ (BitVec.ofNat 40 beat - h.extractLsb' 40 40).toNat := by
  have hoffer := (h.extractLsb' 40 40).isLt
  have hage : (beat % 2 ^ 40 + 2 ^ 40 - (h.extractLsb' 40 40).toNat) % 2 ^ 40 =
      (BitVec.ofNat 40 beat - h.extractLsb' 40 40).toNat := by
    rw [BitVec.toNat_sub, BitVec.toNat_ofNat]
    congr 1
    omega
  rw [offerOver, decide_eq_true_eq, hdrOffer_header, hage]

end Header

/-! ## Legal changes of a header (R217) -/

/-- R217: a change is legal where SEQ rises, the reserved bits are zero, and it is one of the table's four pairs of states with
what the table asks there. -/
theorem claimLegal_iff (old new req beat timeout : Nat) : claimLegal old new req beat timeout = true ↔
    hdrSeq new = (hdrSeq old + 1) % 2 ^ 32 ∧ bits new 112 16 = 0 ∧
    (hdrState old = 0 ∧ hdrState new = 1 ∧ hdrNode new = req ∧ hdrEpoch new = (hdrEpoch old + 1) % 2 ^ 16 ∧ hdrOffer new = 0 ∨
     hdrState old = 1 ∧ hdrState new = 2 ∧ req = hdrNode old ∧ hdrNode new = hdrNode old ∧ hdrEpoch new = hdrEpoch old ∨
     hdrState old = 1 ∧ hdrState new = 0 ∧ req = hdrNode old ∧ hdrNode new = 0 ∧ hdrEpoch new = hdrEpoch old ∧
       hdrOffer new = 0 ∨
     hdrState old = 2 ∧ hdrState new = 1 ∧ hdrNode new = req ∧ hdrEpoch new = (hdrEpoch old + 1) % 2 ^ 16 ∧ hdrOffer new = 0 ∧
       (req ≠ hdrNode old ∨ offerOver beat old timeout = true)) := by
  simp only [claimLegal, Bool.and_eq_true, beq_iff_eq, and_assoc]
  refine and_congr_right fun _ => and_congr_right fun _ => ?_
  split
  case h_1 hfree howned => simp [hfree, howned, and_assoc]
  case h_2 howned hoffered => simp [howned, hoffered, and_assoc]
  case h_3 howned hfree => simp [howned, hfree, and_assoc]
  case h_4 hoffered howned => simp [hoffered, howned, and_assoc]
  case h_5 hclaim hoffer hrelease hreclaim =>
    refine iff_of_false Bool.false_ne_true ?_
    rintro (⟨ho, hn, -⟩ | ⟨ho, hn, -⟩ | ⟨ho, hn, -⟩ | ⟨ho, hn, -⟩)
    · exact hclaim ho hn
    · exact hoffer ho hn
    · exact hrelease ho hn
    · exact hreclaim ho hn

/-- Settles O26: the table of legal changes, read off the fields of the two headers. -/
theorem claimTransitions : Obligations.ClaimTransitions := by
  unfold Obligations.ClaimTransitions
  intro old new req beat timeout
  simp only [claimLegal_iff, offerOver_header, hdrNode_header, hdrEpoch_header, hdrState_header, hdrOffer_header,
    hdrSeq_header, bits_header]
  simp only [← BitVec.toNat_inj, BitVec.toNat_add]
  rfl

/-! ## One atomic at its unit (R207) -/

/-- A lookup in the counter tree of tier 2 touches only what counting touches. -/
theorem State.leafLookup_uncounted (s : State) (pa : Nat) : (s.leafLookup pa).uncounted = s.uncounted := by
  unfold State.leafLookup
  split
  · exact s.nodeLookup_uncounted ..
  · rfl

@[simp] theorem State.tier2Read_uncounted (s : State) (pa len : Nat) : (s.tier2Read pa len).uncounted = s.uncounted := by
  unfold State.tier2Read
  split
  · exact State.uncounted_foldl (fun t k => t.leafLookup_uncounted _) _ _
  · rfl

@[simp] theorem State.tier2Read_mem (s : State) (pa len : Nat) : (s.tier2Read pa len).mem = s.mem :=
  congrArg (fun u => u.rest.mem) (s.tier2Read_uncounted pa len)

section Atomic

variable {s : State} {pa : Nat}

/-- What an atomic leaves in memory: the datum that it stores for the value found, or all as it was. -/
theorem State.atomic_mem {n : Nat} (hauth : s.authFailed (pa / n * n) = false) (hclean : s.poisoned (pa / n * n) = false)
    (store : Nat → Option Nat) : (s.atomic pa n store).2.mem = (store (leNat (s.mem.getRun (pa / n * n) n))).elim s.mem
      fun v => s.mem.setRun (pa / n * n) (leBytes n v) := by
  simp only [State.atomic, hauth, hclean, Bool.or_self, Bool.false_eq_true, if_false]
  cases store (leNat (s.mem.getRun (pa / n * n) n)) with
  | none => exact s.tier2Read_mem ..
  | some v => simp only [State.tier2Write_mem, Option.elim_some]

section Word

variable (hauth : s.authFailed (pa / 8 * 8) = false) (hclean : s.poisoned (pa / 8 * 8) = false)
include hauth hclean

theorem State.swap_mem (new : U64) :
    (s.swap pa new.toNat).2.mem = s.mem.setRun (pa / 8 * 8) (leBytes 8 new.toNat) := by
  rw [State.swap, State.atomic_mem hauth hclean, Option.elim_some, Nat.mod_eq_of_lt new.isLt]

theorem State.cas_mem (cmp new : U64) : (s.cas pa cmp.toNat new.toNat).2.mem =
    if leNat (s.mem.getRun (pa / 8 * 8) 8) = cmp.toNat then s.mem.setRun (pa / 8 * 8) (leBytes 8 new.toNat) else s.mem := by
  rw [State.cas, State.atomic_mem hauth hclean, Nat.mod_eq_of_lt cmp.isLt, Nat.mod_eq_of_lt new.isLt]
  split <;> rfl

end Word

theorem State.claim_mem (hauth : s.authFailed (pa / 16 * 16) = false) (hclean : s.poisoned (pa / 16 * 16) = false)
    (req : Nat) (cmp new : BitVec 128) : (s.claim pa req cmp.toNat new.toNat).2.mem =
      if leNat (s.mem.getRun (pa / 16 * 16) 16) = cmp.toNat ∧ claimLegal (leNat (s.mem.getRun (pa / 16 * 16) 16)) new.toNat req
          s.now (s.fld 0 0 Reg.DCTL_MSU_CFG.OFFER_TIMEOUT) = true
        then s.mem.setRun (pa / 16 * 16) (leBytes 16 (claimStored new.toNat s.now)) else s.mem := by
  rw [State.claim, State.atomic_mem hauth hclean, Nat.mod_eq_of_lt cmp.isLt, Nat.mod_eq_of_lt new.isLt]
  simp only [Bool.and_eq_true, decide_eq_true_eq]
  split <;> rfl

end Atomic

/-- R219: counting a CLAIM touches registers alone. -/
@[simp] theorem State.claimStat_untouched (s : State) (fn cmp : Nat) (r : AtomRes) :
    (s.claimStat fn cmp r).untouched = s.untouched := by
  simp only [State.claimStat, State.untouched_ite, State.satAdd_untouched, State.raise_untouched, ite_self]

/-! ## The commands (R214, R216) -/

section Commands

variable {s : State} {pa len fn : Nat} (hmap : (s.mapped pa).isSome = true) (hstop : s.paStopped pa = false)
include hmap hstop

/-- An operation whose bytes all exist, in a unit that serves them. -/
theorem State.unitOp_serves (hrun : s.runMapped pa len = true) (hctr : s.countersRoom pa len = true) (op : State → State) :
    s.unitOp pa len false fn op = .next (op s) := by
  have hlen := leBytes_length len 0
  rw [← hlen] at hrun hctr ⊢
  exact State.unitOp_runs hrun hmap hstop hctr op

section Word

variable (hrun : s.runMapped pa 8 = true) (hctr : s.countersRoom pa 8 = true)
include hrun hctr

theorem exec_memorySideSwap_serves (new : U64) :
    exec (.memorySideSwap pa new false fn) s = .next (s.swap pa new.toNat).2 := by
  change execMemorySideSwap pa new false fn s = _
  rw [execMemorySideSwap, State.unitOp_serves hmap hstop hrun hctr]

theorem exec_memorySideCas_serves (cmp new : U64) :
    exec (.memorySideCas pa cmp new false fn) s = .next (s.cas pa cmp.toNat new.toNat).2 := by
  change execMemorySideCas pa cmp new false fn s = _
  rw [execMemorySideCas, State.unitOp_serves hmap hstop hrun hctr]

end Word

theorem exec_memorySideClaim_serves (hrun : s.runMapped pa 16 = true) (hctr : s.countersRoom pa 16 = true) (req : Nat)
    (cmp new : BitVec 128) : exec (.memorySideClaim pa req cmp new false fn) s =
      .next ((s.claim pa req cmp.toNat new.toNat).2.claimStat fn cmp.toNat (s.claim pa req cmp.toNat new.toNat).1) := by
  change execMemorySideClaim pa req cmp new false fn s = _
  rw [execMemorySideClaim, State.unitOp_serves hmap hstop hrun hctr]

end Commands

/-- Settles O25: each command is its operation at its unit, which stores the datum or leaves memory as it was. -/
theorem memorySideAtomics : Obligations.MemorySideAtomics := by
  unfold Obligations.MemorySideAtomics
  refine fun s pa fn _ hmap hstop => ⟨?word, ?claim⟩
  case word =>
    rintro new cmp a old rfl rfl hrun hctr hauth hclean
    exact ⟨⟨_, exec_memorySideSwap_serves hmap hstop hrun hctr new, State.swap_mem hauth hclean new⟩,
      ⟨_, exec_memorySideCas_serves hmap hstop hrun hctr cmp new, State.cas_mem hauth hclean cmp new⟩⟩
  case claim =>
    rintro cmp new req a old rfl hold hrun hctr hauth hclean
    rw [hold]
    refine ⟨_, exec_memorySideClaim_serves hmap hstop hrun hctr req cmp new, ?_⟩
    exact (congrArg Untouched.mem (State.claimStat_untouched ..)).trans (State.claim_mem hauth hclean req cmp new)

end Sys2Proof.Machine
end

section
/-! SUPPORT. What fault queries, invalidations and the host's answers about translations do (R230, R234, R235, R240): one equation
per case; and the statements that they settle. -/

namespace Sys2Proof.Machine

open Sys2Proof

/-! ## Fault queries (R240) -/

@[simp] theorem State.setFld_faults (s : State) (fn i : Nat) (f : Fld) (v : Nat) : (s.setFld fn i f v).faults = s.faults := rfl

section Query

variable {s : State} {fn fid : Nat}

theorem exec_xlatFqueryWrite_open {o : OpenFault}
    (hopen : s.faults.find? (fun o => o.fn == fn && o.entry && o.id == fid % 65536) = some o) :
    exec (.xlatFqueryWrite fn fid) s = .next (((s.setFld fn 0 Reg.XLAT_FQUERY.FAULT_ID fid).setFld fn 0
      Reg.XLAT_FQUERY.OPEN 1).setFld fn 0 Reg.XLAT_FQUERY.ATTACHED (min o.moves.length 0xFFFF)) := by
  change Host.Outcome.next (s.fquery fn fid) = _
  simp only [State.fquery, State.setFld_faults, hopen]

theorem exec_xlatFqueryWrite_no_fault
    (hnone : s.faults.find? (fun o => o.fn == fn && o.entry && o.id == fid % 65536) = none) :
    exec (.xlatFqueryWrite fn fid) s = .next (((s.setFld fn 0 Reg.XLAT_FQUERY.FAULT_ID fid).setFld fn 0
      Reg.XLAT_FQUERY.OPEN 0).setFld fn 0 Reg.XLAT_FQUERY.ATTACHED 0) := by
  change Host.Outcome.next (s.fquery fn fid) = _
  simp only [State.fquery, State.setFld_faults, hnone]

end Query

/-! ## DCTL_XLAT_INV (R235) -/

section Write

variable {s : State} {v : U64} {scope pages : Nat} (hscope : scope = bits v.toNat 62 2) (hpages : pages = bits v.toNat 0 16)
include hscope hpages

theorem exec_dctlXlatInvWrite_starts (hfree : s.fld 0 0 Reg.DCTL_XLAT_INVSTAT.BUSY ≠ 1)
    (hlegal : scope = 1 ∨ scope = 2 ∧ pages ≠ 0) :
    exec (.dctlXlatInvWrite v) s = .next ((s.setFld 0 0 Reg.DCTL_XLAT_INVSTAT.BUSY 1).startInval (bits v.toNat 57 5 + 1)
      (if scope = 1 then none else some (bits v.toNat 16 40, pages)) none) := by
  have hnot : ¬(s.fld 0 0 Reg.DCTL_XLAT_INVSTAT.BUSY = 1 ∨ (scope ≠ 1 ∧ scope ≠ 2) ∨ scope = 2 ∧ pages = 0) := by omega
  subst hscope hpages
  change Host.Outcome.next (s.xlatInv v.toNat) = _
  rw [State.xlatInv, if_neg hnot, vf]

theorem exec_dctlXlatInvWrite_ignored
    (hillegal : s.fld 0 0 Reg.DCTL_XLAT_INVSTAT.BUSY = 1 ∨ scope ≠ 1 ∧ scope ≠ 2 ∨ scope = 2 ∧ pages = 0) :
    exec (.dctlXlatInvWrite v) s = .next (s.raise 0 0 Reg.DCTL_XLAT_INVSTAT.IGNORED) := by
  subst hscope hpages
  change Host.Outcome.next (s.xlatInv v.toNat) = _
  rw [State.xlatInv, if_pos hillegal]

end Write

/-! ## The completion of an invalidation (R230, R234, R235, R360) -/

theorem State.invalReady_iff (s : State) (v : Inval) :
    s.invalReady v = true ↔ ∀ w ∈ v.waiting, ∀ m ∈ (s.core w.1).cur.moves, m.seq ≠ w.2 := by
  simp [State.invalReady]

/-- An invalidation that no move holds back completes. -/
theorem exec_invalidateComplete_ready {s : State} {id : Nat} {v : Inval} (hv : s.invals.find? (·.id == id) = some v)
    (hready : ∀ w ∈ v.waiting, ∀ m ∈ (s.core w.1).cur.moves, m.seq ≠ w.2) :
    exec (.invalidateComplete id) s = .next (s.completeInval v) := by
  change execInvalidateComplete id s = _
  simp only [execInvalidateComplete, hv, (s.invalReady_iff v).mpr hready, if_true]

section Complete

variable {s s1 : State} {v : Inval} (hs1 : s1 = { s with invals := s.invals.filter fun x => x.id != v.id })
include hs1

theorem State.completeInval_ats (hats : v.ats = true) : s.completeInval v = s1.send (.pcie v.fn 2 v.id) := by
  subst hs1
  rw [State.completeInval, if_pos hats]

variable (hown : v.ats = false)
include hown

theorem State.completeInval_register (hcmd : v.cmd = none) : s.completeInval v =
    (s1.setFld 0 0 Reg.DCTL_XLAT_INVSTAT.BUSY 0).modAdd 0 0 Reg.DCTL_XLAT_INVSTAT.DONE 1 := by
  subst hs1
  simp only [State.completeInval, hown, hcmd, Bool.false_eq_true, if_false]

variable {q sq : Nat} {g : Option Nat} (hcmd : v.cmd = some (q, sq, g))
include hcmd

/-- The command of an invalidation that frees no object completes. -/
theorem State.completeInval_command
    (hkeeps : ((s1.qrec v.cfn q sq).filter fun r => recOp r.w == 0x13 || recOp r.w == 0x14) = none) :
    s.completeInval v = s1.finish v.cfn q sq g 0 0 false := by
  subst hs1
  simp only [State.completeInval, hown, hcmd, hkeeps, Bool.false_eq_true, if_false]

/-- R360: the object of an UNMAP or RELEASE is gone as the command completes. -/
theorem State.completeInval_frees {r : QRec}
    (hfrees : ((s1.qrec v.cfn q sq).filter fun r => recOp r.w == 0x13 || recOp r.w == 0x14) = some r) :
    s.completeInval v =
      ({ s1 with mobjs := s1.mobjs.del (key2 v.cfn (recHandle r.w)) } : State).finish v.cfn q sq g 0 0 false := by
  subst hs1
  simp only [State.completeInval, hown, hcmd, hfrees, Bool.false_eq_true, if_false]

end Complete

/-- Settles O19: a query by whether its fault is open, a write by whether it is legal, and a completion by what asked for it. -/
theorem faultQueryAndInvalidation : Obligations.FaultQueryAndInvalidation := by
  unfold Obligations.FaultQueryAndInvalidation
  refine ⟨fun s fn fid => ⟨fun o => exec_xlatFqueryWrite_open, exec_xlatFqueryWrite_no_fault⟩, fun s v scope pages hscope hpages =>
    ⟨exec_dctlXlatInvWrite_starts hscope hpages, exec_dctlXlatInvWrite_ignored hscope hpages⟩, ?complete⟩
  intro s s1 id v hv hready hs1
  rw [exec_invalidateComplete_ready hv hready]
  refine ⟨fun hats => ?ats, fun hown hcmd => ?register, fun q sq g hown hcmd hkeeps => ?command,
    fun q sq g r hown hcmd hfrees => ?frees⟩
  case ats => rw [State.completeInval_ats hs1 hats]
  case register => rw [State.completeInval_register hs1 hown hcmd]
  case command => rw [State.completeInval_command hs1 hown hcmd hkeeps]
  case frees => rw [State.completeInval_frees hs1 hown hcmd hfrees]

/-! ## Translations of the host (R230) -/

/-- The moves of a function that hold one of the 4 KiB translations that a host's invalidation names, as (core, move number). -/
def State.hostHolders (s : State) (fn addr pages : Nat) : List (Nat × Nat) :=
  (s.cores.filter fun e => e.2.launch.isSome && (s.coreFn e.1).1 == fn).flatMap fun e =>
    (e.2.cur.moves.filter fun m => m.started && m.hosts.any fun h =>
      decide (addr / 4096 ≤ h.1) && decide (h.1 < addr / 4096 + pages)).map fun m => (e.1, m.seq)

theorem exec_atsInvalidation_eq {s s1 : State} {fn addr pages : Nat} (hs1 : s1 = s.setAts fn { s.atsOf fn with
      cached := (s.atsOf fn).cached.filter fun e => !(decide (addr / 4096 ≤ e.1) && decide (e.1 < addr / 4096 + pages)) }) :
    exec (.atsInvalidation fn addr pages) s = .next { s1 with
      nextInval := s1.nextInval + 1
      invals := s1.invals ++ [{ id := s1.nextInval, fn := fn, range := none, cmd := none, cfn := fn, ats := true
                                waiting := s.hostHolders fn addr pages }] } := by
  subst hs1
  change Host.Outcome.next (s.atsInval fn addr pages) = _
  rw [State.atsInval, State.hostHolders]

section Answer

variable {s : State} {fn page host : Nat} {t : Ats} (ht : t = s.atsOf fn) (hon : t.on = true)
  (hused : t.users.any (·.2.2 == page) = true)
include ht hon hused

theorem State.atsDone_granted : s.atsDone fn page host true = (t.users.filter fun u => u.2.2 == page).foldl
    (fun s u => (s.progress u.1 u.2.1).2) (s.setAts fn { t with
      cached := t.cached.put page (host / 4096), users := t.users.filter fun u => u.2.2 != page }) := by
  subst ht
  simp only [State.atsDone, hon, hused, Bool.not_true, Bool.or_self, Bool.false_eq_true, if_false, if_true]

theorem State.atsDone_denied (hpri : t.pri = false) : s.atsDone fn page host false = s.failUsers fn page 6 := by
  subst ht
  simp only [State.atsDone, hon, hused, hpri, Bool.not_true, Bool.not_false, Bool.or_self, Bool.false_eq_true, if_false, if_true]

theorem State.atsDone_requests (hpri : t.pri = true) : s.atsDone fn page host false =
    if t.asked.contains page ∨ t.waiting.contains page then s.stallUsers fn page
    else ((s.stallUsers fn page).setAts fn { t with waiting := t.waiting ++ [page] }).pumpPri fn := by
  subst ht
  simp only [State.atsDone, hon, hused, hpri, Bool.not_true, Bool.or_self, Bool.or_eq_true, Bool.false_eq_true, if_false]

end Answer

/-- The answer to a page request that is out makes room for another, and its moves ask again or fault. -/
theorem State.priDone_asked {s s1 : State} {fn page : Nat} (hasked : (s.atsOf fn).asked.contains page = true)
    (hs1 : s1 = (s.setAts fn { s.atsOf fn with asked := (s.atsOf fn).asked.erase page }).pumpPri fn) (success : Bool) :
    s.priDone fn page success = if success then s1.send (.pcie fn 1 page) else s1.failUsers fn page 6 := by
  subst hs1
  simp only [State.priDone, hasked, Bool.not_true, Bool.false_eq_true, if_false]

/-- Settles O20: an invalidation by its one equation, and the host's answers by what they grant. -/
theorem hostTranslations : Obligations.HostTranslations := by
  unfold Obligations.HostTranslations
  refine ⟨fun s s1 fn addr pages v hv hwaiting hs1 => ?invalidation, fun s fn va host t ht hon hused =>
    ⟨?granted, fun hpri => ?denied, fun hpri => ?requests⟩, fun s s1 fn va hasked hs1 => ⟨?again, ?faults⟩⟩
  case invalidation =>
    rw [hwaiting] at hv
    rw [exec_atsInvalidation_eq hs1, hv, State.hostHolders]
  case granted => exact congrArg Host.Outcome.next (State.atsDone_granted ht hon hused)
  case denied => exact congrArg Host.Outcome.next (State.atsDone_denied ht hon hused hpri)
  case requests => exact congrArg Host.Outcome.next (State.atsDone_requests ht hon hused hpri)
  case again => exact congrArg Host.Outcome.next (State.priDone_asked hasked hs1 true)
  case faults => exact congrArg Host.Outcome.next (State.priDone_asked hasked hs1 false)

end Sys2Proof.Machine
end

section
/-! SUPPORT. What the commands on memory objects and graphs do (R234, R334, R344, R357, R359 to R362): the start of each is its own
operation, with one equation per case of it; and the statement that they settle. -/

namespace Sys2Proof.Machine

open Sys2Proof Sys2Proof.Laws

/-! ## The operation of each opcode (R343) -/

section Opcode

variable {s t : State} {fn q va : Nat} {k : Cmd}

theorem exec_map_of_runs (h : runs s fn q 0x12 t k va) : exec (.map fn q) s = .next (t.mapObj k) := by
  change Host.Outcome.next (s.command fn q 0x12 []) = _
  simp only [runs_command h, State.runOp, runs_opcode h]

theorem exec_unmap_of_runs (h : runs s fn q 0x13 t k va) : exec (.unmap fn q) s = .next (t.unmapObj k) := by
  change Host.Outcome.next (s.command fn q 0x13 []) = _
  simp only [runs_command h, State.runOp, runs_opcode h]

theorem exec_release_of_runs (h : runs s fn q 0x14 t k va) : exec (.release fn q) s = .next (t.unmapObj k) := by
  change Host.Outcome.next (s.command fn q 0x14 []) = _
  simp only [runs_command h, State.runOp, runs_opcode h]

theorem exec_invalidate_of_runs (h : runs s fn q 0x15 t k va) : exec (.invalidate fn q) s = .next (t.invalidateCmd k) := by
  change Host.Outcome.next (s.command fn q 0x15 []) = _
  simp only [runs_command h, State.runOp, runs_opcode h]

theorem exec_graphStore_of_runs (h : runs s fn q 0x18 t k va) (ext : List Byte) :
    exec (.graphStore fn q ext) s = .next (t.graphStore k ext) := by
  change Host.Outcome.next (s.command fn q 0x18 ext) = _
  simp only [runs_command h, State.runOp, runs_opcode h]

theorem exec_graphPatch_of_runs (h : runs s fn q 0x19 t k va) (ext : List Byte) :
    exec (.graphPatch fn q ext) s = .next (t.graphPatch k ext) := by
  change Host.Outcome.next (s.command fn q 0x19 ext) = _
  simp only [runs_command h, State.runOp, runs_opcode h]

theorem exec_graphDestroy_of_runs (h : runs s fn q 0x1A t k va) : exec (.graphDestroy fn q) s = .next (t.graphDestroy k) := by
  change Host.Outcome.next (s.command fn q 0x1A []) = _
  simp only [runs_command h, State.runOp, runs_opcode h]

end Opcode

/-! ## Memory objects (R234, R334, R344, R360) -/

section Objects

variable {s : State} {k : Cmd} {h : Nat} (hh : h = key2 k.fn (recHandle k.w))
include hh

theorem State.mapObj_used (hused : s.mobjs.find? h ≠ none) : s.mapObj k = s.done k 0x11 := by
  subst hh
  rw [State.mapObj, if_pos (Option.isSome_iff_ne_none.mpr hused)]

section New

variable (hnew : s.mobjs.find? h = none) {r : Option State}
  (hr : s.writeLeaves k.fn (mapLeaves (k.arg 24 4) (k.arg 8 8) (k.arg 16 8) (k.arg 24 4) (bitOf (k.arg 31 1) 4))
    (fun x => leafValue (k.arg 31 1) (k.arg 30 1) x (k.arg 28 2) false) = r)
include hnew hr

/-- R362: leaves that cannot all be written leave the object unmade. -/
theorem State.mapObj_blocked (hnone : r = none) : s.mapObj k = s.done k 0x11 := by
  subst hh hnone
  simp only [State.mapObj, hnew, hr, Option.isSome_none, Bool.false_eq_true, if_false]

theorem State.mapObj_maps {t : State} (hsome : r = some t) {o : MemObj}
    (ho : o = ⟨k.arg 8 8, k.arg 24 4, k.arg 30 1, k.arg 31 1, k.arg 16 8, k.ctx, false⟩) :
    s.mapObj k = ({ t with mobjs := t.mobjs.put h o } : State).done k 0 := by
  subst hh hsome ho
  simp only [State.mapObj, hnew, hr, Option.isSome_none, Bool.false_eq_true, if_false]

end New

theorem State.unmapObj_gone (hgone : ∀ o, s.mobjs.find? h = some o → o.dying = true) : s.unmapObj k = s.done k 0x11 := by
  subst hh
  have hnone : (s.mobjs.find? (key2 k.fn (recHandle k.w))).filter (fun o => !o.dying) = none :=
    Option.filter_eq_none_iff.mpr fun o ho => by simp [hgone o ho]
  rw [State.unmapObj, hnone]

theorem State.unmapObj_clears {o : MemObj} (hobj : s.mobjs.find? h = some o) (hlives : o.dying = false) {t : State}
    (ht : t = s.clearLeaves k.fn o.leaves) :
    s.unmapObj k = ({ t with mobjs := t.mobjs.put h { o with dying := true } } : State).startInval k.fn
      (some (o.va / 65536, o.pages)) (some (k.q, k.sq, k.g)) := by
  subst hh ht
  have hsome : (s.mobjs.find? (key2 k.fn (recHandle k.w))).filter (fun o => !o.dying) = some o := by simp [hobj, hlives]
  rw [State.unmapObj, hsome]

end Objects

/-! ## GRAPH_STORE (R357) -/

section Store

variable {s : State} {k : Cmd} {h n : Nat} (hh : h = key2 k.fn (recHandle k.w)) (hn : n = k.arg 16 2)
include hh hn

theorem State.graphStore_refused (hrefused : s.graphs.find? h ≠ none ∨ s.graphRoom k.fn n = false) (ext : List Byte) :
    s.graphStore k ext = s.done k 0x11 := by
  subst hh hn
  have hstops : ((s.graphs.find? (key2 k.fn (recHandle k.w))).isSome || !s.graphRoom k.fn (k.arg 16 2)) = true := by
    simpa [Option.isSome_iff_ne_none] using hrefused
  rw [State.graphStore, if_pos hstops]

variable (hnew : s.graphs.find? h = none) (hroom : s.graphRoom k.fn n = true) {ext : List Byte}
include hnew hroom

theorem State.graphStore_unread {e : Nat} {t : State} (hread : s.readVa k.who k.fn (k.arg 8 8) (64 * n) .rd ext = .fail e t) :
    s.graphStore k ext = t.failedRead k e (k.arg 8 8) := by
  subst hh hn
  simp only [State.graphStore, hnew, hroom, hread, Option.isSome_none, Bool.not_true, Bool.or_self, Bool.false_eq_true, if_false]

/-- Records that may stand in a graph make its version 1. -/
theorem State.graphStore_reads {d m : List Byte} {t : State}
    (hread : s.readVa k.who k.fn (k.arg 8 8) (64 * n) .rd ext = .ok d m t) :
    s.graphStore k ext = if (recsFrom n d).all graphRec then
      ({ t with graphs := t.graphs.put h
                  { ctx := k.ctx, vers := [⟨1, recsFrom n d, 0⟩], next := none, destroying := false } } : State).done k 0
      else t.done k 0x19 := by
  subst hh hn
  simp only [State.graphStore, hnew, hroom, hread, Option.isSome_none, Bool.not_true, Bool.or_self, Bool.false_eq_true, if_false]
  cases (recsFrom (k.arg 16 2) d).all graphRec <;> rfl

end Store

/-! ## GRAPH_PATCH and GRAPH_DESTROY (R359, R361) -/

theorem State.graphPatch_gone {s : State} {k : Cmd} (hgone : s.graphLive k = none) (ext : List Byte) :
    s.graphPatch k ext = s.done k 0x11 := by
  rw [State.graphPatch, hgone]

section Patch

variable {s : State} {k : Cmd} {x : Graph} {v : GVersion} {n m : Nat} (hlive : s.graphLive k = some x)
  (hnewest : x.vers.getLast? = some v) (hn : n = k.arg 16 2) (hm : m = k.arg 18 2)
include hlive hnewest hn hm

theorem State.graphPatch_refused (hrefused : v.recs.length < n + m ∨ s.graphRoom k.fn v.recs.length = false)
    (ext : List Byte) : s.graphPatch k ext = s.done k 0x11 := by
  subst hn hm
  have hstops : (decide (v.recs.length < k.arg 16 2 + k.arg 18 2) || !s.graphRoom k.fn v.recs.length) = true := by
    simpa using hrefused
  simp only [State.graphPatch, hlive, hnewest, Option.map_some, Option.getD_some]
  rw [if_pos hstops]

variable (hfits : n + m ≤ v.recs.length) (hroom : s.graphRoom k.fn v.recs.length = true) {ext : List Byte}
include hfits hroom

theorem State.graphPatch_waits (hfull : 16 ≤ x.vers.length ∨ x.next ≠ none) : s.graphPatch k ext = s := by
  subst hn hm
  simp only [State.graphPatch, hlive, hnewest, Option.map_some, Option.getD_some]
  rw [if_neg (by simpa [hroom] using hfits), if_pos (by simpa [Option.isSome_iff_ne_none] using hfull)]

variable (hfree : x.vers.length < 16) (hnext : x.next = none)
include hfree hnext

theorem State.graphPatch_unread {e : Nat} {t : State} (hread : s.readVa k.who k.fn (k.arg 8 8) (64 * m) .rd ext = .fail e t) :
    s.graphPatch k ext = t.failedRead k e (k.arg 8 8) := by
  subst hn hm
  simp only [State.graphPatch, hlive, hnewest, hread, Option.map_some, Option.getD_some]
  rw [if_neg (by simpa [hroom] using hfits), if_neg (by simpa [hnext] using hfree)]

/-- The patched copy of the newest version waits for the next edge. -/
theorem State.graphPatch_reads {h : Nat} (hh : h = key2 k.fn (recHandle k.w)) {d j : List Byte} {t : State}
    (hread : s.readVa k.who k.fn (k.arg 8 8) (64 * m) .rd ext = .ok d j t) :
    s.graphPatch k ext = if (recsFrom m d).all graphRec then
      { t with
        graphs := t.graphs.put h { x with
          next := some ⟨(v.num + 1) % 65536, v.recs.take n ++ recsFrom m d ++ v.recs.drop (n + m), 0⟩ }
        deferred := t.deferred ++ [.graph k.fn (recHandle k.w) k.q k.sq] }
      else t.done k 0x19 := by
  subst hh hn hm
  simp only [State.graphPatch, hlive, hnewest, hread, Option.map_some, Option.getD_some]
  rw [if_neg (by simpa [hroom] using hfits), if_neg (by simpa [hnext] using hfree)]
  cases (recsFrom (k.arg 18 2) d).all graphRec <;> rfl

end Patch

theorem State.graphDestroy_gone {s : State} {k : Cmd} (hgone : s.graphLive k = none) : s.graphDestroy k = s.done k 0x11 := by
  rw [State.graphDestroy, hgone]

theorem State.graphDestroy_asks {s : State} {k : Cmd} {x : Graph} (hlive : s.graphLive k = some x) :
    s.graphDestroy k = ({ s with graphs := s.graphs.put (key2 k.fn (recHandle k.w)) { x with destroying := true } } :
      State).askDestroy k 2 (recHandle k.w) := by
  rw [State.graphDestroy, hlive]

/-- Settles O30: each command is its own operation, and each clause is one case of that. -/
theorem objectCommands : Obligations.ObjectCommands := by
  unfold Obligations.ObjectCommands
  refine fun s t fn q va k ext h hh => ⟨fun hruns => ?map, ?unmap, fun hruns => ?invalidate, fun n hn hruns => ?store,
    fun x v n m hlive hnewest hn hm hruns => ?patch, ?gone, fun x hlive hruns => ?destroy⟩
  case map =>
    rw [exec_map_of_runs hruns]
    refine ⟨fun hused => ?used, fun hnew r hr => ⟨fun hnone => ?blocked, fun t' o hsome ho => ?maps⟩⟩
    case used => rw [State.mapObj_used hh hused]
    case blocked => rw [State.mapObj_blocked hh hnew hr hnone]
    case maps => rw [State.mapObj_maps hh hnew hr hsome ho]
  case unmap =>
    have clears {i : Instr} (hexec : exec i s = .next (t.unmapObj k)) :
        ((∀ o, t.mobjs.find? h = some o → o.dying = true) → exec i s = .next (t.done k 0x11)) ∧
        (∀ o t', t.mobjs.find? h = some o → o.dying = false → t' = t.clearLeaves k.fn o.leaves →
          exec i s = .next (({ t' with mobjs := t'.mobjs.put h { o with dying := true } } : State).startInval k.fn
            (some (o.va / 65536, o.pages)) (some (k.q, k.sq, k.g)))) := by
      rw [hexec]
      refine ⟨fun hgone => ?_, fun o t' hobj hlives ht' => ?_⟩
      · rw [State.unmapObj_gone hh hgone]
      · rw [State.unmapObj_clears hh hobj hlives ht']
    simp only [List.forall_mem_cons, List.not_mem_nil, false_implies, implies_true, and_true]
    exact ⟨fun hruns => clears (exec_unmap_of_runs hruns), fun hruns => clears (exec_release_of_runs hruns)⟩
  case invalidate => rw [exec_invalidate_of_runs hruns, State.invalidateCmd, pagesTouched]
  case store =>
    rw [exec_graphStore_of_runs hruns]
    refine ⟨fun hrefused => ?refused, fun hnew hroom => ⟨fun e t' hread => ?unread, ?reads⟩⟩
    case refused => rw [State.graphStore_refused hh hn hrefused]
    case unread => rw [State.graphStore_unread hh hn hnew hroom hread]
    case reads =>
      rintro d m t' hread x rfl
      rw [State.graphStore_reads hh hn hnew hroom hread]
  case patch =>
    rw [exec_graphPatch_of_runs hruns]
    refine ⟨fun hrefused => ?refused, fun hfits hroom => ⟨fun hfull => ?waits, fun hfree hnext =>
      ⟨fun e t' hread => ?unread, fun d j t' hread => ?reads⟩⟩⟩
    case refused => rw [State.graphPatch_refused hlive hnewest hn hm hrefused]
    case waits => rw [State.graphPatch_waits hlive hnewest hn hm hfits hroom hfull]
    case unread => rw [State.graphPatch_unread hlive hnewest hn hm hfits hroom hfree hnext hread]
    case reads => rw [State.graphPatch_reads hlive hnewest hn hm hfits hroom hfree hnext hh hread]
  case gone =>
    simp only [List.forall_mem_cons, List.not_mem_nil, false_implies, implies_true, and_true]
    refine ⟨fun hruns hgone => ?_, fun hruns hgone => ?_⟩
    · rw [exec_graphPatch_of_runs hruns, State.graphPatch_gone hgone]
    · rw [exec_graphDestroy_of_runs hruns, State.graphDestroy_gone hgone]
  case destroy =>
    subst hh
    rw [exec_graphDestroy_of_runs hruns, State.graphDestroy_asks hlive]
    rfl

end Sys2Proof.Machine
end

section
/-! SUPPORT. The checks of a request or a response that arrives at a port (R254, R260, R261, R265, R270, R271, R273): one
equation per case; and the statement that they settle. -/

namespace Sys2Proof.Machine

open Sys2Proof

section Route

variable {s t : State} {p : Nat} {c c0 : Cell} {here : Cell → State → State}

theorem State.route_not_received (h : s.receive p c = (none, t)) : s.route p c here = t := by
  rw [State.route, h]

variable (h : s.receive p c = (some c0, t))
include h

/-- Before release a received cell is discarded (R479). -/
theorem State.route_before_release (hs : t.inService = false) : s.route p c here = t := by
  simp [State.route, h, hs]

variable (hs : t.inService = true)
include hs

/-- In service, a received cell passes the checks of its TYPE and fields, of its virtual device and of its hop, in this order. -/
theorem State.route_received : s.route p c here =
    if typeReserved c.typ || !cellFields c0 then t.routeErr p c0 false
    else if !t.carries p c0.vd then t.routeErr p c0 true
    else if c0.hop < c0.nhop then t.forward p c0
    else here c0 t := by
  simp only [State.route, h, hs, State.typ_of_receive h, Bool.not_true, Bool.false_eq_true, if_false]

theorem State.route_ill_formed (hbad : typeReserved c.typ = true ∨ cellFields c0 = false) :
    s.route p c here = t.routeErr p c0 false := by
  rw [State.route_received h hs, if_pos (by simpa using hbad)]

variable (htype : typeReserved c.typ = false) (hfields : cellFields c0 = true)
include htype hfields

theorem State.route_well_formed : s.route p c here =
    if !t.carries p c0.vd then t.routeErr p c0 true
    else if c0.hop < c0.nhop then t.forward p c0
    else here c0 t := by
  rw [State.route_received h hs, if_neg (by simp [htype, hfields])]

theorem State.route_foreign (hvd : t.carries p c0.vd = false) : s.route p c here = t.routeErr p c0 true := by
  rw [State.route_well_formed h hs htype hfields, if_pos (by simpa using hvd)]

theorem State.route_forwards (hvd : t.carries p c0.vd = true) (hhop : c0.hop < c0.nhop) : s.route p c here = t.forward p c0 := by
  rw [State.route_well_formed h hs htype hfields, if_neg (by simpa using hvd), if_pos hhop]

theorem State.route_arrives (hvd : t.carries p c0.vd = true) (hhop : c0.nhop ≤ c0.hop) : s.route p c here = here c0 t := by
  rw [State.route_well_formed h hs htype hfields, if_neg (by simpa using hvd), if_neg hhop.not_gt]

end Route

/-- A cell of a reserved TYPE keeps it under any row (R261, log 8). -/
theorem cellUnder_reserved {x : Cell} (h : typeReserved x.typ = true) (row : Nat) : cellUnder x row = x := if_pos h

/-! ## The statement -/

/-- Settles O36: every command of a request or a response routes its cell under the TYPE of its row, and each clause is the
equation of a case of the route. -/
theorem cellArrival : Obligations.CellArrival := by
  unfold Obligations.CellArrival
  intro s t p x c c0 i here hmem
  have hroute : exec i s = .next (s.route p c here) ∧ ∃ row, typeReserved row = false ∧ c = cellUnder x row := by
    simp only [List.mem_cons, Prod.mk.injEq, List.not_mem_nil, or_false] at hmem
    rcases hmem with ⟨rfl, rfl, rfl⟩ | ⟨rfl, rfl, rfl⟩ | ⟨rfl, rfl, rfl⟩ | ⟨rfl, rfl, rfl⟩ | ⟨rfl, rfl, rfl⟩ | ⟨rfl, rfl, rfl⟩ |
      ⟨rfl, rfl, rfl⟩ | ⟨rfl, rfl, rfl⟩ <;> exact ⟨rfl, _, by decide, rfl⟩
  obtain ⟨hexec, row, hrow, rfl⟩ := hroute
  have hreserved := typeReserved_cellUnder (x := x) hrow
  rw [hexec, ← hreserved]
  refine ⟨fun htype => cellUnder_reserved (hreserved ▸ htype) row, fun hnone => ?_, fun hsome hbefore => ?_,
    fun hsome hs => ⟨fun hbad => ?_, fun htype hfields => ⟨fun hvd => ?_, fun hvd hhop => ?_, fun hvd hhop => ?_⟩⟩⟩
  · rw [State.route_not_received hnone]
  · rw [State.route_before_release hsome hbefore]
  · rw [State.route_ill_formed hsome hs hbad]
  · rw [State.route_foreign hsome hs htype hfields hvd]
  · rw [State.route_forwards hsome hs htype hfields hvd hhop]
  · rw [State.route_arrives hsome hs htype hfields hvd hhop]

end Sys2Proof.Machine
end

section
/-! SUPPORT. Cells as bytes, blocks and lanes (R252, R253, R259, R260): what a header spells is read back from it, blocks that
are spread over lanes or follow a control block are found again. -/

namespace Sys2Proof.Machine

open Sys2Proof

/-! ## Numbers packed from fields -/

/-- The number that packs fields, each a width and a value, from its low end. -/
def packFields : List (Nat × Nat) → Nat
  | [] => 0
  | (w, v) :: fs => v % 2 ^ w + 2 ^ w * packFields fs

theorem packFields_lt (fs : List (Nat × Nat)) : packFields fs < 2 ^ (fs.map (·.1)).sum := by
  induction fs with
  | nil => exact Nat.one_pos
  | cons f fs ih =>
    rw [packFields, List.map_cons, List.sum_cons, Nat.pow_add]
    calc f.2 % 2 ^ f.1 + 2 ^ f.1 * packFields fs
        < 2 ^ f.1 * (packFields fs + 1) := by
          rw [Nat.mul_succ, Nat.add_comm]
          exact Nat.add_lt_add_left (Nat.mod_lt _ (Nat.two_pow_pos _)) _
      _ ≤ 2 ^ f.1 * 2 ^ (fs.map (·.1)).sum := Nat.mul_le_mul_left _ ih

@[simp] theorem bits_packFields_head (w v : Nat) (fs : List (Nat × Nat)) : bits (packFields ((w, v) :: fs)) 0 w = v % 2 ^ w := by
  rw [bits, packFields, Nat.pow_zero, Nat.div_one, Nat.add_mul_mod_self_left, Nat.mod_mod]

@[simp] theorem bits_packFields_tail {w lo : Nat} (h : w ≤ lo) (v w' : Nat) (fs : List (Nat × Nat)) :
    bits (packFields ((w, v) :: fs)) lo w' = bits (packFields fs) (lo - w) w' := by
  obtain ⟨d, rfl⟩ := Nat.exists_eq_add_of_le h
  rw [bits, bits, packFields, Nat.pow_add, ← Nat.div_div_eq_div_mul, Nat.add_mul_div_left _ _ (Nat.two_pow_pos w),
    Nat.div_eq_of_lt (Nat.mod_lt _ (Nat.two_pow_pos w)), Nat.zero_add, Nat.add_sub_cancel_left]

theorem bitOf_eq_bits (n i : Nat) : bitOf n i = (bits n i 1 == 1) := rfl

/-! ## The header (R260) -/

/-- The fields of a cell's header from bit 0 on, as widths and values. -/
def headerFields (c : Cell) : List (Nat × Nat) :=
  [(44, c.addr), (1, c.retry.toNat), (1, c.poison.toNat), (1, c.sched.toNat), (1, c.log.toNat), (9, c.len), (18, c.ttag),
    (6, c.op), (4, c.epoch), (16, c.vd), (16, c.src), (5, c.route.getD 0 0), (5, c.route.getD 1 0), (5, c.route.getD 2 0),
    (5, c.route.getD 3 0), (5, c.route.getD 4 0), (5, c.route.getD 5 0), (3, c.hop), (3, c.nhop), (3, c.vc), (4, c.typ)]

theorem routeField_eq (l : List Nat) : routeField l = l.getD 0 0 % 32 + l.getD 1 0 % 32 * 2 ^ 5 + l.getD 2 0 % 32 * 2 ^ 10 +
    l.getD 3 0 % 32 * 2 ^ 15 + l.getD 4 0 % 32 * 2 ^ 20 + l.getD 5 0 % 32 * 2 ^ 25 := by
  simp only [routeField, List.sum_range_succ, List.range_zero, List.map_nil, List.sum_nil, Nat.zero_add, Nat.mul_zero, pow_zero,
    Nat.mul_one]

theorem headerNat_eq_packFields (c : Cell) : headerNat c = packFields (headerFields c) := by
  have hflag (b : Bool) : b.toNat % 2 ^ 1 = b.toNat := Nat.mod_eq_of_lt b.toNat_lt
  simp only [headerNat, routeField_eq, headerFields, packFields, hflag]
  omega

theorem headerNat_lt (c : Cell) : headerNat c < 2 ^ 160 := by
  have hwidth : ((headerFields c).map (·.1)).sum = 160 := by simp [headerFields]
  rw [headerNat_eq_packFields, ← hwidth]
  exact packFields_lt (headerFields c)

/-- The header of a cell on a fibre spells the cell, but for what stands outside it: payload, tag and RESYNC block. -/
theorem cellOfHeader_headerNat {c : Cell} (hw : cellWidths c = true) (hlen : c.route.length = 6) (hroute : ∀ r ∈ c.route, r < 32)
    (payload tag : List Byte) : cellOfHeader (headerNat c) payload tag =
      { c with payload := payload.take (payloadLen c), tag := tag, resync := false } := by
  obtain ⟨typ, vc, sched, nhop, hop, route, src, vd, epoch, op, ttag, len, log, retry, poison, tag0, resync, addr, payload0⟩ := c
  match route, hlen with
  | [r0, r1, r2, r3, r4, r5], _ =>
  simp only [cellWidths, Bool.and_eq_true, decide_eq_true_eq] at hw
  obtain ⟨⟨htyp, hvc, hnhop, hhop, hsrc, hvd⟩, hepoch, hop6, httag, hlen9, haddr⟩ := hw
  simp only [List.forall_mem_cons, List.not_mem_nil, false_implies, implies_true, and_true] at hroute
  obtain ⟨h0, h1, h2, h3, h4, h5⟩ := hroute
  have hflag (b : Bool) : (b.toNat % 2 == 1) = b := by cases b <;> rfl
  rw [headerNat_eq_packFields]
  norm_num at httag haddr
  simp [cellOfHeader, headerFields, bitOf_eq_bits, payloadLen, List.range_succ, Nat.mod_eq_of_lt, *]

/-! ## The 544 bytes of a cell (R259) -/

@[simp] theorem padTo_length (n : Nat) (bs : List Byte) : (padTo n bs).length = n := by
  rw [padTo, List.length_append, List.length_take, List.length_replicate]
  omega

theorem padTo_of_length {n : Nat} {bs : List Byte} (h : bs.length = n) : padTo n bs = bs := by
  rw [padTo, List.take_of_length_le h.le, h, Nat.sub_self, List.replicate_zero, List.append_nil]

theorem padTo_take {n : Nat} {bs : List Byte} (h : bs.length ≤ n) : (padTo n bs).take bs.length = bs := by
  rw [padTo, List.take_of_length_le h, List.take_left]

@[simp] theorem headerBytes_length (c : Cell) : (headerBytes c).length = 20 := leBytes_length 20 _

@[simp] theorem cellBytes_length (c : Cell) : (cellBytes c).length = 544 := by
  rw [cellBytes, List.length_append, List.length_append, headerBytes_length, padTo_length, padTo_length]

theorem leNat_headerBytes (c : Cell) : leNat (headerBytes c) = headerNat c := by
  rw [headerBytes, leNat_leBytes, Nat.mod_eq_of_lt (headerNat_lt c)]

theorem cellOfBytes_cellBytes {c : Cell} (hw : cellWidths c = true) (hlen : c.route.length = 6) (hroute : ∀ r ∈ c.route, r < 32)
    (hpay : c.payload.length = payloadLen c) (hmax : c.payload.length ≤ 512) (htag : c.tag.length = 12)
    (hresync : c.resync = false) : cellOfBytes (cellBytes c) = c := by
  have hheader : (cellBytes c).take 20 = headerBytes c := by
    rw [cellBytes, List.append_assoc, List.take_left' (headerBytes_length c)]
  have hpayload : ((cellBytes c).drop 20).take 512 = padTo 512 c.payload := by
    rw [cellBytes, List.append_assoc, List.drop_left' (headerBytes_length c), List.take_left' (padTo_length 512 _)]
  have htail : (cellBytes c).drop 532 = c.tag := by
    rw [cellBytes, List.drop_left' (by simp), padTo_of_length htag]
  rw [cellOfBytes, hheader, hpayload, htail, leNat_headerBytes, cellOfHeader_headerNat hw hlen hroute, ← hpay, padTo_take hmax,
    ← hresync]

/-! ## Blocks of 32 bytes (R253) -/

@[simp] theorem cut32_length (n : Nat) (bs : List Byte) : (cut32 n bs).length = n := by
  induction n generalizing bs with
  | zero => rfl
  | succ n ih => rw [cut32, List.length_cons, ih]

theorem cut32_flatten {n : Nat} {bs : List Byte} (h : bs.length = 32 * n) : (cut32 n bs).flatten = bs := by
  induction n generalizing bs with
  | zero => exact (List.eq_nil_of_length_eq_zero h).symm
  | succ n ih =>
    rw [cut32, List.flatten_cons, ih (by rw [List.length_drop]; omega), List.take_append_drop]

theorem length_of_mem_cut32 {n : Nat} {bs : List Byte} (h : bs.length = 32 * n) : ∀ b ∈ cut32 n bs, b.length = 32 := by
  induction n generalizing bs with
  | zero => exact fun _ hb => absurd hb List.not_mem_nil
  | succ n ih =>
    rw [cut32, List.forall_mem_cons]
    exact ⟨by rw [List.length_take]; omega, ih (by rw [List.length_drop]; omega)⟩

@[simp] theorem cellBlocks_length (c : Cell) : (cellBlocks c).length = 17 := cut32_length 17 _

theorem cellBlocks_flatten (c : Cell) : (cellBlocks c).flatten = cellBytes c := cut32_flatten (cellBytes_length c)

theorem length_of_mem_cellBlocks (c : Cell) : ∀ b ∈ cellBlocks c, b.length = 32 := length_of_mem_cut32 (cellBytes_length c)

/-! ## Lanes (R253) -/

theorem laneStream_concat (w k : Nat) (bs : List (List Byte)) (b : List Byte) :
    laneStream w k (bs ++ [b]) = laneStream w k bs ++ if bs.length % w = k then [b] else [] := by
  rw [laneStream, List.zipIdx_append, List.filter_append, List.map_append, Nat.zero_add]
  by_cases h : bs.length % w = k <;> simp [laneStream, h]

/-- A lane receives a block for each number below the count that falls to it. -/
theorem laneStream_length (w k : Nat) (bs : List (List Byte)) :
    (laneStream w k bs).length = Nat.count (fun i => i % w = k) bs.length := by
  induction bs using List.reverseRecOn with
  | nil => rfl
  | append_singleton bs b ih =>
    rw [laneStream_concat, List.length_append, ih, List.length_append, List.length_singleton, Nat.count_succ]
    split <;> rfl

theorem count_before_on_lane {w : Nat} (hw : 0 < w) (j : Nat) : Nat.count (fun i => i % w = j % w) j = j / w :=
  (Nat.count_modEq_card j hw j).trans (by rw [if_neg (lt_irrefl _), Nat.add_zero])

/-- Block `j` of a stream is number `j / w` of its lane. -/
theorem laneStream_getD {w : Nat} (hw : 0 < w) {j : Nat} {bs : List (List Byte)} (hj : j < bs.length) :
    (laneStream w (j % w) bs).getD (j / w) [] = bs.getD j [] := by
  induction bs using List.reverseRecOn with
  | nil => exact absurd hj (Nat.not_lt_zero j)
  | append_singleton bs b ih =>
    rw [laneStream_concat]
    rw [List.length_append, List.length_singleton, Nat.lt_succ_iff] at hj
    obtain hlt | rfl := hj.lt_or_eq
    · have hin : j / w < (laneStream w (j % w) bs).length := by
        rw [laneStream_length, ← count_before_on_lane hw j]
        exact Nat.count_strict_mono rfl hlt
      rw [List.getD_append _ _ _ _ hin, List.getD_append _ _ _ _ hlt, ih hlt]
    · have hend : (laneStream w (bs.length % w) bs).length = bs.length / w := by
        rw [laneStream_length, count_before_on_lane hw]
      rw [if_pos rfl, List.getD_append_right _ _ _ _ hend.le, List.getD_append_right _ _ _ _ le_rfl, hend, Nat.sub_self,
        Nat.sub_self]

/-- The collected stream from block `j` on is what the stream held from there on. -/
theorem collect_laneStreams {w : Nat} (hw : 0 < w) (bs : List (List Byte)) {j n : Nat} (hn : j + n = bs.length) :
    collect ((List.range w).map fun k => laneStream w k bs) j n = bs.drop j := by
  induction n generalizing j with
  | zero => rw [collect, List.drop_of_length_le (by omega)]
  | succ n ih =>
    have hj : j < bs.length := by omega
    have hlane : ((List.range w).map fun k => laneStream w k bs).getD (j % w) [] = laneStream w (j % w) bs := by
      simp [List.getD, Nat.mod_lt j hw]
    rw [collect, List.length_map, List.length_range, hlane, laneStream_getD hw hj, ih (by omega), List.drop_eq_getElem_cons hj,
      List.getD_eq_getElem _ _ hj]

/-! ## Delineation (R253) -/

theorem delineate_control {b : Block} (hb : b.isData = false) (part : Option (List (List Byte))) (bs : List Block) :
    delineate part (b :: bs) = delineate (some []) bs := by
  cases b with
  | data => cases hb
  | idle | align | resync => cases part <;> rfl

/-- Blocks that complete a cell begun end it. -/
theorem delineate_completes {part bs : List (List Byte)} (h : part.length + bs.length = 17) (hne : bs ≠ []) (rest : List Block) :
    delineate (some part) (bs.map .data ++ rest) = (part ++ bs).flatten :: delineate (some []) rest := by
  induction bs generalizing part with
  | nil => exact absurd rfl hne
  | cons b bs ih =>
    rw [List.length_cons] at h
    rw [List.map_cons, List.cons_append, delineate]
    cases bs with
    | nil => rw [if_pos (by simpa using h)]; rfl
    | cons b' bs =>
      have hmore : part.length ≠ 16 := by rw [List.length_cons] at h; omega
      have hrest : (part ++ [b]).length + (b' :: bs).length = 17 := by simpa [Nat.add_assoc, Nat.add_comm 1] using h
      rw [if_neg hmore, ih hrest (List.cons_ne_nil b' bs), List.append_assoc, List.singleton_append]

theorem delineate_cells (cs : List Cell) :
    delineate (some []) (cs.flatMap fun c => (cellBlocks c).map .data) = cs.map cellBytes := by
  induction cs with
  | nil => rfl
  | cons c cs ih =>
    have hne : cellBlocks c ≠ [] := List.ne_nil_of_length_pos (by rw [cellBlocks_length]; decide)
    have hwhole : ([] : List (List Byte)).length + (cellBlocks c).length = 17 := by rw [List.length_nil, cellBlocks_length]
    rw [List.flatMap_cons, delineate_completes hwhole hne, ih, List.nil_append, cellBlocks_flatten, List.map_cons]

end Sys2Proof.Machine
end

section
/-! SUPPORT. The reception of a cell at a port (R254, R265 to R268, R418): one equation per case; and the statement that they
settle with the cells of the stream. -/

namespace Sys2Proof.Machine

open Sys2Proof

theorem State.port_setPort {s : State} (h : s.ports.rising = true) (p : Nat) (v : Port) : (s.setPort p v).port p = v := by
  rw [State.port, State.setPort_ports, Tab.get_set _ h, if_pos rfl]

section Receive

variable {s : State} {p : Nat} {c : Cell}

/-- A port that is not ACTIVE, or that waits for a replay, discards what is not its RESYNC block's cell (R254). -/
theorem State.receive_discarded
    (h : s.portActive p = false ∨ (s.port p).awaiting = true ∧ c.resync = false) : s.receive p c = (none, s) := by
  have hcond : (!s.portActive p || ((s.port p).awaiting && !c.resync)) = true := by
    obtain hdown | ⟨hwaits, hlater⟩ := h
    · rw [hdown]; rfl
    · rw [hwaits, hlater]; exact Bool.or_true _
  exact if_pos hcond

/-- The port that takes a cell waits for no replay from then on. -/
def State.takesCells (s : State) (p : Nat) : State := s.setPort p { s.port p with awaiting := false }

theorem State.port_takesCells (hports : s.ports.rising = true) : (s.takesCells p).port p = { s.port p with awaiting := false } :=
  State.port_setPort hports p _

theorem State.unseal_takesCells (hports : s.ports.rising = true) : (s.takesCells p).unseal p c = s.unseal p c := by
  simp only [State.unseal, State.port_takesCells hports]
  rfl

variable (hports : s.ports.rising = true) (hactive : s.portActive p = true)
  (hresync : (s.port p).awaiting = true → c.resync = true)
include hports hactive hresync

theorem State.receive_taken : s.receive p c =
    (s.unseal p c).elim (none, ((s.takesCells p).tagFailure p).badCell p false) fun d =>
      if d.sched && decide (576 ≤ (s.takesCells p).buffered p 7) then
        (none, ((s.takesCells p).raise 0 p Reg.DCTL_LYS_PSTAT.SCHED_OVF).badCell p true)
      else (some { d with resync := false }, (s.takesCells p).setPort p { s.port p with
        awaiting := false, rxSeq := ((s.port p).rxSeq + 1) % 2 ^ 32
        rxUsed := if s.sealing p then (s.port p).rxBase + (s.port p).rxSeq + 1 else (s.port p).rxUsed
        recv := if d.sched then (s.port p).recv
          else (s.port p).recv.set 0 (cellPool d) (((s.port p).recv.get 0 (cellPool d) + 1) % 65536) }) := by
  have htakes : (!s.portActive p || ((s.port p).awaiting && !c.resync)) = false := by
    rw [hactive, Bool.not_true, Bool.false_or, Bool.and_eq_false_imp]
    exact fun hwaits => by rw [hresync hwaits]; rfl
  simp only [State.receive, htakes, Bool.false_eq_true, if_false]
  rw [← State.takesCells, State.unseal_takesCells hports, State.port_takesCells hports]
  cases s.unseal p c <;> rfl

theorem State.receive_bad (hbad : s.unseal p c = none) :
    s.receive p c = (none, ((s.takesCells p).tagFailure p).badCell p false) := by
  rw [State.receive_taken hports hactive hresync, hbad, Option.elim_none]

theorem State.receive_overflows {d : Cell} (hopen : s.unseal p c = some d) (hsched : d.sched = true)
    (hfull : 576 ≤ (s.takesCells p).buffered p 7) :
    s.receive p c = (none, ((s.takesCells p).raise 0 p Reg.DCTL_LYS_PSTAT.SCHED_OVF).badCell p true) := by
  rw [State.receive_taken hports hactive hresync, hopen, Option.elim_some, if_pos (by simp [hsched, hfull])]

theorem State.receive_good {d : Cell} (hopen : s.unseal p c = some d)
    (hroom : d.sched = true → (s.takesCells p).buffered p 7 < 576) :
    s.receive p c = (some { d with resync := false }, (s.takesCells p).setPort p { s.port p with
      awaiting := false, rxSeq := ((s.port p).rxSeq + 1) % 2 ^ 32
      rxUsed := if s.sealing p then (s.port p).rxBase + (s.port p).rxSeq + 1 else (s.port p).rxUsed
      recv := if d.sched then (s.port p).recv
        else (s.port p).recv.set 0 d.vc (((s.port p).recv.get 0 d.vc + 1) % 65536) }) := by
  rw [State.receive_taken hports hactive hresync, hopen, Option.elim_some]
  cases hsched : d.sched with
  | true => simp [(hroom hsched).not_ge]
  | false => simp [hsched, cellPool]

end Receive

/-! ## The statement -/

/-- Settles O37: the bytes, lanes and blocks of a cell give it back, and a reception is the equation of its case. -/
theorem cellReception : Obligations.CellReception := by
  unfold Obligations.CellReception
  refine ⟨?bytes, ?lanes, ?resync, ?align, ?receive⟩
  case bytes =>
    intro c hw hlen hroute hpay hmax htag hresync
    exact ⟨cellBytes_length c, cellOfBytes_cellBytes hw hlen hroute hpay hmax htag hresync, cellBlocks_length c,
      cellBlocks_flatten c, length_of_mem_cellBlocks c⟩
  case lanes =>
    intro w bs hw
    rw [collect_laneStreams hw bs (Nat.zero_add _), List.drop_zero]
  case resync => exact fun cs => by rw [delineate_control rfl, delineate_cells]
  case align => exact fun part n cs => by rw [delineate_control rfl, delineate_cells]
  case receive =>
    rintro s _ p c _ rfl rfl hports
    refine ⟨State.receive_discarded, fun hactive hresync o ho => ?_⟩
    have hopen : s.unseal p c = o := ho.symm
    refine ⟨fun hbad => ?_, fun d hd => ⟨fun hsched hfull => ?_, fun hroom => ?_⟩⟩
    · exact State.receive_bad hports hactive hresync (hopen.trans hbad)
    · exact State.receive_overflows hports hactive hresync (hopen.trans hd) hsched hfull
    · exact State.receive_good hports hactive hresync (hopen.trans hd) hroom

end Sys2Proof.Machine
end

section
/-! SUPPORT. Training, retraining and the limits of a port, and its laser module (R248, R255 to R258, R268, R278 to R280): one
equation per case; and the statement that they settle. -/

namespace Sys2Proof.Machine

open Sys2Proof

/-! ## What a logged error leaves as it was -/

@[simp] theorem State.ports_ite {c : Prop} [Decidable c] (a b : State) :
    (if c then a else b).ports = if c then a.ports else b.ports :=
  apply_ite State.ports c a b

section PortsFrame

variable (s : State)

@[simp] theorem State.setFld_ports (fn i : Nat) (f : Fld) (v : Nat) : (s.setFld fn i f v).ports = s.ports := (rfl)
@[simp] theorem State.satAdd_ports (fn i : Nat) (f : Fld) (n : Nat) : (s.satAdd fn i f n).ports = s.ports := (rfl)
@[simp] theorem State.modAdd_ports (fn i : Nat) (f : Fld) (n : Nat) : (s.modAdd fn i f n).ports = s.ports := (rfl)
@[simp] theorem State.raise_ports (fn i : Nat) (f : Fld) : (s.raise fn i f).ports = s.ports := (rfl)

@[simp] theorem State.msi_ports (fn vec : Nat) : (s.msi fn vec).ports = s.ports := by simp [State.msi]

@[simp] theorem State.intc_ports (fn b : Nat) : (s.intc fn b).ports = s.ports := by simp [State.intc]

@[simp] theorem State.postErr_ports (fn : Nat) (r : ErrRec) : (s.postErr fn r).ports = s.ports := by simp [State.postErr]

@[simp] theorem State.logErr_ports (r : ErrRec) : (s.logErr r).ports = s.ports := by
  simp only [State.logErr, State.ports_ite]
  cases r.part <;> simp

@[simp] theorem State.logCE_ports (source cause unit : Nat) (part : Option Nat) :
    (s.logCE source cause unit part).ports = s.ports := s.logErr_ports _

end PortsFrame

/-! ## Training (R255 to R257) -/

section Training

variable {s u : State} {p lanes : Nat} (hu : u = s.tryTrain p) (hstate : u.portState p = 1)
  (hretry : (u.port p).retryDue = false)
include hu hstate hretry

/-- A port that trains takes the step that it is in. -/
theorem State.stepDone_training : s.stepDone p lanes =
    if (u.port p).step = 1 then if u.fld 0 (p / 4) Reg.DCTL_LYS_INLET.INTERLOCK = 1 then u.enterStep p 2 else u
    else if (u.port p).step = 2 then
      (u.pickLanes p lanes).elim (u.failStep p) fun l =>
        ((u.setFld 0 p Reg.DCTL_LYS_PSTAT.LANES l).setPort p { u.port p with passed := lanes % 65536 }).enterStep p 3
    else if (u.port p).step = 3 then u.enterStep p 4
    else if (u.port p).step = 4 then if (u.port p).ident then u.enterStep p 5 else u
    else if (u.port p).step = 5 then if 64 ≤ (u.port p).meas.length then u.enterStep p 6 else u
    else u.goActive p := by
  subst hu
  cases hpick : (s.tryTrain p).pickLanes p lanes <;>
    simp only [State.stepDone, hstate, hretry, hpick, ne_eq, not_true_eq_false, Bool.false_eq_true, or_self, if_false,
      Option.elim_none, Option.elim_some]

theorem State.stepDone_light (hstep : (u.port p).step = 1) (hloop : u.fld 0 (p / 4) Reg.DCTL_LYS_INLET.INTERLOCK = 1) :
    s.stepDone p lanes = u.enterStep p 2 := by
  rw [State.stepDone_training hu hstate hretry, if_pos hstep, if_pos hloop]

theorem State.stepDone_wide {l : Nat} (hlanes : lanes < 65536) (hstep : (u.port p).step = 2)
    (hpick : u.pickLanes p lanes = some l) : s.stepDone p lanes =
      ((u.setFld 0 p Reg.DCTL_LYS_PSTAT.LANES l).setPort p { u.port p with passed := lanes }).enterStep p 3 := by
  rw [State.stepDone_training hu hstate hretry, if_neg (by omega), if_pos hstep, hpick, Nat.mod_eq_of_lt hlanes,
    Option.elim_some]

theorem State.stepDone_narrow (hstep : (u.port p).step = 2) (hpick : u.pickLanes p lanes = none) :
    s.stepDone p lanes = u.failStep p := by
  rw [State.stepDone_training hu hstate hretry, hstep, hpick]
  rfl

theorem State.stepDone_aligned (hstep : (u.port p).step = 3) : s.stepDone p lanes = u.enterStep p 4 := by
  rw [State.stepDone_training hu hstate hretry, hstep]
  rfl

theorem State.stepDone_identified (hstep : (u.port p).step = 4) (hident : (u.port p).ident = true) :
    s.stepDone p lanes = u.enterStep p 5 := by
  rw [State.stepDone_training hu hstate hretry, hstep, hident]
  rfl

theorem State.stepDone_measured (hstep : (u.port p).step = 5) (hmeas : 64 ≤ (u.port p).meas.length) :
    s.stepDone p lanes = u.enterStep p 6 := by
  rw [State.stepDone_training hu hstate hretry, if_pos hmeas, hstep]
  rfl

theorem State.stepDone_last (hstep : (u.port p).step = 6) : s.stepDone p lanes = u.goActive p := by
  rw [State.stepDone_training hu hstate hretry, hstep]
  rfl

end Training

section Failure

variable {s : State} {p : Nat}

theorem State.failStep_retries (h : (s.port p).fails < 2) :
    s.failStep p = s.setPort p { s.port p with fails := (s.port p).fails + 1, retryDue := true } :=
  if_neg (by omega)

/-- The third failure in a row makes a port FAILED (R255). -/
theorem State.failStep_gives_up (h : 2 ≤ (s.port p).fails) :
    s.failStep p = ((s.setFld 0 p Reg.DCTL_LYS_PSTAT.STATE 4).setPort p { s.port p with
      fails := 0, step := 0, retryDue := false }).logCE 0x0B 0 (unitPort p) (s.boundPart p) :=
  if_pos (Nat.succ_le_succ h)

theorem exec_trainingStepFail (hstate : s.portState p = 1) (hretry : (s.port p).retryDue = false) :
    exec (.trainingStepFail p) s = .next (s.failStep p) := by
  change execTrainingStepFail p s = _
  rw [execTrainingStepFail, if_pos ⟨hstate, hretry⟩]

theorem exec_trainingRetryTimer (hstate : s.portState p = 1) (hretry : (s.port p).retryDue = true) :
    exec (.trainingRetryTimer p) s = .next (s.setPort p { s.port p with step := 1, retryDue := false, ident := false }) := by
  change execTrainingRetryTimer p s = _
  rw [execTrainingRetryTimer, if_pos ⟨hstate, hretry⟩]

end Failure

/-! ## Quick retrain and limits (R258, R268, R278 to R280) -/

section Limits

variable {s : State} {p : Nat}

theorem State.quickRetrain_active (h : s.portState p = 2) :
    s.quickRetrain p = (s.setFld 0 p Reg.DCTL_LYS_PSTAT.STATE 3).takeOut p :=
  if_pos (beq_iff_eq.mpr h)

theorem exec_replayLimit_reached (hsome : 0 < (s.port p).tries)
    (hlimit : s.fld 0 p Reg.DCTL_LYS_PCFG.RETRY_LIM ≤ (s.port p).tries) :
    exec (.replayLimit p) s = .next ((s.setPort p { s.port p with tries := 0 }).quickRetrain p) := by
  change execReplayLimit p s = _
  rw [execReplayLimit, if_pos ⟨hlimit, hsome⟩]

section Retraining

variable (h : s.portState p = 3)
include h

/-- The port is ACTIVE again on the lanes that still pass, and asks for a replay (R258). -/
theorem exec_quickRetrainSuccess_lanes {lanes : BitVec 16} {l : Nat} {u t : State}
    (hpick : s.pickLanes p (s.fld 0 p Reg.DCTL_LYS_PSTAT.LANES &&& lanes.toNat) = some l)
    (hu : u = (s.setFld 0 p Reg.DCTL_LYS_PSTAT.LANES l).setFld 0 p Reg.DCTL_LYS_PSTAT.STATE 2)
    (ht : t = ((u.raise 0 p Reg.DCTL_LYS_PSTAT.RETRAIN).logCE 0x0B 0 (unitPort p) (u.boundPart p)).setPort p
      { s.port p with blocks := 0 }) :
    exec (.quickRetrainSuccess p lanes) s = .next ((t.badCell p false).drainWait ((t.port p).wait.length + 1) p) := by
  have hport : ((u.raise 0 p Reg.DCTL_LYS_PSTAT.RETRAIN).logCE 0x0B 0 (unitPort p) (u.boundPart p)).port p = s.port p := by
    rw [State.port, State.port, State.logCE_ports, State.raise_ports, hu, State.setFld_ports, State.setFld_ports]
  rw [← hport, hu] at ht
  subst ht
  change execQuickRetrainSuccess p lanes s = _
  simp only [execQuickRetrainSuccess, h, hpick, ne_eq, not_true_eq_false, if_false]

theorem exec_quickRetrainTimeout : exec (.quickRetrainTimeout p) s = .next (s.dropPort p) := by
  change execQuickRetrainTimeout p s = _
  rw [execQuickRetrainTimeout, if_pos h]

end Retraining

theorem State.portUp_iff : s.portUp p = true ↔ s.portState p = 2 ∨ s.portState p = 3 := by
  rw [State.portUp, Bool.or_eq_true, beq_iff_eq, beq_iff_eq]

/-- Too many tags that failed make a port FAILED, and alarm the parish (R278, R280). -/
theorem exec_tagLimit_reached {t r : State} (hup : s.portUp p = true)
    (hlimit : s.fld 0 p Reg.DCTL_LYS_PCFG.TAG_LIM ≤ (s.port p).tagFails) (ht : t = s.leaveActive p 4 0 true)
    (hr : r = t.logErr { ErrRec.of 4 0x0B with cause := 7, unit := unitPort p, part := t.boundPart p }) :
    exec (.tagLimit p) s = .next (r.raiseAlarm 2 7 0 (r.boundPart p) 0) := by
  subst hr ht
  change execTagLimit p s = _
  rw [execTagLimit, if_pos ⟨hup, hlimit⟩]

end Limits

/-! ## Laser modules (R247, R248) -/

section Inlet

variable {s u t : State} {n : Nat} {x : InletReading} (hu : u = s.setFld 0 n ⟨0x1006800, 8, 24, 32⟩ x.word.toNat)
include hu

theorem exec_inletFault_within (hin : inletInLimits x = true) : exec (.inletFault n x) s = .next u := by
  subst hu
  change execInletFault n x s = _
  simp only [execInletFault, State.inletReads, hin, if_true]

variable (hout : inletInLimits x = false)
  (ht : t = (enginePorts n).foldl (fun s p => if s.portUp p then s.raise 0 p Reg.DCTL_LYS_PSTAT.LASER_LOSS else s)
    ((if x.seated then u else u.setFld 0 n Reg.DCTL_LYS_INLET.PRESENT 0).raise 0 n Reg.DCTL_LYS_INLET.INLET_FAULT))
include hout ht

theorem exec_inletFault_outside : exec (.inletFault n x) s =
    .next (if inletOpens x then t.openLoop n else (enginePorts n).foldl State.dimPort t) := by
  subst ht hu
  change execInletFault n x s = _
  simp only [execInletFault, State.inletReads, hout, Bool.false_eq_true, if_false]
  rfl

theorem exec_inletFault_opens (hopens : x.seated = false ∨ 150 < bits x.word.toNat 12 8) :
    exec (.inletFault n x) s = .next (t.openLoop n) := by
  rw [exec_inletFault_outside hu hout ht, if_pos (by simpa [inletOpens] using hopens)]

theorem exec_inletFault_dims (hseated : x.seated = true) (hlow : bits x.word.toNat 12 8 ≤ 150) :
    exec (.inletFault n x) s = .next ((enginePorts n).foldl State.dimPort t) := by
  rw [exec_inletFault_outside hu hout ht, if_neg (by simp [inletOpens, hseated, hlow])]

end Inlet

theorem inletInLimits_eq_false {x : InletReading}
    (h : x.seated = false ∨ x.onGrid = false ∨ bits x.word.toNat 24 8 < 100 ∨ 140 < bits x.word.toNat 12 8) :
    inletInLimits x = false := by
  rw [inletInLimits, ← Bool.not_eq_true, Bool.and_eq_true, Bool.and_eq_true, decide_eq_true_eq]
  rintro ⟨⟨hseated, hgrid⟩, hlow, hhigh⟩
  obtain hs | hg | hl | hh := h
  · exact Bool.false_ne_true (hs.symm.trans hseated)
  · exact Bool.false_ne_true (hg.symm.trans hgrid)
  · exact hlow.not_gt hl
  · exact hhigh.not_gt hh

/-! ## The statement -/

/-- Settles O40: each clause is the equation of its case. -/
theorem portEvents : Obligations.PortEvents := by
  unfold Obligations.PortEvents
  intro s t p lanes
  refine ⟨?step, ?fail, ?retry, ?lock, ?replay, ?retrain, ?down, ?laser⟩
  case step =>
    rintro u k hu hstate hretry rfl
    refine ⟨fun h1 hloop => ?_, fun l h2 hpick => ?_, fun h2 hpick => ?_, fun h3 => ?_, fun h4 hident => ?_, fun h5 hmeas => ?_,
      fun h6 => ?_⟩
    · exact congrArg _ (State.stepDone_light hu hstate hretry h1 hloop)
    · exact congrArg _ (State.stepDone_wide hu hstate hretry lanes.isLt h2 hpick)
    · exact congrArg _ (State.stepDone_narrow hu hstate hretry h2 hpick)
    · exact congrArg _ (State.stepDone_aligned hu hstate hretry h3)
    · exact congrArg _ (State.stepDone_identified hu hstate hretry h4 hident)
    · exact congrArg _ (State.stepDone_measured hu hstate hretry h5 hmeas)
    · exact congrArg _ (State.stepDone_last hu hstate hretry h6)
  case fail =>
    intro hstate hretry
    rw [exec_trainingStepFail hstate hretry]
    exact ⟨fun hfew => congrArg _ (State.failStep_retries hfew), fun hmany => congrArg _ (State.failStep_gives_up hmany)⟩
  case retry => exact exec_trainingRetryTimer
  case lock => exact fun hactive => congrArg _ (State.quickRetrain_active hactive)
  case replay => exact exec_replayLimit_reached
  case retrain =>
    exact fun h => ⟨fun l u hpick hu ht => exec_quickRetrainSuccess_lanes h hpick hu ht, exec_quickRetrainTimeout h⟩
  case down =>
    exact fun h => ⟨rfl, fun hlimit ht => exec_tagLimit_reached (State.portUp_iff.mpr h) hlimit ht rfl⟩
  case laser =>
    refine fun n => ⟨rfl, fun x u hu => ⟨fun hseated hgrid hlow hhigh => ?_, fun hout ht => ⟨fun hopens => ?_, ?_⟩⟩⟩
    · exact exec_inletFault_within hu (by simp [inletInLimits, hseated, hgrid, hlow, hhigh])
    · exact exec_inletFault_opens hu (inletInLimits_eq_false hout) ht hopens
    · exact exec_inletFault_dims hu (inletInLimits_eq_false hout) ht

end Sys2Proof.Machine
end

section
/-! SUPPORT. Flooded cells (R275 to R277, R434, R470): one equation per case of their reception. -/

namespace Sys2Proof.Machine

open Sys2Proof

/-! ## Flooded cells (R275) -/

/-- A flooded cell that is new is recorded, and goes on over its scope while it has hops left (R275). -/
def State.passFlood (s : State) (p typ : Nat) (c : Cell) : State :=
  let t := s.recordFlood typ (leField c.payload 0 2) (leField c.payload 2 2)
  if c.hop < 6 then
    t.sendAll (t.floodPorts (leField c.payload 4 1) (leField c.payload 12 2) (some p)) { c with hop := c.hop + 1 } else t

section Flood

variable {s t : State} {p : Nat} {c c0 : Cell} {act : Cell → State → State}

theorem State.floodCell_not_received (h : s.receive p c = (none, t)) : s.floodCell p c act = t := by
  rw [State.floodCell, h]

variable (h : s.receive p c = (some c0, t)) (hs : t.inService = true)
include h hs

theorem State.floodCell_received : s.floodCell p c act =
    if typeReserved c.typ || !floodFields c0 then t.routeErr p c0 false
    else if t.flooded c.typ (leField c0.payload 0 2) (leField c0.payload 2 2) then t
    else act c0 (t.passFlood p c.typ c0) := by
  rw [← State.typ_of_receive h]
  simp only [State.floodCell, h, hs, Bool.not_true, Bool.false_eq_true, if_false]
  rfl

theorem State.floodCell_ill_formed (hbad : typeReserved c.typ = true ∨ floodFields c0 = false) :
    s.floodCell p c act = t.routeErr p c0 false := by
  rw [State.floodCell_received h hs, if_pos (by simpa using hbad)]

variable (htype : typeReserved c.typ = false) (hfields : floodFields c0 = true)
include htype hfields

theorem State.floodCell_known (hknown : t.flooded c.typ (leField c0.payload 0 2) (leField c0.payload 2 2) = true) :
    s.floodCell p c act = t := by
  rw [State.floodCell_received h hs, if_neg (by simp [htype, hfields]), if_pos hknown]

theorem State.floodCell_new (hnew : t.flooded c.typ (leField c0.payload 0 2) (leField c0.payload 2 2) = false) :
    s.floodCell p c act = act c0 (t.passFlood p c.typ c0) := by
  rw [State.floodCell_received h hs, if_neg (by simp [htype, hfields]), if_neg (by simp [hnew])]

end Flood

end Sys2Proof.Machine
end

section
/-! SUPPORT. Schedule tables and windows (R282, R285, R288 to R293): one equation per case; and the statement that they settle
with the flooded cells. -/

namespace Sys2Proof.Machine

open Sys2Proof

/-! ## Tables (R285) -/

section Table

variable {s : State} {p : Nat}

theorem State.activateTable_idle
    (h : (s.port p).next = none ∨ ∃ n, (s.port p).next = some n ∧ (s.now < n.act ∨ n.fresh = true)) : s.activateTable p = s := by
  have hnone : (s.port p).next.filter (fun n => decide (n.act ≤ s.now) && !n.fresh) = none := by
    obtain hnone | ⟨n, hn, hwaits⟩ := h
    · rw [hnone]; rfl
    · rw [hn, Option.filter_eq_none_iff]
      intro m hm
      cases hm
      simpa [Decidable.or_iff_not_imp_left] using hwaits
  simp only [State.activateTable, hnone]

variable {n : SchedTable} (hn : (s.port p).next = some n) (hdue : n.act ≤ s.now) (hchecked : n.fresh = false)
include hn hdue hchecked

/-- A pending table whose beat has come takes the place of the active one, and its load completes (R285). -/
theorem State.activateTable_due {u t t1 : State}
    (hu : u = (s.setPort p { s.port p with active := if n.windows.isEmpty then none else some n, next := none }).checkLength p)
    (ht : t = ((u.setFld 0 p Reg.DCTL_LYS_SCHED.PENDING 0).setFld 0 p Reg.DCTL_LYS_SCHED.ACT_BEAT u.now).setFld 0 p
      Reg.DCTL_LYS_SCHED.COUNT n.windows.length)
    (ht1 : t1 = t.setFld 0 p Reg.DCTL_LYS_SCHED.STATE (t.tableState p)) :
    s.activateTable p = (if n.act < t1.now then
      t1.schedFlag p Reg.DCTL_LYS_SCHED.LOAD_LATE Reg.PCTL_SCHED_STAT.LOAD_LATE else t1).finish n.fn n.q n.sq n.g 0 0 false := by
  have hsome : (s.port p).next.filter (fun n => decide (n.act ≤ s.now) && !n.fresh) = some n := by
    rw [hn, Option.filter_some, if_pos (by simp [hdue, hchecked])]
  subst hu ht ht1
  simp only [State.activateTable, hsome]

end Table

/-! ## Windows (R288 to R293) -/

section Window

variable {s t : State} {p i : Nat} {w : Window} (hw : (s.windows p)[i]? = some w)
include hw

/-- A window of a table in service opens for its move, or for the cells of its input port (R288, R293). -/
theorem State.openWindow_opens (hserves : s.tableServes p = true) (hfree : (s.port p).openWin = none) (hat : (s.port p).winAt ≤ i)
    (ht : t = s.setPort p { s.port p with openWin := some i, winAt := i + 1, winLeft := winLen w }) :
    s.openWindow p i = if winKind w = 1 then t.openTx p w else t.pumpFwd (winIn w) p (t.heldCells (winIn w)) := by
  subst ht
  have hopens : (!s.tableServes p || (s.port p).openWin.isSome || decide (i < (s.port p).winAt)) = false := by
    simp [hserves, hfree, hat]
  simp only [State.openWindow, hw, hopens, Bool.false_eq_true, if_false]

variable (hopen : (s.port p).openWin = some i) (ht : t = s.setPort p { s.port p with openWin := none, winLeft := 0 })
include hopen ht

theorem State.closeWindow_eq : s.closeWindow p i =
    if winKind w = 1 then
      if ((t.windows p).drop (i + 1)).any fun x => winNames x (winCore w) (winTag w) then t
      else t.spill p (t.slotMoves p (some (winCore w, winTag w)))
    else t.pumpFwd (winIn w) p (t.heldCells (winIn w)) := by
  subst ht
  simp only [State.closeWindow, hw, hopen, ne_eq, not_true_eq_false, if_false]

theorem State.closeWindow_fwd (hkind : winKind w ≠ 1) :
    s.closeWindow p i = t.pumpFwd (winIn w) p (t.heldCells (winIn w)) := by
  rw [State.closeWindow_eq hw hopen ht, if_neg hkind]

variable (hkind : winKind w = 1)
include hkind

theorem State.closeWindow_tx_remains (hnext : ∃ x ∈ (t.windows p).drop (i + 1), winNames x (winCore w) (winTag w) = true) :
    s.closeWindow p i = t := by
  rw [State.closeWindow_eq hw hopen ht, if_pos hkind, if_pos (List.any_eq_true.mpr hnext)]

/-- The last window of a beat that names a move spills what remains of it (R289). -/
theorem State.closeWindow_tx_last (hlast : ∀ x ∈ (t.windows p).drop (i + 1), winNames x (winCore w) (winTag w) = false) :
    s.closeWindow p i = t.spill p (t.slotMoves p (some (winCore w, winTag w))) := by
  have hnone : ¬((t.windows p).drop (i + 1)).any (fun x => winNames x (winCore w) (winTag w)) = true := by
    simpa using hlast
  rw [State.closeWindow_eq hw hopen ht, if_pos hkind, if_neg hnone]

end Window

/-! ## The statement -/

/-- Settles O41: a bell or an alarm is a flooded cell with its own act, and each clause is the equation of its case. -/
theorem floodsAndWindows : Obligations.FloodsAndWindows := by
  unfold Obligations.FloodsAndWindows
  refine ⟨?floods, ?activates, ?idle, ?windows⟩
  case floods =>
    intro s t t1 p x c c0 i act hmem
    have hflood : exec i s = .next (s.floodCell p c act) ∧ ∃ row, typeReserved row = false ∧ c = cellUnder x row := by
      simp only [List.mem_cons, Prod.mk.injEq, List.not_mem_nil, or_false] at hmem
      rcases hmem with ⟨rfl, rfl, rfl⟩ | ⟨rfl, rfl, rfl⟩ <;> exact ⟨rfl, _, by decide, rfl⟩
    obtain ⟨hexec, row, hrow, rfl⟩ := hflood
    rw [hexec, ← typeReserved_cellUnder (x := x) hrow]
    refine ⟨fun hnone => ?_, fun hsome hs => ⟨fun hbad => ?_, fun htype hfields => ⟨fun hknown => ?_, fun hnew ht1 => ?_⟩⟩⟩
    · rw [State.floodCell_not_received hnone]
    · rw [State.floodCell_ill_formed hsome hs hbad]
    · rw [State.floodCell_known hsome hs htype hfields hknown]
    · rw [State.floodCell_new hsome hs htype hfields hnew, State.passFlood, ← ht1]
  case activates =>
    exact fun s u t p n hn hdue hchecked hu ht t1 ht1 => congrArg _ (State.activateTable_due hn hdue hchecked hu ht ht1)
  case idle => exact fun s p h => congrArg _ (State.activateTable_idle h)
  case windows =>
    refine fun s t p i w hw => ⟨fun hserves hfree hat ht => ?_, fun hopen ht =>
      ⟨fun hkind => ?_, fun hkind hnext => ?_, fun hkind hlast => ?_⟩⟩
    · exact congrArg _ (State.openWindow_opens hw hserves hfree hat ht)
    · exact congrArg _ (State.closeWindow_fwd hw hopen ht hkind)
    · exact congrArg _ (State.closeWindow_tx_remains hw hopen ht hkind hnext)
    · exact congrArg _ (State.closeWindow_tx_last hw hopen ht hkind hlast)

end Sys2Proof.Machine
end

section
/-! SUPPORT. The requests of a management session that configure, alarm, ring and update (R269, R277, R434, R469, R475, R485, R489,
R491, R493): one equation per case; and the statement that they settle. -/

namespace Sys2Proof.Machine

open Sys2Proof

/-- A request that its session and the controller take is answered with what its operation gives (R487). -/
theorem State.kmcRequest_asked {s t : State} {sess typ req st : Nat} {body : List Byte} {op : State → Nat × List Byte × State}
    (h : asked s sess typ) (hop : op s = (st, body, t)) :
    s.kmcRequest sess typ req op = t.enterReq sess typ req (some (st, body)) := by
  obtain ⟨k, hsession, hroom, hserves⟩ := h
  simp only [State.kmcRequest, hsession, hroom.not_ge, hserves, hop, Bool.true_eq_false, if_false]

section Requests

variable {s t : State} {sess req x y z : Nat}

/-! ## The owner's root (R485) -/

section MgmtRoot

variable (h : asked s sess 0x03) (dg : BitVec 384) {a : LifeAuth}
  (ht : t = if s.sec.challenge = some a.challenge then { s with sec := { s.sec with challenge := none } } else s)
include h ht

theorem exec_mgmtRoot_granted (hok : s.authOk a = true ∧ a.signer = 2 ∧ s.fld 0 0 Reg.DCTL_LIFE.OWNER = 1) :
    exec (.mgmtRoot sess req dg a) s =
      .next (({ t with kmc := { t.kmc with root := beBytes 48 dg.toNat } } : State).enterReq sess 0x03 req (some (0, []))) := by
  subst ht
  refine congrArg _ (State.kmcRequest_asked h ?_)
  exact if_pos (by simpa [and_assoc] using hok)

/-- A denied authorisation uses its challenge up as a granted one does (log 19). -/
theorem exec_mgmtRoot_denied (hno : ¬(s.authOk a = true ∧ a.signer = 2 ∧ s.fld 0 0 Reg.DCTL_LIFE.OWNER = 1)) :
    exec (.mgmtRoot sess req dg a) s = .next (t.enterReq sess 0x03 req (some (0x21, []))) := by
  subst ht
  refine congrArg _ (State.kmcRequest_asked h ?_)
  exact if_neg (by simpa [and_assoc] using hno)

end MgmtRoot

/-! ## Configuration (R269, R489, R493) -/

/-- A write of one configuration register, which flash keeps (R493). -/
def State.keepConfig (s : State) (p : Nat × U64) : State :=
  { s.writeConfig p.1 p.2 with kmc := { (s.writeConfig p.1 p.2).kmc with
      config := (s.writeConfig p.1 p.2).kmc.config.put p.1 p.2 } }

theorem configWrite_well_formed {pairs : List (Nat × U64)} (hlen : pairs.length ≤ 64) (hmasks : ∀ p ∈ pairs, kmcMask p.1 ≠ 0) :
    ¬(64 < pairs.length ∨ pairs.any (fun p => kmcMask p.1 == 0) = true) := by
  simpa [hlen] using hmasks

section ConfigWrite

variable (h : asked s sess 0x12) {pairs : List (Nat × U64)}
include h

theorem exec_configWrite_malformed (hbad : 64 < pairs.length ∨ ∃ p ∈ pairs, kmcMask p.1 = 0) :
    exec (.configWrite sess req pairs) s = .next (s.enterReq sess 0x12 req (some (0x20, []))) := by
  refine congrArg _ (State.kmcRequest_asked h ?_)
  exact if_pos (by simpa using hbad)

variable (hlen : pairs.length ≤ 64) (hmasks : ∀ p ∈ pairs, kmcMask p.1 ≠ 0)
include hlen hmasks

theorem exec_configWrite_node_held (hnode : ∃ p ∈ pairs, p.1 = 0x1000080) (hheld : s.nodeFree = false) :
    exec (.configWrite sess req pairs) s = .next (s.enterReq sess 0x12 req (some (0x11, []))) := by
  refine congrArg _ (State.kmcRequest_asked h ?_)
  dsimp only
  rw [if_neg (configWrite_well_formed hlen hmasks), if_pos (by simpa [hheld] using hnode)]

theorem exec_configWrite_writes (hnode : (∀ p ∈ pairs, p.1 ≠ 0x1000080) ∨ s.nodeFree = true) :
    exec (.configWrite sess req pairs) s = .next ((pairs.foldl State.keepConfig s).enterReq sess 0x12 req (some (0, []))) := by
  refine congrArg _ (State.kmcRequest_asked h ?_)
  dsimp only
  have hwritable : ¬(pairs.any (fun p => p.1 == 0x1000080) && !s.nodeFree) = true := by
    obtain hnone | hfree := hnode
    · rw [List.any_eq_false.mpr fun p hp => by simpa using hnone p hp, Bool.false_and]
      exact Bool.false_ne_true
    · simp [hfree]
  rw [if_neg (configWrite_well_formed hlen hmasks), if_neg hwritable]
  rfl

end ConfigWrite

section RouteWrite

variable (h : asked s sess 0x13) {es : List U64}
include h

theorem exec_routeWrite_malformed (hbad : 32 ≤ x ∨ 512 < y + es.length ∨ ∃ e ∈ es, e.extractLsb' 0 5 ≠ 0) :
    exec (.routeWrite sess req x y es) s = .next (s.enterReq sess 0x13 req (some (0x20, []))) := by
  refine congrArg _ (State.kmcRequest_asked h ?_)
  exact if_pos (by simpa [bits_toNat, ← BitVec.toNat_inj] using hbad)

/-- Entries of a partition's route table wait for the next edge (R269). -/
theorem exec_routeWrite_defers (hpart : x < 32) (hend : y + es.length ≤ 512) (hes : ∀ e ∈ es, e.extractLsb' 0 5 = 0)
    (ht : t = { s with deferred := s.deferred ++ es.zipIdx.map fun e => .reg 0 (0x1008000 + 8 * (512 * x + y + e.2)) e.1 }) :
    exec (.routeWrite sess req x y es) s = .next (t.enterReq sess 0x13 req (some (0, []))) := by
  subst ht
  refine congrArg _ (State.kmcRequest_asked h ?_)
  exact if_neg (by simpa [bits_toNat, ← BitVec.toNat_inj, hpart, hend] using hes)

end RouteWrite

/-! ## Alarms and bells (R277, R434, R469) -/

section AlarmRaise

variable (h : asked s sess 0x34) (det : BitVec 128)
include h

theorem exec_alarmRaise_malformed (hbad : ¬((x = 1 ∧ y = 9 ∧ z ≠ 0) ∨ (x = 2 ∧ (y = 8 ∨ y = 9) ∧ z = 0))) :
    exec (.alarmRaise sess req x y z det) s = .next (s.enterReq sess 0x34 req (some (0x20, []))) := by
  refine congrArg _ (State.kmcRequest_asked h ?_)
  exact if_pos (by omega)

/-- An alarm that a manager may raise is flooded, and acted on here as one received; its partition byte is free (log 50). -/
theorem exec_alarmRaise_floods (hok : (x = 1 ∧ y = 9 ∧ z ≠ 0) ∨ (x = 2 ∧ (y = 8 ∨ y = 9) ∧ z = 0)) {s0 s1 : State} {node o : Nat}
    {pay : List Byte} (hdraw : s.draw = (o, s0)) (hnode : node = s.fld 0 0 Reg.DCTL_NODE.NODE)
    (hpay : pay = alarmPayload node s.alarmId x y s.now z (o % 256) (leBytes 16 det.toNat))
    (hs1 : s1 = { s0.recordFlood 0xC node s.alarmId with alarmId := (s.alarmId + 1) % 65536 }) :
    exec (.alarmRaise sess req x y z det) s = .next (((s1.sendAll (s1.floodPorts x z none)
      { cellOf 0xC (if x = 2 then 6 else 4) with hop := 1, src := node, vd := z, len := 31, payload := pay }).alarmArrives
        pay).enterReq sess 0x34 req (some (0, []))) := by
  cases hdraw
  subst hs1 hpay hnode
  refine congrArg _ (State.kmcRequest_asked h ?_)
  exact if_neg (by omega)

end AlarmRaise

section BellRaise

variable (h : asked s sess 0x35)
include h

theorem exec_bellRaise_malformed (hbad : ¬((x = 1 ∧ y ≠ 0) ∨ (x = 3 ∧ y = 0))) :
    exec (.bellRaise sess req x y z) s = .next (s.enterReq sess 0x35 req (some (0x20, []))) := by
  refine congrArg _ (State.kmcRequest_asked h ?_)
  exact if_pos (by omega)

theorem exec_bellRaise_rings (hok : (x = 1 ∧ y ≠ 0) ∨ (x = 3 ∧ y = 0)) :
    exec (.bellRaise sess req x y z) s = .next (((s.addBell 0 z).sendBell x y z).enterReq sess 0x35 req (some (0, []))) := by
  refine congrArg _ (State.kmcRequest_asked h ?_)
  exact if_neg (by omega)

end BellRaise

/-! ## Firmware (R475, R491) -/

section FwBegin

variable (h : asked s sess 0x40) (himage : x < 8)
include h himage

theorem exec_fwBegin_busy (hbusy : s.kmc.fw ≠ none ∨ s.sec.busy = true) :
    exec (.fwBegin sess req x y) s = .next (s.enterReq sess 0x40 req (some (0x22, []))) := by
  refine congrArg _ (State.kmcRequest_asked h ?_)
  dsimp only
  rw [if_neg (by omega), if_pos (by simpa [Option.isSome_iff_ne_none] using hbusy)]

theorem exec_fwBegin_opens (hnone : s.kmc.fw = none) (hfree : s.sec.busy = false)
    (ht : t = { s with kmc := { s.kmc with fw := some { sess := sess, image := x, len := y, data := [] } } }) :
    exec (.fwBegin sess req x y) s = .next (t.enterReq sess 0x40 req (some (0, []))) := by
  subst ht
  refine congrArg _ (State.kmcRequest_asked h ?_)
  dsimp only
  rw [if_neg (by omega), if_neg (by simp [hnone, hfree])]

end FwBegin

/-- A chunk or a commit of a session that has no image open is refused with WRONG_STATE (R489). -/
theorem exec_fwChunk_not_open (h : asked s sess 0x41) (hother : ∀ w, s.kmc.fw = some w → w.sess ≠ sess) (data : List Byte) :
    exec (.fwChunk sess req x data) s = .next (s.enterReq sess 0x41 req (some (0x11, []))) := by
  refine congrArg _ (State.kmcRequest_asked h ?_)
  dsimp only
  cases hfw : s.kmc.fw with
  | none => rfl
  | some w => exact if_pos (hother w hfw)

theorem exec_fwCommit_not_open (h : asked s sess 0x42) (hother : ∀ w, s.kmc.fw = some w → w.sess ≠ sess) :
    exec (.fwCommit sess req x) s = .next (s.enterReq sess 0x42 req (some (0x11, []))) := by
  refine congrArg _ (State.kmcRequest_asked h ?_)
  dsimp only
  cases hfw : s.kmc.fw with
  | none => rfl
  | some w => exact if_pos (hother w hfw)

section Open

variable {w : FwImage} (hfw : s.kmc.fw = some w) (hsess : w.sess = sess)
include hfw hsess

theorem exec_fwChunk_malformed (h : asked s sess 0x41) {data : List Byte}
    (hbad : 65536 < data.length ∨ w.len < x + data.length) :
    exec (.fwChunk sess req x data) s = .next (s.enterReq sess 0x41 req (some (0x20, []))) := by
  refine congrArg _ (State.kmcRequest_asked h ?_)
  simp only [hfw, hsess, ne_eq, not_true_eq_false, if_false, hbad, if_true]

theorem exec_fwChunk_buffers (h : asked s sess 0x41) {data : List Byte} (hlen : data.length ≤ 65536)
    (hend : x + data.length ≤ w.len) (ht : t = { s with kmc := { s.kmc with
      fw := some { w with data := data.zipIdx.foldl (fun d b => d.put (x + b.2) b.1) w.data } } }) :
    exec (.fwChunk sess req x data) s = .next (t.enterReq sess 0x41 req (some (0, []))) := by
  subst ht
  refine congrArg _ (State.kmcRequest_asked h ?_)
  simp only [hfw, hsess, ne_eq, not_true_eq_false, if_false, hlen.not_gt, hend.not_gt, or_self]

/-- An image with signatures that count is written to both banks, and a lifecycle change that waited begins (R475, R491). -/
theorem exec_fwCommit_writes (h : asked s sess 0x42) (hsigner : x = 1 ∨ x = 2 ∧ s.fld 0 0 Reg.DCTL_LIFE.TEST_KEYS = 1)
    (ht : t = { s with kmc := { s.kmc with
      fw := none, bankB := s.kmc.bankB.put w.image w.bytes, bankA := s.kmc.bankA.put w.image w.bytes } }) :
    exec (.fwCommit sess req x) s = .next (t.startLife.enterReq sess 0x42 req (some (0, []))) := by
  subst ht
  refine congrArg _ (State.kmcRequest_asked h ?_)
  simp only [hfw, hsess, ne_eq, not_true_eq_false, if_false, hsigner, if_true]

theorem exec_fwCommit_denied (h : asked s sess 0x42) (hone : x ≠ 1) (htwo : x ≠ 2 ∨ s.fld 0 0 Reg.DCTL_LIFE.TEST_KEYS ≠ 1) :
    exec (.fwCommit sess req x) s = .next (s.enterReq sess 0x42 req (some (0x21, []))) := by
  have hdenied : ¬(x = 1 ∨ x = 2 ∧ s.fld 0 0 Reg.DCTL_LIFE.TEST_KEYS = 1) := by
    rintro (h1 | ⟨h2, hkeys⟩)
    · exact hone h1
    · exact htwo.elim (· h2) (· hkeys)
  refine congrArg _ (State.kmcRequest_asked h ?_)
  simp only [hfw, hsess, ne_eq, not_true_eq_false, if_false, hdenied]

end Open

end Requests

/-! ## The statement -/

/-- Settles O44: each clause is the equation of its case. -/
theorem sessionUpdates : Obligations.SessionUpdates := by
  unfold Obligations.SessionUpdates
  intro s t sess req x y z
  refine ⟨?root, ?config, ?route, ?alarm, ?bell, ?begins, ?opened, ?notOpen⟩
  case root =>
    intro h dg a ht
    by_cases hok : s.authOk a = true ∧ a.signer = 2 ∧ s.fld 0 0 Reg.DCTL_LIFE.OWNER = 1
    · rw [exec_mgmtRoot_granted h dg ht hok, if_pos hok]
    · rw [exec_mgmtRoot_denied h dg ht hok, if_neg hok]
  case config =>
    refine fun h pairs => ⟨exec_configWrite_malformed h, fun hlen hmasks => ⟨exec_configWrite_node_held h hlen hmasks, ?_⟩⟩
    rintro hnode rfl
    exact exec_configWrite_writes h hlen hmasks hnode
  case route =>
    exact fun h es => ⟨fun hpart hend hes ht => exec_routeWrite_defers h hpart hend hes ht, exec_routeWrite_malformed h⟩
  case alarm =>
    exact fun h det => ⟨fun hok s0 s1 node o pay hdraw hnode hpay hs1 => exec_alarmRaise_floods h det hok hdraw hnode hpay hs1,
      exec_alarmRaise_malformed h det⟩
  case bell => exact fun h => ⟨exec_bellRaise_rings h, exec_bellRaise_malformed h⟩
  case begins =>
    exact fun h himage => ⟨fun hnone hfree ht => exec_fwBegin_opens h himage hnone hfree ht, exec_fwBegin_busy h himage⟩
  case opened =>
    refine fun w hfw hsess => ⟨fun h data => ⟨fun hlen hend ht => ?_, ?_⟩, fun h => ⟨fun hsigner ht => ?_, ?_⟩⟩
    · exact exec_fwChunk_buffers hfw hsess h hlen hend ht
    · exact exec_fwChunk_malformed hfw hsess h
    · exact exec_fwCommit_writes hfw hsess h hsigner ht
    · exact exec_fwCommit_denied hfw hsess h
  case notOpen =>
    exact fun hother => ⟨fun h data => exec_fwChunk_not_open h hother data, fun h => exec_fwCommit_not_open h hother⟩

end Sys2Proof.Machine
end

section
/-! SUPPORT. The events of the queues (R325 to R331, R336, R361, R400): one equation per case of a tail block, of a record that
arrives, of a queue's enabling, resumption and destruction, and of a context's counts; and the statement that they settle. -/

namespace Sys2Proof.Machine

open Sys2Proof

/-! ## Tail words and records (R325 to R330) -/

section Front

variable {s : State} {fn q : Nat}

/-- What a tail block does where its function has an ACTIVE queue in service (R327, R330). -/
theorem State.tailBlock_served (hactive : s.activeQueues fn ≠ []) (hruns : s.halted = false)
    (hshut : fn ≠ 0 → s.partShut (fn - 1) = false) (tails : List U64) (err : Bool) :
    s.tailBlock fn tails err = if err then
      ((s.raise fn 0 Reg.INTC_TAIL.TAIL_ERR).intc fn 0).logCE 0x0D 0 (if fn = 0 then 0 else unitPart (fn - 1))
        (if fn = 0 then none else some (fn - 1))
    else (s.queueTurns fn).foldl (fun s q => s.takeTail fn q (tails.getD q 0)) s := by
  have hopen : ¬((s.activeQueues fn).isEmpty || s.halted || (fn != 0 && s.partShut (fn - 1))) = true := by
    simpa [hactive, hruns] using hshut
  rw [State.tailBlock, if_neg hopen]

/-- The records due, counted modulo 2^32 as R325 does, are the difference of the words. -/
theorem recordsDue_eq_sub (t : BitVec 32) {h : Nat} (hh : h < 2 ^ 32) :
    (t.toNat % 2 ^ 32 + 2 ^ 32 - h) % 2 ^ 32 = (t - BitVec.ofNat 32 h).toNat := by
  rw [BitVec.toNat_sub, BitVec.toNat_ofNat, Nat.mod_eq_of_lt hh, Nat.mod_eq_of_lt t.isLt]
  congr 1
  omega

theorem State.head_lt (s : State) (fn q : Nat) : s.fld fn q Reg.QCFG_QSTAT.HEAD < 2 ^ 32 := Nat.mod_lt _ (Nat.two_pow_pos 32)

/-- A tail word of 32 bits asks for what is due beyond the records asked for, or is a bad tail (R325, R327). -/
theorem State.takeTail_narrow (t : BitVec 32) {d : Nat}
    (hd : d = (t - BitVec.ofNat 32 (s.fld fn q Reg.QCFG_QSTAT.HEAD)).toNat) :
    s.takeTail fn q (t.zeroExtend 64) = if d ≤ 2 ^ (s.fld fn q Reg.QCFG_Q0.SIZE + 6) then
      s.askRecords fn q (d - (s.queue fn q).due)
    else (s.raise fn q Reg.QCFG_QSTAT.BAD_TAIL).haltQueue fn q := by
  have hword : (t.zeroExtend 64).toNat = t.toNat := BitVec.toNat_setWidth_of_le (by decide)
  have hhigh : t.toNat / 2 ^ 32 = 0 := Nat.div_eq_of_lt t.isLt
  subst hd
  simp only [State.takeTail, hword, hhigh, recordsDue_eq_sub t (s.head_lt fn q), true_and]

theorem State.takeTail_wide {t : U64} (ht : 2 ^ 32 ≤ t.toNat) :
    s.takeTail fn q t = (s.raise fn q Reg.QCFG_QSTAT.BAD_TAIL).haltQueue fn q := by
  have hhigh : t.toNat / 2 ^ 32 ≠ 0 := (Nat.div_pos ht (Nat.two_pow_pos 32)).ne'
  simp only [State.takeTail, hhigh, false_and, if_false]

/-- R330: a read that failed halts the queue. -/
theorem State.takeRecord_failed (hfetch : s.mayFetch fn q = true) (w : BitVec 512) :
    s.takeRecord fn q w true = (s.raise fn q Reg.QCFG_QSTAT.FETCH_ERR).haltQueue fn q := by
  simp only [State.takeRecord, hfetch, Bool.not_true, Bool.false_eq_true, if_false, if_true]

/-- R328, R400: the record joins its queue at HEAD, and WRAP counts HEAD's return to zero. -/
theorem State.takeRecord_fetched (hfetch : s.mayFetch fn q = true) {h : Nat} (hh : h = s.fld fn q Reg.QCFG_QSTAT.HEAD)
    {w : BitVec 512} {s1 : State}
    (hs1 : s1 = (s.setQueue fn q { s.queue fn q with
        recs := (s.queue fn q).recs ++ [QRec.fetched h w (s.fld fn q Reg.QCFG_Q1.EN == 1)]
        due := (s.queue fn q).due - 1 }).modAdd fn q Reg.QCFG_QSTAT.HEAD 1) :
    s.takeRecord fn q w false = if h + 1 = 2 ^ 32 then s1.modAdd fn q Reg.DSTP_QGEN.WRAP 1 else s1 := by
  subst hs1 hh
  simp only [State.takeRecord, hfetch, Bool.not_true, Bool.false_eq_true, if_false]

end Front

/-! ## QUEUE_ENABLE and RESUME (R331) -/

/-- The host's write sets EN, bit 63, whatever it held. -/
theorem putBits_en (v : U64) : putBits v.toNat 63 1 1 = (v ||| 0x8000000000000000).toNat := by
  have hlow : v.toNat % 2 ^ 63 < 2 ^ 63 := Nat.mod_lt _ (Nat.two_pow_pos 63)
  have hset : putBits v.toNat 63 1 1 = 2 ^ 63 * 1 ||| v.toNat % 2 ^ 63 := by
    rw [← Nat.two_pow_add_eq_or_of_lt hlow, putBits, Nat.div_eq_of_lt v.isLt]
    omega
  have hmask : (0x8000000000000000 : U64).toNat = 2 ^ 63 := rfl
  rw [hset, Nat.mul_one, BitVec.toNat_or, hmask]
  refine Nat.eq_of_testBit_eq fun i => ?_
  rw [Nat.testBit_or, Nat.testBit_or, Nat.testBit_mod_two_pow, Nat.testBit_two_pow]
  rcases lt_trichotomy i 63 with hbelow | rfl | habove
  · simp [hbelow, hbelow.ne']
  · simp
  · have hzero : v.toNat.testBit i = false := BitVec.getLsbD_of_ge v i habove
    simp [hzero]

theorem extract_en (v : U64) {lo w : Nat} (hlow : lo + w ≤ 63) :
    (v ||| 0x8000000000000000).extractLsb' lo w = v.extractLsb' lo w := by
  have hclear : (0x8000000000000000 : U64).extractLsb' lo w = 0#w := by
    refine BitVec.eq_of_getLsbD_eq fun i hi => ?_
    have hne : 63 ≠ lo + i := by omega
    have hmask : (0x8000000000000000 : U64) = BitVec.twoPow 64 63 := rfl
    rw [hmask, BitVec.getLsbD_extractLsb', BitVec.getLsbD_twoPow]
    simp [hne]
  rw [BitVec.extractLsb'_or, hclear, BitVec.or_zero]

/-- A SIZE above 10 makes the write void; FETCH_MAX changes at once, and the rest waits for the edge. -/
theorem State.writeQ0_en (s : State) (fn q : Nat) (v : U64) : s.writeQ0 fn q (putBits v.toNat 63 1 1) =
    if 10 < (v.extractLsb' 0 4).toNat then s
    else
      { s.setFld fn q Reg.QCFG_Q0.FETCH_MAX (v.extractLsb' 4 8).toNat with
        deferred := s.deferred ++ [.reg fn (0x21000 + 32 * q) (v ||| 0x8000000000000000)] } := by
  have hsize := extract_en v (lo := 0) (w := 4) (by decide)
  have hmax := extract_en v (lo := 4) (w := 8) (by decide)
  rw [putBits_en, State.writeQ0, bits_toNat, bits_toNat, hsize, hmax, BitVec.ofNat_toNat, BitVec.setWidth_eq]

theorem State.askResume_halted {s : State} {fn q : Nat} (h : s.qstate fn q = 2) :
    s.askResume fn q = s.setQueue fn q { s.queue fn q with resume := true } := by
  rw [State.askResume, if_pos h]

theorem State.askResume_not_halted {s : State} {fn q : Nat} (h : s.qstate fn q ≠ 2) : s.askResume fn q = s := by
  rw [State.askResume, if_neg h]

/-! ## QUEUE_DESTROY and DESTROY_ACK (R331, R361) -/

theorem State.askQueueDestroy_asks {s : State} {fn q : Nat} (hstate : s.qstate fn q = 1 ∨ s.qstate fn q = 2)
    (hnew : (s.destroys.any fun d => d.kind == 0 && d.fn == fn && d.num == q) = false) :
    s.askQueueDestroy fn q = { s with
      nextReset := s.nextReset + 1
      destroys := s.destroys ++ [
        { id := s.nextReset, kind := 0, fn := fn, num := q, q := q, sq := 0, started := false, waiting := []
          beat := s.tick }] } := by
  rw [State.askQueueDestroy, if_pos ⟨hstate, hnew⟩]

/-- The last engine that a destruction waits for finishes it (R361). -/
theorem State.destroyAck_waited {s t : State} {id core eng : Nat} {d d' : Destroy}
    (hfind : s.destroys.find? (fun d => d.id == id && d.started && d.waiting.contains (core, eng)) = some d)
    (hd' : d' = { d with waiting := d.waiting.erase (core, eng) })
    (ht : t = { s with destroys := s.destroys.map fun x => if x.id = id then d' else x }) :
    s.destroyAck id core eng = if d'.waiting = [] then t.finishDestroy d' else t := by
  subst ht hd'
  simp only [State.destroyAck, hfind, List.isEmpty_iff]

/-! ## CTX_SEL_LATCH (R336) -/

theorem State.closedBeat_known {s : State} {n : Nat} (h : s.beat.last = some n) : s.closedBeat = (n, s) := by
  rw [State.closedBeat, h]

/-- The 16 counts are those of the beat that closed last, and zero where no context stands. -/
theorem State.ctxSel_latches {s : State} {fn c : Nat} {x : Option Ctx} (hc : c < 256) (hx : x = s.ctx fn c) :
    s.ctxSel fn (c % 256) =
      (List.range 16).foldl (fun s j => s.wr fn (0xC8010 + 8 * j) (BitVec.ofNat 64 ((x.map fun y => y.closed.get 0 j).getD 0)))
        (s.closedBeat.2.wr fn 0xC8000 (BitVec.ofNat 64 (c + (if x.isSome then 0 else 256) + s.closedBeat.1 * 65536))) := by
  subst hx
  simp only [State.ctxSel, State.latchCounts, Nat.mod_eq_of_lt hc]

/-! ## The statement -/

/-- Settles O33: each clause is the equation of its case. -/
theorem queueEvents : Obligations.QueueEvents := by
  unfold Obligations.QueueEvents
  refine fun s fn q => ⟨fun tails hactive hruns hshut => ?block, fun t d hd => State.takeTail_narrow t hd,
    fun t ht => State.takeTail_wide ht, fun w h hfetch hh => ?record, fun v hsize => ?enable, fun v hsize => ?ignored,
    fun hstate hnew => ?destroy, fun hhalted => ?resume, fun hother => ?active, fun c x hc hx => ?latch,
    fun n hn => State.closedBeat_known hn, fun id core eng d d' t hfind hd' ht => ?ack⟩
  case block =>
    have hblock := State.tailBlock_served hactive hruns hshut tails
    exact ⟨congrArg Host.Outcome.next (hblock false), congrArg Host.Outcome.next (hblock true)⟩
  case record =>
    exact ⟨congrArg Host.Outcome.next (State.takeRecord_failed hfetch w),
      fun s1 hs1 => congrArg Host.Outcome.next (State.takeRecord_fetched hfetch hh hs1)⟩
  case enable => exact congrArg Host.Outcome.next ((s.writeQ0_en fn q v).trans (if_neg (Nat.not_lt.mpr hsize)))
  case ignored => exact congrArg Host.Outcome.next ((s.writeQ0_en fn q v).trans (if_pos hsize))
  case destroy => exact congrArg Host.Outcome.next (State.askQueueDestroy_asks hstate hnew)
  case resume => exact congrArg Host.Outcome.next (State.askResume_halted hhalted)
  case active => exact congrArg Host.Outcome.next (State.askResume_not_halted hother)
  case latch => exact congrArg Host.Outcome.next (State.ctxSel_latches hc hx)
  case ack => exact congrArg Host.Outcome.next (State.destroyAck_waited hfind hd' ht)

end Sys2Proof.Machine
end

section
/-! SUPPORT. A step of the block's queue (log 2), and the state after reset (log 1, log 6, log 7): the statements on them. -/

namespace Sys2Proof.Machine

open Sys2Proof

theorem step_idle {s : State} (h : s.pending = []) : step s = .next s := by
  rw [step, h]

theorem step_front {s : State} {c : Instr} {cs : List Instr} (h : s.pending = c :: cs) :
    step s = exec c { s with pending := cs } := by
  rw [step, h]

/-- Settles O58: the three cases of a step. -/
theorem stepRunsFront : Obligations.StepRunsFront := by
  unfold Obligations.StepRunsFront
  exact fun s => ⟨step_idle, fun c cs => step_front, fun c cs => step_front rfl⟩

/-- Settles O59: the empty tables of reset are canonical, and each field listed is read off its register's reset value. -/
theorem resetInvariant : Obligations.ResetInvariant := by
  unfold Obligations.ResetInvariant
  obtain ⟨hinv, hpending⟩ := State.kept_iff.mp State.reset_kept
  exact ⟨hinv, hpending, by decide, fun a => rfl⟩

end Sys2Proof.Machine
end

section
/-! SUPPORT. Every command keeps the canonical form of the state (State.kept): from what the operations keep to what the
commands keep, one lemma for each command that is more than one operation; and the statement on steps that they settle. -/

namespace Sys2Proof.Machine

open Sys2Proof

/-- The next state of an outcome, if it is one, has the canonical form, with the given commands waiting. -/
def Keeps (cmds : List Instr) (o : Host.Outcome State Fault Refusal) : Prop :=
  ∀ t, o = .next t → t.kept cmds

variable {cmds : List Instr} {s t : State}

theorem keeps_next (h : t.kept cmds) : Keeps cmds (.next t) := by
  rintro _ ⟨⟩
  exact h

theorem keeps_fault (r : Fault) : Keeps cmds (.fault r) := by rintro _ ⟨⟩

/-- R191: an operation at a memory unit keeps the form where its effect does. -/
theorem State.unitOp_keeps {pa len : Nat} {log : Bool} {fn : Nat} {op : State → State} (hs : s.kept cmds)
    (hop : ∀ u, u.kept cmds → (op u).kept cmds) : Keeps cmds (s.unitOp pa len log fn op) := by
  unfold State.unitOp
  split
  · exact keeps_next (State.kept_ite hs (State.kept_ite (State.dirtyRun_kept _ _ _ _ (hop s hs)) (hop s hs)))
  · exact keeps_fault _

section Commands

variable (hs : s.kept cmds)
include hs

/-! ## Memory and the units -/

theorem execMemoryRead_keeps (pa : Nat) (e : ReadIn) : Keeps cmds (execMemoryRead pa e s) := by
  unfold execMemoryRead
  split
  · exact keeps_fault _
  · exact keeps_next (State.kept_ite (State.verifyRun_kept _ _ _ (State.serveRead_kept _ _ _ _ hs)) hs)

theorem execMemoryWrite_keeps (pa : Nat) (data : List Byte) (poisoned log : Bool) (fn : Nat) :
    Keeps cmds (execMemoryWrite pa data poisoned log fn s) := by
  have hw := State.writeMem_kept s pa data poisoned hs
  unfold execMemoryWrite
  split
  · exact keeps_next (State.kept_ite hs (State.kept_ite (State.dirtyRun_kept _ _ _ _ hw) hw))
  · exact keeps_fault _

theorem execPatrolScrub_keeps (pa : Nat) (e : ReadIn) : Keeps cmds (execPatrolScrub pa e s) := by
  unfold execPatrolScrub
  split
  · exact keeps_fault _
  · exact keeps_next hs
  · exact keeps_next (State.kept_ite (State.serveRead_kept _ _ _ _ hs) hs)

theorem execVerifyScrub_keeps (tw unit : Nat) (e : ReadIn) : Keeps cmds (execVerifyScrub tw unit e s) := by
  have h1 := State.serveRead_kept s (s.twinPri tw + 256 * unit) e 0 hs
  exact keeps_next (State.kept_ite
    (State.compareTwin_kept _ _ _ (State.kept_ite (State.serveRead_kept _ _ _ _ h1) h1)) hs)

theorem execLedgerChunkCheck_keeps (tw chunk : Nat) : Keeps cmds (execLedgerChunkCheck tw chunk s) := by
  unfold execLedgerChunkCheck
  split
  case h_1 => exact keeps_next hs
  apply keeps_next
  dsimp only
  split
  · exact State.copyChunk_kept _ _ _ _ hs
  · exact State.copyChunk_kept _ _ _ _ hs
  · exact hs
  · refine State.logErr_kept _ _ (State.damage_kept _ _ (State.kept_foldl (fun t u h => ?_) ?_ _))
    · exact State.setPoison_kept _ _ _ (State.setPoison_kept _ _ _ h)
    · exact State.kept_mk hs ..

theorem execWipeComplete_keeps (granule : Nat) : Keeps cmds (execWipeComplete granule s) :=
  keeps_next (State.kept_ite (State.beginWipes_kept _ (State.wipeGranule_kept s granule hs)) hs)

theorem execCriticalTemperature_keeps (unit temp : Nat) : Keeps cmds (execCriticalTemperature unit temp s) :=
  keeps_next (State.kept_ite (State.stopUnit_kept _ _ _ (State.flushUnits_kept _ _ hs)) hs)

theorem execMemorySideAdd_keeps (pa efmt : Nat) (data : List Byte) (poisoned log : Bool) (fn : Nat) :
    Keeps cmds (execMemorySideAdd pa efmt data poisoned log fn s) := by
  refine State.unitOp_keeps hs fun u hu => ?_
  have hd : (if u.mayWait pa 0 efmt poisoned then u.drawBool else (false, u)).2.kept cmds :=
    State.kept_ite2 (State.drawBool_kept u hu) hu
  exact State.kept_ite (State.owe_kept _ _ _ (State.postContrib_kept _ _ _ _ _ hd))
    (State.settleApplied_kept _ (State.mso_kept _ _ _ _ _ _ hd))

theorem execMemorySideClaim_keeps (pa requester : Nat) (cmp new : BitVec 128) (log : Bool) (fn : Nat) :
    Keeps cmds (execMemorySideClaim pa requester cmp new log fn s) :=
  State.unitOp_keeps hs fun u hu =>
    State.claimStat_kept _ _ _ _ (State.claim_kept u pa requester cmp.toNat new.toNat hu)

/-! ## Cores, queues and launches -/

theorem execEngineInstructionComplete_keeps (core eng : Nat) : Keeps cmds (execEngineInstructionComplete core eng s) := by
  unfold execEngineInstructionComplete
  dsimp only
  split
  · exact keeps_next hs
  · split
    · exact keeps_next (State.pump_kept _ _ (State.setCore_kept _ _ _ (State.kept_mk hs ..)))
    · exact keeps_next hs

theorem execInvalidateComplete_keeps (id : Nat) : Keeps cmds (execInvalidateComplete id s) := by
  apply keeps_next
  split
  · exact hs
  · exact State.kept_ite (State.completeInval_kept _ _ hs) hs

theorem execNetworkPacketError_keeps (die : Nat) (e : PacketError) : Keeps cmds (execNetworkPacketError die e s) := by
  apply keeps_next
  cases e with
  | corrected => exact State.logCE_kept _ _ _ _ _ hs
  | payload n tag pos =>
    dsimp only
    split
    · exact State.setMove_kept _ _ _ hs
    · exact hs
  | walk n tag va =>
    dsimp only
    split
    · exact State.moveFault_kept _ _ _ _ _ _ hs
    · exact hs
  | preload n =>
    dsimp only
    split
    · exact State.preloadFailed_kept _ _ _ _ hs
    · exact hs
  | record fn q sq => exact State.updRec_kept _ _ _ _ _ hs
  | header => exact State.fatal_kept _ _ _ hs

theorem execLatchWaitTimeout_keeps (fn q sq : Nat) : Keeps cmds (execLatchWaitTimeout fn q sq s) := by
  apply keeps_next
  split
  · exact State.failCmd_kept _ _ _ _ _ _ _ _ _ _ _ _ hs
  · exact hs

theorem execCommandComplete_keeps (fn q sq : Nat) : Keeps cmds (execCommandComplete fn q sq s) := by
  apply keeps_next
  split
  · exact State.completeLaunch_kept _ _ hs
  · exact hs

theorem execContextSwitchStart_keeps (id : Nat) : Keeps cmds (execContextSwitchStart id s) := by
  apply keeps_next
  split
  · exact State.kept_ite (State.beginSwitch_kept _ _ hs) hs
  · exact hs

theorem execSwitchDrainEnd_keeps (id : Nat) : Keeps cmds (execSwitchDrainEnd id s) := by
  apply keeps_next
  split
  · exact State.drainedSwitch_kept _ _ hs
  · exact hs

theorem execSwitchSaveComplete_keeps (id : Nat) : Keeps cmds (execSwitchSaveComplete id s) := by
  apply keeps_next
  split
  · exact State.savedSwitch_kept _ _ hs
  · exact hs

theorem execSwitchInComplete_keeps (id : Nat) : Keeps cmds (execSwitchInComplete id s) := by
  apply keeps_next
  split
  · exact State.switchedIn_kept _ _ hs
  · exact hs

/-! ## Links, ports and the beat -/

theorem execWrAck_keeps (port : Nat) (c : Cell) : Keeps cmds (execWrAck port c s) :=
  keeps_next (State.route_kept _ _ _ _
    (fun _ _ h => State.kept_foldl (fun _ _ h => State.answer_kept _ _ _ _ _ h) h _) hs)

theorem execInletFault_keeps (inlet : Nat) (r : InletReading) : Keeps cmds (execInletFault inlet r s) := by
  have h1 := State.inletReads_kept s inlet r hs
  exact keeps_next (State.kept_ite h1
    (State.inletFails_kept _ _ _ (State.kept_ite h1 (State.setFld_kept _ _ _ _ _ h1))))

theorem execCodewordReceive_keeps (port lane : Nat) (w : Codeword) : Keeps cmds (execCodewordReceive port lane w s) := by
  apply keeps_next
  apply State.kept_ite hs
  cases w with
  | clean => exact hs
  | corrected n => exact State.satAdd_kept _ _ _ _ _ hs
  | uncorrectable => exact State.badCell_kept _ _ _ (State.portCE_kept _ _ (State.satAdd_kept _ _ _ _ _ hs))

theorem execQuickRetrainSuccess_keeps (port : Nat) (lanes : BitVec 16) :
    Keeps cmds (execQuickRetrainSuccess port lanes s) := by
  apply keeps_next
  apply State.kept_ite hs
  split
  · exact hs
  · apply State.drainWait_kept
    apply State.badCell_kept
    apply State.setPort_kept
    apply State.logCE_kept
    apply State.raise_kept
    exact State.setFld_kept _ _ _ _ _ (State.setFld_kept _ _ _ _ _ hs)

theorem execTagLimit_keeps (port : Nat) : Keeps cmds (execTagLimit port s) :=
  keeps_next (State.kept_ite (State.raiseAlarm_kept _ _ _ _ _ _
    (State.logErr_kept _ _ (State.leaveActive_kept _ _ _ _ _ hs))) hs)

theorem execBeat_keeps (port arrival : Nat) (residence : List (Nat × Nat)) (c : Cell) :
    Keeps cmds (execBeat port arrival residence c s) := by
  have h1 := State.receive_kept s port (cellUnder c 0xA) hs
  apply keeps_next
  split
  · exact State.kept_snd (by assumption) h1
  · have h2 := State.kept_snd (by assumption) h1
    exact State.kept_ite (State.takeMarker_kept _ _ _ _ _ h2) (State.routeErr_kept _ _ _ _ h2)

theorem execEdgeDeferredApply_keeps : Keeps cmds (execEdgeDeferredApply s) :=
  keeps_next (State.kept_ite
    (State.applyPower_kept _ (State.applyLate_kept _ (State.applyDeferred_kept _ hs))) (State.applyDirect_kept _ hs))

/-! ## Resets, alarms and changes -/

theorem execResetShutter_keeps (id : Nat) : Keeps cmds (execResetShutter id s) := by
  apply keeps_next
  split
  · exact State.resetDrain_kept _ _ (State.failCores_kept _ (State.shutterReset_kept _ _ hs))
  · exact hs

theorem execCoreUncorrectedError_keeps (core : Nat) : Keeps cmds (execCoreUncorrectedError core s) :=
  keeps_next (State.kept_ite hs (State.decideReset_kept _ _ _ _ _ _ (State.kept_mk hs ..)))

theorem execUcePError_keeps (part source : Nat) : Keeps cmds (execUcePError part source s) :=
  keeps_next (State.decideReset_kept _ _ _ _ _ _ (State.logErr_kept _ _ hs))

theorem execAlarmAbort_keeps (part : Nat) : Keeps cmds (execAlarmAbort part s) := by
  apply keeps_next
  split
  · exact State.startAbort_kept _ _ hs
  · exact hs

theorem execBridgeLaneFail_keeps : Keeps cmds (execBridgeLaneFail s) := by
  have h1 : State.kept cmds { s with bridge := s.bridge + 1 } := State.kept_mk hs ..
  exact keeps_next (State.kept_ite (State.logCE_kept _ _ _ _ _ (State.setFld_kept _ _ _ _ _ h1)) h1)

theorem execCoreStateCopyDone_keeps (core : Nat) : Keeps cmds (execCoreStateCopyDone core s) :=
  keeps_next (State.kept_ite (State.kept_mk hs ..) hs)

/-! ## Lifecycle, parish, attestation and keys -/

theorem execAttestReportDone_keeps (fn : Nat) (nonce : BitVec 384) : Keeps cmds (execAttestReportDone fn nonce s) := by
  have h1 := State.report_kept s 2 (some (fn - 1)) (leBytes 48 nonce.toNat) hs
  exact keeps_next (State.kept_ite
    (State.raise_kept _ _ _ _ (State.setFld_kept _ _ _ _ _ (State.kept_mk (State.send_kept _ _ h1) ..))) hs)

theorem execLifeAuth_keeps (sess req : Nat) (a : LifeAuth) : Keeps cmds (execLifeAuth sess req a s) := by
  apply keeps_next
  split
  case h_1 => exact hs
  apply State.kept_ite (State.enterReq_kept _ _ _ _ _ hs)
  have h1 : State.kept cmds (if s.sec.challenge = some a.challenge then { s with sec := { s.sec with challenge := none } }
    else s) := State.kept_ite (State.kept_mk hs ..) hs
  exact State.kept_ite (State.startLife_kept _ (State.kept_mk (State.enterReq_kept _ _ _ _ _ h1) ..))
    (State.enterReq_kept _ _ _ _ _ h1)

theorem execParishEnrol_keeps (sess req : Nat) (m : EnrolMsg) : Keeps cmds (execParishEnrol sess req m s) := by
  refine keeps_next (State.kmcRequest_kept _ _ _ _ _ (fun t ht => ?_) hs)
  apply State.kept_ite3 ht
  apply State.kept_ite3 ht
  apply State.kept_ite3 ht
  exact State.setFld_kept _ _ _ _ _ (State.kept_mk (State.report_kept _ _ _ _
    (State.loadKey_kept _ _ _ _ (State.loadKey_kept _ _ _ _ (State.kept_mk ht ..)))) ..)

theorem execParishKeys_keeps (sess req : Nat) (m : KeysMsg) : Keeps cmds (execParishKeys sess req m s) := by
  refine keeps_next (State.kmcRequest_kept _ _ _ _ _ (fun t ht => ?_) hs)
  apply State.kept_ite3 ht
  split
  · exact ht
  · apply State.kept_ite3 ht
    apply State.kept_ite3 (State.dropEnrol_kept _ ht)
    dsimp only
    split
    · exact State.installKeys_kept _ _ _ (State.loadKey_kept _ _ _ _ ht)
    · exact State.dropEnrol_kept _ (State.loadKey_kept _ _ _ _ ht)

theorem execParishAdd_keeps (sess req part edge : Nat) : Keeps cmds (execParishAdd sess req part edge s) := by
  refine keeps_next (State.kmcRequest_kept _ _ _ _ _ (fun t ht => ?_) hs)
  apply State.kept_ite3 ht
  apply State.kept_ite3 ht
  apply State.kept_ite3 ht
  exact State.kept_mk (State.loadKey_kept _ _ _ _ ht) ..

theorem execRollGroup_keeps (ctl : Nat) (auth : Auth) : Keeps cmds (execRollGroup ctl auth s) := by
  have h1 (pa : Nat) (twin : Option (Nat × Nat × Nat)) (good : Bool) :=
    State.authRead_kept _ pa auth twin false good 0 (State.leafLookup_kept _ pa (State.draw_kept s hs))
  exact keeps_next (State.kept_ite (State.kept_ite (State.rollGroup_kept _ _ (h1 _ _ _)) (h1 _ _ _)) hs)

theorem execReport_keeps (sess req : Nat) (nonce : BitVec 384) : Keeps cmds (execReport sess req nonce s) := by
  refine keeps_next (State.kmcRequest_kept _ _ _ _ _ (fun t ht => ?_) hs)
  exact State.report_kept t 1 none (leBytes 48 nonce.toNat) ht

/-! ## Power and rotation -/

theorem execTHot_keeps (die temp : Nat) : Keeps cmds (execTHot die temp s) :=
  keeps_next (State.kept_ite (State.logErr_kept _ _ (State.setFld_kept _ _ _ _ _ (State.setClock_kept _ _
    (State.kept_mk (State.raise_kept _ _ _ _ hs) ..)))) hs)

theorem execTTrip_keeps (die temp : Nat) : Keeps cmds (execTTrip die temp s) :=
  keeps_next (State.kept_ite (State.dueDump_kept _ _ (State.goOff_kept _ _ (State.kept_foldl
    (fun _ _ h => State.raiseAlarm_kept _ _ _ _ _ _ h) (State.setFault_kept _ _ (State.logErr_kept _ _ hs)) _))) hs)

theorem execDroopDetect_keeps (cluster : Nat) : Keeps cmds (execDroopDetect cluster s) := by
  have h1 : State.kept cmds (if s.pow.drooped.isEmpty then s.raise 0 0 Reg.PWR_STAT.DROOP_EVT else s) :=
    State.kept_ite (State.raise_kept _ _ _ _ hs) hs
  have h2 := State.logCE_kept _ 0x10 0 (0x5000 + cluster / 16) none
    (State.satAdd_kept _ 0 (cluster / 16) Reg.PWR_DROOP.COUNT 1 h1)
  exact keeps_next (State.kept_ite hs (State.kept_ite
    (State.abandonSlice_kept _ _ (State.kept_mk h2 ..)) (State.kept_mk h2 ..)))

theorem execRotationSliceEnd_keeps (die : Nat) (pass : Bool) : Keeps cmds (execRotationSliceEnd die pass s) :=
  keeps_next (State.kept_ite hs (State.kept_ite (State.abandonSlice_kept _ _ hs) (State.setFld_kept _ _ _ _ _ (State.kept_ite
    (State.satAdd_kept _ _ _ _ _ (State.setFld_kept _ _ _ _ _ (State.setFld_kept _ _ _ _ _ hs)))
    (State.sliceFailed_kept _ _ hs)))))

/-! ## Registers, power-up and the module -/

theorem execCounterRead_keeps (fn off size : Nat) : Keeps cmds (execCounterRead fn off size s) := by
  apply keeps_next
  apply State.kept_ite hs
  apply State.kept_ite (State.unsupported_kept _ _ _ hs)
  exact State.kept_ite (State.clearCounters_kept _ _ _ _ _ (State.send_kept _ _ hs)) (State.send_kept _ _ hs)

theorem execBootStepComplete_keeps (step ms : Nat) (r : BootResult) : Keeps cmds (execBootStepComplete step ms r s) := by
  have h1 : ((stepMarks step r).foldl (fun (t : State) u => (t.recordFail step u).markUnit u) s).kept cmds :=
    State.kept_foldl (fun _ _ h => State.markUnit_kept _ _ (State.recordFail_kept _ _ _ h)) hs _
  have h2 := State.bootEffect_kept _ step r (State.bootDone_kept _ step h1)
  exact keeps_next (State.kept_ite hs (State.kept_ite (State.imagesFailed_kept _ _ hs)
    (State.kept_ite (State.reachRelease_kept _ _ h2) h2)))

theorem execBootLockTimeout_keeps : Keeps cmds (execBootLockTimeout s) :=
  keeps_next (State.kept_ite (State.intc_kept _ _ _ (State.raise_kept _ _ _ _ (State.kept_mk (State.setFld_kept _ _ _ _ _
    (State.setFld_kept _ _ _ _ _ (State.setFld_kept _ _ _ _ _ (State.bootDone_kept _ _ (State.recordFail_kept _ _ _ hs))))) ..)))
    hs)

theorem execBootStepFail_keeps (step : Nat) (f : BootFail) : Keeps cmds (execBootStepFail step f s) := by
  apply keeps_next
  apply State.kept_ite hs
  cases f with
  | rail => exact State.kept_ite (State.railsDown_kept _ (State.setFault_kept _ _ hs)) hs
  | rom => exact State.kept_ite (State.bootStop_kept _ _ (State.setFault_kept _ _ (State.recordFail_kept _ _ _ hs))) hs
  | images bad => exact State.kept_ite hs (State.imagesFailed_kept _ _ hs)
  | kmcLink => exact State.kept_ite (State.bootEffect_kept _ _ _ (State.bootDone_kept _ _ (State.recordFail_kept _ _ _ hs))) hs
  | keys => exact State.kept_ite (State.bootStop_kept _ _ (State.setFault_kept _ _ (State.recordFail_kept _ _ _ hs))) hs
  | unit code => exact State.kept_ite (State.bootStop_kept _ _ (State.setFault_kept _ _ (State.recordFail_kept _ _ _ hs))) hs

theorem execPcieLinkTrained_keeps : Keeps cmds (execPcieLinkTrained s) := by
  have h1 : State.kept cmds { s with boot := { s.boot with linked := true } } := State.kept_mk hs ..
  exact keeps_next (State.kept_ite (State.kept_ite (State.release_kept _ h1) h1) hs)

theorem execPcieLinkDown_keeps : Keeps cmds (execPcieLinkDown s) := by
  have h1 : State.kept cmds { s with boot := { s.boot with linked := false } } := State.kept_mk hs ..
  exact keeps_next (State.kept_ite (State.kept_ite (State.decideReset_kept _ _ _ _ _ _ h1) h1) hs)

theorem execPwrEnRise_keeps (vin : Nat) : Keeps cmds (execPwrEnRise vin s) := by
  have h1 : State.kept cmds { s with mod := { s.mod with pwrEn := true, vin := vin } } := State.kept_mk hs ..
  exact keeps_next (State.kept_ite hs (State.kept_ite (State.kept_mk (State.coldStart_kept _ 1 h1) ..) h1))

theorem execPwrEnFall_keeps : Keeps cmds (execPwrEnFall s) :=
  keeps_next (State.kept_ite (State.releaseFault_kept _ (State.kept_mk (State.kept_ite hs (State.railsDown_kept _ hs)) ..)) hs)

theorem execRstNAssert_keeps (us : Nat) : Keeps cmds (execRstNAssert us s) := by
  have hd : (if us < 10 then s.drawBool else (true, s)).2.kept cmds := State.kept_ite2 (State.drawBool_kept s hs) hs
  exact keeps_next (State.kept_ite hs (State.kept_ite
    (State.kept_ite (State.decideReset_kept _ _ _ _ _ _ (State.kept_mk hd ..)) (State.coldStart_kept _ _ (State.kept_mk hd ..)))
    hd))

theorem execInputUndervoltage_keeps (vin : Nat) : Keeps cmds (execInputUndervoltage vin s) := by
  have h1 := State.pmStatus_kept { s with mod := { s.mod with vin := vin } } 0x2008 (State.kept_mk hs ..)
  exact keeps_next (State.kept_ite (State.kept_ite h1 (State.railsDown_kept _ h1)) hs)

theorem execInputOvervoltage_keeps (vin : Nat) : Keeps cmds (execInputOvervoltage vin s) := by
  have h1 := State.pmStatus_kept { s with mod := { s.mod with vin := vin } } 0x2000 (State.kept_mk hs ..)
  have h2 := State.setFault_kept _ 0xB h1
  exact keeps_next (State.kept_ite (State.kept_ite h2 (State.railsDown_kept _ h2)) hs)

theorem execInputOvercurrent_keeps (iin : Nat) : Keeps cmds (execInputOvercurrent iin s) := by
  have h1 := State.pmStatus_kept { s with mod := { s.mod with iin := iin } } 0x2000 (State.kept_mk hs ..)
  exact keeps_next (State.kept_ite (State.logErr_kept _ _ (State.raise_kept _ _ _ _ (State.setFault_kept _ _ h1))) hs)

theorem execVinSagEvent_keeps : Keeps cmds (execVinSagEvent s) :=
  keeps_next (State.kept_ite (State.logCE_kept _ _ _ _ _ (State.raise_kept _ _ _ _ (State.pmStatus_kept _ _ hs))) hs)

/-! ## Management sessions -/

theorem execKmcSessionOpen_keeps (sess : Nat) (ok : Bool) : Keeps cmds (execKmcSessionOpen sess ok s) := by
  apply keeps_next
  split
  case isFalse => exact hs
  case isTrue hopen =>
    have hroom : s.kmc.sessions.length < 4 := by simp only [Bool.and_eq_true, decide_eq_true_eq] at hopen; exact hopen.1.2
    refine State.kept_foldl (fun _ _ h => State.send_kept _ _ h) (State.kept_kmc hs ?_ (Nat.zero_le _)) _
    rw [List.length_append]
    exact hroom

theorem execKmcSessionClose_keeps (sess : Nat) : Keeps cmds (execKmcSessionClose sess s) := by
  apply keeps_next
  split
  · exact hs
  · exact State.startLife_kept _ (State.kept_kmc hs
      ((List.length_filter_le _ _).trans (State.kept_sessions hs)) (State.kept_kept hs))

theorem execMgmtRoot_keeps (sess req : Nat) (digest : BitVec 384) (a : LifeAuth) :
    Keeps cmds (execMgmtRoot sess req digest a s) := by
  refine keeps_next (State.kmcRequest_kept _ _ _ _ _ (fun t ht => ?_) hs)
  have h1 : State.kept cmds (if t.sec.challenge = some a.challenge then { t with sec := { t.sec with challenge := none } }
    else t) := State.kept_ite (State.kept_mk ht ..) ht
  exact State.kept_ite3 (State.kept_kmc h1 (State.kept_sessions h1) (State.kept_kept h1)) h1

theorem execConfigWrite_keeps (sess req : Nat) (pairs : List (Nat × U64)) : Keeps cmds (execConfigWrite sess req pairs s) := by
  refine keeps_next (State.kmcRequest_kept _ _ _ _ _ (fun t ht => ?_) hs)
  refine State.kept_ite3 ht (State.kept_ite3 ht (State.kept_foldl (fun u x hu => ?_) ht _))
  have h1 := State.writeConfig_kept u x.1 x.2 hu
  exact State.kept_kmc h1 (State.kept_sessions h1) (State.kept_kept h1)

theorem execRouteWrite_keeps (sess req part first : Nat) (entries : List U64) :
    Keeps cmds (execRouteWrite sess req part first entries s) :=
  keeps_next (State.kmcRequest_kept _ _ _ _ _ (fun _ ht => State.kept_ite3 ht (State.kept_mk ht ..)) hs)

theorem execAlarmRaise_keeps (sess req scope cause vd : Nat) (detail : BitVec 128) :
    Keeps cmds (execAlarmRaise sess req scope cause vd detail s) :=
  keeps_next (State.kmcRequest_kept _ _ _ _ _ (fun t ht => State.kept_ite3 ht
    (State.alarmArrives_kept _ _ (State.sendAll_kept _ _ _ (State.kept_alarmId
      (State.recordFlood_kept _ _ _ _ (State.draw_kept t ht)) (Nat.mod_lt _ (by decide)))))) hs)

theorem execBellRaise_keeps (sess req scope vd target : Nat) : Keeps cmds (execBellRaise sess req scope vd target s) :=
  keeps_next (State.kmcRequest_kept _ _ _ _ _ (fun _ ht => State.kept_ite3 ht
    (State.sendBell_kept _ _ _ _ (State.addBell_kept _ _ _ ht))) hs)

theorem execFwBegin_keeps (sess req image len : Nat) : Keeps cmds (execFwBegin sess req image len s) :=
  keeps_next (State.kmcRequest_kept _ _ _ _ _ (fun _ ht => State.kept_ite3 ht (State.kept_ite3 ht
    (State.kept_kmc ht (State.kept_sessions ht) (State.kept_kept ht)))) hs)

theorem execFwChunk_keeps (sess req off : Nat) (data : List Byte) : Keeps cmds (execFwChunk sess req off data s) := by
  refine keeps_next (State.kmcRequest_kept _ _ _ _ _ (fun t ht => ?_) hs)
  split
  · exact ht
  · exact State.kept_ite3 ht (State.kept_ite3 ht (State.kept_kmc ht (State.kept_sessions ht) (State.kept_kept ht)))

theorem execFwCommit_keeps (sess req signer : Nat) : Keeps cmds (execFwCommit sess req signer s) := by
  refine keeps_next (State.kmcRequest_kept _ _ _ _ _ (fun t ht => ?_) hs)
  split
  · exact ht
  · exact State.kept_ite3 ht (State.kept_ite3
      (State.startLife_kept _ (State.kept_kmc ht (State.kept_sessions ht) (State.kept_kept ht))) ht)

theorem execDumpRead_keeps (sess req slot off len : Nat) : Keeps cmds (execDumpRead sess req slot off len s) := by
  refine keeps_next (State.kmcRequest_kept _ _ _ _ _ (fun t ht => ?_) hs)
  apply State.kept_ite3 ht
  apply State.kept_ite3 ht
  split
  · exact ht
  · split <;> exact ht

theorem execTestReq_keeps (sess req op : Nat) : Keeps cmds (execTestReq sess req op s) :=
  keeps_next (State.kmcRequest_kept _ _ _ _ _ (fun _ ht => State.kept_ite3 (State.kept_mk ht ..) ht) hs)

/-! ## Slots of a bundle -/

/-- R64: a slot's issue keeps the form, with an effect beside its core for the hints and the bell, and on the state after a draw
for LD. -/
theorem exec_slot_keeps {c : Instr} {x : Slot} (hslot : slotOf c = some x) : Keeps cmds (exec c s) := by
  cases c with
  | phaseHeavy y | phaseLight y => exact keeps_next (State.issueWith_kept _ _ _ _ _ _ hs fun _ h => State.hint_kept _ _ _ _ h)
  | snapBell y => exact keeps_next (State.issueWith_kept _ _ _ _ _ _ hs fun _ h => State.partBell_kept _ _ _ _ h)
  | ld y => exact keeps_next (State.issue_kept _ _ _ _ _ (State.draw_kept s hs))
  | add y | sub y | mul y | mulhu y | div y | divu y | rem y | remu y | and y | or y | xor y | shl y | shr y | sra y | min y
  | max y | addi y | andi y | ori y | xori y | shli y | shri y | srai y | li y | lih y | cmp y | cmpi y | pset y | pmov y
  | st y | br y | bri y | call y | loop y | loopI y | endProg y | beatEnd y | rdsr y _ | tdSet y | tdGet y | tdFld y
  | waitTag y | engWait y | latchSig y | acsinLatchWait y | latchTest y | seqGet y | seqPage y | mma y | accDrain y
  | accLoad y | accZero y | accScale y | vld y | vst y | vadd y | vsub y | vmul y | vfma y | vmax y | vmin y | vand y | vor y
  | vxor y | vshl y | vshr y | vsra y | vabs y | vneg y | vcmp y | vsel y | vmov y | vbcast y | viota y | vext y | vred y
  | vexp2 y | vlog2 y | vrcp y | vrsq y | vtanh y | vcvt y | vmx y | vidx y | move y | moveD y | gather y | scatter y
  | moveAdd y | moveMax y | moveMin y | atomSwap y | atomCas y | atomClaim y => exact keeps_next (State.issue_kept _ _ _ _ _ hs)
  | _ => nomatch hslot

/-- Every command keeps the form: a slot by its issue, a command of a queue by its start, and each other by what its operation
keeps. -/
theorem exec_keeps (c : Instr) : Keeps cmds (exec c s) := by
  cases c with
  | phaseHeavy y | phaseLight y | snapBell y | ld y
  | add y | sub y | mul y | mulhu y | div y | divu y | rem y | remu y | and y | or y | xor y | shl y | shr y | sra y | min y
  | max y | addi y | andi y | ori y | xori y | shli y | shri y | srai y | li y | lih y | cmp y | cmpi y | pset y | pmov y
  | st y | br y | bri y | call y | loop y | loopI y | endProg y | beatEnd y | rdsr y _ | tdSet y | tdGet y | tdFld y
  | waitTag y | engWait y | latchSig y | acsinLatchWait y | latchTest y | seqGet y | seqPage y | mma y | accDrain y
  | accLoad y | accZero y | accScale y | vld y | vst y | vadd y | vsub y | vmul y | vfma y | vmax y | vmin y | vand y | vor y
  | vxor y | vshl y | vshr y | vsra y | vabs y | vneg y | vcmp y | vsel y | vmov y | vbcast y | viota y | vext y | vred y
  | vexp2 y | vlog2 y | vrcp y | vrsq y | vtanh y | vcvt y | vmx y | vidx y | move y | moveD y | gather y | scatter y
  | moveAdd y | moveMax y | moveMin y | atomSwap y | atomCas y | atomClaim y => exact exec_slot_keeps hs rfl
  | nop | launch | graphLaunch | latchSignal | latchWait | seqUpdate | ctxCreate | ctxDestroy | map | unmap | release
  | invalidate | graphStore | graphPatch | graphDestroy | latchAlloc | latchFree | seqBind | seqUnbind | sieveTable
  | schedLoad | shareCreate | shareVerify | shareMap | shareUnmap | shareDestroy =>
    exact keeps_next (State.command_kept _ _ _ _ _ hs)
  | beatEdge => exact keeps_next (State.kept_ite hs (State.kept_ite (State.edge_kept _ _ hs) (State.beatPart_kept _ hs)))
  | edgeDeferredApply => exact execEdgeDeferredApply_keeps hs
  | latenessEvent => exact keeps_next (State.lateEvent_kept _ _ hs)
  | tailBlockArrival => exact keeps_next (State.tailBlock_kept _ _ _ _ hs)
  | commandRecordArrival => exact keeps_next (State.takeRecord_kept _ _ _ _ _ hs)
  | commandComplete => exact execCommandComplete_keeps hs _ _ _
  | beatMarkerEmit => exact keeps_next (State.emitMarker_kept _ hs)
  | beat => exact execBeat_keeps hs _ _ _ _
  | markerPortChange => exact keeps_next (State.kept_ite (State.changePort_kept _ hs) hs)
  | holdoverEntry => exact keeps_next (State.checkHoldover_kept _ hs)
  | holdoverLimit => exact keeps_next (State.checkHoldLimit_kept _ hs)
  | beatLengthChange => exact keeps_next (State.applyLength_kept _ hs)
  | coreUncorrectedError => exact execCoreUncorrectedError_keeps hs _
  | bridgeLaneFail => exact execBridgeLaneFail_keeps hs
  | networkPacketError => exact execNetworkPacketError_keeps hs _ _
  | moveStart => exact keeps_next (State.tryStart_kept _ _ _ hs)
  | moveComplete => exact keeps_next (State.settleApplied_kept _ (State.completeMove_kept _ _ _ _ hs))
  | engineException => exact keeps_next (State.engineExc_kept _ _ _ hs)
  | preloadStart => exact keeps_next (State.startPreload_kept _ _ hs)
  | preloadComplete => exact keeps_next (State.completePreload_kept _ _ _ hs)
  | launchCoreStart => exact keeps_next (State.launchCore_kept _ _ hs)
  | translationWalk => exact keeps_next (State.walkMove_kept _ _ _ _ hs)
  | replayableFault => exact keeps_next (State.kept_ite (State.walkMove_kept _ _ _ _ hs) hs)
  | retry => exact keeps_next (State.retryFault_kept _ _ _ hs)
  | abort => exact keeps_next (State.abortFault_kept _ _ _ hs)
  | xlatFqueryWrite => exact keeps_next (State.fquery_kept _ _ _ hs)
  | dctlXlatInvWrite => exact keeps_next (State.xlatInv_kept _ _ hs)
  | invalidateComplete => exact execInvalidateComplete_keeps hs _
  | atsInvalidation => exact keeps_next (State.atsInval_kept _ _ _ _ hs)
  | priResponse => exact keeps_next (State.priDone_kept _ _ _ _ hs)
  | sieveBlockDecode => exact keeps_next (State.sieveBlock_kept _ _ _ _ _ hs)
  | sieveTableChecked => exact keeps_next (State.sieveChecked_kept _ _ _ _ hs)
  | memoryRead => exact execMemoryRead_keeps hs _ _
  | memoryWrite => exact execMemoryWrite_keeps hs _ _ _ _ _
  | patrolScrub => exact execPatrolScrub_keeps hs _ _
  | verifyScrub => exact execVerifyScrub_keeps hs _ _ _
  | ledgerChunkCheck => exact execLedgerChunkCheck_keeps hs _ _
  | criticalTemperature => exact execCriticalTemperature_keeps hs _ _
  | memoryUnitRestart => exact keeps_next (State.restartUnit_kept _ _ hs)
  | wipeComplete => exact execWipeComplete_keeps hs _
  | memorySideAdd => exact execMemorySideAdd_keeps hs _ _ _ _ _ _
  | memorySideMax | memorySideMin => exact State.unitOp_keeps hs fun _ h => State.mso_kept _ _ _ _ _ _ h
  | memorySideSwap => exact State.unitOp_keeps hs fun _ h => State.swap_kept _ _ _ h
  | memorySideCas => exact State.unitOp_keeps hs fun _ h => State.cas_kept _ _ _ _ h
  | memorySideClaim pa requester cmp new log fn => exact execMemorySideClaim_keeps hs pa requester cmp new log fn
  | codewordReceive => exact execCodewordReceive_keeps hs _ _ _
  | trainId => exact keeps_next (State.takeTrainId_kept _ _ _ hs)
  | measure => exact keeps_next (State.kept_ite (State.sendLink_kept _ _ _ hs) hs)
  | measureReply => exact keeps_next (State.kept_ite (State.measured_kept _ _ (State.setPort_kept _ _ _ hs)) hs)
  | creditAck => exact keeps_next (State.takeCredit_kept _ _ _ hs)
  | nak => exact keeps_next (State.takeNak_kept _ _ _ hs)
  | rdReq | wr | atom => exact keeps_next (State.route_kept _ _ _ _ (fun _ _ h => State.target_kept _ _ _ h) hs)
  | rdResp | atomResp => exact keeps_next (State.route_kept _ _ _ _ (fun _ _ h => State.answerCell_kept _ _ _ _ h) hs)
  | wrAck => exact execWrAck_keeps hs _ _
  | mso =>
    exact keeps_next (State.route_kept _ _ _ _ (fun _ _ h => State.settleApplied_kept _ (State.target_kept _ _ _ h)) hs)
  | latch => exact keeps_next (State.route_kept _ _ _ _ (fun _ _ h => State.latchCell_kept _ _ _ h) hs)
  | bell => exact keeps_next (State.floodCell_kept _ _ _ _ (fun _ _ h => State.bellArrives_kept _ _ _ h) hs)
  | alarm => exact keeps_next (State.floodCell_kept _ _ _ _ (fun _ _ h => State.alarmArrives_kept _ _ h) hs)
  | ackGatherTimeout => exact keeps_next (State.flushAcks_kept _ _ _ hs)
  | creditReturnTimer => exact keeps_next (State.kept_ite (State.sendCreditAck_kept _ _ hs) hs)
  | replayLimit => exact keeps_next (State.kept_ite (State.quickRetrain_kept _ _ (State.setPort_kept _ _ _ hs)) hs)
  | tagLimit => exact execTagLimit_keeps hs _
  | trainingStepComplete => exact keeps_next (State.stepDone_kept _ _ _ hs)
  | trainingStepFail => exact keeps_next (State.kept_ite (State.failStep_kept _ _ hs) hs)
  | trainingRetryTimer => exact keeps_next (State.kept_ite (State.setPort_kept _ _ _ hs) hs)
  | laneLockLoss => exact keeps_next (State.quickRetrain_kept _ _ hs)
  | quickRetrainSuccess => exact execQuickRetrainSuccess_keeps hs _ _
  | quickRetrainTimeout => exact keeps_next (State.kept_ite (State.dropPort_kept _ _ hs) hs)
  | portDown => exact keeps_next (State.dropPort_kept _ _ hs)
  | inletFault => exact execInletFault_keeps hs _ _
  | schedImageChecked => exact keeps_next (State.schedChecked_kept _ _ _ _ hs)
  | schedTableActivate => exact keeps_next (State.activateTable_kept _ _ hs)
  | windowOpen => exact keeps_next (State.openWindow_kept _ _ _ hs)
  | windowClose => exact keeps_next (State.closeWindow_kept _ _ _ hs)
  | bind | unbind | moveCore | retuneQos => exact keeps_next (State.compose_kept _ _ _ _ _ hs)
  | epochOpen => exact keeps_next (State.kept_ite hs (State.considerChange_kept _ _ _ hs))
  | changeStall => exact keeps_next (State.stallChange_kept _ _ hs)
  | drainEnd => exact keeps_next (State.drainIfDone_kept _ _ hs)
  | drainLimit => exact keeps_next (State.limitDrain_kept _ _ hs)
  | coreStateCopyDone => exact execCoreStateCopyDone_keeps hs _
  | bar2Read => exact keeps_next (State.bar2Read_kept _ _ _ _ hs)
  | bar2Write => exact keeps_next (State.bar2Write_kept _ _ _ _ hs)
  | registerWrite =>
    exact keeps_next (State.kept_ite hs
      (State.kept_ite (State.writeReg_kept _ _ _ _ _ hs) (State.unsupported_kept _ _ _ hs)))
  | counterRead => exact execCounterRead_keeps hs _ _ _
  | queueEnable => exact keeps_next (State.writeQ0_kept _ _ _ _ hs)
  | queueDestroy => exact keeps_next (State.askQueueDestroy_kept _ _ _ hs)
  | resume => exact keeps_next (State.askResume_kept _ _ _ hs)
  | ctxSelLatch => exact keeps_next (State.ctxSel_kept _ _ _ hs)
  | destroyAck => exact keeps_next (State.destroyAck_kept _ _ _ _ hs)
  | latchWaitTimeout => exact execLatchWaitTimeout_keeps hs _ _ _
  | contextSwitchStart => exact execContextSwitchStart_keeps hs _
  | switchDrainEnd => exact execSwitchDrainEnd_keeps hs _
  | switchSaveComplete => exact execSwitchSaveComplete_keeps hs _
  | switchInComplete => exact execSwitchInComplete_keeps hs _
  | stallBudgetExpiry => exact keeps_next (State.expire_kept _ _ _ _ hs)
  | lifeChallenge => exact keeps_next (State.kmcRequest_kept _ _ _ _ _ (fun _ ht => State.kept_mk ht ..) hs)
  | lifeAuth => exact execLifeAuth_keeps hs _ _ _
  | parishEnrol => exact execParishEnrol_keeps hs _ _ _
  | parishKeys => exact execParishKeys_keeps hs _ _ _
  | parishStart => exact keeps_next (State.parishStart_kept _ hs)
  | parishAdd => exact execParishAdd_keeps hs _ _ _ _
  | parishLeave =>
    exact keeps_next (State.kmcRequest_kept _ _ _ _ _ (fun _ ht => State.kept_ite3 (State.endParish_kept _ ht) ht) hs)
  | attestGo => exact keeps_next (State.writeAttest_kept _ _ _ hs)
  | attestReportDone => exact execAttestReportDone_keeps hs _ _
  | rollReq => exact keeps_next (State.setFld_kept _ _ _ _ _ (State.requestRoll_kept _ hs))
  | rollTimer => exact keeps_next (State.requestRoll_kept _ hs)
  | keyRollStart => exact keeps_next (State.startRoll_kept _ hs)
  | rollGroup => exact execRollGroup_keeps hs _ _
  | rollComplete => exact keeps_next (State.endRoll_kept _ hs)
  | logFlush => exact keeps_next (State.flushLog_kept _ hs)
  | engineReset | coreReset | clusterReset | partitionReset | dieReset | deviceWarmReset | deviceColdReset =>
    exact keeps_next (State.decideReset_kept _ _ _ _ _ _ hs)
  | resetForce => exact keeps_next (State.forceReset_kept _ _ _ hs)
  | resetShutter => exact execResetShutter_keeps hs _
  | resetDrainEnd => exact keeps_next (State.resetDrain_kept _ _ hs)
  | resetWipeDone => exact keeps_next (State.wiped_kept _ _ hs)
  | ucePError => exact execUcePError_keeps hs _ _
  | fatalError => exact keeps_next (State.fatal_kept _ _ _ hs)
  | alarmAbort => exact execAlarmAbort_keeps hs _
  | fencedHoldExpiry => exact keeps_next (State.kept_foldl (fun _ _ h => State.expireHold_kept _ _ h) hs _)
  | dumpCapture => exact keeps_next (State.captureDump_kept _ hs)
  | dumpWritten => exact keeps_next (State.writeDump_kept _ hs)
  | run | parked => exact keeps_next (State.askPower_kept _ _ hs)
  | off => exact keeps_next (State.kept_ite (State.goOff_kept _ _ hs) hs)
  | domainWakeComplete | droopRecover | rstNDeassert | perstDeassert => exact keeps_next (State.kept_mk hs ..)
  | tHot => exact execTHot_keeps hs _ _
  | tTrip => exact execTTrip_keeps hs _ _
  | droopDetect => exact execDroopDetect_keeps hs _
  | heavy | light => exact keeps_next (State.kept_ite hs (State.hint_kept _ _ _ _ hs))
  | regulatorReport => exact keeps_next (State.kept_ite hs (State.kept_mk hs ..))
  | rotationStep => exact keeps_next (State.kept_ite (State.rotStep_kept _ _ hs) hs)
  | rotationSliceEnd => exact execRotationSliceEnd_keeps hs _ _
  | sliceAbandon => exact keeps_next (State.kept_ite (State.abandonSlice_kept _ _ hs) hs)
  | snapRing => exact keeps_next (State.writeSnapCtl_kept _ _ _ hs)
  | pwrEnRise => exact execPwrEnRise_keeps hs _
  | pwrEnFall => exact execPwrEnFall_keeps hs
  | rstNAssert => exact execRstNAssert_keeps hs _
  | pcieLinkDown => exact execPcieLinkDown_keeps hs
  | pcieConfigRequest =>
    exact keeps_next (State.kept_ite hs (State.kept_ite (State.configure_kept _ _ _ hs) (State.send_kept _ _ hs)))
  | bootStepComplete => exact execBootStepComplete_keeps hs _ _ _
  | bootStepFail => exact execBootStepFail_keeps hs _ _
  | bootLockTimeout => exact execBootLockTimeout_keeps hs
  | inputUndervoltage => exact execInputUndervoltage_keeps hs _
  | inputOvervoltage => exact execInputOvervoltage_keeps hs _
  | inputOvercurrent => exact execInputOvercurrent_keeps hs _
  | readVin | readIin | readPin | readTemperature1 | readTemperature2 | statusWord =>
    exact keeps_next (State.pmAnswer_kept _ _ _ hs)
  | kmcSessionOpen => exact execKmcSessionOpen_keeps hs _ _
  | kmcSessionClose => exact execKmcSessionClose_keeps hs _
  | getVersion | getCapabilities | negotiateAlgorithms | getDigests | getCertificate | challenge | getMeasurements =>
    exact keeps_next (State.spdm_kept _ _ _ hs)
  | getInfo | dumpList => exact keeps_next (State.kmcRequest_kept _ _ _ _ _ (fun _ ht => ht) hs)
  | report => exact execReport_keeps hs _ _ _
  | mgmtRoot => exact execMgmtRoot_keeps hs _ _ _ _
  | configWrite => exact execConfigWrite_keeps hs _ _ _
  | routeWrite => exact execRouteWrite_keeps hs _ _ _ _ _
  | alarmRaise => exact execAlarmRaise_keeps hs _ _ _ _ _ _
  | bellRaise => exact execBellRaise_keeps hs _ _ _ _ _
  | fwBegin => exact execFwBegin_keeps hs _ _ _ _
  | fwChunk => exact execFwChunk_keeps hs _ _ _ _
  | fwCommit => exact execFwCommit_keeps hs _ _ _
  | dumpRead => exact execDumpRead_keeps hs _ _ _ _ _
  | dumpAck =>
    exact keeps_next (State.kmcRequest_kept _ _ _ _ _ (fun _ ht => State.kept_ite3 ht (State.setFld_kept _ _ _ _ _ ht)) hs)
  | logRead => exact keeps_next (State.kmcRequest_kept _ _ _ _ _ (fun _ ht => State.kept_ite3 ht ht) hs)
  | teleSub =>
    exact keeps_next (State.kmcRequest_kept _ _ _ _ _ (fun _ ht => State.kept_ite3 ht (State.updSession_kept _ _ _ ht)) hs)
  | telemetry => exact keeps_next (State.telemetry_kept _ _ hs)
  | testReq => exact execTestReq_keeps hs _ _ _
  | engineInstructionComplete => exact execEngineInstructionComplete_keeps hs _ _
  | atsTranslationCompletion => exact keeps_next (State.atsDone_kept _ _ _ _ _ hs)
  | pcieLinkTrained => exact execPcieLinkTrained_keeps hs
  | laserModuleSeated => exact keeps_next (State.closeLoop_kept _ _ (State.setFld_kept _ _ _ _ _ hs))
  | vinSagEvent => exact execVinSagEvent_keeps hs

end Commands

/-- Settles O60: an idle step leaves the state, and any other is a command on the state with the queue's rest. -/
theorem stepKeepsInvariant : Obligations.StepKeepsInvariant := by
  unfold Obligations.StepKeepsInvariant
  intro s t hinv hstep
  cases hpend : s.pending with
  | nil =>
    simp only [step, hpend, Host.Outcome.next.injEq] at hstep
    exact ⟨hstep ▸ hinv, hstep ▸ hpend⟩
  | cons c cs =>
    simp only [step, hpend] at hstep
    have hkept : State.kept cs { s with pending := cs } := State.kept_iff.mpr ⟨hinv, rfl⟩
    rw [List.tail_cons]
    exact State.kept_iff.mp (exec_keeps hkept c t hstep)

end Sys2Proof.Machine
end

section
/-! SUPPORT. Signals to MAX and to ORDERED latches (R354, R355): which values a latch holds, and what a signal, and the advance
that follows it, make of them; and the statement that they settle. -/

namespace Sys2Proof.Machine

open Sys2Proof

/-! ## The values that a latch's bitmap holds (R354) -/

/-- A value above the latch's own is held: bit `k` of the bitmap stands for the value `k + 1` above it. -/
def Latch.holds (t : Latch) (m : Nat) : Prop := t.val.toNat < m ∧ bitOf t.held.toNat (m - t.val.toNat - 1) = true

theorem Latch.fits_iff (t : Latch) : t.fits ↔ ∀ m, t.holds m → m < 2 ^ 64 := by
  constructor
  · rintro h m ⟨hm, hbit⟩
    have := h _ hbit
    omega
  · intro h k hbit
    refine h (t.val.toNat + 1 + k) ⟨by omega, ?_⟩
    rwa [show t.val.toNat + 1 + k - t.val.toNat - 1 = k by omega]

/-- The latch one value further, with its bitmap moved along. -/
def Latch.next (t : Latch) : Latch := { t with val := t.val + 1, held := t.held >>> 1 }

theorem Latch.next_val {t : Latch} (h : t.val.toNat + 1 < 2 ^ 64) : t.next.val.toNat = t.val.toNat + 1 := by
  have hone : (1 : U64).toNat = 1 := rfl
  rw [Latch.next, BitVec.toNat_add, hone, Nat.mod_eq_of_lt h]

/-- The latch that moved on holds what it held above its new value. -/
theorem Latch.next_holds {t : Latch} (h : t.val.toNat + 1 < 2 ^ 64) (m : Nat) :
    t.next.holds m ↔ t.holds m ∧ t.val.toNat + 1 < m := by
  have hbit (k : Nat) : bitOf t.next.held.toNat k = bitOf t.held.toNat (1 + k) := by
    rw [bitOf_toNat, bitOf_toNat, Latch.next, BitVec.getLsbD_ushiftRight]
  simp only [Latch.holds, Latch.next_val h, hbit]
  constructor
  · rintro ⟨hm, hheld⟩
    exact ⟨⟨by omega, by rwa [show 1 + (m - (t.val.toNat + 1) - 1) = m - t.val.toNat - 1 by omega] at hheld⟩, hm⟩
  · rintro ⟨⟨-, hheld⟩, hm⟩
    exact ⟨hm, by rwa [show 1 + (m - (t.val.toNat + 1) - 1) = m - t.val.toNat - 1 by omega]⟩

/-- A latch `u` that came from `t` by values of `p` alone: it passed over none that is not in `p`, and holds no other. -/
structure Latch.Reaches (t : Latch) (p : Nat → Prop) (u : Latch) : Prop where
  rises : t.val.toNat ≤ u.val.toNat
  passed : ∀ m, t.val.toNat < m → m ≤ u.val.toNat → p m
  held : ∀ m, u.holds m → p m

theorem Latch.Reaches.trans {t u v : Latch} {p : Nat → Prop} (h : t.Reaches p u) (h' : u.Reaches u.holds v) : t.Reaches p v where
  rises := h.rises.trans h'.rises
  passed m hlo hhi := by
    rcases Nat.lt_or_ge u.val.toNat m with hm | hm
    · exact h.held m (h'.passed m hm hhi)
    · exact h.passed m hlo hm
  held m hm := h.held m (h'.held m hm)

theorem Latch.Reaches.refl (t : Latch) : t.Reaches t.holds t where
  rises := Nat.le_refl _
  passed _ hlo hhi := absurd hhi (Nat.not_le.mpr hlo)
  held _ hm := hm

/-- The move to the next value, where that value is one of `p` and what was held is. -/
theorem Latch.Reaches.next {t : Latch} {p : Nat → Prop} (h : t.val.toNat + 1 < 2 ^ 64) (hone : p (t.val.toNat + 1))
    (hheld : ∀ m, t.holds m → p m) : t.Reaches p t.next where
  rises := by rw [Latch.next_val h]; omega
  passed m hlo hhi := by
    rw [Latch.next_val h] at hhi
    rwa [show m = t.val.toNat + 1 by omega]
  held m hm := hheld m ((Latch.next_holds h m).mp hm).1

/-- A value whose bit is the lowest is the one after the latch's. -/
theorem Latch.holds_next {t : Latch} (h : t.held.toNat % 2 = 1) : t.holds (t.val.toNat + 1) := by
  refine ⟨by omega, ?_⟩
  rw [show t.val.toNat + 1 - t.val.toNat - 1 = 0 by omega, bitOf, Nat.pow_zero, Nat.div_one, h]
  rfl

/-- The advance reaches only values that were held (R354). -/
theorem Latch.advance_reaches (n : Nat) {t : Latch} (hfits : t.fits) : t.Reaches t.holds (t.advance n) := by
  induction n generalizing t with
  | zero => exact .refl t
  | succ n ih =>
    rw [Latch.advance]
    split
    case isFalse => exact .refl t
    case isTrue hodd =>
      have hholds := Latch.holds_next hodd
      have hlt := t.fits_iff.mp hfits _ hholds
      have hnext : t.next.fits := t.next.fits_iff.mpr fun m hm => t.fits_iff.mp hfits m ((Latch.next_holds hlt m).mp hm).1
      exact (Latch.Reaches.next hlt hholds fun _ => id).trans (ih hnext)

/-! ## A signal -/

section Signal

variable {t : Latch} {x : U64}

theorem Latch.signal_max (hmax : t.isMax = true) :
    t.signal x = if x.toNat ≤ t.val.toNat then (t, 2) else ({ t with val := x }, 0) := by
  simp only [Latch.signal, hmax, if_true]

/-- R354: a value not above the latch's is stale, as is one that is held; the next one advances the latch, one of the 63 after
it is held, and one beyond is out of range. -/
theorem Latch.signal_ordered (hord : t.isMax = false) : t.signal x =
    if x.toNat ≤ t.val.toNat then (t, 2)
    else if x.toNat = t.val.toNat + 1 then (Latch.advance 64 { t with val := x, held := t.held >>> 1 }, 0)
    else if x.toNat ≤ t.val.toNat + 64 then
      if bitOf t.held.toNat (x.toNat - t.val.toNat - 1) then (t, 2)
      else ({ t with held := t.held ||| BitVec.ofNat 64 (2 ^ (x.toNat - t.val.toNat - 1)) }, 1)
    else (t, 3) := by
  simp only [Latch.signal, hord, Bool.false_eq_true, if_false]

/-- A latch with one value more in its bitmap. -/
theorem Latch.hold_holds {k : Nat} (hk : k < 64) (m : Nat) :
    ({ t with held := t.held ||| BitVec.ofNat 64 (2 ^ k) } : Latch).holds m → m = t.val.toNat + 1 + k ∨ t.holds m := by
  rintro ⟨hm, hbit⟩
  rw [bitOf_toNat, BitVec.getLsbD_or, Bool.or_eq_true, ← bitOf_toNat] at hbit
  rcases hbit with hheld | hnew
  · exact .inr ⟨hm, hheld⟩
  · have hpow : 2 ^ k < 2 ^ 64 := Nat.pow_lt_pow_right (by omega) hk
    rw [BitVec.getLsbD, BitVec.toNat_ofNat, Nat.mod_eq_of_lt hpow, Nat.testBit_two_pow] at hnew
    have hbit : k = m - t.val.toNat - 1 := of_decide_eq_true hnew
    exact .inl (by dsimp only at hm; omega)

/-- A signal takes an ORDERED latch to values that are signalled or held, and to no bitmap of others (R354). -/
theorem Latch.signal_reaches (hord : t.isMax = false) (hfits : t.fits) :
    t.Reaches (fun m => m = x.toNat ∨ t.holds m) (t.signal x).1 := by
  have hstay : t.Reaches (fun m => m = x.toNat ∨ t.holds m) t :=
    ⟨(Latch.Reaches.refl t).rises, fun m hlo hhi => .inr ((Latch.Reaches.refl t).passed m hlo hhi), fun _ => .inr⟩
  rw [Latch.signal_ordered hord]
  split
  · exact hstay
  split
  case isTrue hone =>
    have hlt : t.val.toNat + 1 < 2 ^ 64 := hone ▸ x.isLt
    have hmoved : ({ t with val := x, held := t.held >>> 1 } : Latch) = t.next := by
      rw [Latch.next, show t.val + 1 = x from BitVec.eq_of_toNat_eq ((Latch.next_val hlt).trans hone.symm)]
    have hnext : t.next.fits := t.next.fits_iff.mpr fun m hm => t.fits_iff.mp hfits m ((Latch.next_holds hlt m).mp hm).1
    rw [hmoved]
    exact (Latch.Reaches.next hlt (.inl hone.symm) fun _ => .inr).trans (Latch.advance_reaches 64 hnext)
  split
  case isTrue =>
    split
    · exact hstay
    · refine ⟨Nat.le_refl _, fun m hlo hhi => absurd hhi (Nat.not_le.mpr hlo), fun m hm => ?_⟩
      exact (Latch.hold_holds (by omega) m hm).imp_left fun h => by omega
  case isFalse => exact hstay

theorem Latch.signal_range_iff (hord : t.isMax = false) : (t.signal x).2 = 3 ↔ t.val.toNat + 64 < x.toNat := by
  rw [Latch.signal_ordered hord]
  repeat' split
  all_goals
    simp only [Nat.reduceEqDiff, false_iff, true_iff]
    omega

end Signal

/-! ## A latch of a function -/

/-- The latch of a function after a signal, and the count of stale ones. -/
theorem State.signalLatch_max {s : State} {fn l : Nat} {t : Latch} {x : U64} (hrising : s.regs.rising = true)
    (hlatch : s.latch? fn l = some t) (hmax : t.isMax = true) :
    (s.signalLatch fn l x).2.latch? fn l = some (t.signal x).1 ∧ (s.signalLatch fn l x).1 = 0 ∧
      (s.signalLatch fn l x).2.fld fn 0 Reg.LTCH_STAT.STALE =
        min (2 ^ 32 - 1) (s.fld fn 0 Reg.LTCH_STAT.STALE + if x.toNat ≤ t.val.toNat then 1 else 0) := by
  have hput (u : Latch) : (s.latches.put (key2 fn l) u).find? (key2 fn l) = some u := by rw [Tab.find?_put, if_pos rfl]
  have hwidth : s.fld fn 0 Reg.LTCH_STAT.STALE < 2 ^ 32 := Nat.mod_lt _ (Nat.two_pow_pos 32)
  simp only [State.signalLatch, hlatch, Latch.signal_max hmax]
  split
  case isTrue hstale =>
    refine ⟨hput t, rfl, ?_⟩
    refine (State.fld_satAdd (f := Reg.LTCH_STAT.STALE) hrising fn 0 1 (by decide)).trans ?_
    exact Nat.min_comm _ _
  case isFalse hnew =>
    exact ⟨hput _, rfl, (Nat.min_eq_right (Nat.le_sub_one_of_lt hwidth)).symm⟩

/-- Settles O55: a MAX latch by its two cases, and an ORDERED one by the values it reaches. -/
theorem latchSignals : Obligations.LatchSignals := by
  unfold Obligations.LatchSignals
  refine ⟨fun t x hmax => ?max, fun t x hord hfits => ?ordered, fun s fn l t x hrising hlatch hmax => ?function⟩
  case max =>
    rw [Latch.signal_max hmax]
    split
    case isTrue h => simp [hmax, h]
    case isFalse h => simp [hmax, h, Nat.max_eq_right (Nat.le_of_not_le h)]
  case ordered =>
    obtain ⟨hrises, hpassed, hheld⟩ := Latch.signal_reaches (x := x) hord hfits
    refine ⟨hrises, (Latch.fits_iff _).mpr fun m hm => ?_, fun m hlo hhi => ?_, fun m hlo hbit => ?_,
      Latch.signal_range_iff hord⟩
    · rcases hheld m hm with rfl | hold
      · exact x.isLt
      · exact t.fits_iff.mp hfits m hold
    · exact (hpassed m hlo hhi).imp_right And.right
    · exact (hheld m ⟨hlo, hbit⟩).imp_right And.right
  case function =>
    obtain ⟨hafter, hstatus, hstale⟩ := State.signalLatch_max (x := x) hrising hlatch hmax
    refine ⟨?_, hstatus, hstale⟩
    rw [hafter, Latch.signal_max hmax, Option.map_some]
    split
    case isTrue h => rw [Nat.max_eq_left h]
    case isFalse h => rw [Nat.max_eq_right (Nat.le_of_not_le h)]

end Sys2Proof.Machine
end

section
/-! SUPPORT. The steps of the latency targets at an edge (R373, R374): the fields that hold them lie apart, so that each takes its
new step from its own old one; and the statement that they settle. -/

namespace Sys2Proof.Machine

open Sys2Proof

/-! ## Fields that lie apart -/

/-- Two fields of single registers share no bit. -/
def Fld.apart (f g : Fld) : Prop := g.off ≠ f.off ∨ g.lo + g.w ≤ f.lo ∨ f.lo + f.w ≤ g.lo

theorem Fld.apart.symm {f g : Fld} (h : f.apart g) : g.apart f :=
  h.imp Ne.symm Or.symm

theorem State.fld_setFld_apart {s : State} (h : s.regs.rising = true) (fn : Nat) {f g : Fld} (v : Nat) (hg : g.lo + g.w ≤ 64)
    (ha : f.apart g) : (s.setFld fn 0 f v).fld fn 0 g = s.fld fn 0 g :=
  State.fld_setFld_other h fn 0 0 f g v hg (by simpa only [Fld.apart, Nat.mul_zero, Nat.add_zero] using ha)

/-- The fields of the steps: of the cellar, tier 1 and tier 2, and of the ports. -/
def stepFields : List Fld :=
  [Reg.QOSM_STEP1.CEL, Reg.QOSM_STEP1.T1, Reg.QOSM_STEP1.T2] ++ (List.range 32).map fun p => ⟨0xC0200, 0, 2 * p, 2⟩

theorem State.targets_fields (s : State) (fn : Nat) : (s.targets fn).map (·.2.2) = stepFields := by
  simp [State.targets, stepFields]

theorem stepFields_apart : stepFields.Pairwise Fld.apart := by
  unfold stepFields Fld.apart
  decide

/-- Each step is a field of two bits, in one of two registers. -/
theorem stepFields_form : ∀ f ∈ stepFields, f.w = 2 ∧ f.lo + f.w ≤ 64 ∧ f.stride = 0 ∧ (f.off = 0xC0200 ∨ f.off = 0xC0208) := by
  decide

/-! ## The new steps -/

/-- The step that a target (place, target, field) takes from its old one (R374). -/
def newStep (mean : Nat → Nat) (x : Nat × Nat × Fld) (old : Nat) : Nat :=
  if x.2.1 = 0 then 0 else max (latencyStep (mean x.1) x.2.1) (old - 1)

theorem newStep_lt {mean : Nat → Nat} {x : Nat × Nat × Fld} {old : Nat} (h : old < 2 ^ 2) : newStep mean x old < 2 ^ 2 := by
  unfold newStep latencyStep
  split_ifs <;> omega

/-- The state with the new step of a target. -/
def State.stepTarget (fn : Nat) (mean : Nat → Nat) (s : State) (x : Nat × Nat × Fld) : State :=
  s.setFld fn 0 x.2.2 (newStep mean x (s.fld fn 0 x.2.2))

section Fold

variable {fn : Nat} {mean : Nat → Nat}

/-- The steps of targets whose fields lie apart from a field leave it. -/
theorem State.fld_stepTargets_apart {s : State} (h : s.regs.rising = true) {g : Fld} (hg : g.lo + g.w ≤ 64)
    (ts : List (Nat × Nat × Fld)) (ha : ∀ x ∈ ts, x.2.2.apart g) :
    (ts.foldl (State.stepTarget fn mean) s).fld fn 0 g = s.fld fn 0 g := by
  induction ts generalizing s with
  | nil => rfl
  | cons x ts ih =>
    have hrising : (State.stepTarget fn mean s x).regs.rising = true := State.setFld_rising _ _ _ _ h
    rw [List.foldl_cons, ih hrising fun y hy => ha y (List.mem_cons_of_mem x hy)]
    exact State.fld_setFld_apart h fn _ hg (ha x List.mem_cons_self)

/-- Each target takes its step from its own old one. -/
theorem State.fld_stepTargets {s : State} (h : s.regs.rising = true) (ts : List (Nat × Nat × Fld))
    (happart : ts.Pairwise fun x y => x.2.2.apart y.2.2) (hform : ∀ x ∈ ts, x.2.2.w = 2 ∧ x.2.2.lo + x.2.2.w ≤ 64)
    {x : Nat × Nat × Fld} (hx : x ∈ ts) :
    (ts.foldl (State.stepTarget fn mean) s).fld fn 0 x.2.2 = newStep mean x (s.fld fn 0 x.2.2) := by
  induction ts generalizing s with
  | nil => cases hx
  | cons y ts ih =>
    obtain ⟨hhead, htail⟩ := List.pairwise_cons.mp happart
    have hrising : (State.stepTarget fn mean s y).regs.rising = true := State.setFld_rising _ _ _ _ h
    rw [List.foldl_cons]
    rcases List.mem_cons.mp hx with rfl | hmem
    · obtain ⟨hw, hend⟩ := hform x List.mem_cons_self
      have hold : s.fld fn 0 x.2.2 < 2 ^ 2 := by
        have := Nat.mod_lt ((s.rd fn (x.2.2.off + x.2.2.stride * 0)).toNat / 2 ^ x.2.2.lo) (Nat.two_pow_pos x.2.2.w)
        rw [hw] at this
        rwa [State.fld, bits, hw]
      rw [State.fld_stepTargets_apart hrising hend ts fun z hz => (hhead z hz).symm, State.stepTarget,
        State.fld_setFld h _ _ _ _ hend, hw, Nat.mod_eq_of_lt (newStep_lt hold)]
    · obtain ⟨-, hend⟩ := hform x hx
      rw [ih hrising htail (fun z hz => hform z (List.mem_cons_of_mem y hz)) hmem, State.stepTarget,
        State.fld_setFld_apart h fn _ hend (hhead x hmem)]

end Fold

/-! ## The record of a miss (R376) leaves the steps -/

theorem State.rd_setFld_of_ne {o : Nat} {f : Fld} {i : Nat} (h : o ≠ f.off + f.stride * i) (s : State) (fn v : Nat) :
    (s.setFld fn i f v).rd fn o = s.rd fn o := by
  rw [State.setFld, State.rd_wr_of_ne h]

theorem State.raise_rd (s : State) (fn i o : Nat) (f : Fld) : (s.raise fn i f).rd fn o = (s.setFld fn i f 1).rd fn o := by
  rfl

theorem State.send_rd (s : State) (m : Out) (fn o : Nat) : (s.send m).rd fn o = s.rd fn o := by
  rfl

theorem State.rd_intc {o : Nat} (h : o ≠ 0x80000) (h' : o ≠ 0x82000) (s : State) (fn b : Nat) :
    (s.intc fn b).rd fn o = s.rd fn o := by
  have hraise : (s.raise fn 0 ⟨0x80000, 0, b, 1⟩).rd fn o = s.rd fn o := by
    rw [State.raise_rd, State.rd_setFld_of_ne h]
  simp only [State.intc, State.msi]
  split
  · split
    · rw [State.send_rd, hraise]
    · rw [State.rd_setFld_of_ne h', hraise]
  · exact hraise

theorem State.closedBeat_rd (s : State) (fn o : Nat) : s.closedBeat.2.rd fn o = s.rd fn o := by
  unfold State.closedBeat
  split <;> rfl

/-- Whatever miss is recorded, a register of the steps reads as the targets left it. -/
theorem State.qosStep_rd {s : State} {q : Nat} {mean : Nat → Nat} {o : Nat} (ho : o = 0xC0200 ∨ o = 0xC0208) :
    (s.qosStep q mean).rd (vf q) o = ((s.targets (vf q)).foldl (State.stepTarget (vf q) mean) s).rd (vf q) o := by
  have hfold : (fun (s : State) (x : Nat × Nat × Fld) => if x.2.1 = 0 then s.setFld (vf q) 0 x.2.2 0
      else s.setFld (vf q) 0 x.2.2 (max (latencyStep (mean x.1) x.2.1) (s.fld (vf q) 0 x.2.2 - 1))) =
      State.stepTarget (vf q) mean := by
    funext s x
    rw [State.stepTarget, newStep, apply_ite (s.setFld (vf q) 0 x.2.2)]
  simp only [State.qosStep, hfold]
  split
  · rfl
  · rw [State.rd_intc (by omega) (by omega), State.satAdd, State.rd_setFld_of_ne, State.rd_setFld_of_ne, State.rd_wr_of_ne,
      State.closedBeat_rd]
    · omega
    · simp only [Reg.QOSM_MISS1.BEAT]; omega
    · simp only [Reg.QOSM_MISS1.MISS_BEATS]; omega

/-- Settles O56: the fields of the steps lie apart, and the record of a miss lies in other registers. -/
theorem latencySteps : Obligations.LatencySteps := by
  unfold Obligations.LatencySteps
  intro s q target mean place f hrising hmem
  have hfields := s.targets_fields (vf q)
  have hform : ∀ x ∈ s.targets (vf q), x.2.2 ∈ stepFields := fun x hx => hfields ▸ List.mem_map_of_mem hx
  obtain ⟨-, -, hstride, hoff⟩ := stepFields_form f (hform _ hmem)
  have hrd : (s.qosStep q mean).fld (vf q) 0 f = ((s.targets (vf q)).foldl (State.stepTarget (vf q) mean) s).fld (vf q) 0 f := by
    rw [State.fld, State.fld, State.qosStep_rd (by omega)]
  have hwidths : ∀ x ∈ s.targets (vf q), x.2.2.w = 2 ∧ x.2.2.lo + x.2.2.w ≤ 64 := fun x hx =>
    let ⟨hw, hend, _⟩ := stepFields_form x.2.2 (hform x hx)
    ⟨hw, hend⟩
  have hstep := State.fld_stepTargets (fn := vf q) (mean := mean) hrising _
    (List.pairwise_map.mp (hfields ▸ stepFields_apart)) hwidths hmem
  rw [hrd, hstep, newStep, latencyStep]

end Sys2Proof.Machine
end

section
/-! SUPPORT. Context switches out and in (R366 to R370): one equation per case of a launch that the event names; and the statement
that they settle. -/

namespace Sys2Proof.Machine

open Sys2Proof

section Switch

variable {s : State} {id : Nat} {l : Launch} (hl : s.launch? id = some l)
include hl

/-- R367: a launch that is due to leave begins its switch. -/
theorem exec_contextSwitchStart_due (hdue : s.switchDue l = true) :
    exec (.contextSwitchStart id) s = .next (s.beginSwitch l) := by
  refine congrArg Host.Outcome.next ?_
  rw [hl]
  exact if_pos hdue

/-- R368: the drain ends at the first edge that finds no move of the share outstanding. -/
theorem exec_switchDrainEnd_drained (hphase : l.phase = 2) (hedge : l.phaseEdge < s.tick)
    (hmoves : ∀ n ∈ s.heldBy l, (s.core n).cur.moves = []) :
    exec (.switchDrainEnd id) s = .next (s.updLaunch l.id fun x => { x with phase := 3, phaseEdge := s.tick }) := by
  refine congrArg Host.Outcome.next ?_
  rw [hl]
  exact if_pos ⟨hphase, hedge, by simpa using hmoves⟩

/-- R368, R369: the images are written, the cores are free, and the share's state is held. -/
theorem exec_switchSaveComplete_saves {s1 s2 : State} (hphase : l.phase = 3) (hedge : l.phaseEdge < s.tick)
    (hs1 : s1 = (l.slots.take (s.heldBy l).length).foldl (fun s i => s.writeImage l.fn i) s)
    (hs2 : s2 = (s.heldBy l).foldl (fun s n => s.freeCore n) s1) :
    exec (.switchSaveComplete id) s = .next (s2.updLaunch l.id fun x =>
      { x with phase := 4, phaseEdge := s2.tick, saved := (s.heldBy l).map fun n => (n, (s.core n).image) }) := by
  subst hs1 hs2
  refine congrArg Host.Outcome.next ?_
  rw [hl]
  exact if_neg (by omega)

/-- R368: a restored share takes its cores and resumes. -/
theorem exec_switchInComplete_resumes {s1 : State} (hphase : l.phase = 5) (hedge : l.phaseEdge < s.tick)
    (hgood : (l.slots.take l.saved.length).any (s.imageBad l.fn) = false)
    (hs1 : s1 = l.saved.foldl (fun t x => t.setCore x.1 { x.2 with
      launch := some l.id, running := true, blockBeat := s.tick, late := false, lateRun := 0
      cur := { x.2.cur with hold := .free } }) s) :
    exec (.switchInComplete id) s = .next (s1.updLaunch l.id fun x =>
      { x with phase := 1, since := s1.now, heldFrom := s1.tick, saved := [], slots := [] }) := by
  subst hs1
  refine congrArg Host.Outcome.next ?_
  rw [hl]
  dsimp only
  rw [State.switchedIn, if_pos hphase, if_pos hedge, State.restore, hgood, if_neg Bool.false_ne_true]

/-- R79, R81: the cores of a new launch that is loaded start. -/
theorem exec_switchInComplete_starts (hphase : l.phase ≤ 1) :
    exec (.switchInComplete id) s = .next (l.cores.foldl (fun t n => match t.startDue n with
      | some (x, _) => if x.id = l.id then t.launchCore n else t
      | none => t) s) := by
  refine congrArg Host.Outcome.next ?_
  rw [hl]
  dsimp only
  rw [State.switchedIn, if_neg (by omega), if_pos hphase] <;> rfl

end Switch

/-- Settles O35: each clause is the equation of its case. -/
theorem contextSwitches : Obligations.ContextSwitches := by
  unfold Obligations.ContextSwitches
  refine fun s id l hl => ⟨fun s1 hdue hs1 => ?starts, exec_switchDrainEnd_drained hl,
    fun s1 s2 hphase hedge hs1 hs2 => exec_switchSaveComplete_saves hl hphase hedge hs1 hs2,
    fun hphase hedge hgood s1 hs1 => exec_switchInComplete_resumes hl hphase hedge hgood hs1, exec_switchInComplete_starts hl⟩
  rw [exec_contextSwitchStart_due hl hdue, State.beginSwitch, hs1]

end Sys2Proof.Machine
end

section
/-! SUPPORT. Which requests of a management session are taken, and when their responses leave (R475, R476, R487, R488); and the
statement that they settle. -/

namespace Sys2Proof.Machine

open Sys2Proof

/-! ## Sessions -/

/-- A session that is changed in place, under its own number, is found changed. -/
theorem State.session_updSession (s : State) (i : Nat) {f : Session → Session} (hid : ∀ k, (f k).id = k.id) :
    (s.updSession i f).session? i = (s.session? i).map f := by
  simp only [State.session?, State.updSession, List.find?_map]
  have hkey : (fun k : Session => k.id == i) ∘ (fun k => if k.id == i then f k else k) = fun k => k.id == i := by
    funext k
    simp only [Function.comp_apply]
    split
    · rw [hid]
    · rfl
  rw [hkey]
  cases hfind : s.kmc.sessions.find? (fun k => k.id == i) with
  | none => rfl
  | some k =>
    have hk := List.find?_some hfind
    rw [Option.map_some, Option.map_some, if_pos hk]

section Request

variable {s : State} {sess typ req : Nat} {op : State → Nat × List Byte × State}

theorem State.kmcRequest_unknown (h : s.session? sess = none) : s.kmcRequest sess typ req op = s := by
  simp only [State.kmcRequest, h]

variable {k : Session} (h : s.session? sess = some k)
include h

theorem State.kmcRequest_busy (hfull : 64 ≤ k.reqs.length) :
    s.kmcRequest sess typ req op = s.enterReq sess typ req (some (0x22, [])) := by
  simp only [State.kmcRequest, h, hfull, if_true]

theorem State.kmcRequest_unserved (hroom : k.reqs.length < 64) (hno : s.serves typ = false) :
    s.kmcRequest sess typ req op = s.enterReq sess typ req (some (0x11, [])) := by
  simp only [State.kmcRequest, h, hroom.not_ge, hno, if_true, if_false]

/-! ## Responses in the order of their requests (R487) -/

/-- The session with the request last among its outstanding ones. -/
theorem State.enterReq_session (resp : Option (Nat × List Byte)) :
    (s.updSession sess fun k => { k with reqs := k.reqs ++ [{ req := req, typ := typ, resp := resp }] }).session? sess =
      some { k with reqs := k.reqs ++ [{ req := req, typ := typ, resp := resp }] } := by
  rw [State.session_updSession, h, Option.map_some]
  exact fun _ => rfl

/-- With no request before it, a response leaves at once. -/
theorem State.enterReq_out_alone (hnone : k.reqs = []) (st : Nat) (b : List Byte) :
    (s.enterReq sess typ req (some (st, b))).out = s.out ++ [.kmc sess typ req st false b] := by
  simp only [State.enterReq, State.flushSession, State.enterReq_session h, hnone, List.nil_append, List.takeWhile,
    Option.isSome_some, List.foldl_cons, List.foldl_nil, State.send_out]
  rfl

variable {r : KReq} {rs : List KReq} (hreqs : k.reqs = r :: rs) (hwaits : r.resp = none) (st : Nat) (b : List Byte)
include hreqs hwaits

/-- Behind a request that has no response yet, nothing leaves. -/
theorem State.enterReq_behind : s.enterReq sess typ req (some (st, b)) =
    (s.updSession sess fun k => { k with reqs := k.reqs ++ [{ req := req, typ := typ, resp := some (st, b) }] }).updSession sess
      fun k => { k with reqs := k.reqs.dropWhile (·.resp.isSome) } := by
  simp only [State.enterReq, State.flushSession, State.enterReq_session h, hreqs, List.cons_append, List.takeWhile, hwaits,
    Option.isSome_none, List.foldl_nil]

theorem State.enterReq_session_behind : (s.enterReq sess typ req (some (st, b))).session? sess =
    some { k with reqs := k.reqs ++ [{ req := req, typ := typ, resp := some (st, b) }] } := by
  rw [State.enterReq_behind h hreqs hwaits, State.session_updSession, State.enterReq_session h, Option.map_some]
  · simp only [hreqs, List.cons_append, List.dropWhile, hwaits, Option.isSome_none]
  · exact fun _ => rfl

end Request

/-! ## The statement -/

/-- Settles O42: each request is the session's request of its type, and each clause is one case of it. -/
theorem sessionRequests : Obligations.SessionRequests := by
  unfold Obligations.SessionRequests
  refine ⟨fun s sess req x y z w body nonce digest a em km pairs entries data det p hp => ?taken,
    fun s sess typ req st b k h => ⟨fun hnone => State.enterReq_out_alone h hnone st b, fun r rs hreqs hwaits => ⟨?_, ?_⟩⟩⟩
  case taken =>
    have hreq : ∃ op, exec p.2 s = .next (s.kmcRequest sess p.1 req op) := by
      simp only [List.mem_cons, List.not_mem_nil, or_false] at hp
      rcases hp with rfl | rfl | rfl | rfl | rfl | rfl | rfl | rfl | rfl | rfl | rfl | rfl | rfl | rfl | rfl | rfl | rfl |
        rfl | rfl | rfl | rfl | rfl | rfl | rfl | rfl <;> exact ⟨_, rfl⟩
    obtain ⟨op, hexec⟩ := hreq
    rw [hexec]
    refine ⟨fun hnone => by rw [State.kmcRequest_unknown hnone], fun k h => ⟨fun hfull => ?_, fun hroom hno => ?_⟩⟩
    · rw [State.kmcRequest_busy h hfull]
    · rw [State.kmcRequest_unserved h hroom hno]
  · rw [State.enterReq_behind h hreqs hwaits]
    rfl
  · exact State.enterReq_session_behind h hreqs hwaits st b

end Sys2Proof.Machine
end

section
/-! SUPPORT. Management sessions and the queries that they make (R394, R426, R440, R467, R484, R489, R491, R492, R494): one equation
per case; and the statement that they settle. -/

namespace Sys2Proof.Machine

open Sys2Proof

section Sessions

variable {s t : State} {sess req x y z : Nat}

/-! ## A session opens and closes (R484, R491, R494) -/

/-- A new session is sent the notifications that were kept (R494). -/
theorem exec_kmcSessionOpen_opens (hup : s.kmcUp = true) (hroom : s.kmc.sessions.length < 4) (hnew : s.session? sess = none)
    (ht : t = { s with kmc := { s.kmc with
      sessions := s.kmc.sessions ++ [{ id := sess, reqs := [], period := 0, mask := 0, upTo := s.now }], kept := [] } }) :
    exec (.kmcSessionOpen sess true) s = .next (s.kmc.kept.foldl (fun t b => t.send (.kmc sess 0x0011 0 0 true b)) t) := by
  subst ht
  exact congrArg Host.Outcome.next (if_pos (by simp [hup, hroom, hnew]))

theorem exec_kmcSessionOpen_refused (hno : s.kmcUp = false ∨ 4 ≤ s.kmc.sessions.length ∨ s.session? sess ≠ none) (ok : Bool) :
    exec (.kmcSessionOpen sess ok) s = .next s := by
  refine congrArg Host.Outcome.next (if_neg ?_)
  simp only [Bool.and_eq_true, decide_eq_true_eq, Option.isNone_iff_eq_none]
  rintro ⟨⟨⟨hup, -⟩, hroom⟩, hnew⟩
  rcases hno with hdown | hfull | hopen
  · exact Bool.false_ne_true (hdown.symm.trans hup)
  · exact hroom.not_ge hfull
  · exact hopen hnew

theorem exec_kmcSessionOpen_unproved : exec (.kmcSessionOpen sess false) s = .next s :=
  congrArg Host.Outcome.next (if_neg (by simp))

/-- A session that closes takes its open image with it, and a lifecycle change that waited begins (R491). -/
theorem exec_kmcSessionClose_open (hopen : s.session? sess ≠ none) (ht : t = { s with kmc := { s.kmc with
      sessions := s.kmc.sessions.filter (·.id != sess)
      fw := if (s.kmc.fw.map (·.sess)) == some sess then none else s.kmc.fw } }) :
    exec (.kmcSessionClose sess) s = .next t.startLife := by
  subst ht
  obtain ⟨k, hk⟩ := Option.ne_none_iff_exists'.mp hopen
  refine congrArg Host.Outcome.next ?_
  rw [hk]

/-! ## Information and reports (R394, R489) -/

theorem exec_getInfo_asked (h : asked s sess 0x01) : exec (.getInfo sess req) s = .next (s.enterReq sess 0x01 req
    (some (0, s.regBytes [0x0, 0x10, 0x18, 0x1030000, Reg.DCTL_BOOT_STAT.BANK.off]))) :=
  congrArg Host.Outcome.next (State.kmcRequest_asked h rfl)

theorem exec_report_asked {nonce : BitVec 384} {r : List Byte} (h : asked s sess 0x02)
    (hr : s.report 1 none (leBytes 48 nonce.toNat) = (r, t)) :
    exec (.report sess req nonce) s = .next (t.enterReq sess 0x02 req (some (0, r))) := by
  refine congrArg Host.Outcome.next (State.kmcRequest_asked h ?_)
  rw [hr]

/-! ## Dumps (R440, R489) -/

theorem exec_dumpList_asked (h : asked s sess 0x50) :
    exec (.dumpList sess req) s = .next (s.enterReq sess 0x50 req (some (0, s.regBytes [0x1007018]))) :=
  congrArg Host.Outcome.next (State.kmcRequest_asked h rfl)

section DumpRead

variable (h : asked s sess 0x51)
include h

theorem exec_dumpRead_malformed (hbad : 3 < x ∨ 65536 < z) :
    exec (.dumpRead sess req x y z) s = .next (s.enterReq sess 0x51 req (some (0x20, []))) :=
  congrArg Host.Outcome.next (State.kmcRequest_asked h (if_pos hbad))

variable (hx : x ≤ 3) (hz : z ≤ 65536)
include hx hz

theorem exec_dumpRead_busy (hbusy : s.sec.busy = true) :
    exec (.dumpRead sess req x y z) s = .next (s.enterReq sess 0x51 req (some (0x22, []))) := by
  refine congrArg Host.Outcome.next (State.kmcRequest_asked h ?_)
  rw [if_neg (by omega), if_pos hbusy]

variable (hfree : s.sec.busy = false)
include hfree

theorem exec_dumpRead_empty (hnone : s.dump.slots.find? x = none) :
    exec (.dumpRead sess req x y z) s = .next (s.enterReq sess 0x51 req (some (0x11, []))) := by
  refine congrArg Host.Outcome.next (State.kmcRequest_asked h ?_)
  rw [if_neg (by omega), if_neg (by simp [hfree]), hnone]

variable {d : Dump} (hd : s.dump.slots.find? x = some d)
include hd

theorem exec_dumpRead_opened {b : List Byte} (hb : d.opened (s.keyOf 4) = some b) :
    exec (.dumpRead sess req x y z) s = .next (s.enterReq sess 0x51 req (some (0, (b.drop y).take z))) := by
  refine congrArg Host.Outcome.next (State.kmcRequest_asked h ?_)
  rw [if_neg (by omega), if_neg (by simp [hfree]), hd]
  dsimp only
  rw [hb]

/-- A slot that does not open holds no dump to read (log 52). -/
theorem exec_dumpRead_closed (hb : d.opened (s.keyOf 4) = none) :
    exec (.dumpRead sess req x y z) s = .next (s.enterReq sess 0x51 req (some (0x11, []))) := by
  refine congrArg Host.Outcome.next (State.kmcRequest_asked h ?_)
  rw [if_neg (by omega), if_neg (by simp [hfree]), hd]
  dsimp only
  rw [hb]

end DumpRead

theorem exec_dumpAck_asked (h : asked s sess 0x52) (hx : x ≤ 3) : exec (.dumpAck sess req x) s =
    .next ((s.setFld 0 0 ⟨0x1007018, 0, 28 + x, 1⟩ 0).enterReq sess 0x52 req (some (0, []))) :=
  congrArg Host.Outcome.next (State.kmcRequest_asked h (if_neg (by omega)))

/-! ## The log, telemetry and tests (R426, R467, R492) -/

theorem exec_logRead_asked (h : asked s sess 0x53) (hy : y ≤ 1024) : exec (.logRead sess req x y) s =
    .next (s.enterReq sess 0x53 req (some (0, (((s.log.stored.flatMap (LogBlock.records (s.keyOf 4))).filter fun b =>
      decide ((leNat (b.take 4) + 2 ^ 32 - x % 2 ^ 32) % 2 ^ 32 < 2 ^ 31)).take y).flatten))) := by
  refine congrArg Host.Outcome.next (State.kmcRequest_asked h ?_)
  dsimp only
  rw [if_neg (by omega), List.flatMap_id]

theorem exec_logRead_malformed (h : asked s sess 0x53) (hy : 1024 < y) :
    exec (.logRead sess req x y) s = .next (s.enterReq sess 0x53 req (some (0x20, []))) :=
  congrArg Host.Outcome.next (State.kmcRequest_asked h (if_pos hy))

theorem exec_teleSub_asked (h : asked s sess 0x60) (hx : x < 65536) (hy : y < 64) : exec (.teleSub sess req x y) s =
    .next ((s.updSession sess fun k => { k with period := x, mask := y, upTo := s.now }).enterReq sess 0x60 req
      (some (0, []))) :=
  congrArg Host.Outcome.next (State.kmcRequest_asked h (if_neg (by omega)))

section Telemetry

variable {k : Session} (hk : s.session? sess = some k) (ht : t = s.updSession sess fun k => { k with upTo := max k.upTo s.now })
include hk ht

/-- One message stands for all multiples of the period that a jump skipped (log 126). -/
theorem exec_telemetry_due (hperiod : k.period ≠ 0) (hdue : k.upTo / k.period < s.now / k.period) :
    exec (.telemetry sess) s = .next (t.send (.kmc sess 0x0061 0 0 true
      (leBytes 6 s.now ++ leBytes 2 k.mask ++ (setBits k.mask 6).flatMap fun g => s.regBytes (teleGroup g)))) := by
  subst ht
  refine congrArg Host.Outcome.next ?_
  simp only [State.telemetry, hk, hperiod, hdue.not_ge, or_self, if_false]

theorem exec_telemetry_not_due (hno : k.period = 0 ∨ s.now / k.period ≤ k.upTo / k.period) :
    exec (.telemetry sess) s = .next t := by
  subst ht
  refine congrArg Host.Outcome.next ?_
  simp only [State.telemetry, hk, hno, if_true]

end Telemetry

section TestReq

variable (h : asked s sess 0x71)
include h

theorem exec_testReq_runs (hengine : s.fld 0 0 Reg.DCTL_LIFE.TEST_ENGINE = 1)
    (hbare : ∀ q < 32, s.fld 0 q Reg.DCTL_COMP_PART0.STATE ≠ 1) : exec (.testReq sess req x) s =
    .next (({ s with free := s.free + 1 } : State).enterReq sess 0x71 req (some (0, Config.document (1000 + x) s.free))) :=
  congrArg Host.Outcome.next (State.kmcRequest_asked h (if_pos ⟨hengine, by simpa using hbare⟩))

theorem exec_testReq_refused
    (hno : s.fld 0 0 Reg.DCTL_LIFE.TEST_ENGINE ≠ 1 ∨ ∃ q < 32, s.fld 0 q Reg.DCTL_COMP_PART0.STATE = 1) :
    exec (.testReq sess req x) s = .next (s.enterReq sess 0x71 req (some (0x11, []))) := by
  refine congrArg Host.Outcome.next (State.kmcRequest_asked h (if_neg ?_))
  rintro ⟨hengine, hbare⟩
  rcases hno with hother | ⟨q, hq, hactive⟩
  · exact hother hengine
  · simp only [List.all_eq_true, List.mem_range, bne_iff_ne] at hbare
    exact hbare q hq hactive

end TestReq

end Sessions

/-! ## The statement -/

/-- Settles O43: each clause is the equation of its case. -/
theorem sessionQueries : Obligations.SessionQueries := by
  unfold Obligations.SessionQueries
  refine fun s t sess req x y z => ⟨exec_kmcSessionOpen_opens, exec_kmcSessionOpen_refused, exec_kmcSessionOpen_unproved,
    exec_kmcSessionClose_open, exec_getInfo_asked, fun nonce r => exec_report_asked, exec_dumpList_asked,
    fun h d hd => ⟨fun b hx hz hfree hb => exec_dumpRead_opened h hx hz hfree hd hb,
      fun hx hz hfree hb => exec_dumpRead_closed h hx hz hfree hd hb, exec_dumpRead_busy h, exec_dumpRead_malformed h⟩,
    exec_dumpRead_empty, exec_dumpAck_asked, exec_logRead_asked, exec_logRead_malformed, exec_teleSub_asked,
    fun k hk ht => ⟨exec_telemetry_due hk ht, exec_telemetry_not_due hk ht⟩, exec_testReq_runs, exec_testReq_refused⟩

end Sys2Proof.Machine
end

section
/-! SUPPORT. Lifecycle and parish requests, a parish's start and a partition's report (R381, R382, R394 to R398): one equation per
case; and the statement that they settle. -/

namespace Sys2Proof.Machine

open Sys2Proof

section Requests

variable {s t : State} {sess req : Nat}

/-! ## Lifecycle requests (R381, R382) -/

theorem exec_lifeChallenge_asked (h : asked s sess 0x20)
    (ht : t = { s with free := s.free + 1, sec := { s.sec with challenge := some (Config.entropy s.free) } }) :
    exec (.lifeChallenge sess req) s =
      .next (t.enterReq sess 0x20 req (some (0, leBytes 32 (Config.entropy s.free).toNat))) := by
  subst ht
  exact congrArg Host.Outcome.next (State.kmcRequest_asked h rfl)

section LifeAuth

variable {a : LifeAuth} {k : Session} (h : s.session? sess = some k)
include h

theorem exec_lifeAuth_busy (hbusy : 64 ≤ k.reqs.length ∨ s.sec.life ≠ none) :
    exec (.lifeAuth sess req a) s = .next (s.enterReq sess 0x21 req (some (0x22, []))) := by
  refine congrArg Host.Outcome.next ?_
  rw [h]
  exact if_pos (by simpa only [← Option.isSome_iff_ne_none] using hbusy)

variable (hroom : k.reqs.length < 64) (hlife : s.sec.life = none)
  (ht : t = if s.sec.challenge = some a.challenge then { s with sec := { s.sec with challenge := none } } else s) {ok : Bool}
  (hok : ok = (s.authOk a && lifePermitted a.present a.target a.signer (s.fld 0 0 Reg.DCTL_LIFE.OWNER == 1)))
include hroom hlife ht hok

/-- An authorisation uses its challenge up, and its own response waits for the transition. -/
theorem exec_lifeAuth_decided : exec (.lifeAuth sess req a) s = .next (if ok then
      ({ t.enterReq sess 0x21 req none with
        sec := { (t.enterReq sess 0x21 req none).sec with life := some (sess, req, a) } } : State).startLife
    else t.enterReq sess 0x21 req (some (0x21, []))) := by
  subst ht hok
  refine congrArg Host.Outcome.next ?_
  rw [h]
  exact if_neg (by simp [hroom, hlife])

theorem exec_lifeAuth_denied (hno : ok = false) :
    exec (.lifeAuth sess req a) s = .next (t.enterReq sess 0x21 req (some (0x21, []))) := by
  rw [exec_lifeAuth_decided h hroom hlife ht hok, if_neg (by simp [hno])]

theorem exec_lifeAuth_accepted (hyes : ok = true) {t1 : State} (ht1 : t1 = t.enterReq sess 0x21 req none) :
    exec (.lifeAuth sess req a) s =
      .next ({ t1 with sec := { t1.sec with life := some (sess, req, a) } } : State).startLife := by
  rw [exec_lifeAuth_decided h hroom hlife ht hok, if_pos hyes, ht1]

end LifeAuth

/-! ## Enrolment (R396) -/

section Enrol

variable {m : EnrolMsg} (h : asked s sess 0x30) (hfree : s.sec.busy = false)
include h hfree

theorem exec_parishEnrol_unsupported
    (hport : ∃ p ∈ setBits m.ports.toNat 32, bitOf (s.fld 0 0 Reg.IDC_CAP0.PORT_MASK) p = false) :
    exec (.parishEnrol sess req m) s = .next (s.enterReq sess 0x30 req (some (0x1F, []))) := by
  refine congrArg Host.Outcome.next (State.kmcRequest_asked h ?_)
  rw [if_neg (by simp [hfree]), if_pos (by simpa using hport)]

variable {s1 s2 s3 : State} {r pub kem : List Byte} {e : Enrol} (hlife : s.fld 0 0 Reg.DCTL_LIFE.STATE = 3)
  (hnone : s.fld 0 0 Reg.DCTL_PARISH2.STATE = 0) (hs1 : s1 = { s with free := s.free + 1283 })
  (hs2 : s2 = (s1.loadKey 40 (keyAttr 2 true true 5) (leBytes 32 (Config.entropy s.free).toNat)).loadKey 41
    (keyAttr 2 true true 6) (leBytes 32 (Config.entropy (s.free + 1)).toNat))
  (hpub : pub = freeBytes (s.free + 2) 97) (hkem : kem = freeBytes (s.free + 99) 1184)
  (hports : ∀ p ∈ setBits m.ports.toNat 32, bitOf (s.fld 0 0 Reg.IDC_CAP0.PORT_MASK) p = true)
  (hr : s2.report 1 none (shaBytes (leBytes 16 m.parish.toNat ++ leBytes 48 m.nonce.toNat ++ pub ++ kem)) = (r, s3))
  (he : e = { parish := leBytes 16 m.parish.toNat, parts := m.parts.toNat, ports := m.ports.toNat, start := m.start
              report := r, keyed := false })
include hlife hnone hs1 hs2 hpub hkem hports hr he

theorem exec_parishEnrol_opens : exec (.parishEnrol sess req m) s = .next
    ((({ s3 with sec := { s3.sec with enrol := some e } } : State).setFld 0 0 Reg.DCTL_PARISH2.STATE 1).enterReq sess 0x30
      req (some (0, r ++ pub ++ kem))) := by
  subst hs1 hs2 hpub hkem he
  refine congrArg Host.Outcome.next (State.kmcRequest_asked h ?_)
  rw [if_neg (by simp [hfree]), if_neg (by simpa using hports), if_neg (by simp [hlife, hnone])]
  dsimp only
  rw [hr]

end Enrol

section Keys

variable {m : KeysMsg} {e : Enrol} (h : asked s sess 0x31) (hecdh : m.ecdh.length = 97) (hct : m.ct.length = 1088)
  (hiv : m.iv.length = 12) (hwrapped : m.wrapped.length = 64) (he : s.sec.enrol = some e) (hnew : e.keyed = false)
include h hecdh hct hiv hwrapped he hnew

/-- Keys that come at the start edge or after it end the enrolment. -/
theorem exec_parishKeys_late (hlate : e.start ≤ s.now) :
    exec (.parishKeys sess req m) s = .next (s.dropEnrol.enterReq sess 0x31 req (some (0x11, []))) := by
  refine congrArg Host.Outcome.next (State.kmcRequest_asked h ?_)
  rw [if_neg (by omega), he]
  dsimp only
  rw [if_neg (by simp [hnew]), if_pos hlate]

variable {kek : List Byte} (hearly : s.now < e.start)
  (hkek : kek = kdf (Config.agree (s.keyOf 40) m.ecdh ++ Config.agree (s.keyOf 41) m.ct) "YX-KEK"
    (shaBytes (e.report ++ m.ecdh ++ m.ct)) 32) (ht : t = s.loadKey 43 (keyAttr 8 true true 1) kek)
include hearly hkek ht

theorem exec_parishKeys_unopened
    (ho : Config.gcmOpen kek m.iv (e.parish ++ leBytes 2 (t.fld 0 0 Reg.DCTL_NODE.NODE)) m.wrapped = none) :
    exec (.parishKeys sess req m) s = .next (t.dropEnrol.enterReq sess 0x31 req (some (0x11, []))) := by
  subst ht hkek
  refine congrArg Host.Outcome.next (State.kmcRequest_asked h ?_)
  rw [if_neg (by omega), he]
  dsimp only
  rw [if_neg (by simp [hnew]), if_neg hearly.not_ge, ho]

theorem exec_parishKeys_opened {pms : List Byte}
    (ho : Config.gcmOpen kek m.iv (e.parish ++ leBytes 2 (t.fld 0 0 Reg.DCTL_NODE.NODE)) m.wrapped = some pms) :
    exec (.parishKeys sess req m) s = .next ((t.installKeys e pms).enterReq sess 0x31 req (some (0, []))) := by
  subst ht hkek
  refine congrArg Host.Outcome.next (State.kmcRequest_asked h ?_)
  rw [if_neg (by omega), he]
  dsimp only
  rw [if_neg (by simp [hnew]), if_neg hearly.not_ge, ho]

end Keys

/-! ## Joining and leaving a parish (R397, R398) -/

theorem exec_parishAdd_asked {q edge : Nat} (h : asked s sess 0x32) (hq : q < 32) (hfree : s.sec.busy = false)
    (hrunning : s.fld 0 0 Reg.DCTL_PARISH2.STATE = 2) (hactive : s.fld 0 q Reg.DCTL_COMP_PART0.STATE = 1)
    (hout : bitOf (s.fld 0 0 Reg.DCTL_PARISH2.PARTS) q = false) (hvalid : s.fld 0 (8 + q) Reg.DCTL_KEY_ATTR.VALID ≠ 1)
    (ht : t = s.loadKey (8 + q) (hostAttr q) (kdf (s.keyOf 42) "YX-HOST"
      (s.parishId ++ beBytes 2 (s.fld 0 0 Reg.DCTL_NODE.NODE) ++ beBytes 1 q) 48)) :
    exec (.parishAdd sess req q edge) s = .next
      (({ t with sec := { t.sec with adds := t.sec.adds ++ [(q, edge)] } } : State).enterReq sess 0x32 req (some (0, []))) := by
  subst ht
  refine congrArg Host.Outcome.next (State.kmcRequest_asked h ?_)
  rw [if_neg (by omega), if_neg (by simp [hfree]), if_neg (by simp [hrunning, hactive, hout, hvalid])]

theorem exec_parishLeave_asked (h : asked s sess 0x33) :
    exec (.parishLeave sess req) s = .next (if s.fld 0 0 Reg.DCTL_PARISH2.STATE = 2
      then s.endParish.enterReq sess 0x33 req (some (0, [])) else s.enterReq sess 0x33 req (some (0x11, []))) := by
  refine congrArg Host.Outcome.next ?_
  split
  case isTrue hrunning => exact State.kmcRequest_asked h (if_pos hrunning)
  case isFalse hnone => exact State.kmcRequest_asked h (if_neg hnone)

end Requests

/-! ## A parish's start (R396, R397) -/

section Start

variable {s t u : State} {e : Enrol}

/-- The joins that are due at an edge. -/
def State.joinDue (s : State) : State :=
  (s.sec.adds.filter fun x => decide (x.2 ≤ s.now)).foldl (fun s x => s.enterParish x.1)
    { s with sec := { s.sec with adds := s.sec.adds.filter fun x => !decide (x.2 ≤ s.now) } }

theorem State.joinDue_of_no_adds (h : s.sec.adds = []) : s.joinDue = { s with sec := { s.sec with adds := [] } } := by
  rw [State.joinDue, h, List.filter_nil, List.filter_nil, List.foldl_nil]

theorem State.parishStart_unenrolled (h : s.sec.enrol = none) : s.parishStart = s.joinDue := by
  rw [State.parishStart, h]
  rfl

variable (h : s.sec.enrol = some e) (hdue : e.start ≤ s.now)
include h hdue

theorem State.parishStart_unkeyed (hkeyed : e.keyed = false) : s.parishStart = s.dropEnrol.joinDue := by
  simp only [State.parishStart, h, hdue.not_gt, hkeyed, Bool.not_false, if_true, if_false]
  rfl

theorem State.parishStart_keyed (hkeyed : e.keyed = true)
    (ht : t = ((({ s with sec := { s.sec with enrol := none } } : State).wr 0 0x1030400
      (BitVec.ofNat 64 (leField e.parish 0 8))).wr 0 0x1030408 (BitVec.ofNat 64 (leField e.parish 8 8))).setFld 0 0
        Reg.DCTL_PARISH2.STATE 2)
    (hu : u = (setBits e.ports 32).foldl State.sealPort ((setBits e.parts 32).foldl State.enterParish t)) :
    s.parishStart = u.joinDue := by
  subst hu ht
  simp only [State.parishStart, h, hdue.not_gt, hkeyed, Bool.not_true, Bool.false_eq_true, if_false]
  rfl

end Start

/-! ## A partition's report (R394, R395) -/

section Attest

variable {s t u : State} {fn : Nat}

theorem exec_attestGo {v : U64} (ht : t = if v.getLsbD 1 then
      (s.setFld fn 0 Reg.DSTP_ATTEST.BUF (v.extractLsb' 15 37).toNat).setFld fn 0 Reg.DSTP_ATTEST.DONE 0
      else s.setFld fn 0 Reg.DSTP_ATTEST.BUF (v.extractLsb' 15 37).toNat) :
    exec (.attestGo fn v) s = .next (if v.getLsbD 0 = true ∧ fn ≠ 0 ∧ t.fld fn 0 Reg.DSTP_ATTEST.GO = 0 then
      { t.setFld fn 0 Reg.DSTP_ATTEST.GO 1 with sec := { t.sec with asked := t.sec.asked ++ [fn] } } else t) := by
  subst ht
  refine congrArg Host.Outcome.next ?_
  rw [State.writeAttest, bits_toNat, bitOf_toNat, bitOf_toNat]
  rfl

theorem exec_attestReportDone_first {nonce : BitVec 384} {r : List Byte} (hfirst : s.sec.asked.head? = some fn)
    (hr : s.report 2 (some (fn - 1)) (leBytes 48 nonce.toNat) = (r, t))
    (hu : u = t.send (.host (t.fld fn 0 Reg.DSTP_ATTEST.BUF * 32768) r)) :
    exec (.attestReportDone fn nonce) s = .next
      ((({ u with sec := { u.sec with asked := u.sec.asked.tail } } : State).setFld fn 0 Reg.DSTP_ATTEST.GO 0).raise fn 0
        Reg.DSTP_ATTEST.DONE) := by
  subst hu
  refine congrArg Host.Outcome.next ?_
  rw [if_pos hfirst, hr]

end Attest

/-! ## The statement -/

/-- Settles O45: each clause is the equation of its case. -/
theorem lifecycleAndParish : Obligations.LifecycleAndParish := by
  unfold Obligations.LifecycleAndParish
  refine ⟨fun s t sess req => ⟨exec_lifeChallenge_asked, fun a k h => ⟨exec_lifeAuth_busy h, fun hroom hlife ht ok hok =>
        ⟨exec_lifeAuth_denied h hroom hlife ht hok, fun hyes t1 => exec_lifeAuth_accepted h hroom hlife ht hok hyes⟩⟩,
      fun m s1 s2 s3 r pub kem e h hfree => exec_parishEnrol_opens h hfree, fun m => exec_parishEnrol_unsupported,
      fun m e kek h hecdh hct hiv hwrapped he hnew => ⟨exec_parishKeys_late h hecdh hct hiv hwrapped he hnew,
        fun hearly hkek ht o ho => ⟨fun hnone => exec_parishKeys_unopened h hecdh hct hiv hwrapped he hnew hearly hkek ht
            (ho.trans hnone),
          fun pms hsome => exec_parishKeys_opened h hecdh hct hiv hwrapped he hnew hearly hkek ht (ho.trans hsome)⟩⟩,
      fun q edge => exec_parishAdd_asked, exec_parishLeave_asked⟩,
    fun s t h ht => ?unenrolled, fun s t u e h hdue hadds => ⟨fun hkeyed hnone => ?unkeyed, fun hkeyed ht hu hnone => ?keyed⟩,
    fun s t fn v => exec_attestGo, fun s t u fn nonce r => exec_attestReportDone_first⟩
  case unenrolled =>
    subst ht
    exact congrArg Host.Outcome.next (State.parishStart_unenrolled h)
  case unkeyed =>
    exact congrArg Host.Outcome.next ((State.parishStart_unkeyed h hdue hkeyed).trans (State.joinDue_of_no_adds hnone))
  case keyed =>
    exact congrArg Host.Outcome.next
      ((State.parishStart_keyed h hdue hkeyed ht hu).trans (State.joinDue_of_no_adds hnone))

end Sys2Proof.Machine
end

section
/-! SUPPORT. Codewords, the link cells and the timers that send them (R252, R254 to R257, R263 to R268, R271, R418, R419): one
equation per case; and the statement that they settle. -/

namespace Sys2Proof.Machine

open Sys2Proof

section Port

variable {s t : State} {p lane : Nat} {c d : Cell}

/-- A port is ACTIVE in state 2. -/
theorem State.portActive_iff : s.portActive p = true ↔ s.portState p = 2 := by
  rw [State.portActive, beq_iff_eq]

/-! ## Codewords (R252, R254) -/

/-- A codeword counts on a lane in use of an ACTIVE port. -/
theorem exec_codewordReceive_used (hactive : s.portActive p = true)
    (hlane : bitOf (s.fld 0 p Reg.DCTL_LYS_PSTAT.LANES) lane = true) (w : Codeword) :
    exec (.codewordReceive p lane w) s = .next (match w with
      | .clean => s
      | .corrected n => s.satAdd 0 p Reg.DCTL_LYS_CNT0.FEC_CORR n
      | .uncorrectable => ((s.satAdd 0 p Reg.DCTL_LYS_CNT0.FEC_UNC 1).portCE p).badCell p false) :=
  congrArg Host.Outcome.next (if_neg (by simp [hactive, hlane]))

/-! ## TRAIN_ID (R263, R271, R419) -/

/-- A TRAIN_ID that a port takes changes that port alone, which keeps the far binding and parish. -/
theorem State.takeTrainId_ports {b : List Byte} (hstate : s.portState p = 1 ∧ (s.port p).step = 4 ∨ s.portState p = 2)
    (hlen : b.length = 32) : ∃ v : Port, (s.takeTrainId p b).ports = (s.setPort p v).ports ∧
      v.farVd = (if bitOf (leField b 8 1) 0 then leField b 6 2 else 0) ∧ v.farParish = leField b 16 8 := by
  have htakes : ¬(b.length ≠ 32 ∨ (!(s.portState p = 1 && (s.port p).step == 4 || s.portActive p)) = true) := by
    simp only [hlen, ne_eq, not_true, false_or, Bool.not_eq_true', Bool.or_eq_false_iff, Bool.and_eq_false_iff,
      decide_eq_false_iff_not, beq_eq_false_iff_ne, State.portActive]
    omega
  refine ⟨?port, ?ports, ?vd, ?parish⟩
  case ports =>
    rw [State.takeTrainId]
    dsimp only
    rw [if_neg htakes, State.ports_ite, State.logCE_ports, ite_self, State.matchVd, State.setFld_ports,
      State.setFld_ports, State.setFld_ports]
  case vd => rfl
  case parish => rfl

/-! ## MEASURE (R257) -/

theorem exec_measure_answered {arrival sent : Nat} (h : s.portState p = 1 ∧ 4 ≤ (s.port p).step ∨ s.portState p = 2) :
    exec (.measure p arrival sent c) s =
      .next (s.sendLink p (linkCell 3 (leBytes 8 (leField c.payload 0 8) ++ leBytes 4 (sent - arrival)))) :=
  congrArg Host.Outcome.next (if_pos (h.imp_right State.portActive_iff.mpr))

theorem exec_measureReply_taken {arrival : Nat} (hstate : s.portState p = 1) (hstep : (s.port p).step = 5)
    (hmore : (s.port p).meas.length < 64) (hlen : c.payload.length = 12)
    (ht : t = s.setPort p { s.port p with
      meas := (s.port p).meas ++ [(leField c.payload 8 4, arrival - leField c.payload 0 8)] }) :
    exec (.measureReply p arrival c) s = .next (t.measured p) := by
  subst ht
  exact congrArg Host.Outcome.next (if_pos ⟨hstate, hstep, hmore, hlen⟩)

/-! ## CREDIT_ACK and NAK (R265 to R268, R418) -/

section Refused

variable (h : s.takeLink p c = (none, t))
include h

theorem exec_creditAck_refused : exec (.creditAck p c) s = .next t := by
  refine congrArg Host.Outcome.next ?_
  rw [State.takeCredit, h]

theorem exec_nak_refused : exec (.nak p c) s = .next t := by
  refine congrArg Host.Outcome.next ?_
  rw [State.takeNak, h]

end Refused

section Taken

variable (h : s.takeLink p c = (some d, t)) {u : Port} {t1 t2 : State}
include h

/-- A CREDIT_ACK frees the replay buffer and gives credits, and what waited for them goes out. -/
theorem exec_creditAck_taken (hlen : d.payload.length = 20) (hu : u = (t.port p).ackTo ((leField d.payload 0 4 + 1) % 2 ^ 32))
    (ht1 : t1 = t.setPort p { u with
      credit := (List.range 8).foldl (fun k i => Tab.set 0 k i (leField d.payload (4 + 2 * i) 2)) [] })
    (ht2 : t2 = if u.replayDue then t1.tryReplay p else t1) :
    exec (.creditAck p c) s = .next (((t2.drainWait (u.wait.length + 1) p).pumpWindow p).resealDue p) := by
  subst ht2 ht1 hu
  refine congrArg Host.Outcome.next ?_
  rw [State.takeCredit, h]
  exact if_neg (not_not_intro hlen)

/-- A NAK asks for a replay from the sequence that it names; a scheduled cell that met a full pool loses its slot. -/
theorem exec_nak_taken {n : Nat} {lost : Bool} (hlen : d.payload.length = 5) (hn : n = leField d.payload 0 4)
    (hu : u = (t.port p).ackTo n) (hlost : lost = (leField d.payload 4 1 == 1 && (u.replay.head?.any fun x => x.2.sched)))
    (ht1 : t1 = ((t.setPort p { u with
      replay := if lost then unschedule u.replay else u.replay, replayDue := u.replayDue || lost
      tries := if u.tries = 0 ∨ u.trySeq ≠ n then 1 else u.tries + 1
      trySeq := n }).satAdd 0 p Reg.DCTL_LYS_CNT0.REPLAY 1).portCE p) :
    exec (.nak p c) s = .next ((t1.tryReplay p).resealDue p) := by
  subst ht1 hlost hu hn
  refine congrArg Host.Outcome.next ?_
  rw [State.takeNak, h]
  exact if_neg (not_not_intro hlen)

end Taken

/-! ## Replay and the timers (R264, R266, R268) -/

theorem State.tryReplay_not_due (hreplay : (s.port p).replay ≠ []) (hdue : (s.port p).replayDue = false) :
    s.tryReplay p = s.sendReplay p := by
  obtain ⟨x, rest, hcons⟩ := List.exists_cons_of_ne_nil hreplay
  simp only [State.tryReplay, hcons, hdue, Bool.false_eq_true, if_false]

theorem exec_creditReturnTimer_active (hactive : s.portActive p = true) :
    exec (.creditReturnTimer p) s = .next (s.sendCreditAck p) :=
  congrArg Host.Outcome.next (if_pos hactive)

end Port

/-! ## The statement -/

/-- Settles O39: each clause is the equation of its case. -/
theorem linkCells : Obligations.LinkCells := by
  unfold Obligations.LinkCells
  refine fun s t p lane c => ⟨fun hactive hlane => ⟨exec_codewordReceive_used hactive hlane .clean,
      fun n => exec_codewordReceive_used hactive hlane (.corrected n),
      exec_codewordReceive_used hactive hlane .uncorrectable⟩,
    ⟨rfl, fun hports hstate hlen => ?trainId⟩, fun arrival sent => exec_measure_answered,
    fun arrival => exec_measureReply_taken, fun h => ⟨exec_creditAck_refused h, exec_nak_refused h⟩,
    fun d h => ⟨fun u t1 t2 => exec_creditAck_taken h, fun n u lost t1 => exec_nak_taken h⟩,
    State.tryReplay_not_due, exec_creditReturnTimer_active, rfl⟩
  case trainId =>
    obtain ⟨v, hset, hvd, hparish⟩ := State.takeTrainId_ports hstate hlen
    have hport : (s.takeTrainId p c.payload).port p = v := by
      rw [State.port, hset]
      exact State.port_setPort hports p v
    rw [hport]
    exact ⟨hvd, hparish⟩

end Sys2Proof.Machine
end

section
/-! SUPPORT. A roll of the memory keys, from its request to its end (R414 to R417, R421): one equation per case; and the statement
that they settle. -/

namespace Sys2Proof.Machine

open Sys2Proof

section Roll

variable {s t u : State} {m k pa : Nat} {au : Auth} {ms : List Nat}

/-- Half of a tier-2 controller's tree that does not serve now takes the fresh key's counts: it is empty (R414 step 1). -/
def State.openHalf (s : State) (m : Nat) : State :=
  let half := 2 * m + (1 - s.fld 0 m Reg.DCTL_T2ROLL.HALF)
  let v := (s.setFld 0 m Reg.DCTL_T2ROLL.STATE 1).setFld 0 m Reg.DCTL_T2ROLL.THR 0
  { v with
    t2node := v.t2node.filter fun e => e.1 / 2 ^ 30 != half
    t2cache := v.t2cache.filter fun e => e.1 / 2 ^ 30 != half }

/-! ## Request and start (R414) -/

theorem State.requestRoll_eq (ht : t = { s with rollWant := true }) :
    s.requestRoll =
      if s.fld 0 0 Reg.DCTL_T2SEC_STAT.STATE = 0 then t else t.setFld 0 0 Reg.DCTL_T2SEC_STAT.STATE 2 := by
  subst ht
  rfl

theorem exec_keyRollStart_idle (h : s.rollWant = false ∨ s.rolling = true) : exec .keyRollStart s = .next s :=
  congrArg Host.Outcome.next (if_pos h)

theorem exec_keyRollStart_starts (hwant : s.rollWant = true) (hidle : s.rolling = false)
    (hms : ms = ((List.range 16).filter fun m =>
      s.fld 0 (12 + m) Reg.DCTL_MEMSTAT.PRESENT == 1 && s.fld 0 m Reg.DCTL_T2ROLL.STATE != 2))
    (ht : t = ((({ s with rollWant := false, free := s.free + 1 } : State).loadKey 6 (keyAttr 25 false false 1)
      (leBytes 32 (Config.entropy s.free).toNat)).setFld 0 0 Reg.DCTL_T2SEC_CTL.ROLL_REQ 0).setFld 0 0
        Reg.DCTL_T2SEC_STAT.STATE 1) :
    exec .keyRollStart s = .next (ms.foldl State.openHalf t) := by
  subst hms ht
  exact congrArg Host.Outcome.next (if_neg (by simp [hwant, hidle]))

/-! ## Group by group (R414, R421) -/

theorem exec_rollGroup_waits (h : s.rollGoes m = false) : exec (.rollGroup m au) s = .next s :=
  congrArg Host.Outcome.next (if_neg (by simp [h]))

/-- The read of a group may end the controller's part of the roll; otherwise the group is under the new key. -/
theorem exec_rollGroup_goes (h : s.rollGoes m = true) (hdraw : s.draw = (k, t))
    (hpa : pa = 0x20000000000 + m * 0x2000000000 + 4096 * t.fld 0 m Reg.DCTL_T2ROLL.THR + 512 * (k % 8))
    (hu : u = (t.leafLookup pa).authRead pa au (t.twinAt pa) false ((t.twinAt pa).any fun x => t.copyGood x.2.2) 0) :
    exec (.rollGroup m au) s = .next (if u.fld 0 m Reg.DCTL_T2ROLL.STATE = 1 then u.rollGroup m else u) := by
  subst hu hpa
  refine congrArg Host.Outcome.next ?_
  rw [if_pos h, hdraw]

/-! ## The end of a roll (R414 step 5) -/

theorem State.setFld_t2base (s : State) (fn i : Nat) (f : Fld) (v : Nat) : (s.setFld fn i f v).t2base = s.t2base := (rfl)

section Complete

theorem exec_rollComplete_early (h : s.rolling = false ∨
      ∃ m < 16, s.fld 0 m Reg.DCTL_T2ROLL.STATE = 1 ∧ s.fld 0 m Reg.DCTL_T2ROLL.THR ≠ 2 ^ 25) :
    exec .rollComplete s = .next s := by
  refine congrArg Host.Outcome.next (if_pos (h.imp_right ?_))
  rintro ⟨m, hm, hstate, hthr⟩
  simp only [List.any_eq_true, List.mem_filter, List.mem_range, beq_iff_eq, bne_iff_ne]
  exact ⟨m, ⟨hm, hstate⟩, hthr⟩

variable {s1 s2 s3 s4 : State} (hrolling : s.rolling = true)
  (hms : ms = (List.range 16).filter (fun m => s.fld 0 m Reg.DCTL_T2ROLL.STATE == 1))
  (hpassed : ∀ m ∈ ms, s.fld 0 m Reg.DCTL_T2ROLL.THR = 2 ^ 25)
  (hs1 : s1 = (List.range 10).foldl (fun u l => ((u.t2cache.filter fun e => !e.2.isEmpty && nodeLevel e.1 == l &&
    ms.any fun m => e.1 / 2 ^ 30 == 2 * m + (1 - s.fld 0 m Reg.DCTL_T2ROLL.HALF)).map (·.1)).foldl State.writeBack u) s)
  (hs2 : s2 = ((s1.destroySlot 5).loadKey 5 (keyAttr 25 false false 1) (s1.keyOf 6)).destroySlot 6)
  (hs3 : s3 = ms.foldl (fun u m =>
    { (u.setFld 0 m Reg.DCTL_T2ROLL.HALF (1 - u.fld 0 m Reg.DCTL_T2ROLL.HALF)).setFld 0 m Reg.DCTL_T2ROLL.STATE 0 with
      t2base := u.t2base.del m }) s2)
  (hs4 : s4 = (((List.range 16).foldl (fun u m => u.setFld 0 m Reg.DCTL_T2ROLL.THR 0) s3).setFld 0 0
    Reg.DCTL_T2SEC_STAT.LAST_ROLL ((List.range 16).foldl (fun u m => u.setFld 0 m Reg.DCTL_T2ROLL.THR 0) s3).now).modAdd 0 0
      Reg.DCTL_T2SEC_STAT.ROLLS 1)
include hrolling hms hpassed hs1 hs2 hs3 hs4

theorem exec_rollComplete_ends : exec .rollComplete s =
    .next ((s4.setFld 0 0 Reg.DCTL_T2SEC_STAT.STATE (if s4.rollWant then 2 else 0)).raise 0 0 Reg.DCTL_T2SEC_STAT.ROLL_DONE) := by
  have hgoes : ¬(s.rolling = false ∨ ms.any fun m => s.fld 0 m Reg.DCTL_T2ROLL.THR != rollGroups) := by
    simp only [hrolling, Bool.true_eq_false, false_or, Bool.not_eq_true, List.any_eq_false, bne_iff_ne, ne_eq, not_not]
    exact hpassed
  refine congrArg Host.Outcome.next ?_
  rw [State.endRoll, ← hms]
  dsimp only
  rw [if_neg hgoes, ← hs1, ← hs2]
  simp only [State.setFld_t2base, ← hs3, ← hs4]

end Complete

end Roll

/-! ## The statement -/

/-- Settles O49: each clause is the equation of its case. -/
theorem keyRoll : Obligations.KeyRoll := by
  unfold Obligations.KeyRoll
  refine ⟨fun s t ht u hu => ?request, fun s => exec_keyRollStart_idle, fun s t ms => exec_keyRollStart_starts,
    fun s t u m k pa au => ⟨exec_rollGroup_waits, fun h hdraw hpa hu => ?group⟩, fun s => exec_rollComplete_early,
    fun s s1 s2 s3 s4 ms => exec_rollComplete_ends⟩
  case request =>
    rw [← State.requestRoll_eq ht] at hu
    subst hu
    exact ⟨rfl, rfl⟩
  case group =>
    rw [exec_rollGroup_goes h hdraw hpa hu]
    exact ⟨fun hstill => by rw [if_pos hstill], fun hended => by rw [if_neg hended]⟩

end Sys2Proof.Machine
end

section
/-! SUPPORT. A reset, from its decision through its shuttering, drain and wipe (R430, R431, R433): one equation per case; and the
statement that they settle. -/

namespace Sys2Proof.Machine

open Sys2Proof

section Resets

variable {s t : State} {id : Nat} {r : Reset}

/-! ## The decision (R430, R433) -/

/-- The domain of a reset that is asked for: a partition that is a member of a virtual device is reset as one. -/
def State.askedDomain (s : State) (domain target : Nat) : Nat := if domain = 4 ∧ s.vdOf target ≠ 0 then 5 else domain

section Decide

variable {domain target : Nat} {dump : Bool} {d : Nat} (hd : d = s.askedDomain domain target)
include hd

/-- A reset joins one that covers it, which bears its dump where it is not shuttered yet. -/
theorem State.decideReset_joins (h : ∃ r ∈ s.resets, r.phase < 4 ∧ s.resetWithin d target r.domain r.target = true)
    (ht : t = { s with resets := s.resets.map fun r =>
      if dump = true ∧ r.phase = 0 ∧ s.resetWithin d target r.domain r.target = true then { r with dump := true } else r }) :
    s.decideReset domain target dump false 1 = t := by
  have hdomain : (if domain == 4 && s.vdOf target != 0 then 5
      else if domain == 7 && false && s.resets.any (fun r => decide (r.phase < 4) && r.domain == 7) then 8 else domain) = d := by
    simp [hd, State.askedDomain]
  subst ht
  rw [State.decideReset]
  dsimp only
  rw [hdomain, if_pos (by simpa using h)]
  congr 1
  refine List.map_congr_left fun r _ => ?_
  split
  case isTrue hboth => simp [hboth]
  case isFalse hnot =>
    have hadds : (dump && r.phase == 0 && s.resetWithin d target r.domain r.target) = false := by
      simpa [and_assoc] using hnot
    rw [hadds, Bool.or_false]

section Replaces

variable (h : ∀ r ∈ s.resets, r.phase < 4 → s.resetWithin d target r.domain r.target = false) {asked : Bool}
  (hasked : asked = (s.resets.any fun r => decide (r.phase = 0) && r.dump && s.resetWithin r.domain r.target d target))
  (ht : t = { s with
    resets := (s.resets.filter fun r => !(r.phase < 4 && s.resetWithin r.domain r.target d target)) ++
      [{ id := s.nextReset, domain := d, target := target, dump := dump || asked, phase := 0, edge := s.tick, cause := none }]
    nextReset := s.nextReset + 1 })
include h hasked ht

/-- Otherwise it replaces the smaller ones and bears their dumps; its alarm follows its domain. -/
theorem State.decideReset_replaces : s.decideReset domain target dump false 1 =
    if d = 5 then t.partAlarm target 1 5
    else if 6 ≤ d then (t.resetParts (resetOf d target)).foldl (fun u q => u.partAlarm q 1 d) t
    else t := by
  have hdomain : (if domain == 4 && s.vdOf target != 0 then 5
      else if domain == 7 && false && s.resets.any (fun r => decide (r.phase < 4) && r.domain == 7) then 8 else domain) = d := by
    simp [hd, State.askedDomain]
  have hinside : (s.resets.any fun r => decide (r.phase < 4) && s.resetWithin r.domain r.target d target &&
      r.phase == 0 && r.dump) = asked := by
    rw [hasked]
    congr 1
    funext r
    by_cases hphase : r.phase = 0 <;> simp [hphase, Bool.and_comm]
  rw [State.decideReset]
  dsimp only
  rw [hdomain, if_neg (by simpa using h), hinside, Bool.false_and, Bool.or_false]
  subst ht
  rfl

end Replaces

end Decide

/-! ## Shuttering (R431) -/

theorem exec_resetShutter_none (h : s.resets.find? (fun r => r.id == id && r.phase == 0 && r.edge != s.tick) = none) :
    exec (.resetShutter id) s = .next s := by
  refine congrArg Host.Outcome.next ?_
  rw [h]

theorem exec_resetShutter_due (h : s.resets.find? (fun r => r.id == id && r.phase == 0 && r.edge != s.tick) = some r) :
    exec (.resetShutter id) s = .next ((s.shutterReset r).failCores.resetDrain r.id) := by
  refine congrArg Host.Outcome.next ?_
  rw [h]

theorem State.shutterReset_eq {s1 s2 s3 s4 s5 : State}
    (hs1 : s1 = (((s.updReset r.id fun x => { x with phase := 1, edge := s.tick + s.drainBudget }).setFld 0 0
      Reg.DCTL_RST_STAT.DOMAIN r.domain).setFld 0 0 Reg.DCTL_RST_STAT.TARGET r.target).setFld 0 0 Reg.DCTL_RST_STAT.STATE 1)
    (hs2 : s2 = if r.domain = 1 then s1 else s1.fenceChanges (s1.resetCores r ++ (s1.resetParts r).map (4000 + ·)))
    (hs3 : s3 = { s2 with
      aborts := s2.aborts.filter fun a => a.part ∉ s1.resetParts r
      cores := s2.cores.mapVals fun n c => if n ∈ s1.resetCores r then { c with running := false } else c
      dump := if r.dump then { s2.dump with due := some r.cause } else s2.dump })
    (hs4 : s4 = (s1.resetParts r).foldl (fun u q => u.clearQcfg (vf q)) s3)
    (hs5 : s5 = (s1.resetCores r).foldl (fun u n => u.squashWhere n (u.coreFn n).1 fun m =>
      m.fid.isSome && (if r.domain = 1 then some (r.target % 8) else none).all fun e => m.eng + 6 == e) s4) :
    s.shutterReset r = s5 := by
  have hs3' : s3 = { s2 with
      aborts := s2.aborts.filter fun a => !(s1.resetParts r).contains a.part
      cores := s2.cores.mapVals fun n c => if (s1.resetCores r).contains n then { c with running := false } else c
      dump := if r.dump then { s2.dump with due := some r.cause } else s2.dump } := by
    rw [hs3]
    simp only [List.contains_eq_mem, decide_not, decide_eq_true_eq]
  rw [State.shutterReset]
  dsimp only
  rw [← hs1, ← hs2, ← hs3', ← hs4, hs5]
  rfl

/-! ## Failed cores (R59, R61) -/

/-- Numbers below a bound give a number its place. -/
theorem range_flatMap_one (n c bound : Nat) :
    ((List.range bound).flatMap fun k => if c = k then [n] else []) = if c < bound then [n] else [] := by
  induction bound with
  | zero => simp
  | succ b ih =>
    rw [List.range_succ, List.flatMap_append, ih, List.flatMap_singleton]
    rcases Nat.lt_trichotomy c b with hlt | rfl | hgt
    · rw [if_pos hlt, if_neg hlt.ne, if_pos (Nat.lt_succ_of_lt hlt), List.append_nil]
    · rw [if_neg (Nat.lt_irrefl c), if_pos rfl, if_pos (Nat.lt_succ_self c), List.nil_append]
    · rw [if_neg hgt.not_gt, if_neg hgt.ne', if_neg (Nat.not_lt.mpr hgt), List.append_nil]

/-- Two places below a bound come by rising number. -/
theorem range_flatMap_two (m n : Nat) {c d : Nat} (h : d < c) (bound : Nat) :
    ((List.range bound).flatMap fun k => (if c = k then [m] else []) ++ if d = k then [n] else []) =
      (if d < bound then [n] else []) ++ if c < bound then [m] else [] := by
  induction bound with
  | zero => simp
  | succ b ih =>
    rw [List.range_succ, List.flatMap_append, ih, List.flatMap_singleton]
    rcases Nat.lt_trichotomy c b with hlt | rfl | hgt
    · have hd := h.trans hlt
      rw [if_pos hlt, if_pos hd, if_neg hlt.ne, if_neg hd.ne, if_pos (Nat.lt_succ_of_lt hlt), if_pos (Nat.lt_succ_of_lt hd),
        List.append_nil, List.append_nil]
    · rw [if_pos h, if_neg (Nat.lt_irrefl c), if_pos rfl, if_neg h.ne, if_pos (Nat.lt_succ_of_lt h),
        if_pos (Nat.lt_succ_self c), List.append_nil, List.append_nil]
    · have hlast := range_flatMap_one n d (b + 1)
      rw [List.range_succ, List.flatMap_append, range_flatMap_one, List.flatMap_singleton] at hlast
      rw [if_neg hgt.not_gt, if_neg hgt.ne', if_neg (Nat.not_lt.mpr hgt), List.append_nil, List.append_nil, List.nil_append,
        hlast]

theorem State.failCores_one {n : Nat} (h : s.failed.filter s.coreShut = [n]) (hn : s.fld 0 n Reg.IDC_CORE_MAP.K < 17) :
    s.failCores = s.failCore n := by
  simp only [State.failCores, h, List.filter_cons, List.filter_nil, beq_iff_eq, range_flatMap_one, hn, if_true,
    List.foldl_cons, List.foldl_nil]

theorem State.failCores_two {a b : Nat} (h : s.failed.filter s.coreShut = [a, b])
    (hab : s.fld 0 b Reg.IDC_CORE_MAP.K < s.fld 0 a Reg.IDC_CORE_MAP.K) (ha : s.fld 0 a Reg.IDC_CORE_MAP.K < 17) :
    s.failCores = (s.failCore b).failCore a := by
  have hsplit (k : Nat) : (([a, b].filter fun n => s.fld 0 n Reg.IDC_CORE_MAP.K == k)) =
      (if s.fld 0 a Reg.IDC_CORE_MAP.K = k then [a] else []) ++ if s.fld 0 b Reg.IDC_CORE_MAP.K = k then [b] else [] := by
    simp only [List.filter_cons, List.filter_nil, beq_iff_eq]
    split <;> rfl
  simp only [State.failCores, h, hsplit, range_flatMap_two a b hab, ha, hab.trans ha, if_true, List.cons_append,
    List.nil_append, List.foldl_cons, List.foldl_nil]

/-! ## Drain and force (R431, R432) -/

section Drain

variable (h : s.resets.find? (fun r => r.id == id && r.phase == 1) = some r)
include h

theorem exec_resetDrainEnd_remains (hremains : s.resetRemains r = true) (hearly : s.tick < r.edge) :
    exec (.resetDrainEnd id) s = .next s := by
  refine congrArg Host.Outcome.next ?_
  rw [State.resetDrain, h]
  exact if_pos ⟨hremains, hearly⟩

variable (hends : s.resetRemains r = false ∨ r.edge ≤ s.tick)
include hends

theorem exec_resetDrainEnd_ends : exec (.resetDrainEnd id) s = .next (if s.resetStuck r then
      (((s.updReset id fun x => { x with phase := 2 }).rstState r 2).raise 0 0 Reg.DCTL_RST_STAT.STUCK).logErr
        { ErrRec.of 4 0x12 with cause := r.domain }
    else s.squashReset r) := by
  refine congrArg Host.Outcome.next ?_
  rw [State.resetDrain, h]
  refine if_neg ?_
  rintro ⟨hremains, hearly⟩
  exact hends.elim (fun hnone => Bool.false_ne_true (hnone.symm.trans hremains)) hearly.not_ge

end Drain

section Force

variable {domain target : Nat} {stuck : Option Reset}
  (hstuck : stuck = s.resets.find? fun r =>
    r.phase == 2 && (r.domain == domain || domain == 4 && r.domain == 5) && r.target == target)
include hstuck

theorem exec_resetForce_none (h : stuck = none) : exec (.resetForce domain target) s = .next s := by
  refine congrArg Host.Outcome.next ?_
  rw [State.forceReset, ← hstuck, h]

theorem exec_resetForce_stuck (h : stuck = some r) : exec (.resetForce domain target) s =
    .next (((s.resetPorts r).foldl State.dropPort (s.raise 0 0 Reg.DCTL_RST_STAT.FORCED)).squashReset r) := by
  refine congrArg Host.Outcome.next ?_
  rw [State.forceReset, ← hstuck, h]

end Force

/-! ## The wipe (R431) -/

section Wipe

variable (h : s.resets.find? (fun r => r.id == id && r.phase == 3) = some r)
include h

theorem exec_resetWipeDone_wiped (hparts : r.domain ≠ 8 → ∀ q ∈ s.resetParts r, s.wipeOwed q = false)
    (hdump : r.domain = 8 → s.dump.due = none ∧ s.dump.staged = none) :
    exec (.resetWipeDone id) s = .next (s.updReset id fun x => { x with phase := 4 }) := by
  refine congrArg Host.Outcome.next ?_
  rw [State.wiped, h]
  refine if_neg ?_
  by_cases hcold : r.domain = 8
  · obtain ⟨hdue, hstaged⟩ := hdump hcold
    simp [hcold, hdue, hstaged]
  · simpa [hcold] using hparts hcold

theorem exec_resetWipeDone_waits (hwaits : (r.domain ≠ 8 ∧ ∃ q ∈ s.resetParts r, s.wipeOwed q = true) ∨
      (r.domain = 8 ∧ (s.dump.due ≠ none ∨ s.dump.staged ≠ none))) : exec (.resetWipeDone id) s = .next s := by
  refine congrArg Host.Outcome.next ?_
  rw [State.wiped, h]
  refine if_pos ?_
  simpa only [Bool.or_eq_true, Bool.and_eq_true, bne_iff_ne, beq_iff_eq, List.any_eq_true, Option.isSome_iff_ne_none]
    using hwaits

end Wipe

end Resets

/-! ## The statement -/

/-- The commands that ask for a reset, with the domain and target of each. -/
def ResetRequest (k : Nat) (dump : Bool) (p : Nat × Nat × Instr) : Prop :=
  p ∈ [(1, k, .engineReset k dump), (2, k, .coreReset k dump), (3, k, .clusterReset k dump), (4, k, .partitionReset k dump),
    (6, k, .dieReset k dump), (7, 0, .deviceWarmReset dump), (8, 0, .deviceColdReset dump)]

section Request

variable {k : Nat} {dump : Bool} {p : Nat × Nat × Instr} (hp : ResetRequest k dump p)
include hp

theorem exec_resetRequest (s : State) : exec p.2.2 s = .next (s.decideReset p.1 p.2.1 dump false 1) := by
  simp only [ResetRequest, List.mem_cons, List.not_mem_nil, or_false] at hp
  rcases hp with rfl | rfl | rfl | rfl | rfl | rfl | rfl <;> rfl

/-- A reset of less than a device names its target, and none names the domain of a member. -/
theorem ResetRequest.target_eq : p.1 ≠ 5 ∧ (p.1 ≤ 6 → p.2.1 = k) := by
  simp only [ResetRequest, List.mem_cons, List.not_mem_nil, or_false] at hp
  rcases hp with rfl | rfl | rfl | rfl | rfl | rfl | rfl <;> simp

/-- Every reset of less than a device keeps its target, and a member's partition stands for its domain 5. -/
theorem ResetRequest.askedDomain {s : State} {d : Nat} (hd : d = if p.1 = 4 ∧ s.vdOf k ≠ 0 then 5 else p.1) :
    d = s.askedDomain p.1 p.2.1 ∧ (d ≤ 6 → p.2.1 = k) ∧ (d = 5 → s.vdOf k ≠ 0) := by
  obtain ⟨hnot, htarget⟩ := ResetRequest.target_eq hp
  subst hd
  by_cases hpart : p.1 = 4
  · have hk := htarget (by omega)
    by_cases hvd : s.vdOf k = 0 <;> simp [State.askedDomain, hpart, hk, hvd]
  · simpa only [State.askedDomain, hpart, false_and, if_false, true_and] using ⟨htarget, fun h => absurd h hnot⟩

end Request

/-- The partitions of a device's reset are all of them. -/
theorem State.resetParts_device (s : State) {d : Nat} (h : 7 ≤ d) (k : Nat) : s.resetParts (resetOf d k) = List.range 32 := by
  have hd : (resetOf d k).domain = d := rfl
  rw [State.resetParts, if_neg (by omega), if_neg (by omega), if_pos (by omega)]

/-- Settles O47: a decision joins or replaces, and each other clause is the equation of its case. -/
theorem resetSequence : Obligations.ResetSequence := by
  unfold Obligations.ResetSequence
  refine ⟨fun s t dump k p hp d hd => ?decision,
    fun s id => exec_resetShutter_none, fun s s1 s2 s3 s4 s5 id r h hs1 hs2 hs3 hs4 hs5 => ?shutter,
    fun s n => State.failCores_one, fun s a b => State.failCores_two,
    fun s id r h => ⟨exec_resetDrainEnd_remains h, fun hends => ?drained⟩,
    fun s domain target => ⟨exec_resetForce_none rfl, fun r => exec_resetForce_stuck rfl⟩,
    fun s id r h => ⟨fun hok => exec_resetWipeDone_wiped h hok, exec_resetWipeDone_waits h⟩⟩
  case decision =>
    obtain ⟨hask, htarget, hmember⟩ := ResetRequest.askedDomain hp hd
    rw [exec_resetRequest hp]
    refine ⟨fun hcover ht => by rw [State.decideReset_joins hask hcover ht], fun hnone asked hasked ht => ?_⟩
    rw [State.decideReset_replaces hask hnone hasked ht]
    refine ⟨fun hsmall => ?_, fun hpart => ?_, fun hdie => ?_, fun hdevice => ?_⟩
    · rw [if_neg (by omega), if_neg (by omega)]
    · have hvd : t.vdOf k = s.vdOf k := by rw [ht]; rfl
      rw [if_pos hpart, htarget (by omega), State.partAlarm, State.vdAlarm, hvd, if_neg (hmember hpart)]
    · have hparts : t.resetParts (resetOf 6 k) = s.dieParts k := by rw [ht]; rfl
      subst hdie
      rw [htarget (Nat.le_refl 6), hparts]
      rfl
    · rw [if_neg (by omega), if_pos (by omega), State.resetParts_device t hdevice]
  case shutter =>
    obtain ⟨hid, -, -⟩ : r.id = id ∧ r.phase = 0 ∧ r.edge ≠ s.tick := by
      simpa [and_assoc] using List.find?_some h
    subst hid
    rw [exec_resetShutter_due h, State.shutterReset_eq hs1 hs2 hs3 hs4 hs5]
  case drained =>
    rw [exec_resetDrainEnd_ends h hends]
    exact ⟨fun hstuck => by rw [if_pos hstuck], fun hfree => by rw [if_neg (by simp [hfree])]⟩

end Sys2Proof.Machine
end

section
/-! SUPPORT. The host link's and the module's contacts and limits (R430, R478, R496 to R500, R505, R506): one equation per
case; and the statement that they settle. -/

namespace Sys2Proof.Machine

open Sys2Proof

section Contacts

variable {s t u : State}

/-! ## The host link (R430, R478, R506) -/

theorem exec_pcieLinkTrained_trains (ht : t = { s with boot := { s.boot with linked := true } }) (hperst : s.boot.perst = true)
    (hrails : s.mod.rails = true) (himages : 3 ∈ s.boot.done) (hnew : s.boot.linked = false) :
    exec .pcieLinkTrained s = .next (if s.booting = true ∧ s.boot.ready = true then t.release else t) := by
  subst ht
  refine congrArg Host.Outcome.next ?_
  rw [if_pos (by simp [hperst, hrails, himages, hnew])]
  simp only [Bool.and_eq_true]
  rfl

theorem exec_pcieLinkTrained_early
    (h : s.boot.perst = false ∨ s.mod.rails = false ∨ 3 ∉ s.boot.done ∨ s.boot.linked = true) :
    exec .pcieLinkTrained s = .next s := by
  refine congrArg Host.Outcome.next (if_neg ?_)
  simp only [Bool.and_eq_true, Bool.not_eq_true', List.contains_iff_mem]
  rintro ⟨⟨⟨hperst, hrails⟩, himages⟩, hnew⟩
  simp [hperst, hrails, himages, hnew] at h

theorem exec_pcieLinkDown_unlinked (h : s.boot.linked = false) : exec .pcieLinkDown s = .next s :=
  congrArg Host.Outcome.next (if_neg (by simp [h]))

theorem exec_pcieLinkDown_linked (ht : t = { s with boot := { s.boot with linked := false } }) (h : s.boot.linked = true) :
    exec .pcieLinkDown s = .next (if s.inService = true then t.decideReset 7 0 false false 1 else t) := by
  subst ht
  exact congrArg Host.Outcome.next (if_pos h)

section Config

variable {fn : Nat} {c : CfgReq}

theorem exec_pcieConfigRequest_unlinked (h : s.boot.linked = false ∨ 33 ≤ fn) : exec (.pcieConfigRequest fn c) s = .next s :=
  congrArg Host.Outcome.next (if_pos (by simpa using h))

variable (hlink : s.boot.linked = true) (hfn : fn < 33)
include hlink hfn

/-- Before release a request is asked to be made again. -/
theorem exec_pcieConfigRequest_early (h : s.inService = false) :
    exec (.pcieConfigRequest fn c) s = .next (s.send (.pcie fn 6 0)) := by
  refine congrArg Host.Outcome.next ?_
  rw [if_neg (by simp [hlink, hfn]), if_neg (by simp [h])]

theorem exec_pcieConfigRequest_served (h : s.inService = true) : exec (.pcieConfigRequest fn c) s = .next (s.configure fn c) := by
  refine congrArg Host.Outcome.next ?_
  rw [if_neg (by simp [hlink, hfn]), if_pos h]

end Config

/-- A Function Level Reset resets the partition of a function that has one. -/
theorem State.flr_eq {fn : Nat} (hu : u = ({ t with cfgs := t.cfgs.del fn } : State).setAts fn Ats.fresh) :
    t.flr fn = if fn = 0 then u else (u.resetErrl fn).decideReset 4 (fn - 1) false false 1 := by
  rw [State.flr, ← hu]

/-! ## Power enable and reset (R496 to R498, R505, R506) -/

section PwrEn

variable {vin : Nat}

theorem exec_pwrEnRise_enabled (h : s.mod.pwrEn = true) : exec (.pwrEnRise vin) s = .next s :=
  congrArg Host.Outcome.next (if_pos h)

section Rises

variable (hoff : s.mod.pwrEn = false) (ht : t = { s with mod := { s.mod with pwrEn := true, vin := vin } })
include hoff ht

theorem exec_pwrEnRise_waits (h : vin ≤ 460 ∨ s.fld 0 0 Reg.PWR_STAT.STATE ≠ 0) : exec (.pwrEnRise vin) s = .next t := by
  subst ht
  refine congrArg Host.Outcome.next ?_
  rw [if_neg (by simp [hoff])]
  exact if_neg (by omega)

theorem exec_pwrEnRise_starts (hvin : 460 < vin) (hstate : s.fld 0 0 Reg.PWR_STAT.STATE = 0) (hu : u = t.coldStart 1) :
    exec (.pwrEnRise vin) s =
      .next { u with mod := { u.mod with rails := false }, boot := { u.boot with perst := false } } := by
  subst hu ht
  refine congrArg Host.Outcome.next ?_
  rw [if_neg (by simp [hoff])]
  exact if_pos ⟨hvin, hstate⟩

end Rises

theorem exec_pwrEnFall_disabled (h : s.mod.pwrEn = false) : exec .pwrEnFall s = .next s :=
  congrArg Host.Outcome.next (if_neg (by simp [h]))

theorem exec_pwrEnFall_enabled (h : s.mod.pwrEn = true) (ht : t = if s.fld 0 0 Reg.PWR_STAT.STATE = 0 then s else s.railsDown) :
    exec .pwrEnFall s = .next ({ t with mod := { t.mod with pwrEn := false, status := 0 } } : State).releaseFault := by
  subst ht
  exact congrArg Host.Outcome.next (if_pos h)

end PwrEn

section RstN

variable {us : Nat}

theorem exec_rstNAssert_ignored (h : s.mod.pwrEn = false ∨ s.mod.rails = false ∨ us = 0) :
    exec (.rstNAssert us) s = .next s := by
  refine congrArg Host.Outcome.next (if_pos ?_)
  simpa [or_assoc] using h

/-- A reset that is asserted, as it takes effect. -/
def State.rstN (s : State) : State :=
  let t : State := { s with mod := { s.mod with rstLow := true } }
  if t.inService then t.decideReset 8 0 false false 1 else t.coldStart 2

variable (hen : s.mod.pwrEn = true) (hrails : s.mod.rails = true)
include hen hrails

theorem exec_rstNAssert_taken (hus : 10 ≤ us) : exec (.rstNAssert us) s = .next s.rstN := by
  refine congrArg Host.Outcome.next ?_
  rw [if_neg (by simp [hen, hrails]; omega), if_neg hus.not_gt]
  rfl

/-- A pulse of 1 to 10 µs is taken or not. -/
theorem exec_rstNAssert_free {b : Bool} (hlow : 0 < us) (hus : us < 10) (hdraw : s.drawBool = (b, t)) :
    exec (.rstNAssert us) s = if b then exec (.rstNAssert 10) t else .next t := by
  have hmod : t.mod = s.mod := (congrArg (fun x => x.2.mod) hdraw).symm
  have hstep : exec (.rstNAssert us) s = .next (if b then t.rstN else t) := by
    refine congrArg Host.Outcome.next ?_
    rw [if_neg (by simp [hen, hrails]; omega), if_pos hus, hdraw]
    rfl
  rw [hstep]
  cases b with
  | false => rfl
  | true => exact (exec_rstNAssert_taken (hmod ▸ hen) (hmod ▸ hrails) (Nat.le_refl 10)).symm

end RstN

/-! ## Limits of the input (R500, R501, R505) -/

section Limits

variable {v : Nat}

theorem exec_inputUndervoltage_above (h : 440 ≤ v ∨ s.mod.pwrEn = false) : exec (.inputUndervoltage v) s = .next s := by
  refine congrArg Host.Outcome.next (if_neg ?_)
  rintro ⟨hlow, hen⟩
  exact h.elim hlow.not_ge fun hno => Bool.false_ne_true (hno.symm.trans hen)

theorem exec_inputUndervoltage_below (hlow : v < 440) (hen : s.mod.pwrEn = true)
    (ht : t = ({ s with mod := { s.mod with vin := v } } : State).pmStatus 0x2008) :
    exec (.inputUndervoltage v) s = .next (if s.fld 0 0 Reg.PWR_STAT.STATE = 0 then t else t.railsDown) := by
  subst ht
  exact congrArg Host.Outcome.next (if_pos ⟨hlow, hen⟩)

theorem exec_inputOvervoltage_below (h : v ≤ 570 ∨ s.mod.pwrEn = false) : exec (.inputOvervoltage v) s = .next s := by
  refine congrArg Host.Outcome.next (if_neg ?_)
  rintro ⟨hhigh, hen⟩
  exact h.elim hhigh.not_ge fun hno => Bool.false_ne_true (hno.symm.trans hen)

theorem exec_inputOvervoltage_above (hhigh : 570 < v) (hen : s.mod.pwrEn = true)
    (ht : t = (({ s with mod := { s.mod with vin := v } } : State).pmStatus 0x2000).setFault 0xB) :
    exec (.inputOvervoltage v) s = .next (if s.fld 0 0 Reg.PWR_STAT.STATE = 0 then t else t.railsDown) := by
  subst ht
  exact congrArg Host.Outcome.next (if_pos ⟨hhigh, hen⟩)

theorem exec_inputOvercurrent_below (h : v ≤ 585 ∨ s.mod.rails = false) : exec (.inputOvercurrent v) s = .next s := by
  refine congrArg Host.Outcome.next (if_neg ?_)
  rintro ⟨hhigh, hup⟩
  exact h.elim hhigh.not_ge fun hdown => Bool.false_ne_true (hdown.symm.trans hup)

theorem exec_inputOvercurrent_above (hhigh : 585 < v) (hup : s.mod.rails = true)
    (ht : t = (({ s with mod := { s.mod with iin := v } } : State).pmStatus 0x2000).setFault 0xB) :
    exec (.inputOvercurrent v) s = .next ((t.raise 0 0 Reg.DCTL_MOD_STAT.OC_EVT).logErr (ErrRec.of 4 0x10)) := by
  subst ht
  exact congrArg Host.Outcome.next (if_pos ⟨hhigh, hup⟩)

theorem exec_vinSagEvent_down (h : s.mod.rails = false) : exec .vinSagEvent s = .next s :=
  congrArg Host.Outcome.next (if_neg (by simp [h]))

theorem exec_vinSagEvent_up (h : s.mod.rails = true) : exec .vinSagEvent s =
    .next (((s.pmStatus 0x2008).raise 0 0 Reg.DCTL_MOD_STAT.UV_EVT).logCE 0x10 0 0 none) :=
  congrArg Host.Outcome.next (if_pos h)

end Limits

end Contacts

/-! ## The statement -/

/-- Settles O52: each clause is the equation of its case. -/
theorem hostLinkAndModule : Obligations.HostLinkAndModule := by
  unfold Obligations.HostLinkAndModule
  refine ⟨fun s => ⟨rfl, rfl⟩, fun s t ht => ⟨exec_pcieLinkTrained_trains ht, exec_pcieLinkTrained_early⟩,
    fun s t ht => ⟨exec_pcieLinkDown_unlinked, exec_pcieLinkDown_linked ht⟩,
    fun s t fn n quota on mask id c => ⟨exec_pcieConfigRequest_unlinked, fun hlink hfn =>
      ⟨exec_pcieConfigRequest_early hlink hfn, fun hup ht => ?config⟩⟩,
    fun s t vin => ⟨exec_pwrEnRise_enabled, fun hoff ht => ⟨exec_pwrEnRise_waits hoff ht,
      fun hvin hstate u => exec_pwrEnRise_starts hoff ht hvin hstate⟩⟩,
    fun s t => ⟨exec_pwrEnFall_disabled, exec_pwrEnFall_enabled⟩,
    fun s t us => ⟨exec_rstNAssert_ignored, fun hen hrails hus ht => ?reset,
      fun b hen hrails => exec_rstNAssert_free hen hrails⟩,
    fun s t v => ⟨exec_inputUndervoltage_above, exec_inputUndervoltage_below, exec_inputOvervoltage_below,
      exec_inputOvervoltage_above, exec_inputOvercurrent_below, exec_inputOvercurrent_above, exec_vinSagEvent_down,
      exec_vinSagEvent_up⟩⟩
  case config =>
    subst ht
    have hserved (c : CfgReq) := exec_pcieConfigRequest_served (c := c) hlink hfn hup
    refine ⟨hserved _, hserved _, hserved _, hserved _, hserved _, hserved _, hserved _, fun u hu => ?_⟩
    rw [hserved, State.configure, State.flr_eq hu]
  case reset =>
    subst ht
    rw [exec_rstNAssert_taken hen hrails hus]
    rfl

end Sys2Proof.Machine
end

section
/-! SUPPORT. Power states, heat, droop, phase hints and the rotation test (R442 to R447, R452, R455, R456, R458, R463 to R465):
one equation per case; and the statement that they settle. -/

namespace Sys2Proof.Machine

open Sys2Proof

section Power

variable {s t u v : State}

/-! ## Power states (R442 to R444) -/

theorem State.askPower_unreleased (h : s.inService = false) (st : Nat) : s.askPower st = s :=
  if_neg (by simp [h])

/-- A state that is asked for replaces the one asked for before. -/
theorem State.askPower_released (h : s.inService = true) (st : Nat) {rest : List Deferred}
    (hrest : rest = s.deferred.filter (fun d => match d with
      | .power _ => false
      | _ => true)) : s.askPower st = { s with deferred := rest ++ [.power st] } := by
  subst hrest
  exact if_pos h

/-! ## Heat (R452, R500) -/

section Heat

variable {d temp : Nat}

theorem exec_tHot_below (h : s.inService = false ∨ temp < s.fld 0 0 Reg.PWR_TCFG.T_HOT) : exec (.tHot d temp) s = .next s := by
  refine congrArg Host.Outcome.next (if_neg ?_)
  rintro ⟨hup, hhot⟩
  exact h.elim (fun hdown => Bool.false_ne_true (hdown.symm.trans hup)) hhot.not_gt

theorem exec_tHot_reached (hup : s.inService = true) (hhot : s.fld 0 0 Reg.PWR_TCFG.T_HOT ≤ temp)
    (ht : t = s.raise 0 0 Reg.PWR_STAT.HOT_EVT) (hu : u = ({ t with pow := { t.pow with up := none } } : State).setClock 4) :
    exec (.tHot d temp) s =
      .next ((u.setFld 0 0 Reg.PWR_STAT.DUTY 4).logErr { ErrRec.of 4 0x10 with unit := 0x5000 + d }) := by
  subst hu ht
  exact congrArg Host.Outcome.next (if_pos ⟨hup, hhot⟩)

theorem exec_tTrip_below (h : s.inService = false ∨ temp < s.fld 0 0 Reg.PWR_TCFG.T_TRIP) :
    exec (.tTrip d temp) s = .next s := by
  refine congrArg Host.Outcome.next (if_neg ?_)
  rintro ⟨hup, htrip⟩
  exact h.elim (fun hdown => Bool.false_ne_true (hdown.symm.trans hup)) htrip.not_gt

theorem exec_tTrip_reached (hup : s.inService = true) (htrip : s.fld 0 0 Reg.PWR_TCFG.T_TRIP ≤ temp)
    (ht : t = s.logErr { ErrRec.of 3 0x10 with unit := 0x5000 + d })
    (hu : u = ((List.range 32).filter fun q => t.vdOf q != 0).foldl
      (fun w q => w.raiseAlarm 1 3 (w.vdOf q) none 8) (t.setFault 0xA))
    (hv : v = ({ u with pow := { u.pow with off := true } } : State).decideReset 8 0 false true 1) :
    exec (.tTrip d temp) s = .next (v.dueDump (t.log.recs.getLast?.map fun r => (r.cls, r.seq))) := by
  subst hv hu ht
  exact congrArg Host.Outcome.next (if_pos ⟨hup, htrip⟩)

end Heat

/-! ## Droop (R456) -/

section Droop

variable {c : Nat}

theorem exec_droopDetect_known (h : c ∈ s.pow.droop) : exec (.droopDetect c) s = .next s :=
  congrArg Host.Outcome.next (if_pos (by simpa using h))

/-- A cluster that begins to stretch abandons the slice that runs on it (R465). -/
theorem exec_droopDetect_new (h : c ∉ s.pow.droop)
    (ht : t = if s.pow.drooped = [] then s.raise 0 0 Reg.PWR_STAT.DROOP_EVT else s)
    (hu : u = (t.satAdd 0 (c / 16) Reg.PWR_DROOP.COUNT 1).logCE 0x10 0 (0x5000 + c / 16) none)
    (hv : v = { u with pow := { u.pow with
      droop := u.pow.droop ++ [c]
      drooped := if c / 16 ∈ u.pow.drooped then u.pow.drooped else u.pow.drooped ++ [c / 16] } }) :
    exec (.droopDetect c) s =
      .next (if v.fld 0 (c / 16) Reg.DCTL_ROT_STAT.CLUSTER = c % 16 then v.abandonSlice (c / 16) else v) := by
  simp only [← List.isEmpty_iff] at ht
  simp only [← List.contains_iff_mem] at hv
  refine congrArg Host.Outcome.next ?_
  rw [if_neg (by simpa using h), ← ht]
  dsimp only
  rw [← hu, ← hv]

end Droop

/-! ## Phase hints (R455, R460) -/

section Hints

variable {lead level : Nat}

theorem State.hint_outside_run (h : s.fld 0 0 Reg.PWR_STAT.STATE ≠ 3) (light : Bool) : s.hint light lead level = s :=
  if_pos (Or.inl h)

theorem exec_heavy_ignored (h : lead = 0 ∨ s.fld 0 0 Reg.PWR_STAT.STATE ≠ 3) : exec (.heavy lead level) s = .next s := by
  refine congrArg Host.Outcome.next ?_
  split
  · rfl
  · next hlead => exact State.hint_outside_run (h.resolve_left hlead) false

theorem exec_light_ignored (h : lead = 0 ∨ s.fld 0 0 Reg.PWR_STAT.STATE ≠ 3) : exec (.light lead) s = .next s := by
  refine congrArg Host.Outcome.next ?_
  split
  · rfl
  · next hlead => exact State.hint_outside_run (h.resolve_left hlead) true

variable (hlead : lead ≠ 0) (hrun : s.fld 0 0 Reg.PWR_STAT.STATE = 3)
include hlead hrun

theorem exec_heavy_pending (h : ∀ x ∈ s.hints, x.light = true → x.edge ≠ s.tick + lead) :
    exec (.heavy lead level) s =
      .next { s with hints := s.hints ++ [{ light := false, edge := s.tick + lead, level := level }] } := by
  refine congrArg Host.Outcome.next ?_
  rw [if_neg hlead, State.hint]
  exact if_neg (by simpa [hrun] using h)

theorem exec_heavy_cancelled (h : ∃ x ∈ s.hints, x.light = true ∧ x.edge = s.tick + lead) :
    exec (.heavy lead level) s = .next s := by
  refine congrArg Host.Outcome.next ?_
  rw [if_neg hlead, State.hint]
  exact if_pos (by simpa [hrun] using h)

theorem exec_light_pending : exec (.light lead) s = .next { s with
    hints := (s.hints.filter fun h => h.light || decide (h.edge < s.tick + lead)) ++
      [{ light := true, edge := s.tick + lead, level := 0 }] } := by
  refine congrArg Host.Outcome.next ?_
  rw [if_neg hlead, State.hint]
  exact if_neg (by simp [hrun])

end Hints

/-! ## The regulators' report (R458) -/

theorem exec_regulatorReport_unestimated {mj : Nat} (h : s.pow.est = 0) : exec (.regulatorReport mj) s = .next s :=
  congrArg Host.Outcome.next (if_pos h)

theorem exec_regulatorReport_scales {mj : Nat} (h : s.pow.est ≠ 0) : exec (.regulatorReport mj) s =
    .next { s with pow := { s.pow with scaleN := mj, scaleD := s.pow.est, est := 0 } } :=
  congrArg Host.Outcome.next (if_neg h)

/-! ## The rotation test (R463 to R465) -/

section Rotation

variable {d : Nat}

/-- A package has two dies. -/
theorem exec_rotation_elsewhere (h : 2 ≤ d) : exec (.rotationStep d) s = .next s ∧ exec (.sliceAbandon d) s = .next s ∧
    ∀ ok, exec (.rotationSliceEnd d ok) s = .next s :=
  ⟨congrArg Host.Outcome.next (if_neg h.not_gt), congrArg Host.Outcome.next (if_neg h.not_gt),
    fun _ => congrArg Host.Outcome.next (if_pos (Or.inr h))⟩

theorem State.abandonSlice_idle (h : s.fld 0 d Reg.DCTL_ROT_STAT.STATE ≠ 2) : s.abandonSlice d = s := if_neg h

/-- A step whose MOVE_CORE is over runs its slice where its core is UNDER_TEST, and ends otherwise. -/
theorem State.moveOver_done (h : ∀ x ∈ s.changes, x.rotate ≠ some d) : s.moveOver d =
    s.setFld 0 d Reg.DCTL_ROT_STAT.STATE (if s.fld 0 (s.rotCore d) Reg.IDC_PCORE_STAT.STATE = 3 then 2 else 0) := by
  rw [State.moveOver, if_neg (by simpa using h)]
  split <;> rfl

theorem State.moveOver_waits (h : ∃ x ∈ s.changes, x.rotate = some d) : s.moveOver d = s :=
  if_pos (by simpa using h)

theorem exec_rotationSliceEnd_idle (h : s.fld 0 d Reg.DCTL_ROT_STAT.STATE ≠ 2) (ok : Bool) :
    exec (.rotationSliceEnd d ok) s = .next s :=
  congrArg Host.Outcome.next (if_pos (Or.inl h))

variable (hd : d < 2)
include hd

theorem exec_sliceAbandon_die : exec (.sliceAbandon d) s = .next (s.abandonSlice d) :=
  congrArg Host.Outcome.next (if_pos hd)

theorem exec_rotationStep_die : exec (.rotationStep d) s = .next (s.rotStep d) :=
  congrArg Host.Outcome.next (if_pos hd)

section SliceEnds

variable (h : s.fld 0 d Reg.DCTL_ROT_STAT.STATE = 2)
include h

theorem exec_rotationSliceEnd_outside (hclk : 2 < s.fld 0 0 Reg.PWR_STAT.CLK) (ok : Bool) :
    exec (.rotationSliceEnd d ok) s = .next (s.abandonSlice d) := by
  refine congrArg Host.Outcome.next ?_
  rw [if_neg (by omega), if_pos hclk]

theorem exec_rotationSliceEnd_inside (hclk : s.fld 0 0 Reg.PWR_STAT.CLK ≤ 2) (ok : Bool) :
    exec (.rotationSliceEnd d ok) s = .next ((if ok then
      ((s.setFld 0 (s.rotCore d) Reg.IDC_PCORE_STAT.STATE 2).setFld 0 (s.rotCore d) Reg.IDC_PCORE_STAT.LAST_TEST s.now).satAdd
        0 d Reg.DCTL_ROT_STAT.PASSES 1
      else s.sliceFailed d).setFld 0 d Reg.DCTL_ROT_STAT.STATE 0) := by
  refine congrArg Host.Outcome.next ?_
  rw [if_neg (by omega), if_neg hclk.not_gt]

end SliceEnds

theorem exec_rotationStep_tries (hst : s.fld 0 d Reg.DCTL_ROT_STAT.STATE = 0 ∨ s.fld 0 d Reg.DCTL_ROT_STAT.STATE = 3)
    (hleft : s.fld 0 d Reg.DCTL_ROT_STAT.STATE = 0 → (s.rot d).left = 0) (hruns : s.rotRuns d = true) :
    exec (.rotationStep d) s = .next (s.tryStep d) := by
  rw [exec_rotationStep_die hd, State.rotStep]
  dsimp only
  rw [if_neg (by omega), if_pos ⟨hst.imp_left fun h => ⟨h, hleft h⟩, hruns⟩]

section Moving

variable (hst : s.fld 0 d Reg.DCTL_ROT_STAT.STATE = 1)
include hst

theorem exec_rotationStep_moving (hmoves : ∃ x ∈ s.changes, x.rotate = some d) : exec (.rotationStep d) s = .next s := by
  rw [exec_rotationStep_die hd, State.rotStep, State.moveOver_waits hmoves]
  dsimp only
  rw [if_pos hst, State.abandonSlice_idle (by omega), ite_self]

variable (hdone : ∀ x ∈ s.changes, x.rotate ≠ some d)
  (ht : t = s.setFld 0 d Reg.DCTL_ROT_STAT.STATE (if s.fld 0 (s.rotCore d) Reg.IDC_PCORE_STAT.STATE = 3 then 2 else 0))
include hdone ht

theorem exec_rotationStep_moved : exec (.rotationStep d) s =
    .next (if 2 < t.fld 0 0 Reg.PWR_STAT.CLK ∨ 16 * d + t.fld 0 d Reg.DCTL_ROT_STAT.CLUSTER ∈ t.pow.droop
      then t.abandonSlice d else t) := by
  rw [exec_rotationStep_die hd, State.rotStep, State.moveOver_done hdone, ← ht]
  dsimp only
  rw [if_pos hst]
  simp only [List.contains_iff_mem]

end Moving

end Rotation

end Power

/-! ## The statement -/

/-- Settles O50: each clause is the equation of its case. -/
theorem powerAndRotation : Obligations.PowerAndRotation := by
  unfold Obligations.PowerAndRotation
  refine ⟨fun s rest hrest => ⟨fun hoff => ?unreleased, fun hup => ?released⟩, fun s i => rfl,
    fun s t u v d temp => ⟨exec_tHot_below, exec_tHot_reached, exec_tTrip_below, exec_tTrip_reached⟩,
    fun s t u c => ⟨exec_droopDetect_known, fun h ht hu => exec_droopDetect_new h ht hu rfl, rfl⟩,
    fun s lead level => ⟨fun h => ⟨exec_heavy_ignored h, exec_light_ignored h⟩, fun hlead hrun =>
      ⟨exec_heavy_pending hlead hrun, exec_heavy_cancelled hlead hrun, exec_light_pending hlead hrun⟩⟩,
    fun s mj => ⟨exec_regulatorReport_unestimated, exec_regulatorReport_scales⟩,
    fun s d => ⟨exec_rotation_elsewhere, fun hd => ⟨fun h t ht => ?abandoned, fun h => ?idle, fun h hclk => ?ended,
      exec_rotationStep_tries hd, fun hst hmoves _ => exec_rotationStep_moving hd hst hmoves,
      fun hst hdone t ht => ?moved⟩⟩⟩
  case unreleased =>
    refine ⟨?_, ?_, congrArg Host.Outcome.next (if_neg (by simp [hoff]))⟩
    · exact congrArg Host.Outcome.next (State.askPower_unreleased hoff 3)
    · exact congrArg Host.Outcome.next (State.askPower_unreleased hoff 4)
  case released =>
    refine ⟨?_, ?_, congrArg Host.Outcome.next (if_pos hup)⟩
    · exact congrArg Host.Outcome.next (State.askPower_released hup 3 hrest)
    · exact congrArg Host.Outcome.next (State.askPower_released hup 4 hrest)
  case abandoned =>
    have habandon : s.abandonSlice d = t := (if_pos h).trans ht.symm
    rw [← habandon]
    exact ⟨exec_sliceAbandon_die hd, exec_rotationSliceEnd_outside hd h⟩
  case idle =>
    refine ⟨?_, exec_rotationSliceEnd_idle h⟩
    rw [exec_sliceAbandon_die hd, State.abandonSlice_idle h]
  case ended =>
    rw [exec_rotationSliceEnd_inside hd h hclk, exec_rotationSliceEnd_inside hd h hclk, if_pos rfl,
      if_neg Bool.false_ne_true, State.sliceFailed]
    exact ⟨rfl, rfl⟩
  case moved =>
    rw [exec_rotationStep_moved hd hst hdone ht]
    refine ⟨fun hclk hdroop => by rw [if_neg (by simp [hclk, hdroop])], fun hout => by rw [if_pos hout]⟩

end Sys2Proof.Machine
end

section
/-! SUPPORT. The steps of power-up, their failures and the lock timeout (R474 to R482): one equation per case; and the statement
that they settle. -/

namespace Sys2Proof.Machine

open Sys2Proof

section Boot

variable {s t u v : State} {step ms unit : Nat} {r : BootResult}

/-! ## Steps that end (R474, R482) -/

theorem exec_bootStepComplete_early (h : s.stepRuns step = false ∨ (step = 12 ∧ s.lockReached = false)) :
    exec (.bootStepComplete step ms r) s = .next s :=
  congrArg Host.Outcome.next (if_pos h)

/-- An image that is absent and may not be has failed (R476). -/
theorem exec_bootStepComplete_absent (hruns : s.stepRuns 3 = true) (habsent : r.absent &&& ~~~BitVec.ofNat 8 s.absentOk ≠ 0) :
    exec (.bootStepComplete 3 ms r) s = .next (s.imagesFailed (r.absent &&& ~~~BitVec.ofNat 8 s.absentOk)) := by
  refine congrArg Host.Outcome.next ?_
  rw [if_neg (by simp [hruns]), if_pos ⟨rfl, habsent⟩]

theorem exec_bootStepComplete_ends (hruns : s.stepRuns step = true) (hlock : step = 12 → s.lockReached = true)
    (himages : step = 3 → r.absent &&& ~~~BitVec.ofNat 8 s.absentOk = 0)
    (ht : t = (stepMarks step r).foldl (fun w k => (w.recordFail step k).markUnit k) s)
    (hu : u = (({ t with boot := { t.boot with done := t.boot.done ++ [step] } } : State).setFld 0 0
      Reg.DCTL_BOOT_STAT.LAST_STEP step).bootEffect step r) :
    exec (.bootStepComplete step ms r) s = .next (if step = 13 then u.reachRelease ms else u) := by
  have hends : ¬(s.stepRuns step = false ∨ (step = 12 ∧ s.lockReached = false)) := by
    rintro (hno | ⟨h12, hno⟩)
    · exact Bool.false_ne_true (hno.symm.trans hruns)
    · exact Bool.false_ne_true (hno.symm.trans (hlock h12))
  subst hu ht
  refine congrArg Host.Outcome.next ?_
  rw [if_neg hends, if_neg fun h => h.2 (himages h.1)]
  rfl

theorem State.setFld_boot (s : State) (fn i : Nat) (f : Fld) (v : Nat) : (s.setFld fn i f v).boot = s.boot := (rfl)

theorem State.reachRelease_eq (hv : v = ({ u.setFld 0 0 Reg.DCTL_BOOT_STAT.T_RELEASE (min ms 0xFFFF) with
      boot := { u.boot with ready := true } } : State)) :
    u.reachRelease ms = if u.boot.linked then v.release else v := by
  subst hv
  rw [State.reachRelease]
  simp only [State.setFld_boot]

/-! ## Steps that fail (R476, R480) -/

theorem exec_bootStepFail_early {f : BootFail} (h : s.stepRuns step = false) : exec (.bootStepFail step f) s = .next s :=
  congrArg Host.Outcome.next (if_pos h)

theorem exec_bootStepFail_rail (h : s.stepRuns 1 = true) :
    exec (.bootStepFail 1 .rail) s = .next (s.setFault 1).railsDown :=
  congrArg Host.Outcome.next (if_neg (by simp [h]))

theorem exec_bootStepFail_rom (h : s.stepRuns 2 = true) :
    exec (.bootStepFail 2 .rom) s = .next (((s.recordFail 2 0).setFault 2).bootStop 1) :=
  congrArg Host.Outcome.next (if_neg (by simp [h]))

section Images

/-- Images 0 to 2 are the low three bits. -/
theorem firstImages_eq_zero {bad : BitVec 8} : bad.extractLsb' 0 3 = 0 ↔ bad.toNat % 8 = 0 := by
  rw [← BitVec.toNat_inj, BitVec.extractLsb'_toNat, Nat.shiftRight_zero]
  rfl

variable {bad : BitVec 8} (h : s.stepRuns 3 = true)
include h

theorem exec_bootStepFail_images (hbad : bad ≠ 0) : exec (.bootStepFail 3 (.images bad)) s = .next (s.imagesFailed bad) := by
  refine congrArg Host.Outcome.next ?_
  rw [if_neg (by simp [h])]
  exact if_neg (by simpa using hbad)

/-- Power-up stops wholly without one of images 0 to 2. -/
theorem exec_bootStepFail_firstImages (hfirst : bad.extractLsb' 0 3 ≠ 0) :
    exec (.bootStepFail 3 (.images bad)) s = .next (((s.recordFail 3 0).setFault 3).bootStop 1) := by
  have hbad : bad ≠ 0 := fun hzero => hfirst (hzero ▸ rfl)
  rw [exec_bootStepFail_images h hbad, State.imagesFailed, if_pos (firstImages_eq_zero.not.mp hfirst)]

/-- Without another image the management controller serves alone. -/
theorem exec_bootStepFail_laterImages (hbad : bad ≠ 0) (hfirst : bad.extractLsb' 0 3 = 0)
    (ht : t = ((s.recordFail 3 0).bootDone 3).bootDone 4) : exec (.bootStepFail 3 (.images bad)) s =
      .next ((t.kmc.config.foldl (fun w e => w.bootConfig e.1 e.2) t).bootStop 2) := by
  subst ht
  rw [exec_bootStepFail_images h hbad, State.imagesFailed, if_neg (not_not_intro (firstImages_eq_zero.mp hfirst))]

end Images

theorem exec_bootStepFail_kmcLink (h : s.stepRuns 4 = true) (ht : t = (s.recordFail 4 0).bootDone 4)
    (hu : u = (t.kmc.config.foldl (fun w e => w.bootConfig e.1 e.2) t).enableOptics) :
    exec (.bootStepFail 4 .kmcLink) s =
      .next (if u.fld 0 0 Reg.DCTL_LIFE.STATE = 0 then { u with boot := { u.boot with stop := 2 } } else u) := by
  subst hu ht
  exact congrArg Host.Outcome.next (if_neg (by simp [h]))

theorem exec_bootStepFail_keys (h : s.stepRuns 5 = true) :
    exec (.bootStepFail 5 .keys) s = .next (((s.recordFail 5 0).setFault 5).bootStop 3) :=
  congrArg Host.Outcome.next (if_neg (by simp [h]))

theorem exec_bootStepFail_unit (hstep : step = 6 ∨ step = 7) (h : s.stepRuns step = true) :
    exec (.bootStepFail step (.unit unit)) s = .next (((s.recordFail step unit).setFault 6).bootStop 3) := by
  refine congrArg Host.Outcome.next ?_
  rw [if_neg (by simp [h])]
  exact if_pos hstep

/-! ## The lock timeout (R477) -/

theorem exec_bootLockTimeout_waiting (hruns : s.stepRuns 12 = true) (hover : ∀ k ∈ [9, 10, 11], s.stepOver k = true)
    (hlock : s.lockReached = false)
    (ht : t = ((((s.recordFail 12 0).bootDone 12).setFld 0 0 Reg.DCTL_BOOT_STAT.BOOT_LOCK_TO 1).setFld 0 0
      Reg.DCTL_BEAT_STAT.LOCK 2).setFld 0 0 Reg.DCTL_BEAT_NUM.BEAT_NUM 0) :
    exec .bootLockTimeout s = .next ((({ t with beat := { t.beat with held := 0, limitSent := false } } : State).raise 0 0
      Reg.DCTL_BEAT_STAT.BEAT_HOLDOVER).intc 0 11) := by
  have hall : [9, 10, 11].all s.stepOver = true := List.all_eq_true.mpr hover
  subst ht
  exact congrArg Host.Outcome.next (if_pos (by rw [hruns, hall, hlock]; rfl))

theorem exec_bootLockTimeout_idle
    (h : s.stepRuns 12 = false ∨ (∃ k ∈ [9, 10, 11], s.stepOver k = false) ∨ s.lockReached = true) :
    exec .bootLockTimeout s = .next s := by
  refine congrArg Host.Outcome.next (if_neg ?_)
  rw [Bool.and_eq_true, Bool.and_eq_true, List.all_eq_true, Bool.not_eq_true']
  rintro ⟨⟨hruns, hover⟩, hlock⟩
  rcases h with hno | ⟨k, hk, hno⟩ | hyes
  · exact Bool.false_ne_true (hno.symm.trans hruns)
  · exact Bool.false_ne_true (hno.symm.trans (hover k hk))
  · exact Bool.false_ne_true (hlock.symm.trans hyes)

end Boot

/-! ## The statement -/

/-- Settles O51: each clause is the equation of its case. -/
theorem powerUp : Obligations.PowerUp := by
  unfold Obligations.PowerUp
  refine ⟨fun s t u step ms r => ⟨exec_bootStepComplete_early, exec_bootStepComplete_absent,
      fun hruns hlock himages ht hu => ?ends⟩, fun s step f => exec_bootStepFail_early, fun s => exec_bootStepFail_rail,
    fun s => exec_bootStepFail_rom, fun s t bad h => ⟨exec_bootStepFail_firstImages h, exec_bootStepFail_laterImages h⟩,
    fun s t u => exec_bootStepFail_kmcLink, fun s => exec_bootStepFail_keys, fun s step unit => exec_bootStepFail_unit,
    fun s t => ⟨exec_bootLockTimeout_waiting, exec_bootLockTimeout_idle⟩⟩
  case ends =>
    rw [exec_bootStepComplete_ends hruns hlock himages ht hu]
    refine ⟨fun hother => by rw [if_neg hother], fun hlast v hv => ?_⟩
    rw [if_pos hlast, State.reachRelease_eq hv]

end Sys2Proof.Machine
end

section
/-! SUPPORT. PMBus queries and SPDM requests (R486, R501): when each is answered, and with what; and the statement that they
settle. -/

namespace Sys2Proof.Machine

open Sys2Proof

section Queries

variable {s : State} {code : Nat}

/-! ## PMBus (R497, R501) -/

theorem State.pmAnswer_running {v : Nat} (hen : s.mod.pwrEn = true) (hin : 440 ≤ s.mod.vin ∨ s.mod.rails = true) :
    s.pmAnswer code v = s.send (.pin code v) :=
  if_pos ⟨hen, hin⟩

theorem State.pmAnswer_stopped {v : Nat} (h : s.mod.pwrEn = false ∨ (s.mod.vin < 440 ∧ s.mod.rails = false)) :
    s.pmAnswer code v = s := by
  refine if_neg ?_
  rintro ⟨hen, hin⟩
  rcases h with hno | ⟨hlow, hdown⟩
  · exact Bool.false_ne_true (hno.symm.trans hen)
  · exact hin.elim hlow.not_ge fun hup => Bool.false_ne_true (hdown.symm.trans hup)

/-! ## SPDM (R486) -/

theorem State.spdm_unserved (h : s.kmcUp = false ∨ s.boot.stop = 2) (body : Option (List Byte)) : s.spdm code body = s := by
  refine if_neg ?_
  simpa only [Bool.and_eq_true, decide_eq_true_eq, not_and_or, Bool.not_eq_true, not_ne_iff] using h

variable (hup : s.kmcUp = true) (hstop : s.boot.stop ≠ 2)
include hup hstop

theorem State.spdm_response (b : List Byte) : s.spdm code (some b) = s.send (.kmc 0x10000 code 0 0 false b) :=
  if_pos (by simp [hup, hstop])

theorem State.spdm_error : s.spdm code none = s.send (.kmc 0x10000 0x7F 0 0 false []) :=
  if_pos (by simp [hup, hstop])

variable {i slot : Nat}

theorem exec_getMeasurements_image (h1 : 1 ≤ i) (h8 : i ≤ 8) :
    exec (.getMeasurements i) s = .next (s.send (.kmc 0x10000 0x60 0 0 false (s.imageDigest (i - 1)))) := by
  refine congrArg Host.Outcome.next ?_
  rw [if_neg (by omega), if_neg (by omega), State.measurement, if_pos ⟨h1, h8⟩, State.spdm_response hup hstop]

theorem exec_getMeasurements_unknown (h9 : 9 < i) (hall : i ≠ 0xFF) :
    exec (.getMeasurements i) s = .next (s.send (.kmc 0x10000 0x7F 0 0 false [])) := by
  refine congrArg Host.Outcome.next ?_
  rw [if_neg (by omega), if_neg hall, State.measurement, if_neg (by omega), if_neg (by omega), State.spdm_error hup hstop]

/-- Slot 0 alone holds certificates. -/
theorem exec_otherSlot (h : slot ≠ 0) (off len : Nat) (nonce : BitVec 256) :
    exec (.getCertificate slot off len) s = .next (s.send (.kmc 0x10000 0x7F 0 0 false [])) ∧
      exec (.challenge slot nonce) s = .next (s.send (.kmc 0x10000 0x7F 0 0 false [])) := by
  refine ⟨congrArg Host.Outcome.next ?_, congrArg Host.Outcome.next ?_⟩ <;> rw [if_neg h, State.spdm_error hup hstop]

end Queries

/-! ## The statement -/

/-- Settles O53: each query is the module's answer under its code, and each request the SPDM response of its code. -/
theorem moduleQueries : Obligations.ModuleQueries := by
  unfold Obligations.ModuleQueries
  refine ⟨fun s p hp => ?pmbus, fun s a b off len slot i nonce m hm => ⟨fun hno c hc => ?unserved, fun hup hstop =>
    ⟨fun p hp => ?served, exec_getMeasurements_image hup hstop, fun hslot => exec_otherSlot hup hstop hslot off len nonce,
      exec_getMeasurements_unknown hup hstop⟩⟩⟩
  case pmbus =>
    have hquery : exec p.2.2 s = .next (s.pmAnswer p.1 p.2.1) := by
      simp only [List.mem_cons, List.not_mem_nil, or_false] at hp
      rcases hp with rfl | rfl | rfl | rfl | rfl | rfl <;> rfl
    rw [hquery]
    exact ⟨fun hen hin => by rw [State.pmAnswer_running hen hin], fun hno => by rw [State.pmAnswer_stopped hno]⟩
  case unserved =>
    have hrequest : ∃ code body, exec c s = .next (s.spdm code body) := by
      simp only [List.mem_cons, List.not_mem_nil, or_false] at hc
      rcases hc with rfl | rfl | rfl | rfl | rfl | rfl | rfl <;> exact ⟨_, _, rfl⟩
    obtain ⟨code, body, hexec⟩ := hrequest
    rw [hexec, State.spdm_unserved hno]
  case served =>
    have hrequest : exec p.2.2 s = .next (s.spdm p.1 (some p.2.1)) := by
      subst hm
      simp only [List.mem_cons, List.not_mem_nil, or_false] at hp
      rcases hp with rfl | rfl | rfl | rfl | rfl | rfl | rfl | rfl | rfl <;> rfl
    rw [hrequest, State.spdm_response hup hstop]

end Sys2Proof.Machine
end

section
/-! SUPPORT. A change of composition from its request to the end of its drain (R302 to R315): one equation per case; and the
statement that they settle. -/

namespace Sys2Proof.Machine

open Sys2Proof

section Changes

variable {s t t1 u : State} {sess req h q k e : Nat} {b : BitVec 896} {x : Change} {ext : List Byte}

/-! ## The request (R302, R490) -/

section Compose

variable {op : Nat} (hasked : asked s sess 0x10)
include hasked

theorem State.compose_busy (hbusy : s.sec.busy = true) :
    s.compose op sess req b = s.enterReq sess 0x10 req (some (0x22, [])) :=
  State.kmcRequest_asked hasked (if_pos hbusy)

variable (hfree : s.sec.busy = false)
include hfree

theorem State.compose_malformed (hbad : composeOk op b = false) :
    s.compose op sess req b = s.enterReq sess 0x10 req (some (0x20, [])) := by
  refine State.kmcRequest_asked hasked ?_
  rw [if_neg (by simp [hfree]), if_neg (by simp [hbad])]

theorem State.compose_accepted (hok : composeOk op b = true) (haccept : s.acceptChange (some sess) (composeOf b) none = (h, t)) :
    s.compose op sess req b = t.enterReq sess 0x10 req (some (0, leBytes 4 h)) := by
  refine State.kmcRequest_asked hasked ?_
  rw [if_neg (by simp [hfree]), if_pos hok, haccept]

end Compose

/-! ## Acceptance (R303, R304) -/

section Accept

variable {from' : Option Nat} {c : Compose} {rot : Option Nat} (hhandle : s.takeHandle = (h, t))
  (hx : x = t.newChange h from' c (c.op == 3 && t.fld 0 (t.pcore c.core) Reg.IDC_PCORE_STAT.STATE == 4) rot)
include hhandle hx

/-- A full queue answers before a refusal does (log 106). -/
theorem State.acceptChange_full (hfull : 64 ≤ t.queuedChanges.length) :
    s.acceptChange from' c rot = (h, t.compDone x 0x11) := by
  rw [State.acceptChange, hhandle]
  dsimp only
  rw [if_pos hfull, ← hx]

variable (hroom : t.queuedChanges.length < 64)
include hroom

theorem State.acceptChange_refused {st : Nat} (hst : t.compRefused x false = some st) :
    s.acceptChange from' c rot = (h, t.compDone x st) := by
  rw [State.acceptChange, hhandle]
  dsimp only
  rw [if_neg hroom.not_ge, ← hx, hst]

theorem State.acceptChange_queued (ht1 : t1 = { t with changes := t.changes ++ [x] }) (hok : t.compRefused x false = none) :
    s.acceptChange from' c rot = (h, if c.op = 3 then t1.setFld 0 c.core Reg.IDC_CORE_MAP.STATE 3 else t1) := by
  rw [State.acceptChange, hhandle]
  dsimp only
  rw [if_neg hroom.not_ge, ← hx, hok, ht1]

end Accept

/-! ## The turn of a change (R305, R307) -/

/-- A change does not open in the beat that accepted it. -/
theorem exec_epochOpen_fresh (hfresh : ∃ x ∈ s.changes, x.handle = h ∧ x.accepted = s.tick) :
    exec (.epochOpen h ext) s = .next s :=
  congrArg Host.Outcome.next (if_pos (by simpa using hfresh))

section Turn

variable (hx : s.queuedChanges.find? (·.handle == h) = some x) (hold : ∀ y ∈ s.changes, y.handle = h → y.accepted ≠ s.tick)
include hx hold

theorem exec_epochOpen_queued :
    exec (.epochOpen h ext) s = .next (if s.compTurn x then (s.openChange x ext).2 else s) := by
  refine congrArg Host.Outcome.next ?_
  rw [if_neg (by simpa using hold), State.considerChange, hx]
  dsimp only
  split <;> rfl

end Turn

/-! ## A change opens (R302, R306, R307, R314 to R316) -/

/-- The partition that any operation but MOVE_CORE concerns. -/
theorem State.changePart_named (hop : x.c.op ≠ 3) (s : State) : s.changePart x = some x.c.part := if_neg hop

theorem State.changePart_moved (hop : x.c.op = 3) (s : State) : s.changePart x = s.owner x.c.core := if_pos hop

/-- An UNBIND alone shutters. -/
theorem Change.toShut_of_op (hop : x.c.op ≠ 2) : x.toShut = false := by
  simp [Change.toShut, hop]

/-- A change that shutters nothing opens as it was queued. -/
theorem Change.opens_unchanged (x : Change) : { x with shut := x.shut || false } = x := by
  rw [Bool.or_false]

theorem State.openChange_refused {st : Nat} (hst : s.compRefused x true = some st) :
    s.openChange x ext = (ext, s.compDone x st) := by
  rw [State.openChange, hst]

section Opens

variable (hok : s.compRefused x true = none)
include hok

theorem State.openChange_waits (hwaits : s.compWaits x = true) : s.openChange x ext = (ext, s) := by
  rw [State.openChange, hok]
  exact if_pos hwaits

variable (hready : s.compWaits x = false)
include hready

section Named

/-! Any operation but MOVE_CORE opens an epoch of the partition that it names. -/

variable (hq : x.c.part = q)
include hq

theorem State.openChange_bind (hop : x.c.op = 1) (ht : t = s.openEpoch q) :
    (s.openChange x ext).2 = ((t.bindAll x.c).compDone (t.opened x 1) 0).drainIfDone q := by
  have hpart (s : State) : s.changePart x = some q := hq ▸ State.changePart_named (by omega) s
  have hshut : x.toShut = false := Change.toShut_of_op (by omega)
  subst ht
  rw [State.openChange, hok]
  dsimp only
  rw [if_neg (by simp [hready]), if_neg (by omega)]
  simp only [hshut, Bool.false_eq_true, if_false, hop, if_true, Change.opens_unchanged, hpart]

/-- An UNBIND whose shuttering is done, or that shutters nothing. -/
theorem State.openChange_unbind (hop : x.c.op = 2) (hdone : x.c.force = false ∧ x.c.dissolve = false ∨ x.shut = true) :
    (s.openChange x ext).2 = ((s.openEpoch q).openUnbind x).drainIfDone q := by
  have hpart (s : State) : s.changePart x = some q := hq ▸ State.changePart_named (by omega) s
  have hshut : x.toShut = false := by
    rcases hdone with ⟨hforce, hdissolve⟩ | hdone
    · simp [Change.toShut, hforce, hdissolve]
    · simp [Change.toShut, hdone]
  rw [State.openChange, hok]
  dsimp only
  rw [if_neg (by simp [hready]), if_neg (by omega)]
  simp only [hshut, Bool.false_eq_true, if_false, hop, if_true, Nat.reduceEqDiff, Change.opens_unchanged, hpart]

/-- An UNBIND that shutters what it releases does so before it opens. -/
theorem State.openChange_shutters (hop : x.c.op = 2) (hforce : x.c.force = true ∨ x.c.dissolve = true) (hnew : x.shut = false)
    (ht : t = s.shutterUnbind x) :
    (s.openChange x ext).2 = ((t.openEpoch q).openUnbind { x with shut := true }).drainIfDone q := by
  have hpart (s : State) : s.changePart { x with shut := true } = some q :=
    (State.changePart_named (x := { x with shut := true }) (by simp [hop]) s).trans (congrArg some hq)
  have hshut : x.toShut = true := by simpa [Change.toShut, hop, hnew] using hforce
  subst ht
  rw [State.openChange, hok]
  dsimp only
  rw [if_neg (by simp [hready]), if_neg (by omega)]
  simp only [hshut, if_true, hop, Nat.reduceEqDiff, if_false, Bool.or_true, hpart]

section Retune

variable (hop : x.c.op = 4)
include hop

/-- What a RETUNE_QOS does turns on the image that it reads. -/
theorem State.openChange_qosUnread (hread : s.readVa [2, x.handle] (vf q) x.c.qosVa 128 .rd ext = .fail e t) :
    (s.openChange x ext).2 = (t.qosUnread x e).compDone x 0x11 := by
  have hshut : x.toShut = false := Change.toShut_of_op (by omega)
  subst hq
  rw [State.openChange, hok]
  dsimp only
  rw [if_neg (by simp [hready]), if_pos hop]
  simp only [hshut, Bool.false_eq_true, if_false, Change.opens_unchanged, hread]

section Read

variable {d rest : List Byte} (hread : s.readVa [2, x.handle] (vf q) x.c.qosVa 128 .rd ext = .ok d rest t)
include hread

theorem State.openChange_qosBad (hbad : qosOk d = false) : (s.openChange x ext).2 = t.compDone x 0x11 := by
  have hshut : x.toShut = false := Change.toShut_of_op (by omega)
  subst hq
  rw [State.openChange, hok]
  dsimp only
  rw [if_neg (by simp [hready]), if_pos hop, if_neg (by simp [hshut]), hread]
  dsimp only
  rw [if_neg (by simp [hbad]), hshut, Change.opens_unchanged]

theorem State.openChange_qosGood (hgood : qosOk d = true) (hu : u = t.openEpoch q) :
    (s.openChange x ext).2 = ((u.setQos (vf q) d).compDone (u.opened x 1) 0).drainIfDone q := by
  have hpart (s : State) : s.changePart x = some q := hq ▸ State.changePart_named (by omega) s
  have hshut : x.toShut = false := Change.toShut_of_op (by omega)
  subst hu hq
  rw [State.openChange, hok]
  dsimp only
  rw [if_neg (by simp [hready]), if_pos hop]
  simp only [hshut, Bool.false_eq_true, if_false, Change.opens_unchanged, hread, hgood, if_true, hpart]

end Read

end Retune

end Named

section Moves

/-! A MOVE_CORE opens an epoch of its core's owner, where it has one. -/

variable (hop : x.c.op = 3)
include hop

theorem State.openChange_unownedMove (howner : s.owner x.c.core = none) (hk : s.moveTarget x = some k)
    (hpart : (s.openMove x k).changePart x = none) : (s.openChange x ext).2 = s.openMove x k := by
  have hstart : s.changePart x = none := (State.changePart_moved hop s).trans howner
  have hshut : x.toShut = false := Change.toShut_of_op (by omega)
  rw [State.openChange, hok]
  dsimp only
  rw [if_neg (by simp [hready]), if_neg (by omega)]
  simp only [hshut, Bool.false_eq_true, if_false, hop, Nat.reduceEqDiff, Change.opens_unchanged, hstart, hk, hpart]

theorem State.openChange_ownedMove (howner : s.owner x.c.core = some q) (ht : t = s.openEpoch q)
    (hk : t.moveTarget x = some k) (hpart : (t.openMove x k).changePart x = some q) :
    (s.openChange x ext).2 = (t.openMove x k).drainIfDone q := by
  have hstart : s.changePart x = some q := (State.changePart_moved hop s).trans howner
  have hshut : x.toShut = false := Change.toShut_of_op (by omega)
  subst ht
  rw [State.openChange, hok]
  dsimp only
  rw [if_neg (by simp [hready]), if_neg (by omega)]
  simp only [hshut, Bool.false_eq_true, if_false, hop, Nat.reduceEqDiff, Change.opens_unchanged, hstart, hk, hpart]

end Moves

end Opens

/-! ## A change that is not ready in time (R304) -/

section Stall

variable (hx : s.queuedChanges.find? (·.handle == h) = some x)
include hx

theorem exec_changeStall_stalls (hbeat : x.c.at_ + s.fld 0 0 Reg.DCTL_COMP_CFG.DRAIN_LIM ≤ s.now)
    (haccepted : x.accepted + s.fld 0 0 Reg.DCTL_COMP_CFG.DRAIN_LIM ≤ s.tick)
    (hheld : s.compTurn x = false ∨ s.compRefused x true = none ∧ s.compWaits x = true) :
    exec (.changeStall h) s = .next (s.compDone x 0x15) := by
  refine congrArg Host.Outcome.next ?_
  rw [State.stallChange, hx]
  exact if_pos ⟨⟨hbeat, haccepted⟩, hheld⟩

theorem exec_changeStall_early (hearly : s.now < x.c.at_ + s.fld 0 0 Reg.DCTL_COMP_CFG.DRAIN_LIM ∨
      s.tick < x.accepted + s.fld 0 0 Reg.DCTL_COMP_CFG.DRAIN_LIM) : exec (.changeStall h) s = .next s := by
  refine congrArg Host.Outcome.next ?_
  rw [State.stallChange, hx]
  refine if_neg ?_
  rintro ⟨⟨hbeat, haccepted⟩, -⟩
  omega

end Stall

/-! ## The end of a drain (R309, R313) -/

section Drain

variable (he : s.drainEpoch q = some e)
include he

theorem exec_drainEnd_done (hnone : s.drainCount q e = 0) : exec (.drainEnd q) s = .next (s.endDrain q) := by
  refine congrArg Host.Outcome.next ?_
  rw [State.drainIfDone, he]
  exact if_pos hnone

theorem exec_drainEnd_waits (hsome : s.drainCount q e ≠ 0) : exec (.drainEnd q) s = .next s := by
  refine congrArg Host.Outcome.next ?_
  rw [State.drainIfDone, he]
  exact if_neg hsome

variable {age : BitVec 40}
  (hage : age = BitVec.ofNat 40 s.now - BitVec.ofNat 40 (s.fld 0 q Reg.DCTL_COMP_PART1.DRAIN_BEAT))
include hage

omit he in
/-- The beats of a drain are counted in the 40 bits of DRAIN_BEAT. -/
theorem State.drainAge_eq : (s.now + 2 ^ 40 - s.fld 0 q Reg.DCTL_COMP_PART1.DRAIN_BEAT) % 2 ^ 40 = age.toNat := by
  have hfld : s.fld 0 q Reg.DCTL_COMP_PART1.DRAIN_BEAT < 2 ^ 40 := Nat.mod_lt _ (by decide)
  rw [hage, BitVec.toNat_sub, BitVec.toNat_ofNat, BitVec.toNat_ofNat, Nat.mod_eq_of_lt hfld]
  omega

theorem exec_drainLimit_early (hearly : age.toNat ≤ s.fld 0 0 Reg.DCTL_COMP_CFG.DRAIN_LIM) :
    exec (.drainLimit q) s = .next s := by
  refine congrArg Host.Outcome.next ?_
  rw [State.limitDrain, he]
  dsimp only
  rw [State.drainAge_eq hage, if_pos hearly]

variable {s1 s2 : State} (hlate : s.fld 0 0 Reg.DCTL_COMP_CFG.DRAIN_LIM < age.toNat)
  (hs1 : s1 = ((s.cores.filter fun n =>
    (s.coreFn n.1).1 == vf q && n.2.cur.moves.any fun m => m.started && m.epoch == e).map (·.1)).foldl State.fenceMoves s)
  (hs2 : s2 = (s1.inbound.filter fun i => i.part == q && i.epoch == e).foldl (fun s i => s.dropInbound i 6) s1)
include hlate hs1 hs2

/-- A drain that outlasts its limit is ended, with its moves and requests FENCED. -/
theorem exec_drainLimit_ends : exec (.drainLimit q) s = .next
    (((s2.logCE 0x0E 0 (unitPart q) (some q)).raise 0 0 Reg.DCTL_COMP_STAT.DRAIN_FORCED).endDrain q) := by
  refine congrArg Host.Outcome.next ?_
  rw [State.limitDrain, he]
  dsimp only
  rw [State.drainAge_eq hage, if_neg hlate.not_ge, ← hs1, ← hs2]

end Drain

/-! ## The copy of a moved core (R314) -/

theorem exec_coreStateCopyDone_copied {n : Nat} (hnone : (s.core n).cur.moves = []) :
    exec (.coreStateCopyDone n) s = .next { s with changes := s.changes.map fun x =>
      if x.c.op = 3 ∧ x.phase = 1 ∧ x.c.core = n then { x with copied := true } else x } :=
  congrArg Host.Outcome.next (if_pos (by rw [hnone]; rfl))

theorem exec_coreStateCopyDone_moves {n : Nat} (hsome : (s.core n).cur.moves ≠ []) :
    exec (.coreStateCopyDone n) s = .next s :=
  congrArg Host.Outcome.next (if_neg (by simpa using hsome))

end Changes

/-! ## The statement -/

/-- Settles O46: each clause is the equation of its case. -/
theorem composition : Obligations.Composition := by
  unfold Obligations.Composition
  refine ⟨fun s sess req b hasked p hp => ?compose, fun s t t1 sess c rot h x hhandle hx ht1 =>
      ⟨State.acceptChange_full hhandle hx, fun hroom => ⟨fun st => State.acceptChange_refused hhandle hx hroom,
        State.acceptChange_queued hhandle hx hroom ht1⟩⟩,
    fun s h ext => exec_epochOpen_fresh, fun s h ext x hx hold => ?turn,
    fun s h x hx => ⟨exec_changeStall_stalls hx, exec_changeStall_early hx⟩,
    fun s q e he => ⟨exec_drainEnd_done he, exec_drainEnd_waits he, fun age s1 s2 hage =>
      ⟨exec_drainLimit_early he hage, exec_drainLimit_ends he hage⟩⟩,
    fun s n => ⟨exec_coreStateCopyDone_copied, exec_coreStateCopyDone_moves⟩⟩
  case compose =>
    have hexec : exec p.2 s = .next (s.compose p.1 sess req b) := by
      simp only [List.mem_cons, List.not_mem_nil, or_false] at hp
      rcases hp with rfl | rfl | rfl | rfl <;> rfl
    rw [hexec]
    exact ⟨fun hbusy => by rw [State.compose_busy hasked hbusy],
      fun hfree hbad => by rw [State.compose_malformed hasked hfree hbad],
      fun h t hfree hok haccept => by rw [State.compose_accepted hasked hfree hok haccept]⟩
  case turn =>
    rw [exec_epochOpen_queued hx hold]
    refine ⟨fun hwaits => by rw [if_neg (by simp [hwaits])], fun hturn => ?_⟩
    rw [if_pos hturn]
    refine ⟨fun st hst => by rw [State.openChange_refused hst], fun hok hwaits => by rw [State.openChange_waits hok hwaits],
      fun hok hready => ⟨fun q t hop hq ht => ?_, fun q hop hq hdone => ?_, fun q t hop hq hforce hnew ht => ?_,
        fun k hop howner hk hpart => ?_, fun q k t hop howner ht hk hpart => ?_,
        fun q hop hq => ⟨fun e t hread => ?_, fun d rest t u hread => ⟨fun hbad => ?_, fun hgood hu => ?_⟩⟩⟩⟩
    · rw [State.openChange_bind hok hready hq hop ht]
    · rw [State.openChange_unbind hok hready hq hop hdone]
    · rw [State.openChange_shutters hok hready hq hop hforce hnew ht]
    · rw [State.openChange_unownedMove hok hready hop howner hk hpart]
    · rw [State.openChange_ownedMove hok hready hop howner ht hk hpart]
    · rw [State.openChange_qosUnread hok hready hq hop hread]
    · rw [State.openChange_qosBad hok hready hq hop hread hbad]
    · rw [State.openChange_qosGood hok hready hq hop hread hgood hu]

end Sys2Proof.Machine
end
